-- ==== Sys2Proof/Word.lean ====
section
/-!
DEFINITION. The plain data types every other file of the model is written over: bytes, words and the width of the Reel.
-/

namespace Sys2Proof

/-- A byte of any of the Farelle's memories, messages and frames. -/
abbrev Byte := BitVec 8
/-- A 32-bit register, a Yukin general register. -/
abbrev Word := BitVec 32
/-- A 64-bit tick count: the Reel (R610). -/
abbrev Tick := BitVec 64

/-- Byte `i` (0 is the least significant) of a number: integers are little-endian (R7). -/
def byteOf (v i : Nat) : Byte := BitVec.ofNat 8 (v / 2 ^ (8 * i))

/-- The `n` bytes of a number, least significant first (R7). -/
def leBytes (n v : Nat) : List Byte := (List.range n).map (byteOf v)

/-- The number that bytes spell, least significant first (R7). -/
def ofLE : List Byte → Nat
  | [] => 0
  | b :: bs => b.toNat + 256 * ofLE bs

/-- The number that bytes spell, most significant first: fields of frames on a wire (R7). -/
def ofBE (bs : List Byte) : Nat := bs.foldl (fun a b => a * 256 + b.toNat) 0

/-- The `n` bytes of a number, most significant first (R7). -/
def beBytes (n v : Nat) : List Byte := (leBytes n v).reverse

/-- The least natural number that is no less than `a / b`. -/
def ceilDiv (a b : Nat) : Nat := (a + b - 1) / b

/-- `x` held to the range `lo` to `hi`: a written value outside a range is stored as the nearer bound. -/
def clampNat (lo hi x : Nat) : Nat := if x < lo then lo else if hi < x then hi else x

/-- Bits `lo` to `lo + w - 1` of a word (R6). -/
def bitsOf (v : Word) (lo w : Nat) : Nat := v.toNat / 2 ^ lo % 2 ^ w

/-- One bit of a word (R6). -/
def bitOf (v : Word) (i : Nat) : Bool := v.getLsbD i

/-- A field value placed at bit `lo` of a word. -/
def at' (lo v : Nat) : Nat := v * 2 ^ lo

/-- A Bool as the number of its register bit. -/
def b2n (b : Bool) : Nat := if b then 1 else 0

end Sys2Proof
end

