-- ==== Sys2Proof/Syntax.lean ====
section
/-!
DEFINITION. The commands the block takes: one constructor of `Instr` per row of spec/opcode_table.json, with the row's
operands. The table gives no operands: what a command needs from outside the Farelle (an address, a value, the bytes of
a frame, a measured duration) is its operand (notes/assumptions/1.md); everything else comes from the State.
-/

namespace Sys2Proof

/-- Which address space a register access names (R3, R13, R276, R297). -/
inductive Space where
  /-- The steward's 64 KiB block windows (Table 0.6); an address is the whole 32-bit address. -/
  | block
  /-- The host's BAR0; an address is the offset. -/
  | bar0
  /-- The host's BAR2: 64 ring windows of 1 MiB; an address is the offset. -/
  | bar2
  /-- The endpoint's PCI configuration space; an address is the offset (R272). -/
  | config
  deriving DecidableEq, Repr

/-- How the host takes interrupts (Table 5.1, R288): MSI-X, MSI with `m` vectors, or INTA. -/
inductive HostInts where
  | msix
  | msi (m : Nat)
  | inta
  deriving DecidableEq, Repr

/-- The bytes a register access reaches: the address of the first, and how many. -/
structure Span where
  addr : Nat
  size : Nat
  deriving DecidableEq, Repr

/-- What a register write brings: its bytes, and the event bits of the word or the two words it names that the hardware sets
in the same access (R9). -/
structure WriteData where
  bytes : List Byte
  setNow : BitVec 64
  deriving DecidableEq, Repr

/-- What the host has set in the endpoint when the link serves (Table 5.1): its interrupts, the max payload and max read
request sizes in bytes, the completion timeout in ms. -/
structure PciCfg where
  ints : HostInts := .msix
  mps : Nat := 128
  mrrs : Nat := 512
  ctoMs : Nat := 50
  deriving DecidableEq, Repr

/-- Who runs a Yukin instruction: the steward, or the whorl's slot (Yukin-W, R247). -/
inductive Core where
  | steward
  | whorl
  deriving DecidableEq, Repr

/-- The two owners of a flyer's FIFOs and of a CAN controller (R414, R555). -/
inductive Owner where
  | steward
  | whorl
  deriving DecidableEq, Repr

/-- Number of a general register g0 to g31 (R210). -/
abbrev GReg := BitVec 5

/-- Where a steward command comes from: a mailbox, or a relayed inner request (R679). -/
inductive ReqSrc where
  | mailbox (n : Fin 32)
  | relay (dev : BitVec 10) (seq : Nat)
  deriving DecidableEq, Repr

/-- The levels on the straps (R43, Table 1.9). -/
structure Straps where
  master : Bool
  bootsel : BitVec 2
  hint : BitVec 10
  deriving DecidableEq, Repr

/-- What the HOLDUP monitor measured: the voltage now, and since the measurement before it the charger's charge, the
Distaff domain's draw, and the time (R163, R164). -/
structure HoldupSample where
  vMv : Nat
  chgNc : Nat
  drawNc : Nat
  us : Nat
  deriving DecidableEq, Repr

/-- A window of the ledger's recalibration (R167): its last sample, and the currents of its samples. -/
structure LedgerWindow where
  last : HoldupSample
  currents : List Int
  deriving DecidableEq, Repr

/-- Supplies that reach their reset level (R73): rails of Table 1.3, VIO banks of Table 1.4. -/
structure Supplies where
  rails : BitVec 8
  banks : BitVec 13
  deriving DecidableEq, Repr

/-- The conditions of which the first ends step 7 (R98). -/
inductive Step7Cond where
  /-- 7a is complete and the cascade is joined. -/
  | joined
  /-- 7a is complete and no ring signal has been seen on either side for 20 ms. -/
  | noRing
  /-- The worst-case duration of step 7 is reached. -/
  | worstCase
  deriving DecidableEq, Repr

/-- How a transmission attempt on CAN ended (R551, R552). -/
inductive CanTxResult where
  | sent
  | lostArbitration
  | error
  deriving DecidableEq, Repr

/-- How a reception on CAN ended (R553, R559, R562). -/
inductive CanRxResult where
  /-- Good CRC, seen to the end of EOF. -/
  | good
  /-- An error of ISO 11898-1. -/
  | error
  /-- A frame with FDF recessive (whose res bit, when FDEN is 1, is recessive). -/
  | resRecessive
  deriving DecidableEq, Repr

/-- The error counters ISO 11898-1:2015 gives after the frame (R559). The manual refers to that standard for them. -/
structure CanErr where
  tec : Nat
  recv : Nat
  deriving DecidableEq, Repr

/-- A CAN frame (Table 11.2): IDW, CTLW, data. -/
structure CanFrame where
  idw : Word
  ctlw : Word
  data : List Byte
  deriving DecidableEq, Repr

/-- A received frame as the bus was at its sample points, and one and two tq before each (R546). -/
structure CanSamples where
  frame : CanFrame
  before1 : CanFrame
  before2 : CanFrame
  deriving DecidableEq, Repr

/-- One synchronisation of a time service (R627): the receive ledger tick, origin + correction + path delay as ply
nanoseconds, and the time between the origins of this and the previous synchronisation. -/
structure SyncSample where
  tick : Tick
  masterNs : Nat
  interval : Nat
  deriving DecidableEq, Repr

/-- A cascade time block (R628): origin on the master's PLY7 in nanoseconds, correction so far, and the SYNCINT. -/
structure TimeBlock where
  originNs : Nat
  corrNs : Nat
  syncInt : Nat
  deriving DecidableEq, Repr

/-- A JOIN frame (R667). -/
structure Join where
  serial : Tick
  hint : BitVec 10
  mode : BitVec 3
  deriving DecidableEq, Repr

/-- An ASSIGN frame (R668): for which serial number, its device ID, and the master's ID. -/
structure Assign where
  serial : Tick
  dev : BitVec 10
  master : BitVec 10
  deriving DecidableEq, Repr

/-- One member named by a TOPOLOGY frame (R669): its ID, mode and position on the ring. -/
structure Member where
  dev : BitVec 10
  mode : BitVec 3
  pos : Nat
  deriving DecidableEq, Repr

/-- A TOPOLOGY frame (R669): ring state, the master's ID and the members. `links` names the data-broken links by the
position of the device on their west end. -/
structure Topology where
  closed : Bool
  master : BitVec 10
  members : List Member
  broken : List Nat
  deriving DecidableEq, Repr

/-- The commands, one constructor per row of spec/opcode_table.json. -/
inductive Instr where
  /-- REGISTER_WRITE (R8). A write to a register field that has no row of its own takes effect according to its access code (RW, W1C, W1S, WO). -/
  | registerWrite (sp : Space) (addr : Nat) (data : WriteData)
  /-- RC_FIELD_READ (R8). A read of an RC field returns its value and clears the field in the same access. -/
  | rcFieldRead (sp : Space) (span : Span) (event : Bool)
  /-- LATCHED_PAIR_READ (R196). Reading the low word of a 64-bit or 48-bit counter pair latches the high word for a following read. -/
  | latchedPairRead (sp : Space) (span : Span)
  /-- VALID_SUPPLY (R24). VAON, every VIO bank and PWRSENSE first become valid, which sets time zero of a kindle. -/
  | validSupply
  /-- COLD_RESET (R73). A watched supply reaches its reset level or its PG falls, and the Farelle takes a COLD reset into Dark. -/
  | coldReset (lost : Supplies) (byPg : Bool)
  /-- RAIL_PG_MISMATCH (R74). A PG stays high for 100 µs while the monitor sees its rail out of range, which causes a COLD reset. -/
  | railPgMismatch (rail : Fin 4)
  /-- SKEIN_BYPASS_CLOSE (R54). VSD18 falls below 1.2 V and the skein bypass closes within 5 µs. -/
  | skeinBypassClose
  /-- HOLDUP_TAKEOVER (R145). VAON falls below 1.62 V and the Distaff domain switches to run from HOLDUP. -/
  | holdupTakeover
  /-- DISTAFF_DOMAIN_STOP (R72). HOLDUP falls below 4.0 V while the domain runs from it, and the Distaff domain stops. -/
  | distaffDomainStop
  /-- HOLDUP_CHARGED (R75). HOLDUP reaches 11.0 V, which ends the timed charge and clears its time. -/
  | holdupCharged
  /-- HOLDUP_SLOW (R75). The charge time reaches 4 s before HOLDUP reaches 11.0 V, HOLDUP_SLOW is logged and charging continues. -/
  | holdupSlow (mv : Nat)
  /-- HOLDUP_LEAK (R76). A 1 s window with the charger off ends with a HOLDUP fall above 0.5 V, and HOLDUP_LEAK is logged once. -/
  | holdupLeak (fallMv : Nat)
  /-- CAP_MEASURE (R169). The charger raises HOLDUP by 0.5 V in constant current, and the capacitance is computed into PWR_CAPMEAS. -/
  | capMeasure (us dvMv : Nat)
  /-- LEDGER_RECALIBRATION (R167). A quiet 100 ms window passes, Q is reset from V_HU and the coulomb ledger is marked trusted. -/
  | ledgerRecalibration (w : LedgerWindow)
  /-- PWR_VID_WRITE (R80). A write of VIDCODE sets a new VCORE setpoint, clamped at 56, which the output then approaches. -/
  | pwrVidWrite (v : Word)
  /-- VID_STEP (R31). Each 10 µs the VCORE_VID output moves one step toward VIDCODE while REG_EN_CORE is high. -/
  | vidStep
  /-- BYPE_DRIVE_SET (R780). Setting a BYPE_DRIVE bit on an enabled port disables its PHY, drives BYPE_N low and starts the settle time. -/
  | bypeDriveSet (n : Fin 4)
  /-- BYPE_DRIVE_CLEAR (R780). Clearing a BYPE_DRIVE bit on an enabled port disables its PHY, releases BYPE_N and re-enables the PHY at once. -/
  | bypeDriveClear (n : Fin 4)
  /-- BYPE_SETTLE_DONE (R62). The relay settle time expires after BYPE_N goes low, and the port's PHY is enabled. -/
  | bypeSettleDone (n : Fin 4)
  /-- PWRSENSE_WARN (R112). A PWRSENSE fall below the threshold passes its filter, and the Farelle enters Brace within 5 µs. -/
  | pwrsenseWarn
  /-- PWRSENSE_RECOVER (R40). A rise of PWRSENSE above threshold plus hysteresis passes the filter, PWRSENSE stops warning and the recovery window opens. -/
  | pwrsenseRecover
  /-- BRACE_RECOVERED (R115). The 10 ms recovery window completes, and the Farelle returns from Brace to RETMODE and counts the recovery. -/
  | braceRecovered (us : Nat)
  /-- RESET_N_LOW (R51). An accepted RESET_N low puts the Farelle in Dark with every REG_EN low. -/
  | resetNLow
  /-- RESET_N_RISE (R782). RESET_N rising ends Dark as a WARM reset and sets kindle time zero at valid supply. -/
  | resetNRise
  /-- WARM_OFF_TIME_END (R783). The 10 ms off time of a command WARM reset ends, and the kindle's time zero is reached. -/
  | warmOffTimeEnd
  /-- KINDLE_START (R782). At time zero a kindle begins step 1, the always-on POR, or resumes at step 2 after a wake. -/
  | kindleStart (straps : Straps) (us : Nat) (pg : Bool)
  /-- CRYSTAL_READY (R89). 4,096 crystal cycles check good, step 2 ends and REG_EN_ISL is driven high. -/
  | crystalReady (us : Nat) (pg : Bool)
  /-- CRYSTAL_TIMEOUT (R102). Crystal ready is not reached in 50 ms, and the PLL runs from the RC oscillator in limp state. -/
  | crystalTimeout (us : Nat) (pg : Bool)
  /-- XTAL_LATE (R105). A crystal that becomes ready in limp state is reported, and the Reel is not moved to it. -/
  | xtalLate
  /-- RAIL_READY (R26). A switched rail becomes ready, it starts being watched and the next REG_EN is asserted in order. -/
  | railReady (us : Nat) (pg : Bool)
  /-- RAIL_TIMEOUT (R106). A rail is not ready 20 ms after its REG_EN went high, and its REG_EN is driven low for 10 ms. -/
  | railTimeout
  /-- RAIL_RETRY (R106). The 10 ms off time of a rail retry ends, and its REG_EN is driven high again. -/
  | railRetry
  /-- PLL_LOCK (R90). The PLL locks, and the Reel starts at 0 or resumes from its continuation count. -/
  | pllLock (steps us : Nat)
  /-- PLL_LOCK_TIMEOUT (R109). The PLL has not locked 2 ms after VISL ready; it is retried once, and a second failure enters Kindle-fault. -/
  | pllLockTimeout
  /-- JOURNAL_REPLAY (R155). Step 4 rebuilds the segment map, replays the journal to the last complete commit and loads the DISTAFF fields. -/
  | journalReplay (us : Nat)
  /-- IMAGE_AUTHENTICATION (R93). Step 5 authenticates the chosen image slot, and falls back to the other slot when it fails. -/
  | imageAuthentication (us : Nat)
  /-- SCHEDULE_LOAD (R96). Step 6 applies the replayed configuration, checks the certificate and loads the leas. -/
  | scheduleLoad (us : Nat)
  /-- STEP7_END (R98). Step 7 ends at the first of its conditions, and the target mode is entered. -/
  | step7End (us : Nat) (cond : Step7Cond)
  /-- KINDLE_LATE (R132). A kindle step exceeds its worst-case duration, and KINDLE_LATE is recorded with the step number. -/
  | kindleLate (step : Fin 8) (us : Nat)
  /-- DROWSE_ENTRY (R120). After the Drowse command, the strands stop, the ports are disabled, BYPE_N is released, the skein moves to swift and the rails go off. -/
  | drowseEntry
  /-- WAKE_SOURCE_FIRE (R122). An enabled wake source fires in Drowse, it is recorded in SYS_WAKESRC and a kindle starts or is held pending. -/
  | wakeSourceFire (src : BitVec 6)
  /-- WAKE_HOLD_END (R86). A pending wake's hold ends after 10 ms without a PWRSENSE warning and with the banks in range, and the kindle starts. -/
  | wakeHoldEnd
  /-- GATED_UNIT_START (R165). The first waiting unit in R190 order passes the energy gate and its first page program is issued. -/
  | gatedUnitStart (l : HoldupSample)
  /-- COMMIT_UNIT_END (R150). The unit carrying a commit record ends, and the read-back check makes the commit DURABLE. -/
  | commitUnitEnd (bad reads : List Nat)
  /-- CHECKPOINT_CHUNK_END (R161). A checkpoint chunk before the last finishes writing, and the gate-wait timer for the next chunk starts. -/
  | checkpointChunkEnd (bad : List Nat)
  /-- GATE_CLOSED (R172). A staged commit, or its next chunk, does not start within the gate wait and is withdrawn:
  `staged`, the staged commit; else the one between two chunks. -/
  | gateClosed (staged : Bool)
  /-- BOOT_COPY_WRITE_END (R175). A BOOT copy of slot control is written, and copy 2 is queued first when copy 1 has just been written. -/
  | bootCopyWriteEnd
  /-- LOG_COPY_END (R111). The commit engine copies a fault-recorder entry into the LOG region and frees it. -/
  | logCopyEnd
  /-- NAMEPLATE_UPDATE_END (R719). A NAMEPLATE update unit finishes programming its blocks, ACKPEND included. -/
  | nameplateUpdateEnd
  /-- IMAGE_CHUNK_END (R176). A 64-page image-write chunk is programmed into the slot that is not ACTIVE. -/
  | imageChunkEnd
  /-- MIGRATION_END (R182). A segment migration writes its target header last, and the worn segment joins the pool. -/
  | migrationEnd (failed : Option (Fin 64))
  /-- SCRUB_PASS_START (R184). 30 days of powered time since the last pass elapse, and a scrub pass starts. -/
  | scrubPassStart
  /-- SCRUB_PAGE_READ (R185). Each 1 ms the scrub reads a page and queues a rewrite when 4 or more bits were corrected. -/
  | scrubPageRead (bits : Nat)
  /-- SCRUB_REWRITE_END (R185). A one-page scrub rewrite unit finishes. -/
  | scrubRewriteEnd
  /-- ADD (R218). Yukin register add. -/
  | addR (c : Core) (rd ra rb : GReg)
  /-- SUB (R218). Yukin register subtract. -/
  | subR (c : Core) (rd ra rb : GReg)
  /-- AND (R218). Yukin register bitwise AND. -/
  | andR (c : Core) (rd ra rb : GReg)
  /-- OR (R218). Yukin register bitwise OR. -/
  | orR (c : Core) (rd ra rb : GReg)
  /-- XOR (R218). Yukin register bitwise XOR. -/
  | xorR (c : Core) (rd ra rb : GReg)
  /-- SLL (R218). Shift left logical by register. -/
  | sll (c : Core) (rd ra rb : GReg)
  /-- SRL (R218). Shift right logical by register. -/
  | srl (c : Core) (rd ra rb : GReg)
  /-- SRA (R218). Shift right arithmetic by register. -/
  | sra (c : Core) (rd ra rb : GReg)
  /-- SLT (R218). Set on signed less than. -/
  | slt (c : Core) (rd ra rb : GReg)
  /-- SLTU (R218). Set on unsigned less than. -/
  | sltu (c : Core) (rd ra rb : GReg)
  /-- MUL (R218). Low 32 bits of a product. -/
  | mul (c : Core) (rd ra rb : GReg)
  /-- MULH (R218). High 32 bits of a signed product. -/
  | mulh (c : Core) (rd ra rb : GReg)
  /-- MULHU (R218). High 32 bits of an unsigned product. -/
  | mulhu (c : Core) (rd ra rb : GReg)
  /-- DIV (R220). Signed divide, with its defined division-by-zero result. -/
  | divR (c : Core) (rd ra rb : GReg)
  /-- DIVU (R220). Unsigned divide. -/
  | divu (c : Core) (rd ra rb : GReg)
  /-- REM (R220). Signed remainder. -/
  | remR (c : Core) (rd ra rb : GReg)
  /-- REMU (R220). Unsigned remainder. -/
  | remu (c : Core) (rd ra rb : GReg)
  /-- CLZ (R218). Count leading zero bits. -/
  | clz (c : Core) (rd ra : GReg)
  /-- SLLI (R218). Shift left logical by immediate. -/
  | slli (c : Core) (rd ra : GReg) (sh : BitVec 5)
  /-- SRLI (R218). Shift right logical by immediate. -/
  | srli (c : Core) (rd ra : GReg) (sh : BitVec 5)
  /-- SRAI (R218). Shift right arithmetic by immediate. -/
  | srai (c : Core) (rd ra : GReg) (sh : BitVec 5)
  /-- ADDI (R218). Add a sign-extended immediate. -/
  | addi (c : Core) (rd ra : GReg) (imm : BitVec 16)
  /-- ANDI (R218). AND with a zero-extended immediate. -/
  | andi (c : Core) (rd ra : GReg) (imm : BitVec 16)
  /-- ORI (R218). OR with a zero-extended immediate. -/
  | ori (c : Core) (rd ra : GReg) (imm : BitVec 16)
  /-- XORI (R218). XOR with a zero-extended immediate. -/
  | xori (c : Core) (rd ra : GReg) (imm : BitVec 16)
  /-- SLTI (R218). Set on signed less than an immediate. -/
  | slti (c : Core) (rd ra : GReg) (imm : BitVec 16)
  /-- SLTIU (R218). Set on unsigned less than an immediate. -/
  | sltiu (c : Core) (rd ra : GReg) (imm : BitVec 16)
  /-- LUI (R218). Load an immediate into the upper half of a register. -/
  | lui (c : Core) (rd : GReg) (imm : BitVec 16)
  /-- BFX (R221). Bit-field extract. -/
  | bfx (c : Core) (rd ra : GReg) (pos wm1 : BitVec 5) (sg : Bool)
  /-- BFI (R221). Bit-field insert. -/
  | bfi (c : Core) (rd ra : GReg) (pos wm1 : BitVec 5)
  /-- PERM (R221). Byte permute. -/
  | perm (c : Core) (rd ra : GReg) (sel : BitVec 16)
  /-- LB (R242). Load a sign-extended byte through a checked segment. -/
  | lb (c : Core) (r rb : GReg) (seg : BitVec 4) (imm : BitVec 12)
  /-- LBU (R242). Load a zero-extended byte. -/
  | lbu (c : Core) (r rb : GReg) (seg : BitVec 4) (imm : BitVec 12)
  /-- LH (R242). Load a sign-extended halfword. -/
  | lh (c : Core) (r rb : GReg) (seg : BitVec 4) (imm : BitVec 12)
  /-- LHU (R242). Load a zero-extended halfword. -/
  | lhu (c : Core) (r rb : GReg) (seg : BitVec 4) (imm : BitVec 12)
  /-- LW (R242). Load a word, forwarded from or waiting on the store buffer. -/
  | lw (c : Core) (r rb : GReg) (seg : BitVec 4) (imm : BitVec 12)
  /-- SB (R240). Store a byte into the store buffer. -/
  | sb (c : Core) (r rb : GReg) (seg : BitVec 4) (imm : BitVec 12)
  /-- SH (R240). Store a halfword into the store buffer. -/
  | sh (c : Core) (r rb : GReg) (seg : BitVec 4) (imm : BitVec 12)
  /-- SW (R240). Store a word into the store buffer. -/
  | sw (c : Core) (r rb : GReg) (seg : BitVec 4) (imm : BitVec 12)
  /-- SEGLD (R224). Load a segment register from a checked descriptor. -/
  | segld (c : Core) (r rb : GReg) (seg : BitVec 4) (imm : BitVec 12)
  /-- SEGST (R223). Store a segment register as a descriptor. -/
  | segst (c : Core) (r rb : GReg) (seg : BitVec 4) (imm : BitVec 12)
  /-- BEQ (R216). Branch if equal. -/
  | beq (c : Core) (ra rb : GReg) (disp : BitVec 16)
  /-- BNE (R216). Branch if not equal. -/
  | bne (c : Core) (ra rb : GReg) (disp : BitVec 16)
  /-- BLT (R216). Branch if signed less than. -/
  | blt (c : Core) (ra rb : GReg) (disp : BitVec 16)
  /-- BGE (R216). Branch if signed greater or equal. -/
  | bge (c : Core) (ra rb : GReg) (disp : BitVec 16)
  /-- BLTU (R216). Branch if unsigned less than. -/
  | bltu (c : Core) (ra rb : GReg) (disp : BitVec 16)
  /-- BGEU (R216). Branch if unsigned greater or equal. -/
  | bgeu (c : Core) (ra rb : GReg) (disp : BitVec 16)
  /-- J (R216). Relative jump. -/
  | j (c : Core) (disp : BitVec 26)
  /-- JAL (R216). Relative jump and link into g31. -/
  | jal (c : Core) (disp : BitVec 26)
  /-- JALR (R216). Register jump and link. -/
  | jalr (c : Core) (rd ra : GReg) (imm : BitVec 16)
  /-- BMOVE (R226). One element of a restartable block copy. -/
  | bmove (c : Core) (segd segs : BitVec 4)
  /-- BFILL (R225). One element of a restartable block fill. -/
  | bfill (c : Core) (segd : BitVec 4)
  /-- CRC32 (R227). One element of a restartable CRC fold into g5. -/
  | crc32 (c : Core) (segs : BitVec 4)
  /-- SYNC (R245). Wait until the store buffer is empty. -/
  | sync (c : Core)
  /-- SVC (R233). Trap with cause SVC and a 10-bit code. -/
  | svc (c : Core) (code : BitVec 10)
  /-- ERET (R234). Return from a trap or interrupt. -/
  | eret (c : Core)
  /-- MFC (R268). Read a control register. -/
  | mfc (c : Core) (rd : GReg) (idx : BitVec 5)
  /-- MTC (R261). Write a control register. -/
  | mtc (c : Core) (idx : BitVec 5) (rb : GReg)
  /-- WAIT (R232). Stop until an unmasked interrupt line is pending. -/
  | waitI (c : Core)
  /-- BRK (R233). Trap with cause BRK. -/
  | brk (c : Core)
  /-- ILLEGAL_INSTRUCTION (R218). An unknown opcode or function, or a non-zero reserved field, raises ILLEGAL. -/
  | illegalInstruction (c : Core) (w : Word)
  /-- INTERRUPT_ENTRY (R236). At an instruction or element boundary the lowest pending enabled line is taken through the entry sequence. -/
  | interruptEntry
  /-- WAIT_RESUME (R232). An enabled line becomes pending during WAIT, and execution resumes. -/
  | waitResume
  /-- STORE_BUFFER_DRAIN (R240). The oldest store-buffer entry drains to memory, freeing room or releasing a waiting load. -/
  | storeBufferDrain
  /-- STEWARD_TIMER (R268). The Reel low word reaches YC_TIMER, and line 15 asserts. -/
  | stewardTimer
  /-- EXTENSION_INVOKE (R251). Steward 3.2 starts an extension in extension mode on an event its manifest names, with YC_XBUDGET loaded. -/
  | extensionInvoke (idx : Nat) (record : List Byte)
  /-- EXT_EXIT (R255). Extension service EXIT ends the invocation. -/
  | extExit
  /-- EXT_LOG (R255). Extension service LOG writes an event record. -/
  | extLog
  /-- EXT_REEL (R255). Extension service REEL returns the Reel. -/
  | extReel
  /-- EXT_PLY (R255). Extension service PLY returns a ply value. -/
  | extPly
  /-- EXT_POST (R320). Extension service POST sends an extension post to a host-bound mailbox, or returns busy. -/
  | extPost
  /-- MAILBOX_TAIL_WRITE (R279). The host writes a device-bound tail word, which sets the full flag and raises line 14, or is dropped when the mailbox is full. -/
  | mailboxTailWrite (n : Fin 32) (tail : Word)
  /-- MAILBOX_TAIL_READ (R279). The host reads a host-bound tail word, which clears its full flag and frees the mailbox. -/
  | mailboxTailRead (n : Fin 32)
  /-- STEWARD_COMMAND_TAKE (R314). The steward reads a device-bound tail word, taking the message and clearing its full flag. -/
  | stewardCommandTake (n : Fin 32)
  /-- STEWARD_REPLY_WRITE (R285). The steward's host-bound tail store drains, which sets the full flag and raises the mapped doorbell. -/
  | stewardReplyWrite (n : Fin 32)
  /-- DOORBELL_CLEAR (R289). The host writes 1 to DB_STATUS bits to clear doorbells and update HOST_IRQ_N. -/
  | doorbellClear (mask setNow : Word)
  /-- DB_MASK_WRITE (R288). A DB_MASK write that unmasks a set doorbell sends its interrupt. -/
  | dbMaskWrite (v : Word)
  /-- HOST_RESET_WRITE (R276). A write of 0x0000_0203 to HL_HOSTRST performs the WARM reset of command 0x0203. -/
  | hostResetWrite (v : Word)
  /-- HEARTBEAT (R276). Every 1 ms Steward 3.2 increments HL_BEAT. -/
  | heartbeat
  /-- SPI_WRITE_FRAME (R294). An SPI write frame writes whole words to BAR0 and discards an incomplete final word. -/
  | spiWriteFrame (off : Nat) (data : List Byte)
  /-- SPI_READ_FRAME (R292). An SPI read frame returns BAR0 data, and clears a tail flag only after all four tail bytes are out. -/
  | spiReadFrame (off len : Nat)
  /-- SPI_STATUS_FRAME (R292). An SPI status-only frame returns the status byte. -/
  | spiStatusFrame
  /-- SPI_BAD_FRAME (R296). An SPI frame with an unknown opcode or a bad offset has no effect and sets ERR. -/
  | spiBadFrame
  /-- PERST_ASSERT (R308). PERST_N falls, which resets the endpoint and host registers, disables every ring and abandons bursts in flight. -/
  | perstAssert
  /-- RING_CTRL_WRITE (R298). A RING_CTRL write enables or disables a ring, and a config change while it is enabled sets BADCFG. -/
  | ringCtrlWrite (r : Fin 64) (off : Nat) (v : Word)
  /-- RING_TAIL_WRITE (R300). The host writes RING_TAIL, which hands the descriptors up to it to the Farelle. -/
  | ringTailWrite (r : Fin 64) (v : Word)
  /-- TX_RING_OFFER (R464). A TX ring frame is offered for admission before it is read, and waits while admission fails. -/
  | txRingOffer (r : Fin 64) (bytes : List Byte)
  /-- RX_BURST_START (R477). The DMA engine starts an RX burst of whole eligible frames that fit the given descriptors. -/
  | rxBurstStart (r : Fin 64)
  /-- DMA_BURST_COMPLETE (R301). A burst completes, with its data, completion record and doorbell written and its descriptors returned. -/
  | dmaBurstComplete (r : Fin 64)
  /-- DMA_READ_FAULT (R310). A completion timeout or UR on a host-memory read stops its ring and sets CTO or UR. -/
  | dmaReadFault (r : Fin 64) (cto : Bool)
  /-- UNKNOWN_CMD (R317). A request with an unknown code is answered UNKNOWN_CMD. -/
  | unknownCmd (src : ReqSrc)
  /-- ID_GET (R351). Returns identity, the active slot, flags, the durable SEQ and CONFHASH. -/
  | idGet (src : ReqSrc)
  /-- KINDLE_REPORT (R351). Returns the kindle times, fault, reset cause, Brace count and kindle record. -/
  | kindleReport (src : ReqSrc)
  /-- MODE_GET (R351). Returns SYS_MODE and SYS_WAKESRC. -/
  | modeGet (src : ReqSrc)
  /-- MODE_SET (R344). Requests Spin, Drowse or Service, subject to the transition and busy rules. -/
  | modeSet (src : ReqSrc)
  /-- RESET_WARM (R351). Writes its reply and then performs a WARM reset within 1 ms. -/
  | resetWarm (src : ReqSrc)
  /-- WAKE_SET (R351). Sets the wake enables and the alarm. -/
  | wakeSet (src : ReqSrc)
  /-- TXN_OPEN (R351). Opens a configuration transaction. -/
  | txnOpen (src : ReqSrc)
  /-- TXN_STAGE (R326). Stages inline records into an open transaction. -/
  | txnStage (src : ReqSrc)
  /-- TXN_STAGE_DMA (R326). Stages records read from host memory. -/
  | txnStageDma (src : ReqSrc) (data : Option (List Byte))
  /-- TXN_COMMIT (R347). Validates a transaction and schedules it at an epoch, journaling it first when PERSIST is set. -/
  | txnCommit (src : ReqSrc)
  /-- TXN_ABORT (R328). Aborts a transaction in a state that allows it. -/
  | txnAbort (src : ReqSrc)
  /-- TXN_STATUS (R351). Returns a transaction's state and its non-atomic entries. -/
  | txnStatus (src : ReqSrc)
  /-- CONF_GET (R351). Returns bytes of a configuration item. -/
  | confGet (src : ReqSrc)
  /-- TXN_EXPIRED (R329). An OPEN transaction idle for 300 s is aborted and logged. -/
  | txnExpired (h : Nat)
  /-- COMMIT_EPOCH (R334). At a commit's epoch the shadow items swap and the steward settings are written, in the fixed order. -/
  | commitEpoch (h : Nat)
  /-- COMMIT_REPLY (R337). The COMMIT reply is written once step 5 has started for every port, listing non-atomic items. -/
  | commitReply (h : Nat)
  /-- IMG_STATUS (R352). Returns slot control and write progress. -/
  | imgStatus (src : ReqSrc)
  /-- IMG_BEGIN (R176). Starts an image write into the slot that is not ACTIVE, setting it WRITING. -/
  | imgBegin (src : ReqSrc)
  /-- IMG_WRITE (R352). Writes inline image bytes. -/
  | imgWrite (src : ReqSrc)
  /-- IMG_WRITE_DMA (R352). Writes image bytes read from host memory. -/
  | imgWriteDma (src : ReqSrc) (data : Option (List Byte))
  /-- IMG_END (R586). Authenticates the written slot and sets it TRIAL, or BAD with AUTH_FAIL. -/
  | imgEnd (src : ReqSrc)
  /-- IMG_CONFIRM (R179). Makes the running TRIAL slot GOOD and ACTIVE. -/
  | imgConfirm (src : ReqSrc)
  /-- IMG_REFUSALS (R352). Returns the mask of refused spindles. -/
  | imgRefusals (src : ReqSrc)
  /-- PORT_STATUS (R352). Returns a port's state and speed. -/
  | portStatus (src : ReqSrc)
  /-- PORT_COUNTERS (R352). Returns a port's frame counters. -/
  | portCounters (src : ReqSrc)
  /-- BOB_STATUS (R352). Returns a bobbin's occupancy and counters. -/
  | bobStatus (src : ReqSrc)
  /-- PLY_GET (R352). Returns a ply value and increment. -/
  | plyGet (src : ReqSrc)
  /-- PLY_INCR (R626). Posts a new increment for a ROLE 0 ply. -/
  | plyIncr (src : ReqSrc)
  /-- PLY_STEP (R626). Posts a step of a ROLE 0 ply, at once or at a tick. -/
  | plyStep (src : ReqSrc)
  /-- REEL_GET (R352). Returns the Reel and the limp flag. -/
  | reelGet (src : ReqSrc)
  /-- TICK_TO_PLY (R621). Converts a Reel tick to ply time through the ply history. -/
  | tickToPly (src : ReqSrc)
  /-- CASC_STATUS (R353). Returns the cascade identity and flags. -/
  | cascStatus (src : ReqSrc)
  /-- CASC_MAP (R353). Returns a page of the member map. -/
  | cascMap (src : ReqSrc)
  /-- CASC_RELAY (R679). Relays an inner request through the master to a target device. -/
  | cascRelay (src : ReqSrc)
  /-- PNL_EVENTS (R701). Pops panel queue entries and returns LOST. -/
  | pnlEvents (src : ReqSrc)
  /-- PNL_STATUS (R701). Returns the panel maps and encoder counts. -/
  | pnlStatus (src : ReqSrc)
  /-- TAG_STATUS (R734). Returns the tag state and counts. -/
  | tagStatus (src : ReqSrc)
  /-- TAG_AUTH_SET (R723). Stores the tag password and key through a NAMEPLATE update. -/
  | tagAuthSet (src : ReqSrc)
  /-- READER_SCAN (R710). Runs anticollision and returns the first UID. -/
  | readerScan (src : ReqSrc) (card : Option (List Byte))
  /-- ROV_HANK_WRITE (R738). Writes an inactive hank from host memory. -/
  | rovHankWrite (src : ReqSrc) (data : Option (List Byte))
  /-- ROV_HANK_READY (R736). Sets the READY set of hanks. -/
  | rovHankReady (src : ReqSrc)
  /-- ROV_START (R752). Starts the roving sequencer now or at a tick. -/
  | rovStart (src : ReqSrc)
  /-- ROV_STOP (R753). Halts the sequencer to idle at a vector boundary. -/
  | rovStop (src : ReqSrc)
  /-- ROV_STATUS (R761). Returns the running and STARVED state and the vector count. -/
  | rovStatus (src : ReqSrc)
  /-- LOG_READ (R355). Returns up to 6 LOG records from an INDEX. -/
  | logRead (src : ReqSrc)
  /-- WEAR_GET (R353). Returns the Distaff counters. -/
  | wearGet (src : ReqSrc)
  /-- GATE_GET (R353). Returns the energy-gate registers. -/
  | gateGet (src : ReqSrc)
  /-- LEA_BOUNDARY (R362). A strand's ply reaches its boundary value, and a new lea period begins. -/
  | leaBoundary (k : Fin 4)
  /-- SLOT_START (R368). A slot's start tick arrives, and its spindle context and segments are loaded. -/
  | slotStart (k : Fin 4)
  /-- TIN_NEXT_READ (R375). A slot reads TIN_NEXT, getting the lowest non-zero masked task input and staging a decrement. -/
  | tinNextRead (rd : GReg)
  /-- SLOT_COMPLETE (R359). Slot code jumps to the sentinel by its deadline, and the slot commits. -/
  | slotComplete
  /-- OVERRUN (R385). A slot reaches its deadline uncompleted, and its staged outputs are discarded and its spindle is put in HOLD. -/
  | overrun
  /-- SLOT_RELEASE (R371). At slot end plus 16 ns, staged entries, or safe outputs, are released to their islands. -/
  | slotRelease
  /-- TASK_INPUT_EVENT (R373). An event raises a task-input counter. -/
  | taskInputEvent (n : Fin 256) (k : Nat)
  /-- PACE_UPDATE (R381). Every 10 µs the pace logic measures the monitors and updates the margin M. -/
  | paceUpdate (meas : List Nat)
  /-- VCORE_TRIM (R383). Every 100 µs Steward 3.2 raises or lowers VIDCODE from the margin. -/
  | vcoreTrim
  /-- HOLD_CLEAR (R389). A write of WHL_HOLDCLR releases held spindles at their next slot. -/
  | holdClear (mask : BitVec 64)
  /-- WHL_FLOG_READ (R400). Reading WHL_FLOG pops the oldest whorl fault-log entry and latches its tick. -/
  | whlFlogRead
  /-- FLY_BRA (R408). Flyer conditional branch. -/
  | flyBra (f : Fin 48)
  /-- FLY_AWAIT (R407). Flyer waits for a pin level or the GO latch. -/
  | flyAwait (f : Fin 48)
  /-- FLY_TAKE (R412). Flyer takes bits into the shifter. -/
  | flyTake (f : Fin 48)
  /-- FLY_GIVE (R412). Flyer gives bits from the shifter. -/
  | flyGive (f : Fin 48)
  /-- FLY_LOAD (R415). Flyer loads the shifter from the out FIFO. -/
  | flyLoad (f : Fin 48)
  /-- FLY_STORE (R416). Flyer stores the shifter into the in FIFO. -/
  | flyStore (f : Fin 48)
  /-- FLY_XFER (R407). Flyer transfers between pins, counters, the shifter and status. -/
  | flyXfer (f : Fin 48)
  /-- FLY_PUT (R407). Flyer puts an immediate to pins, counters or directions. -/
  | flyPut (f : Fin 48)
  /-- FLY_HUNT (R428). Flyer starts searching for sync. -/
  | flyHunt (f : Fin 48)
  /-- FLY_AT (R419). Flyer enqueues the timed action held in X and Y. -/
  | flyAt (f : Fin 48)
  /-- FLY_EVT (R431). Flyer raises one task-input event. -/
  | flyEvt (f : Fin 48)
  /-- FLY_DLY (R407). Flyer starts waiting N flyer clocks. -/
  | flyDly (f : Fin 48)
  /-- FLY_DLY_EXPIRY (R407). A flyer DLY count expires, and the program continues. -/
  | flyDlyExpiry (f : Fin 48)
  /-- FLY_ILLOP (R436). An illegal flyer opcode, code or field halts the flyer and sets ILLOP. -/
  | flyIllop (f : Fin 48)
  /-- FLY_STALL_END (R411). A stalled flyer instruction's condition holds at a flyer clock edge, and it completes. -/
  | flyStallEnd (f : Fin 48)
  /-- FLY_HUNT_LOCK (R428). HUNT finds three consecutive sync positions, and LOCKED is set. -/
  | flyHuntLock (f : Fin 48) (bits : List Bool)
  /-- FLY_SYNC_LOSS (R430). Two consecutive sync misses after lock clear LOCKED and set LOSS. -/
  | flySyncLoss (f : Fin 48) (bits : List Bool)
  /-- FLY_ACT_POST (R419). A write of FLY_ACT1 queues a timed action pair. -/
  | flyActPost (f : Fin 48) (who : Owner) (w1 : Word)
  /-- PLY_ACTION_FIX (R421). 2 µs before it is due, a ply action is fixed to a Reel instant. -/
  | plyActionFix (f : Fin 48)
  /-- TIMED_ACTION_DUE (R423). A timed action reaches its instant and sets its side-set levels and GO. -/
  | timedActionDue (f : Fin 48)
  /-- FLY_IFIFO_READ (R418). A read of FLY_IFIFO pops the in FIFO. -/
  | flyIfifoRead (f : Fin 48) (who : Owner)
  /-- FLY_OFIFO_WRITE (R418). A write of FLY_OFIFO posts to the out FIFO. -/
  | flyOfifoWrite (f : Fin 48) (who : Owner) (v : Word)
  /-- FLY_CTRL_WRITE (R437). A FLY_CTRL write that changes EN halts the flyer or restarts it at ENTRY. -/
  | flyCtrlWrite (f : Fin 48) (v : Word)
  /-- SEAM_HANDOVER (R432). At a seam the keeper holds a pin and the new function takes it 4 ns later. -/
  | seamHandover
  /-- PIN_EDGE (R431). A selected pin edge is ledgered and raises its event. -/
  | pinEdge (b : Fin 6) (pin : Fin 24) (rising : Bool) (frac : BitVec 4) (second : Bool)
  /-- FRAME_RX_START (R515). A frame begins to arrive, takes a reorder entry and has its SFD ledgered, or is discarded on overflow. -/
  | frameRxStart (p : Fin 12)
  /-- LANE_DEAL (R512). A frame's DEPTH-th byte arrives, and the frame is dealt to a lane. -/
  | laneDeal (p : Fin 12) (bytes : List Byte)
  /-- LANE_DECISION (R521). A lane decides a frame by first-match rules and passes the decision on in arrival order. -/
  | laneDecision (l : Fin 16)
  /-- FRAME_RX_END (R496). A received frame ends, with its runt, TRUNC and checksum verdict determined. -/
  | frameRxEnd (p : Fin 12) (bytes : List Byte) (fcsOk symErr : Bool)
  /-- FRAME_ADMISSION (R459). An admission decision is made for a frame to a bobbin, with its meter, WRED, pool checks and ECN mark. -/
  | frameAdmission (p : Fin 12) (len : Nat)
  /-- FRAME_END (R476). A frame's last cell arrives, its reservation shrinks and it becomes eligible or is removed. -/
  | frameEnd (f : Nat)
  /-- CUT_THROUGH_START (R472). CTHRESH bytes of a decided frame arrive, and it starts cut-through. -/
  | cutThroughStart (f : Nat)
  /-- FRAME_STOMP (R473). A frame already leaving proves bad and ends with an inverted FCS or ABORT. -/
  | frameStomp (f : Nat)
  /-- EGRESS_FRAME_START (R465). A free wire egress selects its next frame by TC7 priority and DRR and starts it. -/
  | egressFrameStart (p : Fin 14)
  /-- TRAIN_LAUNCH (R469). A multicast train launches on the ring once every copy buffer has room. -/
  | trainLaunch
  /-- WHORL_BURST_REQ (R479). A slot requests a burst of frames through its s2 window. -/
  | whorlBurstReq (i : Fin 8) (n : Nat)
  /-- WHORL_ENQUEUE (R479). A TXLEN write makes the admission decision for a slot's frame. -/
  | whorlEnqueue (i : Fin 8) (len : Nat)
  /-- GATE_WRITE (R466). A write of BOB_PGATE changes a port's class gates. -/
  | gateWrite (p : Fin 17) (v : Word)
  /-- LINK_UP (R767). An Ethernet link comes up, and sending resumes at the next frame boundary. -/
  | linkUp (p : Fin 12) (speed : Fin 5) (fullDup : Bool)
  /-- LINK_DOWN (R532). An Ethernet link goes down, ending the frame in progress as bad. -/
  | linkDown (p : Fin 12)
  /-- AN_TIMEOUT (R489). Auto-negotiation fails for 5 s, and it is restarted. -/
  | anTimeout (p : Fin 12)
  /-- LPI_ENTRY (R536). An EEE port is idle for LPITIMER, and it enters LPI. -/
  | lpiEntry (p : Fin 12)
  /-- MDIO_ACCESS (R537). Writing GO in ETH_MDIOCMD starts an MDIO access. -/
  | mdioAccess (v : Word)
  /-- MDIO_COMPLETE (R537). An MDIO access ends, GO clears and DATA or NOACK is set. -/
  | mdioComplete (resp : Option (BitVec 16))
  /-- CAN_TXREQ_WRITE (R550). Setting TXREQ bits makes transmit buffers pending for arbitration. -/
  | canTxreqWrite (n : Fin 8) (who : Owner) (v : Word)
  /-- CAN_TXCANCEL (R571). Setting TXCANCEL bits cancels pending buffers. -/
  | canTxcancel (n : Fin 8) (who : Owner) (v : Word)
  /-- CAN_POP (R581). A write of POP pops an RX FIFO or the transmit event FIFO. -/
  | canPop (n : Fin 8) (who : Owner) (v : Word)
  /-- CAN_TX_START (R550). At a start of frame the controller offers the pending frame that would win arbitration. -/
  | canTxStart (n : Fin 8) (sofTick : Tick) (loopDelay : Option Nat)
  /-- CAN_TX_DONE (R552). A transmitted frame ends, clearing TXREQ and writing a transmit event. -/
  | canTxDone (n : Fin 8) (res : CanTxResult) (ec : CanErr)
  /-- CAN_FRAME_RX (R553). A frame received with a good CRC is filtered at EOF into a FIFO or rejected. -/
  | canFrameRx (n : Fin 8) (f : CanSamples) (sofTick : Tick) (res : CanRxResult) (ec : CanErr)
  /-- CAN_BUSOFF_RECOVERY (R560). 128 sequences of 11 recessive bits end bus-off, and the controller becomes error-active. -/
  | canBusoffRecovery (n : Fin 8)
  /-- CAN_INTEGRATE (R580). An enabled controller sees 11 recessive bits and joins the bus. -/
  | canIntegrate (n : Fin 8)
  /-- CAN_CTRL_APPLY (R573). A change of LISTEN, FDEN or NOMATCH takes effect at the next bus idle. -/
  | canCtrlApply (n : Fin 8)
  /-- CAN_TIMING_RELOAD (R334). A controller with new bit timing leaves the bus after its frame, reloads and re-integrates. -/
  | canTimingReload (n : Fin 8) (forced : Bool)
  /-- CAN_WAKE_DOMINANT (R567). RXD is held low for 5.00 µs in Drowse, and the dominant wake rule fires. -/
  | canWakeDominant (n : Fin 8)
  /-- CAN_WAKE_FRAME (R568). A matching selective wake frame reaches its ACK delimiter in Drowse. -/
  | canWakeFrame (n : Fin 8) (f : CanFrame)
  /-- CAN_WAKE_FEC (R569). The frame error counter reaches 32, and the wake rule fires with cause FEC. -/
  | canWakeFec (n : Fin 8) (errors good : Nat)
  /-- PLY_CHANGE_POST (R615). A write of PLY_CHGGO posts a step or increment change. -/
  | plyChangePost (k : Fin 8) (v : Word)
  /-- PLY_CHANGE_APPLY (R615). A posted ply change takes effect at its tick, and a history entry is written. -/
  | plyChangeApply (k : Fin 8)
  /-- PLY_SECLO_READ (R636). Reading PLY_SECLO latches PLY_SECHI and PLY_NS. -/
  | plySecloRead (k : Fin 8)
  /-- TIME_SYNC (R627). A synchronisation of a ply's time service runs the servo, stepping or retuning the ply. -/
  | timeSync (k : Fin 8) (y : SyncSample)
  /-- TIME_SERVICE_SEND (R625). A master-capable time service sends its event messages at its sync interval. -/
  | timeServiceSend (k : Fin 8)
  /-- HOLDOVER (R630). 10 intervals pass with no synchronisation, and the ply enters holdover. -/
  | holdover (k : Fin 8)
  /-- CASCADE_TIME_BLOCK (R628). Every SYNCINT the master sends a time block on both skein links. -/
  | cascadeTimeBlock
  /-- CASCADE_TIME_RECEIVE (R628). A member takes a time block, corrects PLY7 and forwards the block. -/
  | cascadeTimeReceive (l : Fin 2) (b : TimeBlock) (arrival : Tick)
  /-- LINK_DELAY_EXCHANGE (R628). Every 1 s a member measures its skein link delay by a two-way exchange. -/
  | linkDelayExchange (l : Fin 2) (delayNs : Nat)
  /-- SKEIN_LOCK (R647). A skein receiver locks on its alignment units, and in step 7b the path opens. -/
  | skeinLock (l : Fin 2) (atSwift : Bool)
  /-- SKEIN_LINK_DOWN (R648). Missed alignment or 2 µs of silence makes a skein link down. -/
  | skeinLinkDown (l : Fin 2) (lostFrames : Nat)
  /-- SWIFT_FALLBACK (R649). 10 Gb/s training fails for 50 ms, and the link trains at swift. -/
  | swiftFallback (l : Fin 2)
  /-- SWIFTONLY_RETRY (R649). Every 10 s a SWIFTONLY link tries 10 Gb/s for 50 ms. -/
  | swiftonlyRetry (l : Fin 2)
  /-- SKEIN_RATE_FOLLOW (R650). A link follows its partner to swift or back to 10 Gb/s. -/
  | skeinRateFollow (l : Fin 2) (toSwift : Bool)
  /-- SKEIN_FRAME_RECEIVE (R653). A skein frame's header arrives, and the frame is delivered, forwarded or discarded by DST and HOPS. -/
  | skeinFrameReceive (l : Fin 2) (hdr : List Byte) (payload : List Byte) (good : Bool)
  /-- CREDIT_RETURN (R658). A CREDIT block returns credits, letting transit or injection proceed. -/
  | creditReturn (l : Fin 2) (mgmt : Bool) (tc : Fin 8) (n : Nat)
  /-- SKN_CREDSTALL (R658). A credit is not returned for 10 ms, and the link is reset and retrained. -/
  | sknCredstall (l : Fin 2)
  /-- BEACON_SEND (R665). Every 1 ms, or 10 ms in Drowse, the master sends a beacon on both sides. -/
  | beaconSend
  /-- BEACON_RECEIVE (R664). A beacon is received, and a second candidate sets MASTER_CONFLICT. -/
  | beaconReceive (l : Fin 2) (serial : Tick)
  /-- MASTER_TAKEOVER (R665). A standby sees no beacon for 50 ms, and the lowest-serial standby becomes master. -/
  | masterTakeover
  /-- JOIN_RECEIVE (R667). The master takes a JOIN and assigns a device ID. -/
  | joinReceive (l : Fin 2) (j : Join) (pos : Nat)
  /-- ASSIGN_RECEIVE (R668). A device applies its ASSIGN on arrival. -/
  | assignReceive (l : Fin 2) (a : Assign)
  /-- TOPOLOGY_RECEIVE (R669). A TOPOLOGY frame sets the hop counts, preferred directions and ring state. -/
  | topologyReceive (l : Fin 2) (t : Topology)
  /-- KFAULT_SWIFT_CHECK (R673). Every 1 s a Kindle-fault device checks its tap and may open a side for swift. -/
  | kfaultSwiftCheck (l : Fin 2) (sees10g : Bool)
  /-- RELAY_REQUEST (R679). A target runs a relayed inner request as a mailbox command and returns the reply. -/
  | relayRequest (l : Fin 2) (src : BitVec 10) (seq : Nat) (req : List Byte)
  /-- RELAY_REPLY (R354). The master receives a relay reply and answers CASC_RELAY. -/
  | relayReply (l : Fin 2) (seq : Nat) (rep : List Byte)
  /-- CASCADE_TIMEOUT (R685). No relay reply arrives within 100 ms. -/
  | cascadeTimeout (seq : Nat)
  /-- SKEIN_AGEOUT (R768). A skein frame's target is unreachable for 10 ms, and its head frames are discarded. -/
  | skeinAgeout (l : Fin 2)
  /-- PANEL_ROW_SCAN (R691). Each 125 µs a panel row is driven and its columns are sampled. -/
  | panelRowScan (row : Fin 8) (cols : BitVec 16) (idle : BitVec 16) (btns : BitVec 8)
  /-- KEY_REPEAT (R696). A MODE 2 key's repeat time arrives, and a further press entry is queued. -/
  | keyRepeat (k : Fin 136)
  /-- KEY_STUCK (R702). A key stays pressed for STUCK seconds, and it is masked and a stuck entry is queued. -/
  | keyStuck (k : Fin 136)
  /-- ENCODER_SAMPLE (R698). Each 50 µs the encoder phases are sampled, counting steps or ENCERR. -/
  | encoderSample (phases : BitVec 8)
  /-- PNL_QPOP_READ (R733). Reading PNL_QPOP0 pops the oldest panel queue entry. -/
  | pnlQpopRead
  /-- DETUNE_PING (R711). Every PERIOD the reader sends a carrier burst and checks the aerial for detuning. -/
  | detunePing (amp : Nat) (phase : Int)
  /-- TAG_POWER_UP (R720). A reader field powers the tag up in OPEN. -/
  | tagPowerUp
  /-- TAG_FIELD_LOSS (R722). The field falls below activation, and the tag returns to OPEN. -/
  | tagFieldLoss
  /-- TAG_SECURE_EXPIRY (R722). 60 s after SECURED, the tag returns to OPEN. -/
  | tagSecureExpiry
  /-- TAG_BACKOFF_END (R721). The 1.0 s authentication back-off ends. -/
  | tagBackoffEnd
  /-- TAG_INVENTORY (R715). Tag command Inventory. -/
  | tagInventory
  /-- TAG_STAY_QUIET (R715). Tag command Stay quiet. -/
  | tagStayQuiet
  /-- TAG_SELECT (R715). Tag command Select. -/
  | tagSelect (uid : Tick)
  /-- TAG_RESET_TO_READY (R722). Tag command Reset to ready, which also returns the tag to OPEN. -/
  | tagResetToReady
  /-- TAG_GET_SYSTEM_INFORMATION (R715). Tag command Get system information. -/
  | tagGetSystemInformation
  /-- TAG_READ_SINGLE_BLOCK (R717). Tag reads one nameplate block allowed in the present state. -/
  | tagReadSingleBlock (n : Fin 256)
  /-- TAG_READ_MULTIPLE_BLOCKS (R717). Tag reads up to 8 nameplate blocks. -/
  | tagReadMultipleBlocks (n : Fin 256) (count : Fin 9)
  /-- TAG_WRITE_SINGLE_BLOCK (R724). A write of block 72 sets acknowledgement bits in ACKPEND. -/
  | tagWriteSingleBlock (n : Fin 256) (data : List Byte)
  /-- TAG_AUTHENTICATE (R720). AES-128 mutual authentication that can make the tag SECURED. -/
  | tagAuthenticate (key : BitVec 128)
  /-- SECURE_PWD (R720). A custom password command that can make the tag SECURED. -/
  | securePwd (mfr : Byte) (pwd : Word)
  /-- TAG_UNKNOWN_COMMAND (R715). Any other tag command is answered with error 0x01. -/
  | tagUnknownCommand (code : Byte)
  /-- ROV_HDATA_ACCESS (R739). An ROV_HDATA access reads or writes a pattern word and advances ROV_HADDR. -/
  | rovHdataAccess (w : Option Word)
  /-- ROV_START_TICK (R752). The start tick of ROV_START arrives, and the sequencer begins fetching. -/
  | rovStartTick
  /-- VECTOR_CYCLE (R741). A vector cycle begins with its timing set's lane edges, or the last vector is held. -/
  | vectorCycle
  /-- ROV_PLAY (R745). Plays count vectors from ADDR. -/
  | rovPlay
  /-- ROV_JUMP (R745). Sequencer jump. -/
  | rovJump
  /-- ROV_LOOP (R746). Opens a loop. -/
  | rovLoop
  /-- ROV_ENDL (R745). Loop end or repeat. -/
  | rovEndl
  /-- ROV_CALL (R746). Sequencer subroutine call. -/
  | rovCall
  /-- ROV_RET (R745). Sequencer return. -/
  | rovRet
  /-- ROV_WAITR (R745). Holds the last vector until a Reel low-word value. -/
  | rovWaitr
  /-- ROV_WAITR_EXPIRY (R759). The Reel reaches the WAITR value, and the program continues. -/
  | rovWaitrExpiry
  /-- ROV_ASTART (R750). Starts an analog stream. -/
  | rovAstart
  /-- ROV_ASTOP (R745). Stops an analog stream. -/
  | rovAstop
  /-- ROV_EVT (R745). Raises one task-input event. -/
  | rovEvt
  /-- ROV_HALT (R753). Ends the program with lanes and outputs at idle. -/
  | rovHalt
  /-- ROV_BADOP (R745). An illegal sequence instruction halts the sequencer with BADOP. -/
  | rovBadop
  /-- AGEOUT_START (R766). A wire egress link has been down for 10 ms, and discarding of its head frames begins. -/
  | ageoutStart (p : Fin 12)
  /-- AGEOUT_DISCARD (R766). At line-rate pacing a down egress discards the next head frame. -/
  | ageoutDiscard (p : Fin 12)
  /-- STALL_REFUSAL_START (R770). An RX ring has been stalled for 1 ms, and its bobbin refuses further frames. -/
  | stallRefusalStart (b : BitVec 16)
  /-- LEDGER_UNTRUSTED (R166). E_L reaches 0 while E_V is above 0 at a HOLDUP sample, and the coulomb ledger becomes untrusted so no unit starts. -/
  | ledgerUntrusted (l : HoldupSample)
  /-- EGRESS_FRAME_END (R466). A frame on a wire egress finishes transmission, its cells are freed and the egress becomes free to select the next frame. -/
  | egressFrameEnd (p : Fin 14)
  /-- PCIE_LINK_UP (R123). The PCIe link comes up, which releases WAKE_N after a self-wake and lets the host be served over the link. -/
  | pcieLinkUp
  /-- UNWATCHED_BANK_LOSS (R73). In Drowse a VIO bank that is not watched leaves its operating range with no reset, and the functions it serves (charger, reader pings, wake sources) stop. -/
  | unwatchedBankLoss (bank : Fin 13)
  /-- UNWATCHED_BANK_RETURN (R86). An unwatched VIO bank returns to its operating range in Drowse, and the functions it serves resume. -/
  | unwatchedBankReturn (bank : Fin 13)
  /-- ANALOG_STREAM_END (R750). An analog stream with LOOP 0 plays its last sample, and the channel then holds its last output. -/
  | analogStreamEnd (c : Fin 2)
  deriving DecidableEq, Repr

end Sys2Proof
end

