-- ==== Sys2Proof/Decode.lean ====
section
/-!
DEFINITION. Reading a command from bits. The block takes commands, and spec/opcode_table.json gives no row any bits, so no
word of the table spells a command (notes/assumptions/2.md). The Yukin instructions have an encoding of their own (Tables 4.3
to 4.9), read here. The other encodings (the steward's messages, the flyers' and the sequencer's program words, a frame's
header) are read where the chapters that give them stand.
-/

namespace Sys2Proof

/-- The command a word of `nbits` bits spells by the table: none, since the table gives no row any bits. -/
def decodeTableWord (_nbits _w : Nat) : Option Instr := none

/-! ### Yukin instruction words (R217 to R219, R222, R223) -/

/-- The register group, op 0x00 (Table 4.4): sh is 0 but in the shifts by it, rb is 0 where it is not used. -/
def yukinReg (c : Core) (w : Word) : Option Instr :=
  let rd : GReg := w.extractLsb' 21 5
  let ra : GReg := w.extractLsb' 16 5
  let rb : GReg := w.extractLsb' 11 5
  let sh : BitVec 5 := w.extractLsb' 6 5
  let three (i : Core → GReg → GReg → GReg → Instr) : Option Instr := if sh = 0 then some (i c rd ra rb) else none
  let shift (i : Core → GReg → GReg → BitVec 5 → Instr) : Option Instr := if rb = 0 then some (i c rd ra sh) else none
  match bitsOf w 0 6 with
  | 0x00 => three .addR
  | 0x01 => three .subR
  | 0x02 => three .andR
  | 0x03 => three .orR
  | 0x04 => three .xorR
  | 0x06 => three .sll
  | 0x07 => three .srl
  | 0x08 => three .sra
  | 0x09 => three .slt
  | 0x0A => three .sltu
  | 0x0B => three .mul
  | 0x0C => three .mulh
  | 0x0D => three .mulhu
  | 0x0E => three .divR
  | 0x0F => three .divu
  | 0x10 => three .remR
  | 0x11 => three .remu
  | 0x12 => if sh = 0 ∧ rb = 0 then some (.clz c rd ra) else none
  | 0x13 => shift .slli
  | 0x14 => shift .srli
  | 0x15 => shift .srai
  | _ => none

/-- The system group, op 0x3F (Table 4.9). -/
def yukinSys (c : Core) (w : Word) : Option Instr :=
  let bare (i : Core → Instr) : Option Instr := if bitsOf w 6 20 = 0 then some (i c) else none
  match bitsOf w 0 6 with
  | 0x00 => bare .sync
  | 0x01 => if bitsOf w 16 10 = 0 then some (.svc c (w.extractLsb' 6 10)) else none
  | 0x02 => bare .eret
  | 0x03 => if bitsOf w 6 10 = 0 then some (.mfc c (w.extractLsb' 21 5) (w.extractLsb' 16 5)) else none
  | 0x04 => if bitsOf w 6 5 = 0 ∧ bitsOf w 21 5 = 0 then some (.mtc c (w.extractLsb' 16 5) (w.extractLsb' 11 5)) else none
  | 0x05 => bare .waitI
  | 0x06 => bare .brk
  | _ => none

/-- The instruction that a word spells on a core, by the formats of Table 4.3; none for a word that raises ILLEGAL: an op or
fn not listed, a field that must be 0 and is not, a bit field past bit 31, lane mode 11 of PERM. -/
def yukinOf (c : Core) (w : Word) : Option Instr :=
  let d : GReg := w.extractLsb' 21 5
  let a : GReg := w.extractLsb' 16 5
  let imm : BitVec 16 := w.extractLsb' 0 16
  let pos : BitVec 5 := w.extractLsb' 11 5
  let wm1 : BitVec 5 := w.extractLsb' 6 5
  let seg : BitVec 4 := w.extractLsb' 12 4
  let off : BitVec 12 := w.extractLsb' 0 12
  let fits : Prop := bitsOf w 0 5 = 0 ∧ pos.toNat + wm1.toNat + 1 ≤ 32
  match bitsOf w 26 6 with
  | 0x00 => yukinReg c w
  | 0x01 => some (.addi c d a imm)
  | 0x02 => some (.andi c d a imm)
  | 0x03 => some (.ori c d a imm)
  | 0x04 => some (.xori c d a imm)
  | 0x05 => some (.slti c d a imm)
  | 0x06 => some (.sltiu c d a imm)
  | 0x07 => if a = 0 then some (.lui c d imm) else none
  | 0x08 => if fits then some (.bfx c d a pos wm1 (bitOf w 5)) else none
  | 0x09 => if fits ∧ bitOf w 5 = false then some (.bfi c d a pos wm1) else none
  | 0x0A => if (List.range 4).any fun i => imm.toNat / 16 ^ i % 16 / 4 == 3 then none else some (.perm c d a imm)
  | 0x10 => some (.lb c d a seg off)
  | 0x11 => some (.lbu c d a seg off)
  | 0x12 => some (.lh c d a seg off)
  | 0x13 => some (.lhu c d a seg off)
  | 0x14 => some (.lw c d a seg off)
  | 0x15 => some (.sb c d a seg off)
  | 0x16 => some (.sh c d a seg off)
  | 0x17 => some (.sw c d a seg off)
  | 0x18 => if d.toNat < 16 then some (.segld c d a seg off) else none
  | 0x19 => if d.toNat < 16 then some (.segst c d a seg off) else none
  | 0x20 => some (.beq c d a imm)
  | 0x21 => some (.bne c d a imm)
  | 0x22 => some (.blt c d a imm)
  | 0x23 => some (.bge c d a imm)
  | 0x24 => some (.bltu c d a imm)
  | 0x25 => some (.bgeu c d a imm)
  | 0x26 => some (.j c (w.extractLsb' 0 26))
  | 0x27 => some (.jal c (w.extractLsb' 0 26))
  | 0x28 => some (.jalr c d a imm)
  | 0x30 => if bitsOf w 0 18 = 0 then some (.bmove c (w.extractLsb' 22 4) (w.extractLsb' 18 4)) else none
  | 0x31 => if bitsOf w 0 22 = 0 then some (.bfill c (w.extractLsb' 22 4)) else none
  | 0x32 => if bitsOf w 0 18 = 0 ∧ bitsOf w 22 4 = 0 then some (.crc32 c (w.extractLsb' 18 4)) else none
  | 0x3F => yukinSys c w
  | _ => none

end Sys2Proof
end

