-- ==== Sys2Proof/Config.lean ====
section
/-!
DEFINITION. What a Farelle is made with (one-time-programmable fuses, the boot ROM's contents) and the values the manual
leaves open. Each is an opaque constant: nothing in Lean can evaluate one, so a proof holds for every value of it.
-/

namespace Sys2Proof.Config

/-- The 64-bit serial number held in fuses (Table 5.2). -/
opaque serial : BitVec 64
/-- The IC manufacturer code held in fuses (R716). -/
opaque mfr : Byte
/-- The four 32-byte key hashes held in fuses (R584). -/
opaque keyHash : Fin 4 → List Byte
/-- The reference delay of pace monitor `n`, held in fuses (R381, R401), in 62.5 ps units. -/
opaque paceRef : Nat → Nat
/-- The contents of the 64 KiB boot ROM by offset (R207): the manual gives the ROM no contents. -/
opaque bootRom : Nat → Byte
/-- Silicon stepping: this manual documents stepping 2 (R1). -/
def stepping : Nat := 2
/-- Steward 3.2 (R1, Table 5.2). -/
def fwver : Nat := 0x0302

/-- The 16-bit uniform draw of a WRED decision (R459), by the count of draws made before it. -/
opaque draw16 : Nat → BitVec 16
/-- Whether a gated unit was programmed above 105 °C, by the count of page programs before it (R144): the junction
temperature is no input of the model. -/
opaque hotUnit : Nat → Bool
/-- The 13 bytes of BCH parity over a page's data and wear count: the manual names the code and not its polynomial (R141). -/
opaque bchParity : List (BitVec 8) → List (BitVec 8)
/-- The revision ID byte of the PCI configuration space, which the manual does not give (Table 5.1). -/
opaque pciRevision : BitVec 8
/-- The UNIT code of DST_STAT while a BOOT copy is written: Table 3.7 gives that unit no code (R201). -/
opaque bootUnit : BitVec 3
/-- A value the manual leaves open, by the count of such values taken before it (`State.free`). -/
opaque freeWord : Nat → BitVec 32
/-- Spindle profiles, code and safe data of an image's section 3: the manual names what the section holds (Table 12.2)
and gives no layout, so how its bytes spell code is open. The code store's bytes. -/
opaque sect3Code : List Byte → List Byte
/-- The 16 words a profile of section 3 names, by profile number: the manual gives no layout (Table 12.2). Element 0 is
the data area's base, 1 its length; 2 to 9 the bobbins of the frame window (65,536 where none); 10, 11 the flyers as
masks of 24 bits; 12 the task-input mask; 13 the CAN controllers; 14 the Ethernet ports; 15 the gates. -/
opaque sect3Profile : List Byte → Nat → List Nat
/-- What the data areas of its spindles first hold, by data-memory address: the part of a whorl schedule item that follows
its slot records, whose layout is the module's own parameter map (R786). -/
opaque leaData : List Byte → List (Nat × Byte)
/-- The bytes of sections 3 and 6 that spindle `n`'s SPINHASH is taken over: section 3 has no layout in the manual. -/
opaque spinParts : List Byte → List Byte → Nat → List Byte
/-- The extension manifests of section 2: for extension `i` its code length, data length and budget, if it names one; the
manual gives the manifest no layout (Table 12.2). -/
opaque sect2Manifest : List Byte → Nat → Option (Nat × Nat × Option Nat)
/-- The code of extension `i` of a section 2 (Table 4.12a). -/
opaque sect2Code : List Byte → Nat → List Byte
/-- Entry point of extension `i`, an offset in s8: in the manifest, which the manual gives no layout (Table 4.12a). -/
opaque extEntry : List Byte → Nat → BitVec 32
/-- Which of the codes of Table 6.13 the event record of the extension service LOG carries, by its place in the table: the
manual names none for it (Table 4.12b). -/
opaque extLogPick : Nat
/-- The UID-independent answer of Get system information, whose layout ISO/IEC 15693 gives and the manual does not. -/
opaque tagSystemInfo : List Byte
/-- Whether phase A leading phase B counts an encoder up with DIR 0: the manual does not say (R697). -/
opaque encUp : Bool
/-- The code an analog channel drives from the 16 samples its resampler holds and its phase of 64: the manual gives no
coefficients of the polyphase resampler (R749). -/
opaque resampled : List Nat → Nat → BitVec 16

end Sys2Proof.Config
end

