-- ==== Sys2Proof/Machine/Tab.lean ====
section
/-!
DEFINITION. Sparse tables in ONE canonical form: keys strictly rising, and no entry equal to what an unlisted key reads as.
Every memory and every register array of the State is one of these, so that equal contents are equal data.
-/

namespace Sys2Proof

/-- A sparse table of `α` by number. An unlisted key reads as the table's default. -/
abbrev Tab (α : Type) := List (Nat × α)

/-- A byte memory: `Host.Cell` pairs. -/
abbrev Mem := Tab Byte

variable {α : Type}

/-- What key `i` reads as, `d` giving the value of an unlisted key. -/
def Tab.get (d : Nat → α) : Tab α → Nat → α
  | [], i => d i
  | (k, v) :: t, i => if i = k then v else if i < k then d i else Tab.get d t i

/-- The table without key `i`. -/
def Tab.erase : Tab α → Nat → Tab α
  | [], _ => []
  | (k, v) :: t, i => if i = k then t else if i < k then (k, v) :: t else (k, v) :: Tab.erase t i

/-- The table with key `i` listed as `x`. -/
def Tab.put : Tab α → Nat → α → Tab α
  | [], i, x => [(i, x)]
  | (k, v) :: t, i, x =>
    if i = k then (i, x) :: t else if i < k then (i, x) :: (k, v) :: t else (k, v) :: Tab.put t i x

/-- Key `i` becomes `x`: writing the value an unlisted key reads as removes the entry. -/
def Tab.set [DecidableEq α] (d : Nat → α) (t : Tab α) (i : Nat) (x : α) : Tab α :=
  if x = d i then t.erase i else t.put i x

/-- Key `i` becomes `f` of what it reads as. -/
def Tab.upd [DecidableEq α] (d : Nat → α) (t : Tab α) (i : Nat) (f : α → α) : Tab α :=
  t.set d i (f (t.get d i))

/-- The keys lie above `lo`, rise strictly, and no entry equals the default. -/
def Tab.okFrom [DecidableEq α] (d : Nat → α) : Option Nat → Tab α → Bool
  | _, [] => true
  | lo, (k, v) :: t =>
    (match lo with | none => true | some l => decide (l < k)) && decide (v ≠ d k) && Tab.okFrom d (some k) t

/-- The canonical form. -/
def Tab.wf [DecidableEq α] (d : Nat → α) (t : Tab α) : Bool := Tab.okFrom d none t

/-- Each listed value through `f` with its key, back in canonical form: how a reset kind passes over a table. -/
def Tab.mapVals [DecidableEq α] (d : Nat → α) (f : Nat → α → α) (t : Tab α) : Tab α :=
  t.foldl (fun acc e => acc.set d e.1 (f e.1 e.2)) []

/-- A number put in its place in a rising list. -/
def insertNat (x : Nat) : List Nat → List Nat
  | [] => [x]
  | y :: ys => if x ≤ y then x :: y :: ys else y :: insertNat x ys

/-- Numbers in ascending order. -/
def ascending (l : List Nat) : List Nat := l.foldr insertNat []

/-- What every unlisted byte of a memory reads as. -/
def zeroByte : Nat → Byte := fun _ => 0

/-- One byte of a memory. -/
def Mem.byte (m : Mem) (a : Nat) : Byte := Tab.get zeroByte m a

/-- One byte written. -/
def Mem.setByte (m : Mem) (a : Nat) (b : Byte) : Mem := Tab.set zeroByte m a b

/-- `n` bytes from address `a` upward. -/
def Mem.bytes (m : Mem) (a n : Nat) : List Byte := (List.range n).map fun i => m.byte (a + i)

/-- The little-endian number of `n` bytes at `a` (R7). -/
def Mem.num (m : Mem) (a n : Nat) : Nat := ofLE (m.bytes a n)

/-- Bytes written from address `a` upward. -/
def Mem.write (m : Mem) (a : Nat) : List Byte → Mem
  | [] => m
  | b :: bs => Mem.write (m.setByte a b) (a + 1) bs

/-- The canonical form of a memory. -/
def Mem.wf (m : Mem) : Bool := Tab.wf zeroByte m

end Sys2Proof
end

