-- ==== Sys2Proof/Machine/State.lean ====
section
/-!
DEFINITION. The machine's state as plain data: one structure per block of Table 0.6, each holding what its chapter gives
the block, and the queue of commands that wait. Registers that software writes (RW, W1C, W1S fields) stand in `regs`, by
address; what only the hardware changes is a typed field of its block. State.reset is the Farelle after power-on.
-/

namespace Sys2Proof.Machine

/-- Why the model stops. No command of this block stops it: every error the manual gives has an effect on the state
(a steward fault enters its vector, a bad command is answered, a lost frame is counted), so there is no constructor. -/
inductive Fault where
  deriving DecidableEq, Repr

/-- Why the model gives a command no meaning. -/
inductive Refusal where
  /-- Raised by an arm of `exec` whose command has no meaning yet; safe, since the model stops where the hardware goes on. -/
  | notModelled (mnemonic : String)
  deriving DecidableEq, Repr

/-! ### SYS: modes, kindle, fault recorder (chapter 02) -/

/-- The six modes (R83). -/
inductive Mode where
  | dark
  | kindle
  | spin
  | brace
  | drowse
  | service
  deriving DecidableEq, Repr

/-- What a kindle follows (R782). -/
inductive KCause where
  | cold
  | pin
  | cmd
  | wake
  deriving DecidableEq, Repr

/-- A LOG record before the LOG region gives it its INDEX: an entry of the fault recorder (R110, Table 6.12). -/
structure FaultRec where
  code : Nat
  block : Nat
  mode : Byte
  reel : Tick
  detail : List Byte
  kindles : Nat
  deriving DecidableEq, Repr

/-- SYS_KREC, the kindle record (R140, Table 2.14). -/
structure KRec where
  lateStep : Nat := 0
  slot : Bool := false
  wake : Bool := false
  limp : Bool := false
  late : Bool := false
  loss : Bool := false
  cascLate : Bool := false
  cert : Bool := false
  imgNone : Bool := false
  rollback : Bool := false
  fallback : Bool := false
  confDefault : Bool := false
  deriving DecidableEq, Repr

/-- The causes of the resets whose kindle has not begun, latched at their instants in the Distaff domain (R134): their bits
of SYS_RSTCAUSE, the rail of a COLD reset, and the kindle step that ran then, 0 outside Kindle (R136). -/
structure ResetLatch where
  mask : BitVec 8
  rail : Nat := 0xFF
  step : Nat := 0
  deriving DecidableEq, Repr

/-- Modes, kindle progress and the always-on fault recorder. -/
structure Sys where
  mode : Mode := .dark
  retMode : Mode := .dark
  kstep : Nat := 0
  limp : Bool := false
  kfault : Bool := false
  straps : Straps := ⟨false, 0, 0⟩
  /-- A kindle that has not begun: what it follows (R782). -/
  due : Option KCause := some .cold
  /-- What the kindle in progress, or the last one, followed (R91, R782). -/
  kcause : KCause := .cold
  /-- Time zero of that kindle has been reached (R782). -/
  timeZero : Bool := false
  resetNLow : Bool := false
  /-- The 10 ms off time of a command WARM reset runs (R783). -/
  offTime : Bool := false
  latch : Option ResetLatch := some { mask := 1 }
  railIdx : Nat := 0
  ktime : Tab Nat := []
  /-- SYS_KFAULT fields (Table 2.11). -/
  lost : Nat := 0
  retries : Nat := 0
  kfStep : Nat := 0
  kfRail : Nat := 0
  kfCode : Nat := 0
  braceEntries : Nat := 0
  braceRecovered : Nat := 0
  krec : KRec := {}
  recorder : List FaultRec := []
  /-- The recovery window of R115 is open. -/
  window : Bool := false
  /-- A wake is held pending (R86), or was caught in Drowse entry (R130). -/
  wakePending : Bool := false
  /-- Drowse entry is running (R120); who asked for it, with the SEQ of the request and the tick at which it was accepted
  (R129). -/
  entering : Bool := false
  drowseReq : Option (ReqSrc × Nat × Tick) := none
  /-- Kindle steps found late in this kindle (R132). -/
  lateSteps : BitVec 8 := 0
  /-- Position in the order VISL, VCORE, VSD18, VSD09 of the rail being enabled (R25); 4 when all are ready. -/
  railPos : Nat := 0
  /-- Attempts that failed on that rail (R106). -/
  railTries : Nat := 0
  /-- The rail's REG_EN is low for the off time of a retry (R106). -/
  retryOff : Bool := false
  pllLocked : Bool := false
  pllTries : Nat := 0
  /-- The crystal has been found ready in limp state, and the report made (R105). -/
  xtalLate : Bool := false
  /-- An image update has been written, so Spin waits for a WARM reset (R84). -/
  imgUpdated : Bool := false
  /-- RESET_WARM has been answered, and its WARM reset follows (R351). -/
  resetDue : Bool := false
  /-- The Drowse this kindle wakes from was entered in limp state (R89). -/
  wakeLimp : Bool := false
  wakeNLow : Bool := false
  /-- SYS_STWERR (Table 4.18). -/
  eccCorr : Nat := 0
  extFaults : Nat := 0
  doubles : Nat := 0
  /-- SYS_PACEn MEAS (R401). -/
  pace : Tab Nat := []
  kindles : Nat := 0
  deriving DecidableEq, Repr

/-! ### PWR (chapters 01 and 03) -/

/-- Supplies, charger, energy gate. Switched rails carry their rail index: 0 VCORE, 1 VISL, 2 VSD09, 3 VSD18 (R78). -/
structure Pwr where
  /-- Rails inside their ranges, by rail index; what is reported of VIO33 (4) and VIO18 (5) is `banks`'. -/
  railOk : BitVec 8 := 0
  /-- Banks inside their operating ranges, in the order of Table 1.4 from IOB_PWR on: 0 PWR, 1 HOST, 2 CAN, 3 PNL, 4 to 9
  FB0 to FB5, 10 RGM, 11 ROV, 12 RAN. -/
  banks : BitVec 13 := 0
  senseWarn : Bool := true
  hucAct : Bool := false
  distaffUp : Bool := true
  regEn : BitVec 4 := 0
  /-- Switched rails found ready and watched (R26, R73). -/
  ready : BitVec 4 := 0
  /-- Rails with a tied PG in this kindle (R28). -/
  pgTied : BitVec 4 := 0
  /-- The VCORE_VID code on the balls (R30). -/
  vidOut : Nat := 56
  /-- BYPE_N outputs driven low (R58). -/
  bypeLow : BitVec 4 := 0
  /-- Ports whose settle time runs (R62). -/
  settling : BitVec 4 := 0
  /-- HOLDUP_SLOW has been logged for the present charge (R75); HOLDUP_LEAK while the charger has stayed off (R76). -/
  slowLogged : Bool := false
  leakLogged : Bool := false
  /-- The coulomb ledger Q in nC, and the estimates in µJ (R163, R164). -/
  q : Nat := 0
  eLedger : Nat := 0
  eVolt : Nat := 0
  vMv : Nat := 0
  trusted : Bool := false
  recals : Nat := 0
  capMeas : Option Nat := none
  /-- The Reel when a page was last programmed, and at the last recalibration (R167, R193). -/
  lastProg : Tick := 0
  lastRecal : Option Tick := none
  /-- The configuration has been applied in this power-up's last kindle (R199). -/
  confApplied : Bool := false
  deriving DecidableEq, Repr

/-! ### Configuration and transactions (chapter 06) -/

/-- The contents of one configuration item: L bytes (R784); of steward settings also the word numbers that records have
written, rising, since a word that none wrote leaves its register as it is. -/
structure Item where
  len : Nat := 0
  bytes : Mem := []
  words : List Nat := []
  deriving DecidableEq, Repr

/-- A configuration: items by ITEM × 65,536 + INST (R322). -/
abbrev Conf := Tab Item

/-- A staged record (R323). -/
structure Rec where
  item : Nat
  inst : Nat
  off : Nat
  data : List Byte
  deriving DecidableEq, Repr

/-- Transaction states (Table 6.5). -/
inductive TxnState where
  | opened
  | journaling
  | waiting
  | applying
  | done
  | aborted
  deriving DecidableEq, Repr

/-- An item applied after the epoch tick (R337). -/
structure Applied where
  item : Nat
  inst : Nat
  ns : Nat
  deriving DecidableEq, Repr

/-- A pin function that waits for its seam: the pin, its new PINCFG, the transaction, the seam. -/
structure SeamPin where
  pin : Nat
  cfg : Word
  txn : Nat
  tick : Tick
  deriving DecidableEq, Repr

/-- A configuration transaction. -/
structure Txn where
  h : Nat
  st : TxnState := .opened
  recs : List Rec := []
  staged : Nat := 0
  persist : Bool := false
  nonatomic : Bool := false
  /-- EKIND 1: a Reel epoch. -/
  reelEpoch : Bool := false
  strand : Nat := 0
  /-- The Reel tick named, or the first tick the strand boundary may have (R331, R332). -/
  tick : Tick := 0
  src : Option ReqSrc := none
  tailSeq : Nat := 0
  durable : Bool := false
  late : Bool := false
  full : Bool := false
  seq : Nat := 0
  epochReel : Tick := 0
  applied : List Applied := []
  canMask : BitVec 8 := 0
  ethMask : BitVec 16 := 0
  /-- What R334 has still to do before step 5: pins at the seam (3), controllers (4), leas of other strands (1); step 4 has
  begun; step 5 has been started for every port. -/
  seamLeft : Bool := false
  canBegun : Bool := false
  canLeft : BitVec 8 := 0
  leaLeft : List Nat := []
  portsDone : Bool := false
  pages : Nat := 0
  /-- Aborted by idle expiry (R329). -/
  expired : Bool := false
  /-- Flyer banks whose inactive page holds the program it stages (R434). -/
  banks : List Nat := []
  deriving DecidableEq, Repr

/-- The transactions, the running configuration and what follows from it. -/
structure TxnSt where
  txns : List Txn := []
  nextH : Nat := 1
  /-- The running configuration. -/
  conf : Conf := []
  /-- A commit without PERSIST has been applied since the last durable one (R338, R340). -/
  isVolatile : Bool := false
  /-- The image default configuration is in force (R92, R158). -/
  confDefault : Bool := false
  /-- Pin functions that hand over at a seam (R334 step 3, R432). -/
  seamPins : List SeamPin := []
  deriving DecidableEq, Repr

/-! ### DST: the Distaff (chapter 03) -/

/-- Slot states (R174). -/
inductive SlotState where
  | empty
  | writing
  | trial
  | good
  | bad
  deriving DecidableEq, Repr

/-- The slot control page of a BOOT copy (R174). `active` true is IMG_B. -/
structure SlotCtl where
  bseq : Nat := 0
  active : Bool := false
  stA : SlotState := .empty
  stB : SlotState := .empty
  tries : Nat := 0
  kindles : Nat := 0
  deriving DecidableEq, Repr

/-- A programmed page of the journal ring: its 512 bytes, and whether it reads uncorrectable (R142, R148). -/
structure JPage where
  bytes : List Byte := []
  bad : Bool := false
  deriving DecidableEq, Repr

/-- The header of a levelled physical segment (Table 3.2), and the segment's wear. -/
structure SegHdr where
  region : Nat
  lseg : Nat
  gen : Nat
  valid : Bool
  retired : Bool
  /-- CONF: the lowest commit sequence with a page in the segment. -/
  firstSeq : Nat := 0
  deriving DecidableEq, Repr

/-- A persistent configuration commit handed to the Distaff (R171). `full`: its records carry every item (R338). -/
structure Commit where
  txn : Nat
  recs : List Rec
  schema : Nat
  full : Bool := false
  /-- What the engine fixed when the commit started (R153): checkpoint or delta, record bytes, CONFHASH, SEQ, BASESEQ. -/
  chosen : Bool := false
  asCkpt : Bool := false
  body : List Byte := []
  hash : List Byte := []
  seq : Nat := 0
  base : Nat := 0
  /-- Record pages written so far, and where the next and the first lie in the ring. -/
  written : Nat := 0
  pos : Nat := 0
  first : Nat := 0
  /-- Refused or reset while a chunk before its last ran: nothing of it follows that chunk (R188). -/
  dead : Bool := false
  /-- A commit without PERSIST has been applied since this one started (R153). -/
  stale : Bool := false
  deriving DecidableEq, Repr

/-- The gated units that wait or run (R159, R190). -/
inductive GUnit where
  /-- Copy 1 (false) or copy 2 (true) of the slot control. -/
  | boot (copy2 : Bool) (ctl : SlotCtl) (repair : Bool)
  | commit (pages : Nat) (last : Bool)
  | log
  | nameplate (blocks : List (Nat × List Byte))
  | image (off : Nat) (data : List Byte)
  | migration (src dst : Nat)
  | scrub (page : Nat)
  deriving DecidableEq, Repr

/-- A LOG record in the LOG region (R355). -/
structure LogRec where
  index : Nat
  r : FaultRec
  deriving DecidableEq, Repr

/-- An image write in progress (R352): the slot, its SIZE, and the byte ranges written. -/
structure ImgWrite where
  slotB : Bool
  size : Nat
  ranges : List (Nat × Nat)
  deriving DecidableEq, Repr

/-- The Distaff store. -/
structure Dst where
  copy1 : Option SlotCtl := some {}
  copy2 : Option SlotCtl := some {}
  /-- The slot control in use (R175); step 4 found no copy with a valid CRC. -/
  ctl : SlotCtl := {}
  bootLost : Bool := false
  imgA : Mem := []
  imgB : Mem := []
  imgWrite : Option ImgWrite := none
  /-- The slot the kindle booted: its image is the active image. `none`: no image (R94). -/
  booted : Option Bool := none
  /-- The journal ring by ring position (R148). -/
  ring : Tab JPage := []
  ringHead : Nat := 0
  /-- Highest SEQ found on any journal page (R152). -/
  maxSeq : Nat := 0
  /-- SEQ of the last durable commit, of its checkpoint; pages since it. -/
  seq : Nat := 0
  ckptSeq : Nat := 0
  live : Nat := 0
  /-- Ring position of the first page of the latest durable checkpoint. -/
  ckptFirst : Nat := 0
  hash : List Byte := []
  /-- The configuration replay reaches from the latest durable checkpoint is the one running (R153). -/
  chainOk : Bool := false
  commits : Nat := 0
  /-- The configuration step 4 reached, with the SEQ and SCHEMA of its commit (R155). -/
  replayed : Option (Conf × Nat × Nat) := none
  staged : Option Commit := none
  inflight : Option Commit := none
  waiting : List GUnit := []
  running : Option GUnit := none
  /-- Levelled segments by physical number, where they differ from the factory map; wear by physical page. -/
  segs : Tab SegHdr := []
  wear : Tab Nat := []
  /-- Verify failures by physical page (R183). -/
  fails : Tab Nat := []
  wearMax : Nat := 0
  wearSum : Nat := 0
  programs : Nat := 0
  hotPrograms : Nat := 0
  retired : Nat := 0
  spareLeft : Nat := 635
  scrubbing : Bool := false
  scrubPage : Nat := 0
  scrubRewritten : Nat := 0
  scrubCount : Nat := 0
  scrubUncorr : Nat := 0
  log : List LogRec := []
  logNext : Nat := 0
  /-- The NAMEPLATE region: 256 blocks of 32 bytes (R716). -/
  nameplate : Mem := []
  /-- Distaff metadata has been read in step 4 (R200). -/
  loaded : Bool := false
  deriving DecidableEq, Repr

/-! ### The steward core (chapter 04) -/

/-- A segment register (R212). -/
structure Seg where
  base : Word := 0
  limit : Word := 0
  rights : Word := 0
  deriving DecidableEq, Repr

/-- A buffered store (R240): physical address, size in bytes, value. -/
structure SbEntry where
  pa : Nat
  size : Nat
  val : Word
  deriving DecidableEq, Repr

/-- The steward core. -/
structure Stw where
  g : Tab Word := []
  seg : Tab Seg := [(0, ⟨0xFFFF0000, 0x10000, 0xB⟩)]
  pc : Word := 0
  fh : Bool := false
  pext : Bool := false
  pie : Bool := false
  ext : Bool := false
  ie : Bool := false
  epc : Word := 0
  ecause : Word := 0
  eaddr : Word := 0
  vbase : Word := 0xF800
  ipend : Word := 0
  imask : Word := 0
  xbudget : Nat := 0
  timer : Word := 0
  scratch0 : Word := 0
  scratch1 : Word := 0
  sram : Mem := []
  /-- SRAM words (by word number) marked uncorrectable (R246). -/
  eccBad : Tab Bool := []
  /-- Words with a single-bit error (R209). -/
  eccSoft : Tab Bool := []
  sb : List SbEntry := []
  waiting : Bool := false
  /-- The extension running (R251); the firmware's general registers, pc and IE before it, kept in the invocation frame. -/
  extIdx : Option Nat := none
  extSaved : Tab Word × Word × Bool := ([], 0, false)
  extFault : Tab Nat := []
  /-- Extensions loaded at kindle: code length, data length, budget (R252). -/
  exts : Tab (Nat × Nat × Nat) := []
  /-- Section 2 of the image they came with. -/
  sect2 : List Byte := []
  deriving DecidableEq, Repr

/-! ### Host link (chapter 05) -/

/-- A request the steward has taken and not yet answered (R314, R318). -/
structure Req where
  src : ReqSrc
  seq : Nat
  msg : List Byte
  deriving DecidableEq, Repr

/-- A reply (or extension post) due in host-bound mailbox `mb` (R280, R320). -/
structure Due where
  mb : Nat
  seq : Nat
  msg : List Byte
  /-- The commit whose reply it is (R327). -/
  txn : Option Nat := none
  deriving DecidableEq, Repr

/-- What the Farelle writes to host memory, in order (R301). -/
inductive HostOut where
  | mem (addr : Nat) (data : List Byte)
  | msg (vector : Nat)
  deriving DecidableEq, Repr

/-- A DMA ring beside its registers: HEAD, FRAMES, stall state (Tables 5.6, 17.3); an error in RING_ERR stops it. -/
structure Ring where
  head : Nat := 0
  frames : Word := 0
  /-- When the present stall began, once it has lasted 1 ms (R769, R770). -/
  stallSince : Option Tick := none
  /-- A TX frame waits for admission (R464). -/
  txWaits : Bool := false
  deriving DecidableEq, Repr

/-- A burst in flight: ring, direction, the frames and how many descriptors it returns (R301). -/
structure Burst where
  ring : Nat
  rx : Bool
  frames : List Nat
  descs : Nat
  /-- Read requests to host memory it has outstanding (R304); 0 for an RX burst. -/
  reads : Nat := 0
  deriving DecidableEq, Repr

/-- The host link. -/
structure Hl where
  /-- Device-bound and host-bound message windows: byte 256 × n + offset (Table 5.2). -/
  dev : Mem := []
  hst : Mem := []
  dfull : Word := 0
  hfull : Word := 0
  /-- Device-bound mailboxes in the order of their tail writes (R318). -/
  order : List Nat := []
  taken : List Req := []
  due : List Due := []
  beat : Word := 0
  ready : Bool := false
  spiErr : Bool := false
  spiOut : List Byte := []
  pcieUp : Bool := false
  /-- What the host has set in the endpoint (Table 5.1). -/
  pci : PciCfg := {}
  out : List HostOut := []
  /-- The MSI-X table: 32 entries of 16 bytes, each masked by bit 0 of its last word until the host clears that (the
  entry's layout and reset are PCI's: PRESUMED, log 35); and the pending bits of the PBA. -/
  msix : Mem := (List.range 32).map fun n => (16 * n + 12, 1)
  pba : Word := 0
  rings : Tab Ring := []
  /-- Descriptor arrays: byte 1,048,576 × r + window offset (R299). -/
  desc : Mem := []
  bursts : List Burst := []
  deriving DecidableEq, Repr

/-! ### WHL: the whorl (chapter 07) -/

/-- A slot entry of a lea (Table 7.2). -/
structure SlotDef where
  start : Nat
  len : Nat
  spindle : Nat
  profile : Nat
  entry : Nat
  deriving DecidableEq, Repr

/-- A lea with its strand's parameters. -/
structure Lea where
  ply : Nat
  period : Nat
  phase : Nat
  slots : List SlotDef
  base : Nat
  deriving DecidableEq, Repr

/-- A strand (Table 7.6). -/
structure Strand where
  run : Bool := false
  /-- Its first lea boundary has come: a lea period runs. -/
  on : Bool := false
  lea : Option Lea := none
  pend : Option (Lea × Tick) := none
  pherr : Int := 0
  /-- Reel tick of the boundary of the present period (R362); before the first, the tick at which the strand was started. -/
  boundary : Tick := 0
  /-- Index of the next slot of this period; its start has found another slot running (R392). -/
  next : Nat := 0
  collided : Bool := false
  /-- The strand stops at its next boundary (R120, R394). -/
  stopping : Bool := false
  deriving DecidableEq, Repr

/-- STATE of a spindle (Table 7.6). -/
inductive SpState where
  | idle
  | running
  | hold
  | refused
  deriving DecidableEq, Repr

/-- A spindle. -/
structure Spindle where
  st : SpState := .idle
  /-- The HOLD is because of Brace (R390). -/
  braceHeld : Bool := false
  bracePol : Bool := false
  overruns : Nat := 0
  ctx : Tab Word := []
  codeBase : Nat := 0
  codeLen : Nat := 0
  strand : Nat := 0
  deriving DecidableEq, Repr

/-- A staged entry of a slot: what is released at slot end plus 16 ns, in program order (R369, R371). -/
inductive Staged where
  | store (pa size : Nat) (val : Word)
  | push (f : Nat) (v : Word)
  | pop (f : Nat)
  | act (f : Nat) (w0 w1 : Word)
  | halt (f : Nat)
  | start (f : Nat)
  | cancel (n : Nat) (mask : Word)
  | can (n off : Nat) (v : Word)
  | frame (bobbin : Nat) (bytes : List Byte)
  | enqueue (f : Nat)
  | gate (p : Nat) (mask : Byte)
  | event (n : Nat)
  | tin (n : Nat)
  | edit (p : Nat) (seq off : Nat) (b : Byte)
  | grant (b f : Nat)
  deriving DecidableEq, Repr

/-- Entries to release at a tick for a spindle (R371, R387). -/
structure Release where
  tick : Tick
  spindle : Nat
  entries : List Staged
  deriving DecidableEq, Repr

/-- The slot running now (R368). -/
structure Slot where
  strand : Nat
  index : Nat
  spindle : Nat
  start : Tick
  stop : Tick
  g : Tab Word
  seg : Tab Seg
  pc : Word
  profile : List Nat
  staged : List Staged
  /-- Entries staged, those the frame window stages included (R370, R478). -/
  count : Nat
  /-- Frames granted through s2, in order, with the bobbin each came from (R479). -/
  granted : List (Nat × Nat)
  /-- The enqueue buffer as the slot sees it (Table 9.6), and the first words of timed actions it has written. -/
  enq : Mem
  act0 : Tab Word
  got : Tab Nat
  txres : Tab Nat
  deriving DecidableEq, Repr

/-- An entry of the whorl's fault log (R398): KIND, spindle, slot, tick. -/
structure FlogEntry where
  kind : Nat
  spindle : Nat
  slot : Nat
  tick : Tick
  deriving DecidableEq, Repr

/-- A safe-output entry (Table 12.6). -/
structure SafeOut where
  kind : Nat
  target : Nat
  arg : Nat
  data : Nat
  deriving DecidableEq, Repr

/-- The whorl. -/
structure Whl where
  code : Mem := []
  data : Mem := []
  strands : Tab Strand := []
  spindles : Tab Spindle := []
  slot : Option Slot := none
  releases : List Release := []
  tin : Tab Nat := []
  /-- The enqueue buffer of the frame window, as the committed slots left it (Table 9.6). -/
  enqBuf : Mem := []
  flog : List FlogEntry := []
  flost : Nat := 0
  flogTick : Tick := 0
  /-- The margin M in 0.01 % (R381), and how many updates in a row have found it 20 % or more (R383). -/
  margin : Int := 0
  above20 : Nat := 0
  profiles : Tab (List Nat) := []
  safe : Tab (List SafeOut) := []
  safeFrames : List Byte := []
  /-- The certificate in force, and sections 3 and 6 of the image it came with (R378, R609). -/
  cert : List Byte := []
  sect3 : List Byte := []
  sect6 : List Byte := []
  /-- Nominal relation window and refusals of the certificate in force (R367, R380). -/
  phaseWin : Nat := 0
  refused : BitVec 64 := 0
  deriving DecidableEq, Repr

/-! ### FLY: flyers and pins (chapter 08) -/

/-- A pending timed action (Table 8.3): when it is due, as the 2^-4 ns count of the Reel once fixed, or of its ply. -/
structure Action where
  /-- Due instant in sixteenths of a nanosecond of the Reel, once the action is fixed (R420, R421). -/
  at16 : Option Nat
  w0 : Word
  w1 : Word
  /-- The instant of a ply action, in units of 2^-32 ns of its ply, taken when it was queued (R421). -/
  tgt : Int := 0
  deriving DecidableEq, Repr

/-- HUNT state (R428): the bits held, oldest first, the number of the first of them, the anchor. -/
structure Hunt where
  on : Bool := false
  locked : Bool := false
  bits : List Bool := []
  base : Nat := 0
  /-- The position at which a search starts. -/
  start : Nat := 0
  anchor : Nat := 0
  misses : Nat := 0
  /-- After a lock found in the history, the position the shifter input reads next (R428). -/
  rd : Option Nat := none
  deriving DecidableEq, Repr

/-- A flyer. -/
structure Flyer where
  x : Word := 0
  y : Word := 0
  sh : Word := 0
  fill : Nat := 0
  inF : List Word := []
  outF : List Word := []
  aq : List Action := []
  go : Bool := false
  pc : Nat := 0
  halted : Bool := true
  stalled : Bool := false
  /-- A DLY waits (R407). -/
  delaying : Bool := false
  hunt : Hunt := {}
  deriving DecidableEq, Repr

/-- What a halt holds a pin at until a program next writes it (R435, R436). -/
inductive PinHold where
  | free
  | safe
  | highZ
  deriving DecidableEq, Repr

/-- A pin: the output latch, its direction bit, what the board gives at the ball, the hold of a halt (R403, R406, R436). -/
structure Pin where
  out : Bool := false
  dir : Bool := false
  ball : Bool := false
  hold : PinHold := .free
  deriving DecidableEq, Repr

/-- The flyers, their program pages and the pins. -/
structure Fly where
  fl : Tab Flyer := []
  pins : Tab Pin := []
  /-- Program words: 1,024 × bank + 512 × page + address (R434). -/
  prog : Tab Word := []
  page : BitVec 6 := 0
  /-- The target mode of this kindle has not been entered, and flyers with EN have not started (R445). -/
  wait : Bool := false
  deriving DecidableEq, Repr

/-! ### BOB: fabric (chapters 09 and 17) -/

/-- Where a frame stands: undecided; admitted, its cells reserved or used; or turned away, its bytes discarded as they come. -/
inductive FStage where
  | arriving
  | held
  | gone
  deriving DecidableEq, Repr

/-- A frame the fabric or a receiving port holds. -/
structure Frame where
  id : Nat
  bytes : List Byte
  ingress : Nat
  /-- Reel tick of its SFD, 0 when not ledgered (R504). -/
  ledger : Tick := 0
  verdict : Nat := 0
  trunc : Bool := false
  bad : Bool := false
  /-- Its last byte has arrived. -/
  whole : Bool := false
  /-- Eligible for dequeue or egress (R476). -/
  eligible : Bool := false
  cut : Bool := false
  stage : FStage := .arriving
  /-- CE is set at admission (R463); the egress has to compute a new FCS. -/
  ce : Bool := false
  rewritten : Bool := false
  colour : Nat := 0
  /-- Cells reserved or used, from the steward pool or the shared one (R458); `freed` once only copies remain (R471). -/
  cells : Nat := 0
  freed : Bool := false
  mgmt : Bool := false
  bobbin : Nat := 0
  mirror : Option Nat := none
  copy : Option Nat := none
  csumIns : Bool := false
  tc : Nat := 0
  /-- Through frame (R507). -/
  thru : Bool := false
  /-- Words of its cells with a single-bit error; one of its cells is uncorrectable (R453). -/
  flips : Nat := 0
  uncorr : Bool := false
  deriving DecidableEq, Repr

/-- A frame, or an internal reference to one, in a bobbin (R467, R468). -/
structure QEntry where
  bobbin : Nat
  frame : Nat
  isRef : Bool
  cells : Nat
  /-- A reference admitted with CE: its bobbin's reader sees the frame marked (R459, R468). -/
  ce : Bool := false
  deriving DecidableEq, Repr

/-- Run-time state of one bobbin (Table 9.9). -/
structure Bobbin where
  avg : Nat := 0
  dropped : Nat := 0
  marked : Nat := 0
  refused : Nat := 0
  refusing : Bool := false
  deriving DecidableEq, Repr

/-- A meter's buckets in 2^-16 bytes, when it last refilled, and its counters (R460). -/
structure Meter where
  tc : Nat := 0
  tp : Nat := 0
  last : Tick := 0
  fresh : Bool := true
  green : Word := 0
  yellow : Word := 0
  red : Word := 0
  deriving DecidableEq, Repr

/-- An egress: the frame on the wire, its scheduler, its copy buffer, counters (R465, R468). -/
structure Egress where
  cur : Option Nat := none
  stomped : Bool := false
  /-- On a skein port, the lower-class frame that the TC7 frame on the wire has preempted, and whether it is stomped (R661). -/
  paused : Option (Nat × Bool) := none
  deficit : Tab Nat := []
  rrClass : Nat := 0
  /-- A class has been given its quantum in this visit of the round robin. -/
  fresh : Bool := true
  rrBob : Tab Nat := []
  copyBuf : List Nat := []
  /-- The last frame sent, through its FCS. -/
  sent : List Byte := []
  framesIn : Nat := 0
  framesOut : Nat := 0
  errors : Nat := 0
  truncs : Nat := 0
  stomps : Nat := 0
  deriving DecidableEq, Repr

/-- The fabric. -/
structure Bob where
  frames : List Frame := []
  nextId : Nat := 1
  queue : List QEntry := []
  bobbins : Tab Bobbin := []
  meters : Tab Meter := []
  egress : Tab Egress := []
  /-- The bobbin whose train was launched last, by class (R470). -/
  rrTrain : Tab Nat := []
  cellCorr : Nat := 0
  draws : Nat := 0
  deriving DecidableEq, Repr

/-! ### ETH and CRD (chapter 10) -/

/-- A decision of carding (R523). -/
structure Decision where
  action : Nat
  bobbin : Nat
  meter : Nat
  colour : Nat
  port : Nat
  /-- COPYBOB of the bank that decided (R523, R527). -/
  copyBob : Nat
  deriving DecidableEq, Repr

/-- A frame that has taken a reorder entry (R515), with the DEPTH in force when it began to arrive (R527). -/
structure RxFrame where
  frame : Nat
  depth : Nat := 64
  dealt : Bool := false
  lane : Option Nat := none
  /-- What the lane decides by the bank active when the frame was dealt (R527): the deciding rule, and its action. -/
  rule : Option Nat := none
  decision : Option Decision := none
  decided : Bool := false
  ended : Bool := false
  seen : List Byte := []
  deriving DecidableEq, Repr

/-- An Ethernet port. -/
structure EPort where
  enabled : Bool := false
  link : Bool := false
  anDone : Bool := false
  lpiRx : Bool := false
  lpiTx : Bool := false
  fullDup : Bool := false
  speed : Nat := 0
  mode : Nat := 0
  inTrans : Bool := false
  changed : Tick := 0
  rx : List RxFrame := []
  high : Nat := 0
  rxFcs : Word := 0
  rxRunt : Word := 0
  rxSym : Word := 0
  rxTrunc : Word := 0
  rxOvf : Word := 0
  editLate : Word := 0
  lpiEnt : Word := 0
  linkDown : Word := 0
  miss : Word := 0
  /-- Age-out has begun on the down link (R766). -/
  aging : Bool := false
  /-- The through path's frame in the delay line (R507, R510, R511): FRAMESEQ, the tick of its SFD, its bytes as far as
  the model knows them, whether it has ended, the edits that were in time, whether a late one stomps it; the THRUOUT and
  THRUDELAY in force when it began to arrive (R527). -/
  thruSeq : Nat := 0
  thruTick : Tick := 0
  thruBytes : List Byte := []
  thruEnded : Bool := true
  edits : List (Nat × Byte) := []
  thruStomp : Bool := false
  thruTo : Nat := 0xFF
  thruDly : Nat := 0
  deriving DecidableEq, Repr

/-- The Ethernet ports and carding. -/
structure Eth where
  port : Tab EPort := []
  /-- The active bank (R527). -/
  bank : Bool := false
  hits : Tab Nat := []
  lanes : Tab (List (Nat × Nat)) := []
  nextLane : Nat := 0
  mdioBusy : Bool := false
  deriving DecidableEq, Repr

/-! ### CAN (chapter 11) -/

/-- STATE of a controller (Table 11.6). -/
inductive CanState where
  | active
  | passive
  | busOff
  | integrating
  deriving DecidableEq, Repr

/-- A received frame in a FIFO, with its ledger tick and filter (Table 11.2). -/
structure CanEntry where
  f : CanFrame
  ledger : Tick
  deriving DecidableEq, Repr

/-- A transmit event (R552). -/
structure CanEvent where
  buf : Nat
  result : Nat
  tick : Tick
  deriving DecidableEq, Repr

/-- A CAN controller. -/
structure Can where
  enabled : Bool := false
  st : CanState := .integrating
  tec : Nat := 0
  recv : Nat := 0
  nbt : Word := 0
  dbt : Word := 0
  tdc : Word := 0
  /-- CAN_CTRL LISTEN and NOMATCH, and FDEN, as in force on the bus (R573). -/
  listen : Bool := false
  noMatch : Nat := 0
  fden : Bool := false
  txb : Mem := []
  txreq : Word := 0
  onBus : Option Nat := none
  onBusTick : Tick := 0
  cancelWait : Word := 0
  rxf0 : List CanEntry := []
  rxf1 : List CanEntry := []
  tef : List CanEvent := []
  errs : Word := 0
  busOffs : Word := 0
  pexc : Word := 0
  rxLost : Word := 0
  txDrop : Word := 0
  framesRx : Word := 0
  framesTx : Word := 0
  /-- Bit timing that waits for the bus (R334 step 4), with the transaction. -/
  pend : Option (Word × Word × Word × Nat) := none
  fec : Nat := 0
  fecFired : Bool := false
  changed : Tick := 0
  deriving DecidableEq, Repr

/-! ### PLY: Reel, plies, ledgers (chapter 13) -/

/-- A history entry of a ply (R617): T, V (seconds, ns, 2^-32 ns), I (8.32). -/
structure Hist where
  t : Tick
  sec : Nat
  ns : Nat
  frac : Nat
  incr : Nat
  deriving DecidableEq, Repr

/-- A posted change (R615). -/
structure PlyChange where
  at' : Tick
  step : Option (Bool × Nat × Nat)
  incr : Option Nat
  deriving DecidableEq, Repr

/-- A ply. -/
structure Ply where
  hist : List Hist := []
  hcount : Nat := 0
  chg : Option PlyChange := none
  holdover : Bool := false
  /-- The servo's drift in 2^-64 (R627). -/
  drift : Int := 0
  deriving DecidableEq, Repr

/-- An entry of a ledger ring (Table 13.6): tick, fraction, and the 16- and 8-bit payloads of the ring's kind. -/
structure Ledger where
  tick : Tick
  frac : Nat
  seq : Nat
  tag : Nat
  bobbin : Nat
  deriving DecidableEq, Repr

/-- A ledger ring: its entries by index, WCOUNT, MISSED (R620). -/
structure LRing where
  e : Tab (Option Ledger) := []
  wcount : Nat := 0
  missed : Nat := 0
  deriving DecidableEq, Repr

/-- The Reel, the plies and the ledgers. -/
structure Plys where
  reel : Tick := 0
  /-- The Reel counts (from PLL lock on, R91). -/
  running : Bool := false
  /-- It has started since the last COLD reset: while it does not run its continuation count goes on in the always-on
  domain, in steps of 40 ns (R91, R121, R632), of which `sub` ns have passed. -/
  cont : Bool := false
  sub : Nat := 0
  ply : Tab Ply := []
  pinRing : Tab LRing := []
  txRing : Tab LRing := []
  sknRing : Tab LRing := []
  deriving DecidableEq, Repr

/-! ### SKN: skein (chapter 14) -/

/-- STATE of a skein link (Table 14.4). -/
inductive LinkState where
  | off
  | monitoring
  | training
  | up10g
  | upSwift
  | swiftOnly
  deriving DecidableEq, Repr

/-- A management frame or control block the device sends. -/
inductive SkOut where
  | beacon (l : Nat) (serial : Tick)
  | join (l : Nat) (j : Join)
  | assign (l : Nat) (a : Assign)
  | topology (l : Nat) (t : Topology)
  | time (l : Nat) (b : TimeBlock)
  | relay (target : BitVec 10) (seq : Nat) (req : List Byte)
  | reply (dev : BitVec 10) (seq : Nat) (rep : List Byte)
  | wake (dev : BitVec 10)
  | ack (dev : BitVec 10)
  | fault (l : Nat) (code rail : Nat)
  | credit (l : Nat) (mgmt : Bool) (tc : Nat)
  | abort (l : Nat)
  /-- A frame that TC7 preempted goes on (R661). -/
  | resume (l : Nat)
  /-- A frame this device injects or forwards, with its header. -/
  | frame (l : Nat) (hdr payload : List Byte)
  | linkDown (l : Nat)
  deriving DecidableEq, Repr

/-- A skein link. PATHCLOSED is the path that begins at it: BYP0 for K0, BYP1 for K1 (R645). -/
structure Link where
  st : LinkState := .monitoring
  pathClosed : Bool := true
  locked : Bool := false
  /-- It trains at swift because 10 Gb/s has failed (R649). -/
  fellBack : Bool := false
  /-- In Kindle-fault the side is open for the swift attempt (R673). -/
  kfOpen : Bool := false
  /-- Credits free downstream, per class, and management credits per class (R658, R660). -/
  cred : Tab Nat := []
  mcred : Tab Nat := []
  /-- Frames that wait in this ingress's transit store for the egress (R659): header, payload. -/
  transit : List (List Byte × List Byte) := []
  lastTransit : Tab Bool := []
  txFrm : Word := 0
  rxFrm : Word := 0
  crcErr : Word := 0
  aborts : Word := 0
  lost : Word := 0
  hopDrop : Word := 0
  noRoute : Word := 0
  credStall : Word := 0
  lockLoss : Word := 0
  delayNs : Nat := 0
  changed : Tick := 0
  deriving DecidableEq, Repr

/-- A relay in flight (R679): who asked, and the target. -/
structure Relay where
  seq : Nat
  src : ReqSrc
  tailSeq : Nat
  target : BitVec 10
  /-- The inner request is a wake (R680). -/
  wake : Bool
  /-- The link by which it went (R679). -/
  side : Nat
  deriving DecidableEq, Repr

/-- The skein. -/
structure Skn where
  link : Tab Link := []
  assigned : Bool := false
  master : Bool := false
  conflict : Bool := false
  /-- It has joined the cascade since the kindle began: by JOIN and ASSIGN, or as its master (R98, R677). -/
  joined : Bool := false
  standby : Bool := false
  masterId : BitVec 10 := 0
  dev : BitVec 10 := 0
  masterSerial : Option Tick := none
  closed : Bool := false
  hopsE : Nat := 0
  hopsW : Nat := 0
  members : List Member := []
  broken : List Nat := []
  /-- What the master holds of every serial number seen since its COLD reset (R667). -/
  known : List (Tick × BitVec 10) := []
  /-- Origin of the last time block taken (R627, R628). -/
  lastOrigin : Option Nat := none
  /-- SEQ of the next frame sent (Table 14.1). -/
  txSeq : Nat := 0
  relays : List Relay := []
  nextSeq : Nat := 0
  out : List SkOut := []
  deriving DecidableEq, Repr

/-! ### PNL and TAG (chapter 15) -/

/-- Debounce run of a key (R693): consecutive samples that differ from the state held, and the Reel ms of the first. -/
structure Key where
  run : Nat := 0
  since : Nat := 0
  pressed : Bool := false
  masked : Bool := false
  pressMs : Nat := 0
  /-- Further press entries made (R696); the key no longer repeats. -/
  reps : Nat := 0
  noRep : Bool := false
  deriving DecidableEq, Repr

/-- An entry of the panel queue (R699). -/
structure PEntry where
  key : Nat
  kind : Nat
  ms : Nat
  deriving DecidableEq, Repr

/-- An encoder (R697, R698): last samples and filtered levels of the phases, transitions towards a step, the count. -/
structure Enc where
  lastA : Option Bool := none
  lastB : Option Bool := none
  a : Option Bool := none
  b : Option Bool := none
  acc : Int := 0
  count : BitVec 16 := 0
  deriving DecidableEq, Repr

/-- The panel scanner. -/
structure Pnl where
  keys : Tab Key := []
  enc : Tab Enc := []
  queue : List PEntry := []
  lost : Nat := 0
  popMs : Nat := 0
  /-- Consecutive scans in which column `c` was low with no row driven (Table 15.5). -/
  colBad : Tab Nat := []
  deriving DecidableEq, Repr

/-- The contactless port. -/
structure Tag where
  field : Bool := false
  secured : Bool := false
  quiet : Bool := false
  selected : Bool := false
  backoff : Bool := false
  antFault : Bool := false
  pingSkip : BitVec 16 := 0
  reads : BitVec 16 := 0
  baseAmp : Nat := 0
  basePhase : Int := 0
  lastAmp : Nat := 0
  lastPhase : Int := 0
  pings : Nat := 0
  sumAmp : Nat := 0
  sumPhase : Int := 0
  /-- Baseline amplitude learnt at kindle (Table 15.5). -/
  kindleAmp : Nat := 0
  ackPend : BitVec 16 := 0
  authFail : Nat := 0
  /-- What the tag answered last: an error code, or data. -/
  answer : Option (Option Nat × List Byte) := none
  deriving DecidableEq, Repr

/-! ### ROV: roving sequencer (chapter 16) -/

/-- An open loop (R746): the body's address, iterations left after the present one. -/
structure RLoop where
  body : Nat
  left : Nat
  deriving DecidableEq, Repr

/-- A PLAY in progress (R745): next vector address, how many are left, RELEASE. -/
structure RPlay where
  next : Nat
  left : Nat
  release : Bool
  deriving DecidableEq, Repr

/-- An analog stream (R749, R750), with the sixteenth of a nanosecond at which its first vector cycle began. -/
structure RStream where
  addr : Nat
  count : Nat
  loop : Bool
  start : Nat := 0
  deriving DecidableEq, Repr

/-- An edge of the present vector cycle (R742): lane, 62.5 ps units from its start, level. -/
structure REdge where
  lane : Nat
  at' : Nat
  level : Bool
  deriving DecidableEq, Repr

/-- The roving sequencer. -/
structure Rov where
  mem : Mem := []
  ready : BitVec 32 := 0
  /-- Reel tick at which a hank became READY (R754). -/
  readyAt : Tab Tick := []
  running : Bool := false
  /-- A halt that waits for the boundary: of ROV_STOP or Brace, where an error of the same boundary counts, or of HALT. -/
  stopping : Option Bool := none
  /-- An instruction in error has set its flag, and the sequencer halts with hold at the boundary (R753, R757). -/
  failed : Bool := false
  /-- A start that waits for its tick (R752). -/
  startAt : Option Tick := none
  pc : Nat := 0
  loops : List RLoop := []
  stack : List Nat := []
  play : Option RPlay := none
  waitr : Option Word := none
  lastVec : Option Word := none
  vcount : Word := 0
  gaps : Word := 0
  /-- When the present cycle began and the next begins, in sixteenths of a nanosecond of the Reel (R741). -/
  began : Nat := 0
  next : Nat := 0
  /-- The edges of the present cycle, the lane levels and drive after it (R742, R747). -/
  edges : List REdge := []
  /-- The drive changes of the present cycle, each at E1 of its lane (R744). -/
  oeEdges : List REdge := []
  lane : BitVec 8 := 0
  laneOe : BitVec 8 := 0
  /-- DAC codes; `none` is high-Z (R760). -/
  ao : Tab (Option (BitVec 16)) := []
  stream : Tab (Option RStream) := []
  /-- The stream that ASTART has named for a channel and the next vector cycle begins (R750, R758). -/
  strmNext : Tab (Option RStream) := []
  /-- The last 16 samples of each channel's resampler (R749, R758). -/
  aoHist : Tab (List Nat) := []
  deriving DecidableEq, Repr

/-! ### The whole -/

/-- The state of the Farelle. -/
structure State where
  /-- Commands that wait, first in first out: the model's own queue. -/
  pending : List Instr := []
  /-- Register bits that software writes, by address (Machine/Regs.lean gives each its reset value and kind). -/
  regs : Tab Word := []
  /-- High words latched by a read of their low word, by address of the high word (R196). -/
  latch : Tab (Option Word) := []
  /-- The word the last register read returned, and the upper word of an 8-byte read. -/
  rdata : Word := 0
  rdataHi : Word := 0
  /-- How many values the manual leaves open have been taken from `Config.freeWord`: the model's own count. -/
  free : Nat := 0
  sys : Sys := {}
  pwr : Pwr := {}
  txn : TxnSt := {}
  dst : Dst := {}
  stw : Stw := {}
  hl : Hl := {}
  whl : Whl := {}
  fly : Fly := {}
  bob : Bob := {}
  eth : Eth := {}
  can : Tab Can := []
  ply : Plys := {}
  skn : Skn := {}
  pnl : Pnl := {}
  tag : Tag := {}
  rov : Rov := {}
  deriving DecidableEq, Repr

/-- The Farelle at power-on, before valid supply: Dark, every supply out of its range, PWRSENSE warning, every register at
its reset value (R12, R24, R133), the Distaff erased and its slot control valid with both slots EMPTY. -/
def State.reset : State := {}

end Sys2Proof.Machine
end

