-- ==== Sys2Proof/Machine/Regs.lean ====
section
/-!
DEFINITION. The registers that software writes: for each, its address, its fields, their access codes (R8), reset kinds
(R12), reset values and clamps, as the register tables of the chapters give them. A field that only the hardware changes
is a typed field of the State; Machine/Flags.lean composes it into what a read returns. An address with no row is an
undefined offset: it reads 0 and ignores writes (R14).
-/

namespace Sys2Proof.Machine

/-- Access codes of the fields kept in `State.regs` (Table 0.2). -/
inductive Acc where
  | rw
  | w1c
  | w1s
  | rc
  | wo
  /-- Kept in `State.regs`, and a direct write is ignored: only a configuration item changes it (R447). -/
  | item
  deriving DecidableEq, Repr

/-- Which resets return a field to its reset value (Table 0.3). `kept`: none does. -/
inductive RKind where
  | cold
  | warm
  | kindle
  | kept
  deriving DecidableEq, Repr

/-- A field: lowest bit, width, access, reset kind and value, and the range a written value is held to. -/
structure Fld where
  lo : Nat
  w : Nat
  acc : Acc := .rw
  kind : RKind := .kindle
  rst : Nat := 0
  lim : Option (Nat × Nat) := none
  deriving DecidableEq, Repr

/-- `count` registers from `base`, `stride` bytes apart, all with these fields. -/
structure RegDef where
  base : Nat
  count : Nat := 1
  stride : Nat := 4
  flds : List Fld
  deriving DecidableEq, Repr

/-- Mask of `w` bits at bit `lo`. -/
def fieldMask (lo w : Nat) : Word := BitVec.ofNat 32 ((2 ^ w - 1) * 2 ^ lo)

/-- `x` with its field at `lo`, `w` bits wide, set to `v`. -/
def putField (x : Word) (lo w v : Nat) : Word :=
  (x &&& ~~~ fieldMask lo w) ||| (BitVec.ofNat 32 (v % 2 ^ w * 2 ^ lo))

/-- A register of one RW field of all 32 bits. -/
def wide (kind : RKind := .kindle) (rst : Nat := 0) : List Fld := [{ lo := 0, w := 32, kind := kind, rst := rst }]

/-- A register of one read-clear counter of all 32 bits. -/
def counter : List Fld := [{ lo := 0, w := 32, acc := .rc }]

/-- SYS (R134, R138, R139). SYS_WAKESRC's reset kind is not given: the wake configuration's, COLD, is taken. -/
def sysRegs : List RegDef := [
  { base := 0x40000024, flds := [{ lo := 0, w := 6, acc := .w1c, kind := .kept }] },
  { base := 0x40000058, flds := [{ lo := 0, w := 6, kind := .cold, rst := 0x3F }] },
  { base := 0x4000005C, flds := [{ lo := 0, w := 6, acc := .w1c, kind := .cold }] },
  { base := 0x40000060, count := 2, flds := wide .cold 0xFFFFFFFF }]

/-- DST (R204). -/
def dstRegs : List RegDef := [
  { base := 0x40010038, flds := [
    { lo := 16, w := 16, rst := 20, lim := some (1, 600) },
    { lo := 0, w := 16, rst := 2048, lim := some (512, 8192) }] }]

/-- WHL (R400). -/
def whlRegs : List RegDef := [
  { base := 0x40020004, flds := [{ lo := 30, w := 2, acc := .w1c }] },
  { base := 0x40020008, flds := [{ lo := 0, w := 16, rst := 500, lim := some (0, 1500) }] },
  { base := 0x4002000C, flds := counter },
  { base := 0x40020018, count := 2, flds := [{ lo := 0, w := 32, acc := .w1s }] },
  { base := 0x40020118, count := 4, stride := 0x20, flds := [{ lo := 0, w := 1, acc := .w1c }] },
  { base := 0x40021000, count := 256, flds := [{ lo := 31, w := 1, acc := .w1c }] }]

/-- FLY (R446 to R448): the clamps are R450's and R411's. -/
def flyRegs : List RegDef := [
  { base := 0x40030000, count := 48, stride := 0x100, flds := [
    { lo := 29, w := 3 }, { lo := 16, w := 9 }, { lo := 8, w := 2 }, { lo := 0, w := 6, lim := some (1, 32) }] },
  { base := 0x40030004, count := 48, stride := 0x100, flds := [
    { lo := 16, w := 16, rst := 1, lim := some (1, 65535) }, { lo := 0, w := 16 }] },
  { base := 0x40030008, count := 48, stride := 0x100, flds := [
    { lo := 23, w := 5, lim := some (0, 23) }, { lo := 20, w := 3, lim := some (0, 5) }, { lo := 15, w := 5, lim := some (0, 23) },
    { lo := 10, w := 5, lim := some (0, 24) }, { lo := 5, w := 5, lim := some (0, 23) }, { lo := 0, w := 5, lim := some (0, 23) }] },
  { base := 0x4003000C, count := 48, stride := 0x100, flds := [
    { lo := 16, w := 10, lim := some (8, 768) }, { lo := 0, w := 6, lim := some (1, 32) }] },
  { base := 0x40030010, count := 48, stride := 0x100, flds := wide },
  { base := 0x40030014, count := 48, stride := 0x100, flds := wide },
  { base := 0x40030018, count := 48, stride := 0x100, flds := [{ lo := 0, w := 10, acc := .w1c }] },
  { base := 0x40030020, count := 48, stride := 0x100, flds := wide },
  { base := 0x40030024, count := 48, stride := 0x100, flds := [{ lo := 0, w := 4 }] },
  { base := 0x40030028, count := 48, stride := 0x100, flds := [{ lo := 0, w := 10 }] },
  { base := 0x40030030, count := 48, stride := 0x100, flds := [{ lo := 0, w := 32, acc := .wo }] },
  { base := 0x40034000, count := 144, flds := [
    { lo := 30, w := 2, acc := .item }, { lo := 24, w := 3, acc := .item }, { lo := 19, w := 3, acc := .item, rst := 1 },
    { lo := 16, w := 2, acc := .item }, { lo := 8, w := 6, acc := .item }, { lo := 5, w := 3 }] },
  { base := 0x40035004, count := 6, stride := 0x10, flds := [{ lo := 0, w := 24 }] }]

/-- BOB (R488). -/
def bobRegs : List RegDef := [
  { base := 0x4004000C, flds := [{ lo := 31, w := 1, acc := .w1c }] },
  { base := 0x40040010, flds := [{ lo := 0, w := 16 }] },
  { base := 0x40040050, flds := [{ lo := 0, w := 12 }] },
  { base := 0x40040100, count := 17, stride := 0x20, flds := [
    { lo := 31, w := 1 }, { lo := 16, w := 10, rst := 64, lim := some (64, 512) }] },
  { base := 0x40040104, count := 17, stride := 0x20, flds := [{ lo := 0, w := 8, rst := 0xFF }] },
  { base := 0x40040108, count := 17, stride := 0x20, flds := [
    { lo := 0, w := 8, rst := 16, lim := some (1, 255) }, { lo := 8, w := 8, rst := 16, lim := some (1, 255) },
    { lo := 16, w := 8, rst := 16, lim := some (1, 255) }, { lo := 24, w := 8, rst := 16, lim := some (1, 255) }] },
  { base := 0x4004010C, count := 17, stride := 0x20, flds := [
    { lo := 0, w := 8, rst := 16, lim := some (1, 255) }, { lo := 8, w := 8, rst := 16, lim := some (1, 255) },
    { lo := 16, w := 8, rst := 16, lim := some (1, 255) }] },
  { base := 0x40040114, count := 17, stride := 0x20, flds := counter }]

/-- ETH (R536, R537). GO is typed state of the block. -/
def ethRegs : List RegDef := [
  { base := 0x40050004, count := 12, stride := 0x100, flds := [{ lo := 0, w := 16, rst := 100, lim := some (1, 65535) }] },
  { base := 0x40050008, count := 12, stride := 0x100, flds := [{ lo := 0, w := 16, rst := 0x2C }] },
  { base := 0x40051000, flds := [
    { lo := 30, w := 1 }, { lo := 29, w := 1, acc := .w1c }, { lo := 26, w := 2 }, { lo := 21, w := 5 },
    { lo := 16, w := 5 }, { lo := 0, w := 16 }] }]

/-- CRD (R538). -/
def crdRegs : List RegDef := [{ base := 0x40060040, flds := [{ lo := 0, w := 13 }] }]

/-- CAN (R581). -/
def canRegs : List RegDef := [
  { base := 0x40070000, count := 8, stride := 0x1000, flds := [{ lo := 29, w := 3 }, { lo := 4, w := 2 }] },
  { base := 0x40070014, count := 8, stride := 0x1000, flds := [{ lo := 0, w := 4, acc := .w1c }] },
  { base := 0x40070030, count := 8, stride := 0x1000, flds := wide },
  { base := 0x40070034, count := 8, stride := 0x1000, flds := [{ lo := 0, w := 4 }] },
  { base := 0x40070040, count := 8, stride := 0x1000, flds := [
    { lo := 29, w := 3, kind := .cold }, { lo := 24, w := 2, kind := .cold }, { lo := 16, w := 4, kind := .cold }] },
  { base := 0x40070044, count := 8, stride := 0x1000, flds := [{ lo := 0, w := 29, kind := .cold }] },
  { base := 0x40070048, count := 8, stride := 0x1000, flds := [{ lo := 0, w := 29, kind := .cold }] },
  { base := 0x4007004C, count := 8, stride := 0x1000, flds := wide .cold },
  { base := 0x40070050, count := 8, stride := 0x1000, flds := wide .cold }] ++
  (List.range 8).flatMap fun n => [
    { base := 0x40070100 + 0x1000 * n, count := 128, stride := 8, flds := wide },
    { base := 0x40070104 + 0x1000 * n, count := 128, stride := 8, flds := [{ lo := 0, w := 29 }] }]

/-- PLY (R641, R642). The clamp of the two increment words is one on their pair (Machine/Ops.lean). -/
def plyRegs : List RegDef := [
  { base := 0x40080100, count := 8, stride := 0x40, flds := [{ lo := 2, w := 1, acc := .w1c }] },
  { base := 0x40080120, count := 8, stride := 0x40, flds := wide },
  { base := 0x40080124, count := 8, stride := 0x40, flds := [{ lo := 31, w := 1 }, { lo := 0, w := 16 }] },
  { base := 0x40080128, count := 8, stride := 0x40, flds := [{ lo := 0, w := 30, lim := some (0, 999999999) }] },
  { base := 0x4008012C, count := 8, stride := 0x40, flds := wide },
  { base := 0x40080130, count := 8, stride := 0x40, flds := [{ lo := 0, w := 8, rst := 1 }] },
  { base := 0x40080134, count := 8, stride := 0x40, flds := wide },
  { base := 0x40080138, count := 8, stride := 0x40, flds := wide },
  { base := 0x40080400, count := 8, stride := 0x10, flds := [
    { lo := 28, w := 4 }, { lo := 24, w := 4 }, { lo := 16, w := 8 }, { lo := 8, w := 1 }, { lo := 0, w := 3 }] },
  { base := 0x40080404, count := 8, stride := 0x10, flds := [
    { lo := 16, w := 16, rst := 1024, lim := some (10, 1024) }, { lo := 0, w := 16, rst := 1024, lim := some (10, 1024) }] },
  { base := 0x40080408, count := 8, stride := 0x10, flds := wide .kindle 10000 },
  { base := 0x4008040C, count := 8, stride := 0x10, flds := [
    { lo := 8, w := 4, rst := 13, lim := some (12, 4) }, { lo := 0, w := 8, rst := 10, lim := some (1, 100) }] }]

/-- SKN (R689). -/
def sknRegs : List RegDef := [
  { base := 0x40090008, flds := counter },
  { base := 0x40098000, count := 4096, flds := [
    { lo := 31, w := 1, acc := .item }, { lo := 16, w := 10, acc := .item }, { lo := 0, w := 16, acc := .item }] },
  { base := 0x40090104, count := 2, stride := 0x100, flds := [{ lo := 31, w := 1, rst := 1 }, { lo := 0, w := 4, rst := 7 }] }]

/-- PNL (R733). -/
def pnlRegs : List RegDef := [
  { base := 0x400A0000, flds := [
    { lo := 31, w := 1 }, { lo := 16, w := 8, rst := 30 }, { lo := 8, w := 8, rst := 20, lim := some (1, 255) },
    { lo := 0, w := 8, rst := 10, lim := some (1, 255) }] },
  { base := 0x400A0004, flds := [
    { lo := 16, w := 8, rst := 50, lim := some (1, 255) }, { lo := 0, w := 6, rst := 30, lim := some (1, 50) }] },
  { base := 0x400A0010, count := 8, flds := wide },
  { base := 0x400A0030, flds := [{ lo := 0, w := 16 }] },
  { base := 0x400A0040, flds := [{ lo := 0, w := 16 }] },
  { base := 0x400A0084, flds := [{ lo := 16, w := 16, acc := .w1c }, { lo := 0, w := 4, acc := .w1c }] }]

/-- TAG (R734). -/
def tagRegs : List RegDef := [
  { base := 0x400B0000, flds := [{ lo := 28, w := 1, acc := .w1c }] },
  { base := 0x400B0008, flds := [
    { lo := 31, w := 1 }, { lo := 16, w := 8, rst := 30 }, { lo := 8, w := 8, rst := 20 },
    { lo := 0, w := 8, rst := 25, lim := some (5, 100) }] },
  { base := 0x400B0400, count := 256, flds := wide }]

/-- ROV (R761). -/
def rovRegs : List RegDef := [
  { base := 0x400C0000, flds := [{ lo := 0, w := 7, acc := .w1c }] },
  { base := 0x400C0020, flds := wide .kindle 0x22222222 },
  { base := 0x400C0030, flds := [{ lo := 0, w := 22 }] },
  { base := 0x400C0100, count := 16, stride := 0x80, flds := [{ lo := 0, w := 24 }] }] ++
  (List.range 8).flatMap (fun l => [
    { base := 0x400C0108 + 8 * l, count := 16, stride := 0x80, flds := [{ lo := 30, w := 2 }, { lo := 0, w := 24 }] },
    { base := 0x400C010C + 8 * l, count := 16, stride := 0x80, flds := [{ lo := 0, w := 24 }] }]) ++ [
  { base := 0x400C0A00, count := 2, stride := 0x10, flds := wide },
  { base := 0x400C0A04, count := 2, stride := 0x10, flds := [{ lo := 0, w := 16 }] }]

/-- PWR (R79 to R82, R205). -/
def pwrRegs : List RegDef := [
  { base := 0x400E0004, flds := [{ lo := 0, w := 6, kind := .cold, rst := 10, lim := some (5, 40) }] },
  { base := 0x400E0008, flds := [{ lo := 0, w := 6, rst := 56, lim := some (0, 56) }] },
  { base := 0x400E000C, flds := [{ lo := 8, w := 8, kind := .cold, rst := 10, lim := some (1, 50) }, { lo := 0, w := 4 }] },
  { base := 0x400E0010, flds := [{ lo := 8, w := 1, kind := .cold, rst := 1 }, { lo := 0, w := 7, kind := .cold, rst := 30, lim := some (10, 60) }] },
  { base := 0x400E0014, flds := [{ lo := 0, w := 14, rst := 1000, lim := some (1000, 10000) }] },
  { base := 0x400E0018, flds := [{ lo := 0, w := 10, rst := 100, lim := some (0, 1000) }] },
  { base := 0x400E0024, flds := [{ lo := 29, w := 1, acc := .w1c, kind := .cold }] }]

/-- Where BAR0 offsets stand among the register addresses. -/
def bar0Base : Nat := 0x100000000
/-- Where BAR2 offsets stand among the register addresses. -/
def bar2Base : Nat := 0x200000000

/-- BAR0 (Table 5.2), at the kindle values of R313. -/
def bar0Regs : List RegDef := [
  { base := bar0Base + 0x108, flds := wide .kindle 0xFFFFFFFF },
  { base := bar0Base + 0x10C, flds := [{ lo := 0, w := 32, acc := .w1c }] },
  { base := bar0Base + 0x110, flds := [{ lo := 0, w := 32, acc := .w1c }] },
  { base := bar0Base + 0x114, flds := wide .kindle 0xFFFFFFFF }] ++
  (List.range 8).map fun k => { base := bar0Base + 0x120 + 4 * k, flds := [
    { lo := 0, w := 5, rst := 4 * k }, { lo := 8, w := 5, rst := 4 * k + 1 },
    { lo := 16, w := 5, rst := 4 * k + 2 }, { lo := 24, w := 5, rst := 4 * k + 3 }] }

/-- BAR2: the ring registers (Table 5.6). RING_WBLO is "8-byte aligned": that its low three bits are not stored and read 0
is the model's choice (DESIGN CHOICE, log 35). -/
def bar2Regs : List RegDef := [
  { base := bar2Base, count := 64, stride := 0x100000, flds := [
    { lo := 29, w := 3 }, { lo := 24, w := 5 }, { lo := 0, w := 4, lim := some (0, 8) }] },
  { base := bar2Base + 4, count := 64, stride := 0x100000, flds := [{ lo := 0, w := 16 }] },
  { base := bar2Base + 8, count := 64, stride := 0x100000, flds := [{ lo := 0, w := 14 }] },
  { base := bar2Base + 0x18, count := 64, stride := 0x100000, flds := [{ lo := 3, w := 29 }] },
  { base := bar2Base + 0x1C, count := 64, stride := 0x100000, flds := wide },
  { base := bar2Base + 0x20, count := 64, stride := 0x100000, flds := [{ lo := 0, w := 4, acc := .w1c }] }]

/-- The register table of the window an address lies in. -/
def regsOf (a : Nat) : List RegDef :=
  if bar2Base ≤ a then bar2Regs
  else if bar0Base ≤ a then bar0Regs
  else match a / 65536 with
    | 0x4000 => sysRegs
    | 0x4001 => dstRegs
    | 0x4002 => whlRegs
    | 0x4003 => flyRegs
    | 0x4004 => bobRegs
    | 0x4005 => ethRegs
    | 0x4006 => crdRegs
    | 0x4007 => canRegs
    | 0x4008 => plyRegs
    | 0x4009 => sknRegs
    | 0x400A => pnlRegs
    | 0x400B => tagRegs
    | 0x400C => rovRegs
    | 0x400E => pwrRegs
    | _ => []

/-- Whether an address is one of a row's registers. -/
def RegDef.has (d : RegDef) (a : Nat) : Bool :=
  decide (d.base ≤ a) && decide ((a - d.base) % d.stride = 0) && decide ((a - d.base) / d.stride < d.count)

/-- The fields software writes at an address; none at an undefined offset (R14). -/
def fieldsAt (a : Nat) : List Fld := ((regsOf a).filter fun d => d.has a).flatMap RegDef.flds

/-- What a register reads as when nothing has written it: every field at its reset value. -/
def regRst (a : Nat) : Word := (fieldsAt a).foldl (fun x f => putField x f.lo f.w f.rst) 0

/-- A field's new value when `v` is written to it over `old` (Table 0.2). A range whose low end lies above its high end is
one of signed values (R642). -/
def Fld.store (f : Fld) (old v : Nat) : Nat :=
  match f.acc with
  | .rw | .wo => match f.lim with
    | none => v
    | some (lo, hi) =>
      if lo ≤ hi then clampNat lo hi v
      else if v ≤ hi ∨ lo ≤ v then v else if 2 * v < 2 ^ f.w then hi else lo
  | .w1c => old - (old &&& v)
  | .w1s => old ||| v
  | .rc | .item => old

/-- A register's new value when `v` is written to it over `old`: each field by its access code (R8, R11). -/
def writeFields (fs : List Fld) (old v : Word) : Word :=
  fs.foldl (fun x f => putField x f.lo f.w (f.store (bitsOf old f.lo f.w) (bitsOf v f.lo f.w))) old

/-- What a read of the RC fields leaves (R8): each cleared, or 1 where an event of the same access is counted (R10). -/
def readClears (fs : List Fld) (old : Word) (event : Bool) : Word :=
  fs.foldl (fun x f => if f.acc = .rc then putField x f.lo f.w (b2n event) else x) old

/-- What a read of the software fields returns: a WO field reads 0 (Table 0.2). -/
def readFields (fs : List Fld) (v : Word) : Word :=
  fs.foldl (fun x f => if f.acc = .wo then putField x f.lo f.w 0 else x) v

/-- A register after a reset of kind `k` (R12, Table 0.3): COLD resets every kind of field, WARM the WARM and KINDLE
fields, KINDLE the KINDLE fields. -/
def resetFields (k : RKind) (fs : List Fld) (old : Word) : Word :=
  fs.foldl (fun x f =>
    let hit := match k, f.kind with
      | .cold, .cold | .cold, .warm | .cold, .kindle => true
      | .warm, .warm | .warm, .kindle => true
      | .kindle, .kindle => true
      | _, _ => false
    if hit then putField x f.lo f.w f.rst else x) old

/-- All registers after a reset of kind `k`. -/
def resetRegs (k : RKind) (t : Tab Word) : Tab Word := t.mapVals regRst fun a v => resetFields k (fieldsAt a) v

/-- The register bits at an address. -/
def State.rd (s : State) (a : Nat) : Word := Tab.get regRst s.regs a

/-- The registers with those at an address replaced. -/
def setReg (t : Tab Word) (a : Nat) (v : Word) : Tab Word := Tab.set regRst t a v

/-- One field of a register. -/
def State.fld (s : State) (a lo w : Nat) : Nat := bitsOf (s.rd a) lo w

/-- A software write of a plain register: each field by its access code. -/
def State.regWrite (s : State) (a : Nat) (v : Word) : State :=
  { s with regs := setReg s.regs a (writeFields (fieldsAt a) (s.rd a) v) }

/-- The hardware sets bits of a register (sticky flags): those written in the same access stay set (R9). -/
def State.setBits (s : State) (a : Nat) (v : Word) : State :=
  { s with regs := setReg s.regs a (s.rd a ||| v) }

/-- The hardware gives a field a value. -/
def State.setFld (s : State) (a lo w v : Nat) : State :=
  { s with regs := setReg s.regs a (putField (s.rd a) lo w v) }

/-- A read-clear counter counts `n` more, wrapping. -/
def State.count (s : State) (a n : Nat) : State :=
  { s with regs := setReg s.regs a (s.rd a + BitVec.ofNat 32 n) }

end Sys2Proof.Machine
end

