-- ==== Sys2Proof/Machine/Ops.lean ====
section
/-!
DEFINITION. The operations the families share: the running configuration's bytes, interrupt lines, the fault recorder,
task inputs and the whorl's fault log, doorbells, and accessors of the arrays in the State.
-/

namespace Sys2Proof.Machine

/-! ### Tables with their defaults -/

/-- What an unlisted port, spindle, ring ... reads as: its kindle value. -/
def State.eport (s : State) (p : Nat) : EPort := Tab.get (fun _ => {}) s.eth.port p
/-- One Ethernet port changed. -/
def State.setEport (s : State) (p : Nat) (f : EPort → EPort) : State :=
  { s with eth := { s.eth with port := Tab.upd (fun _ => {}) s.eth.port p f } }
def State.canOf (s : State) (n : Nat) : Can := Tab.get (fun _ => {}) s.can n
def State.setCan (s : State) (n : Nat) (f : Can → Can) : State := { s with can := Tab.upd (fun _ => {}) s.can n f }
def State.flyer (s : State) (n : Nat) : Flyer := Tab.get (fun _ => {}) s.fly.fl n
def State.setFlyer (s : State) (n : Nat) (f : Flyer → Flyer) : State :=
  { s with fly := { s.fly with fl := Tab.upd (fun _ => {}) s.fly.fl n f } }
def State.pin (s : State) (p : Nat) : Pin := Tab.get (fun _ => {}) s.fly.pins p
def State.setPin (s : State) (p : Nat) (f : Pin → Pin) : State :=
  { s with fly := { s.fly with pins := Tab.upd (fun _ => {}) s.fly.pins p f } }
def State.plyOf (s : State) (k : Nat) : Ply := Tab.get (fun _ => {}) s.ply.ply k
def State.setPly (s : State) (k : Nat) (f : Ply → Ply) : State :=
  { s with ply := { s.ply with ply := Tab.upd (fun _ => {}) s.ply.ply k f } }
def State.linkOf (s : State) (l : Nat) : Link := Tab.get (fun _ => {}) s.skn.link l
def State.setLink (s : State) (l : Nat) (f : Link → Link) : State :=
  { s with skn := { s.skn with link := Tab.upd (fun _ => {}) s.skn.link l f } }
def State.ring (s : State) (r : Nat) : Ring := Tab.get (fun _ => {}) s.hl.rings r
def State.setRing (s : State) (r : Nat) (f : Ring → Ring) : State :=
  { s with hl := { s.hl with rings := Tab.upd (fun _ => {}) s.hl.rings r f } }
def State.strand (s : State) (k : Nat) : Strand := Tab.get (fun _ => {}) s.whl.strands k
def State.setStrand (s : State) (k : Nat) (f : Strand → Strand) : State :=
  { s with whl := { s.whl with strands := Tab.upd (fun _ => {}) s.whl.strands k f } }
def State.spindle (s : State) (n : Nat) : Spindle := Tab.get (fun _ => {}) s.whl.spindles n
def State.setSpindle (s : State) (n : Nat) (f : Spindle → Spindle) : State :=
  { s with whl := { s.whl with spindles := Tab.upd (fun _ => {}) s.whl.spindles n f } }
def State.bobbin (s : State) (b : Nat) : Bobbin := Tab.get (fun _ => {}) s.bob.bobbins b
def State.setBobbin (s : State) (b : Nat) (f : Bobbin → Bobbin) : State :=
  { s with bob := { s.bob with bobbins := Tab.upd (fun _ => {}) s.bob.bobbins b f } }
def State.egress (s : State) (p : Nat) : Egress := Tab.get (fun _ => {}) s.bob.egress p
def State.setEgress (s : State) (p : Nat) (f : Egress → Egress) : State :=
  { s with bob := { s.bob with egress := Tab.upd (fun _ => {}) s.bob.egress p f } }

/-! ### The running configuration (chapter 06) -/

/-- The bytes of configuration item `item`, `inst`, as they run now. -/
def State.conf (s : State) (item inst : Nat) : Mem :=
  (Tab.get (fun _ => ({} : Item)) s.txn.conf (item * 65536 + inst)).bytes
/-- Its length in bytes; 0 when it was never set. -/
def State.confLen (s : State) (item inst : Nat) : Nat :=
  (Tab.get (fun _ => ({} : Item)) s.txn.conf (item * 65536 + inst)).len

/-! ### Time -/

/-- The Reel now. -/
def State.reel (s : State) : Tick := s.ply.reel

/-! ### Steward interrupt lines (Table 4.10) -/

/-- Line `n` asserts. Table 4.10 gives each line its block; of PWR, DST, ETH and SKN, whose chapters name no event as an
interrupt, the events that raise it here are the model's choice (log 38), and BOB and CRD raise none. -/
def raiseLine (n : Nat) (s : State) : State :=
  { s with stw := { s.stw with ipend := s.stw.ipend ||| BitVec.ofNat 32 (2 ^ n) } }
/-- Line `n` is no longer asserted. -/
def clearLine (n : Nat) (s : State) : State :=
  { s with stw := { s.stw with ipend := s.stw.ipend &&& ~~~ BitVec.ofNat 32 (2 ^ n) } }

/-! ### The fault recorder (R110, R111) -/

/-- The mode number (Table 2.1). -/
def modeNum : Mode → Nat
  | .dark => 0
  | .kindle => 1
  | .spin => 2
  | .brace => 3
  | .drowse => 4
  | .service => 5

/-- The MODE byte of a LOG record (Table 6.12). -/
def modeByte (s : State) : Byte :=
  BitVec.ofNat 8 (modeNum s.sys.mode + 64 * b2n s.sys.limp + 128 * b2n s.sys.kfault)

/-- 16 bytes of DETAIL: what the code gives, then zeros (Table 6.12). -/
def detail16 (d : List Byte) : List Byte := (d ++ List.replicate 16 0).take 16

/-- An entry goes into the fault recorder; a ninth overwrites the oldest and is counted (R111). -/
def pushFault (r : FaultRec) (y : Sys) : Sys :=
  if y.recorder.length < 8 then { y with recorder := y.recorder ++ [r] }
  else { y with recorder := y.recorder.tail ++ [r], lost := min 255 (y.lost + 1) }

/-- The record of an event of `code` in `block` now (Tables 6.12 and 6.13). -/
def faultRec (s : State) (code block : Nat) (detail : List Byte) : FaultRec :=
  { code := code, block := block, mode := modeByte s, reel := s.reel, detail := detail16 detail, kindles := s.sys.kindles }

/-- An event is logged: an entry of the fault recorder, from which the Distaff copies it (R110, R111, R356). -/
def logFault (code block : Nat) (detail : List Byte) (s : State) : State :=
  { s with sys := pushFault (faultRec s code block detail) s.sys }

/-! ### The whorl's fault log and task inputs (R373, R374, R398) -/

/-- An entry goes into the whorl's log of 16; when it is full the oldest is overwritten and counted (R398). -/
def pushFlog (e : FlogEntry) (w : Whl) : Whl :=
  if w.flog.length < 16 then { w with flog := w.flog ++ [e] }
  else { w with flog := w.flog.tail ++ [e], flost := min 255 (w.flost + 1) }

/-- The register of task input `n` (Table 7.6). -/
def tinAddr (n : Nat) : Nat := 0x40021000 + 4 * n

/-- `k` events on task input `n` in one island cycle: the counter saturates at 255, and past it OVERFLOW sets; as it sets
it is logged and asserts line 3 (R373, R374, R398). -/
def tinEvents (n k : Nat) (s : State) : State :=
  let c := Tab.get (fun _ => 0) s.whl.tin n
  let w := { s.whl with tin := Tab.set (fun _ => 0) s.whl.tin n (min 255 (c + k)) }
  if c + k ≤ 255 || bitOf (s.rd (tinAddr n)) 31 then { s with whl := w }
  else
    let e : FlogEntry := { kind := 5, spindle := 0, slot := 0, tick := s.reel }
    logFault 0x36 2 [BitVec.ofNat 8 n]
      (raiseLine 3 (({ s with whl := pushFlog e w } : State).setBits (tinAddr n) 0x80000000))

/-! ### Doorbells (R286 to R289) -/

/-- DB_STATUS, DB_MASK and MB_HMODE of BAR0. -/
def dbStatus : Nat := bar0Base + 0x110
def dbMask : Nat := bar0Base + 0x114
def mbHmode : Nat := bar0Base + 0x108
def mbWdrop : Nat := bar0Base + 0x10C

/-- The straps select the SPI host port; PCIe otherwise (R270). -/
def spiSelected (s : State) : Bool := s.sys.straps.bootsel.getLsbD 0

/-- MSI-X entry `n` is masked: bit 0 of its last word (PRESUMED, PCI's layout; log 35). -/
def msixMasked (h : Hl) (n : Nat) : Bool := (h.msix.byte (16 * n + 12)).getLsbD 0

/-- An interrupt to the host for doorbell `n` (R288): over MSI-X vector `n`, which pends while its entry is masked; over
MSI with `m` vectors vector `n mod m`; INTA is a level (`intaLow`). Nothing is sent while PCIe is not the link in use. -/
def hostSent (n : Nat) (s : State) : Hl :=
  if spiSelected s || !s.hl.pcieUp then s.hl
  else match s.hl.pci.ints with
    | .msix =>
      if msixMasked s.hl n then { s.hl with pba := s.hl.pba ||| BitVec.ofNat 32 (2 ^ n) }
      else { s.hl with out := s.hl.out ++ [.msg n] }
    | .msi m => { s.hl with out := s.hl.out ++ [.msg (n % m)] }
    | .inta => s.hl
/-- It is sent. -/
def hostMsg (n : Nat) (s : State) : State := { s with hl := hostSent n s }

/-- Doorbell `n` sets; one that was clear and is unmasked sends its interrupt (R286, R288). -/
def ringDoorbell (n : Nat) (s : State) : State :=
  let was := bitOf (s.rd dbStatus) n
  let t := s.setBits dbStatus (BitVec.ofNat 32 (2 ^ n))
  if was || bitOf (s.rd dbMask) n then t else hostMsg n t

/-- A doorbell is set and unmasked. -/
def doorbellDue (s : State) : Bool := decide (s.rd dbStatus &&& ~~~ s.rd dbMask ≠ 0)

/-- HOST_IRQ_N is driven low (R289); it is released in Dark and in Drowse (Table 1.6). -/
def hostIrqLow (s : State) : Bool := doorbellDue s && s.sys.mode != .dark && s.sys.mode != .drowse

/-- INTA is asserted over the PCIe link (R288). -/
def intaLow (s : State) : Bool := doorbellDue s && !spiSelected s && s.hl.pcieUp && decide (s.hl.pci.ints = .inta)

/-! ### Values the manual leaves open -/

/-- The next free value. -/
def freeNow (s : State) : Word := Config.freeWord s.free
/-- One free value has been taken. -/
def tookFree (s : State) : State := { s with free := s.free + 1 }

/-! ### Wake sources (R86, R122 to R124, R130) -/

/-- SYS_WAKECFG and SYS_WAKESRC. -/
def wakeCfg : Nat := 0x40000058
def wakeSrc : Nat := 0x4000005C

/-- The banks that VIO33 and VIO18 supply (Table 1.4). -/
def vio33Banks : BitVec 13 := 0x08FF
def vio18Banks : BitVec 13 := 0x1700
/-- Bank `b` is inside its operating range. -/
def bankOk (s : State) (b : Nat) : Bool := s.pwr.banks.getLsbD b
/-- RAILOK (R78): VIO33 and VIO18 are inside their ranges when each of their banks is. -/
def railStat (p : Pwr) : BitVec 8 :=
  (p.railOk &&& 0xCF) ||| (if p.banks &&& vio33Banks = vio33Banks then 0x10 else 0)
    ||| (if p.banks &&& vio18Banks = vio18Banks then 0x20 else 0)

/-- The power block changed. -/
def setPwr (f : Pwr → Pwr) (s : State) : State := { s with pwr := f s.pwr }

/-- PWR_CHG; the charger runs (R36): CHGEN is 1, not in Brace, VAON and IOB_PWR inside their ranges. -/
def chgCfg : Nat := 0x400E0010
def chargerRuns (s : State) : Bool :=
  bitOf (s.rd chgCfg) 8 && s.sys.mode != .brace && bankOk s 0 && s.pwr.railOk.getLsbD 6
/-- Where the charger may have come to run: the period in which it stayed off has ended (R76). -/
def chargerNote (s : State) : State := if chargerRuns s then setPwr (fun p => { p with leakLogged := false }) s else s

/-- VAON and every bank inside its range, and PWRSENSE not warning: valid supply (R24). -/
def supplyValid (s : State) : Bool :=
  decide (s.pwr.banks = 0x1FFF) && s.pwr.railOk.getLsbD 6 && !s.pwr.senseWarn

/-- The kindle of a wake reaches its time zero: mode Kindle (R782). -/
def startWake (s : State) : State :=
  { s with sys := { s.sys with mode := .kindle, due := some .wake, timeZero := true, kstep := 1, wakePending := false } }

/-- Wake sources fire (R122): those enabled are recorded; in Drowse a kindle starts, or is held pending while supply is
not valid (R86); during Drowse entry the kindle follows the entry (R130). WAKE_N goes low unless the host is the source (R123). -/
def wakeFire (src : BitVec 6) (s : State) : State :=
  let en := src &&& BitVec.ofNat 6 (s.fld wakeCfg 0 6)
  if en = 0 || (s.sys.mode != .drowse && !s.sys.entering) then s
  else
    let s1 := s.setBits wakeSrc (en.setWidth 32)
    let y := { s1.sys with wakeNLow := s1.sys.wakeNLow || decide (en &&& 0x2F ≠ 0) }
    if s.sys.mode != .drowse || s.sys.wakePending || !supplyValid s then { s1 with sys := { y with wakePending := true } }
    else startWake { s1 with sys := y }

/-! ### Who runs (R82 ff., chapter 02) -/

/-- Steward 3.2 runs: from kindle step 4 on, and in Spin, Brace and Service, unless Kindle-fault holds the machine. -/
def stewardRuns (s : State) : Bool :=
  match s.sys.mode with
  | .spin | .brace | .service => true
  | .kindle => decide (4 ≤ s.sys.kstep) && !s.sys.kfault
  | .dark | .drowse => false

/-- A gated unit waits (R159, R190). -/
def queueUnit (u : GUnit) (s : State) : State := { s with dst := { s.dst with waiting := s.dst.waiting ++ [u] } }

/-! ### Lists of frames and queue entries -/

/-- The frame `id` of the fabric. -/
def State.frame? (s : State) (id : Nat) : Option Frame := s.bob.frames.find? fun f => f.id == id
/-- Frame `id` changed. -/
def State.setFrame (s : State) (id : Nat) (g : Frame → Frame) : State :=
  { s with bob := { s.bob with frames := s.bob.frames.map fun f => if f.id = id then g f else f } }

end Sys2Proof.Machine
end

