-- ==== Sys2Proof/Machine/CanOps.lean ====
section
/-!
DEFINITION. The CAN controllers' operations (chapter 11): registers, filters, FIFOs, events, error states.
-/

namespace Sys2Proof.Machine

/-- Base of controller `n`'s window (R581). -/
def canBase (n : Nat) : Nat := 0x40070000 + 0x1000 * n
/-- CAN_CTRL OWNER: the whorl owns the controller (R555). -/
def canOwner (s : State) (n : Nat) : Owner := if bitOf (s.rd (canBase n)) 29 then .whorl else .steward
/-- DLC of a CTLW. -/
def dlcOf (ctlw : Word) : Nat := bitsOf ctlw 16 4
/-- Data bytes of a DLC: classical frames hold at most 8. -/
def dlcLen (fd : Bool) (dlc : Nat) : Nat :=
  if dlc ≤ 8 then dlc else if !fd then 8
  else match dlc with
    | 9 => 12
    | 10 => 16
    | 11 => 20
    | 12 => 24
    | 13 => 32
    | 14 => 48
    | _ => 64

/-- Source `src` of CAN_EVTEN raises its event when enabled (R556): 0 RXF0, 1 RXF1, 2 transmit event, 3 error state. -/
def canEvent (n src : Nat) (s : State) : State :=
  if bitOf (s.rd (canBase n + 0x34)) src then tinEvents (s.fld (canBase n + 0x30) (8 * src) 8) 1 s else s

/-- A sticky flag of CAN_FLAGS sets and asserts line 8 (Table 11.6): 0 TEVLOST, 1 OVF0, 2 OVF1, 3 TDCSAT. -/
def canFlag (n i : Nat) (s : State) : State := raiseLine 8 (s.setBits (canBase n + 0x14) (BitVec.ofNat 32 (2 ^ i)))

/-- The error state of the counters (ISO 11898-1:2015, R559). -/
def canStateOf (tec recv : Nat) : CanState :=
  if 256 ≤ tec then .busOff else if 128 ≤ tec ∨ 128 ≤ recv then .passive else .active

/-- The error counters after a frame, and the state they give; a change of it raises its event (R556, R559). Listen-only
leaves both as they are (R564). -/
def canCounters (n : Nat) (ec : CanErr) (s : State) : State :=
  let c := s.canOf n
  if c.listen then s
  else
    let st := canStateOf ec.tec ec.recv
    let s1 := s.setCan n fun c => { c with tec := ec.tec, recv := ec.recv, st := st, changed := if c.st = st then c.changed else s.reel }
    if c.st = st then s1 else canEvent n 3 s1

/-- A transmit event goes into the FIFO of 16; into a full one it is lost, TEVLOST sets (Table 11.4). -/
def canTxEvent (n : Nat) (e : CanEvent) (s : State) : State :=
  if (s.canOf n).tef.length < 16 then canEvent n 2 (s.setCan n fun c => { c with tef := c.tef ++ [e] })
  else canFlag n 0 s

/-- IDW and CTLW of transmit buffer `b`. -/
def txbIdw (c : Can) (b : Nat) : Word := BitVec.ofNat 32 (c.txb.num (0x50 * b) 4)
def txbCtlw (c : Can) (b : Nat) : Word := BitVec.ofNat 32 (c.txb.num (0x50 * b + 4) 4)

/-- The arbitration field of an IDW as a number: the lower wins (ISO 11898-1). -/
def arbKey (w : Word) : Nat :=
  let id := bitsOf w 0 29
  if bitOf w 31 then id / 2 ^ 18 * 2 ^ 21 + 2 ^ 20 + 2 ^ 19 + id % 2 ^ 18 * 2 + b2n (bitOf w 30)
  else id / 2 ^ 18 * 2 ^ 21 + b2n (bitOf w 30) * 2 ^ 20

/-- The pending buffer offered next: the one that would win arbitration, the lower number among equals (R550). -/
def canBest (c : Can) : Option Nat :=
  ((List.range 32).filter fun b => c.txreq.getLsbD b).foldl (fun best b =>
    match best with
    | none => some b
    | some a => if arbKey (txbIdw c b) < arbKey (txbIdw c a) then some b else some a) none

/-- Whether filter `f` of controller `n` matches an identifier (R553). -/
def filterHit (s : State) (n f : Nat) (idw : Word) : Bool :=
  let w0 := s.rd (canBase n + 0x100 + 8 * f)
  let m := s.rd (canBase n + 0x104 + 8 * f)
  bitsOf w0 30 2 != 0 && bitOf w0 29 == bitOf idw 31 && decide (bitsOf idw 0 29 &&& bitsOf m 0 29 = bitsOf w0 0 29 &&& bitsOf m 0 29)

/-- Where a received frame goes: the ACT of the lowest matching filter and its index, else NOMATCH (R553). -/
def canRoute (s : State) (n : Nat) (idw : Word) : Nat × Option Nat :=
  match (List.range 128).find? fun f => filterHit s n f idw with
  | some f => (s.fld (canBase n + 0x100 + 8 * f) 30 2, some f)
  | none => ((s.canOf n).noMatch, none)

/-- A frame goes into RXF0 or RXF1; into a full one it is lost, counted, and its OVF flag sets (R554). -/
def canStore (n : Nat) (fifo1 : Bool) (e : CanEntry) (s : State) : State :=
  let c := s.canOf n
  let q := if fifo1 then c.rxf1 else c.rxf0
  if q.length < 32 then
    canEvent n (b2n fifo1) (s.setCan n fun c =>
      { c with rxf0 := if fifo1 then c.rxf0 else c.rxf0 ++ [e], rxf1 := if fifo1 then c.rxf1 ++ [e] else c.rxf1
               framesRx := c.framesRx + 1 })
  else canFlag n (1 + b2n fifo1) (s.setCan n fun c => { c with rxLost := c.rxLost + 1 })

/-- A received frame is filtered at the last bit of EOF (R553). Which filter index an unmatched frame carries is not
stated: a free value. -/
def canReceive (n : Nat) (f : CanFrame) (sof : Tick) (s : State) : State :=
  let (act, idx) := canRoute s n f.idw
  let ix : Word := match idx with
    | some i => BitVec.ofNat 32 i
    | none => freeNow s &&& 0x7F
  let s1 := if idx.isNone && (act == 1 || act == 2) then tookFree s else s
  let len := if bitOf f.idw 30 then 0 else dlcLen (bitOf f.ctlw 31) (dlcOf f.ctlw)
  let e : CanEntry := { f := { f with ctlw := (f.ctlw &&& 0xE00F0000) ||| ix, data := f.data.take len }, ledger := sof }
  if act = 1 then canStore n false e s1 else if act = 2 then canStore n true e s1 else s1

/-- The 80 bytes of an entry of a receive FIFO (Table 11.2). -/
def canEntryBytes (e : CanEntry) : List Byte :=
  leBytes 4 e.f.idw.toNat ++ leBytes 4 e.f.ctlw.toNat ++ leBytes 8 e.ledger.toNat
    ++ (e.f.data ++ List.replicate 64 0).take 64

/-- The 16 bytes of a transmit event (R552). -/
def canEventBytes (e : CanEvent) : List Byte :=
  [BitVec.ofNat 8 e.buf, BitVec.ofNat 8 e.result, 0, 0, 0, 0, 0, 0] ++ leBytes 8 e.tick.toNat

/-- CAN_CTRL LISTEN and NOMATCH, and FDEN of CAN_DBT, come into force (R573). -/
def canLoadCtrl (n : Nat) (s : State) : State :=
  let w := s.rd (canBase n)
  s.setCan n fun c => { c with listen := bitOf w 30, noMatch := bitsOf w 4 2, fden := bitOf c.dbt 31 }

/-- The controller starts: it integrates before it transmits or acknowledges (R580). In limp state it stays disabled (R103). -/
def canEnable (n : Nat) (s : State) : State :=
  if s.sys.limp then s
  else canLoadCtrl n (s.setCan n fun c => { c with enabled := true, st := .integrating, changed := s.reel })

/-- The controller is disabled. -/
def canDisable (n : Nat) (s : State) : State :=
  s.setCan n fun c => { c with enabled := false, st := .integrating, onBus := none, changed := s.reel }

/-- A write of CAN_CTRL: EN starts or disables the controller; the other fields wait for bus idle while it runs (R573). -/
def canCtrlWrite (n : Nat) (v : Word) (s : State) : State :=
  let s1 := s.regWrite (canBase n) v
  let en := bitOf v 31
  if en && !(s.canOf n).enabled then canEnable n s1
  else if !en && (s.canOf n).enabled then canDisable n s1
  else s1

/-- TXREQ bits set: their buffers are pending (R550). -/
def canTxreq (n : Nat) (v : Word) (s : State) : State := s.setCan n fun c => { c with txreq := c.txreq ||| v }

/-- TXCANCEL bits set (R571): a buffer not on the bus is cancelled; one on the bus waits for its attempt to fail. -/
def canCancel (n : Nat) (v : Word) (s : State) : State :=
  s.setCan n fun c =>
    let bus : Word := match c.onBus with
      | some b => BitVec.ofNat 32 (2 ^ b)
      | none => 0
    { c with txreq := c.txreq &&& ~~~ (v &&& ~~~ bus), cancelWait := c.cancelWait ||| (v &&& bus &&& c.txreq) }

/-- POP (Table 11.5): the heads of RXF0, RXF1 and the transmit event FIFO are taken off. -/
def canPopFifos (n : Nat) (v : Word) (s : State) : State :=
  s.setCan n fun c => { c with
    rxf0 := if bitOf v 0 then c.rxf0.tail else c.rxf0
    rxf1 := if bitOf v 1 then c.rxf1.tail else c.rxf1
    tef := if bitOf v 2 then c.tef.tail else c.tef }

/-- A write by `who` takes effect only when it owns the controller (R555). -/
def canOwned (n : Nat) (who : Owner) (g : State → State) (s : State) : State := if canOwner s n = who then g s else s

/-- Waiting bit timing is loaded, its reserved bits as 0 (R11), and the controller integrates; in bus-off it restarts its count and stays (R334, R572). -/
def canLoadTiming (n : Nat) (nbt dbt tdc : Word) (s : State) : State :=
  s.setCan n fun c => { c with
    nbt := nbt &&& 0xFFFFFFFE, dbt := dbt &&& 0x9F1F1F1F, tdc := tdc &&& 0x807F0000, fden := bitOf dbt 31, pend := none
    st := if c.st = .busOff then .busOff else .integrating, onBus := none, changed := s.reel }

/-- A word of a window of 16-byte aligned bytes. -/
def wordOf (bs : List Byte) (o : Nat) : Word := BitVec.ofNat 32 (ofLE ((bs.drop o).take 4))

/-- A word of the transmit buffers, `o` bytes from TXB0 (Table 11.2): reserved bits read 0 (R11), LEDGER 0, and so do the bytes beyond
the length that the DLC gives. -/
def txbWord (c : Can) (o : Nat) : Word :=
  let w : Word := BitVec.ofNat 32 (c.txb.num o 4)
  let ctlw := txbCtlw c (o / 0x50)
  match o % 0x50 with
  | 0 => w &&& 0xDFFFFFFF
  | 4 => w &&& 0xF00F0000
  | r => if r < 0x10 then 0 else BitVec.ofNat 32 (w.toNat % 2 ^ (8 * (dlcLen (bitOf ctlw 31) (dlcOf ctlw) - (r - 0x10))))

/-- Word at offset `off`, 0x500 to 0xFFC, of a controller's window (Table 11.5): transmit buffers, FIFO heads, the pending
set, the levels. -/
def canWinRead (s : State) (n off : Nat) : Word :=
  let c := s.canOf n
  if off < 0xF00 then txbWord c (off - 0x500)
  else if off < 0xF50 then wordOf ((c.rxf0.head?.map canEntryBytes).getD []) (off - 0xF00)
  else if off < 0xFA0 then wordOf ((c.rxf1.head?.map canEntryBytes).getD []) (off - 0xF50)
  else if off < 0xFB0 then wordOf ((c.tef.head?.map canEventBytes).getD []) (off - 0xFA0)
  else if off = 0xFC0 then c.txreq
  else if off = 0xFCC then BitVec.ofNat 32 (c.rxf0.length * 65536 + c.rxf1.length * 256 + c.tef.length)
  else 0

/-- A word written there by `who`, when it owns the controller (R555). -/
def canWinWrite (n off : Nat) (who : Owner) (v : Word) (s : State) : State :=
  let g : State → State :=
    if off < 0xF00 then fun t => t.setCan n fun c => { c with txb := c.txb.write (off - 0x500) (leBytes 4 v.toNat) }
    else if off = 0xFC0 then canTxreq n v
    else if off = 0xFC4 then canCancel n v
    else if off = 0xFC8 then canPopFifos n v
    else fun t => t
  canOwned n who g s

end Sys2Proof.Machine
end

