-- ==== Sys2Proof/Machine/Crypto.lean ====
section
/-!
DEFINITION. The checks and hashes the spec names by their standards: CRC-32 with the reflected polynomial of R227, the
CRC-16 of the skein header (R651), SHA-256 (R584, R784), and ECDSA over P-256 (R584).
-/

namespace Sys2Proof

/-- One bit of a reflected CRC-32 step. -/
def crc32Bit (c : Word) : Word := if c.getLsbD 0 then (c >>> 1) ^^^ 0xEDB88320#32 else c >>> 1

/-- One byte folded into a running CRC, least significant bit first, with no inversion (R227). -/
def crc32Byte (c : Word) (b : Byte) : Word :=
  (List.range 8).foldl (fun c _ => crc32Bit c) (c ^^^ b.setWidth 32)

/-- Bytes folded into a running CRC in ascending address order (R227). -/
def crc32Fold (c : Word) (bs : List Byte) : Word := bs.foldl crc32Byte c

/-- The common CRC-32: all ones first, inverted after (R227). -/
def crc32 (bs : List Byte) : Word := ~~~ crc32Fold 0xFFFFFFFF#32 bs

/-- One byte of CRC-16/CCITT-FALSE. -/
def crc16Byte (c : BitVec 16) (b : Byte) : BitVec 16 :=
  (List.range 8).foldl (fun c _ => if c.getLsbD 15 then (c <<< 1) ^^^ 0x1021#16 else c <<< 1)
    (c ^^^ (b.setWidth 16 <<< 8))

/-- CRC-16/CCITT-FALSE: the HCRC of the skein header (R651). -/
def crc16 (bs : List Byte) : BitVec 16 := bs.foldl crc16Byte 0xFFFF#16

/-- The round constants of SHA-256. -/
def shaK : List Word :=
  [0x428a2f98#32, 0x71374491#32, 0xb5c0fbcf#32, 0xe9b5dba5#32, 0x3956c25b#32, 0x59f111f1#32, 0x923f82a4#32, 0xab1c5ed5#32,
   0xd807aa98#32, 0x12835b01#32, 0x243185be#32, 0x550c7dc3#32, 0x72be5d74#32, 0x80deb1fe#32, 0x9bdc06a7#32, 0xc19bf174#32,
   0xe49b69c1#32, 0xefbe4786#32, 0x0fc19dc6#32, 0x240ca1cc#32, 0x2de92c6f#32, 0x4a7484aa#32, 0x5cb0a9dc#32, 0x76f988da#32,
   0x983e5152#32, 0xa831c66d#32, 0xb00327c8#32, 0xbf597fc7#32, 0xc6e00bf3#32, 0xd5a79147#32, 0x06ca6351#32, 0x14292967#32] ++
  [0x27b70a85#32, 0x2e1b2138#32, 0x4d2c6dfc#32, 0x53380d13#32, 0x650a7354#32, 0x766a0abb#32, 0x81c2c92e#32, 0x92722c85#32,
   0xa2bfe8a1#32, 0xa81a664b#32, 0xc24b8b70#32, 0xc76c51a3#32, 0xd192e819#32, 0xd6990624#32, 0xf40e3585#32, 0x106aa070#32,
   0x19a4c116#32, 0x1e376c08#32, 0x2748774c#32, 0x34b0bcb5#32, 0x391c0cb3#32, 0x4ed8aa4a#32, 0x5b9cca4f#32, 0x682e6ff3#32,
   0x748f82ee#32, 0x78a5636f#32, 0x84c87814#32, 0x8cc70208#32, 0x90befffa#32, 0xa4506ceb#32, 0xbef9a3f7#32, 0xc67178f2#32]

/-- The eight chaining words of SHA-256. -/
structure Sha where
  a : Word
  b : Word
  c : Word
  d : Word
  e : Word
  f : Word
  g : Word
  h : Word
  deriving DecidableEq, Repr

/-- The initial chaining words. -/
def shaInit : Sha :=
  ⟨0x6a09e667#32, 0xbb67ae85#32, 0x3c6ef372#32, 0xa54ff53a#32, 0x510e527f#32, 0x9b05688c#32, 0x1f83d9ab#32, 0x5be0cd19#32⟩

/-- One round. -/
def shaRound (s : Sha) (kw : Word × Word) : Sha :=
  let s1 := s.e.rotateRight 6 ^^^ s.e.rotateRight 11 ^^^ s.e.rotateRight 25
  let ch := (s.e &&& s.f) ^^^ (~~~ s.e &&& s.g)
  let t1 := s.h + s1 + ch + kw.1 + kw.2
  let s0 := s.a.rotateRight 2 ^^^ s.a.rotateRight 13 ^^^ s.a.rotateRight 22
  let mj := (s.a &&& s.b) ^^^ (s.a &&& s.c) ^^^ (s.b &&& s.c)
  ⟨t1 + (s0 + mj), s.a, s.b, s.c, s.d + t1, s.e, s.f, s.g⟩

/-- The message schedule, newest word first, extended by `n` words. -/
def shaExtend : Nat → List Word → List Word
  | 0, ws => ws
  | n + 1, ws =>
    let w2 := ws.getD 1 0#32
    let w7 := ws.getD 6 0#32
    let w15 := ws.getD 14 0#32
    let w16 := ws.getD 15 0#32
    let s0 := w15.rotateRight 7 ^^^ w15.rotateRight 18 ^^^ (w15 >>> 3)
    let s1 := w2.rotateRight 17 ^^^ w2.rotateRight 19 ^^^ (w2 >>> 10)
    shaExtend n ((w16 + s0 + w7 + s1) :: ws)

/-- The 16 big-endian words of a 64-byte block. -/
def shaWords (bs : List Byte) : List Word :=
  (List.range 16).map fun i => BitVec.ofNat 32 (ofBE ((bs.drop (4 * i)).take 4))

/-- One block compressed. -/
def shaBlock (s : Sha) (blk : List Byte) : Sha :=
  let ws := (shaExtend 48 (shaWords blk).reverse).reverse
  let r := (shaK.zip ws).foldl shaRound s
  ⟨s.a + r.a, s.b + r.b, s.c + r.c, s.d + r.d, s.e + r.e, s.f + r.f, s.g + r.g, s.h + r.h⟩

/-- Blocks of 64 bytes, `n` of them. -/
def shaBlocks : Nat → List Byte → Sha → Sha
  | 0, _, s => s
  | n + 1, bs, s => shaBlocks n (bs.drop 64) (shaBlock s (bs.take 64))

/-- SHA-256 of a byte string, as 32 bytes. -/
def sha256 (msg : List Byte) : List Byte :=
  let pad := List.replicate ((119 - msg.length % 64) % 64) (0#8)
  let m := msg ++ [0x80#8] ++ pad ++ beBytes 8 (8 * msg.length)
  let r := shaBlocks (m.length / 64) m shaInit
  [r.a, r.b, r.c, r.d, r.e, r.f, r.g, r.h].flatMap fun w => beBytes 4 w.toNat

/-! ### ECDSA over P-256 -/

/-- The field prime of P-256. -/
def p256P : Nat := 0xFFFFFFFF00000001000000000000000000000000FFFFFFFFFFFFFFFFFFFFFFFF
/-- The order of P-256's base point. -/
def p256N : Nat := 0xFFFFFFFF00000000FFFFFFFFFFFFFFFFBCE6FAADA7179E84F3B9CAC2FC632551
/-- The coefficient b. -/
def p256B : Nat := 0x5AC635D8AA3A93E7B3EBBD55769886BC651D06B0CC53B0F63BCE3C3E27D2604B
/-- The base point. -/
def p256G : Nat × Nat :=
  (0x6B17D1F2E12C4247F8BCE6E563A440F277037D812DEB33A0F4A13945D898C296,
   0x4FE342E2FE1A7F9B8EE7EB4A7C0F9E162BCE33576B315ECECBB6406837BF51F5)

/-- `b ^ e mod m` over `fuel` bits of `e`. -/
def powMod (fuel b e m : Nat) : Nat :=
  match fuel with
  | 0 => 1 % m
  | k + 1 =>
    let r := powMod k (b * b % m) (e / 2) m
    if e % 2 = 1 then r * b % m else r

/-- The inverse modulo a prime of 256 bits. -/
def invMod (a m : Nat) : Nat := powMod 256 a (m - 2) m

/-- Point addition; `none` is the point at infinity. -/
def ecAdd : Option (Nat × Nat) → Option (Nat × Nat) → Option (Nat × Nat)
  | none, q => q
  | p, none => p
  | some (x1, y1), some (x2, y2) =>
    let p := p256P
    if x1 = x2 ∧ (y1 + y2) % p = 0 then none
    else
      let l := if x1 = x2 then (3 * x1 * x1 + (p - 3)) * invMod (2 * y1) p % p
               else (y2 + p - y1) * invMod ((x2 + p - x1) % p) p % p
      let x3 := (l * l + 2 * p - x1 - x2) % p
      some (x3, (l * (x1 + p - x3) + p - y1) % p)

/-- Scalar multiplication over `fuel` bits of `k`. -/
def ecMul (fuel k : Nat) (q : Option (Nat × Nat)) : Option (Nat × Nat) :=
  match fuel with
  | 0 => none
  | n + 1 =>
    let r := ecMul n (k / 2) (ecAdd q q)
    if k % 2 = 1 then ecAdd q r else r

/-- ECDSA P-256 verification of a 32-byte hash under a 64-byte public key (x then y) and a signature (r then s), all
big-endian (R582, R584). -/
def ecdsaVerify (pub hash sig : List Byte) : Bool :=
  let x := ofBE (pub.take 32)
  let y := ofBE ((pub.drop 32).take 32)
  let r := ofBE (sig.take 32)
  let s := ofBE ((sig.drop 32).take 32)
  if x < p256P ∧ y < p256P ∧ y * y % p256P = (x * x * x + (p256P - 3) * x + p256B) % p256P ∧
      0 < r ∧ r < p256N ∧ 0 < s ∧ s < p256N then
    let w := invMod s p256N
    let u1 := ofBE hash * w % p256N
    let u2 := r * w % p256N
    match ecAdd (ecMul 256 u1 (some p256G)) (ecMul 256 u2 (some (x, y))) with
    | none => false
    | some (vx, _) => vx % p256N == r
  else false

end Sys2Proof
end

