-- ==== Sys2Proof/Machine/Packet.lean ====
section
/-!
DEFINITION. What the MAC, carding and the fabric read of a frame's bytes: tags, IP and L4 headers, checksums and their
verdict, CE marking, the edges' FCS. A frame's bytes run from its destination address through its FCS (R452).
-/

namespace Sys2Proof.Machine

/-- Byte `o` of a frame; 0 past its end. -/
def u8 (bs : List Byte) (o : Nat) : Nat := (bs.getD o 0).toNat
/-- The big-endian 16-bit number at `o`. -/
def u16 (bs : List Byte) (o : Nat) : Nat := u8 bs o * 256 + u8 bs (o + 1)
/-- `n` bytes from `o`, zeros past the end. -/
def sl (bs : List Byte) (o n : Nat) : List Byte := ((bs.drop o).take n) ++ List.replicate (n - (bs.length - o)) 0
/-- `bs` with `xs` over it from `o`. -/
def overlay (bs : List Byte) (o : Nat) (xs : List Byte) : List Byte :=
  bs.take o ++ xs.take (bs.length - o) ++ bs.drop (o + xs.length)

/-- Where a frame's headers lie. Every offset is from the destination address. -/
structure Hdr where
  outer : Bool
  inner : Bool
  etypeAt : Nat
  etype : Nat
  l3 : Nat
  ip4 : Bool
  ip6 : Bool
  /-- IPv4 header bytes. -/
  ihl : Nat
  proto : Nat
  firstFrag : Bool
  laterFrag : Bool
  /-- Bytes of the IP packet by its own length field. -/
  total : Nat
  /-- IPv6 with an extension header. -/
  ext : Bool
  l4 : Nat
  deriving DecidableEq, Repr

/-- An IPv6 next header that names an extension header. -/
def isExt (nh : Nat) : Bool := [0, 43, 44, 50, 51, 60, 135, 139, 140].contains nh

/-- The headers of a frame (R498, R517, R518). -/
def parseHdr (bs : List Byte) : Hdr :=
  let outer := [0x8100, 0x88A8, 0x9100].contains (u16 bs 12)
  let inner := outer && u16 bs 16 == 0x8100
  let ea := if inner then 20 else if outer then 16 else 12
  let et := u16 bs ea
  let l3 := ea + 2
  let ip4 := et == 0x0800 && u8 bs l3 / 16 == 4 && decide (l3 + 20 ≤ bs.length)
  let ip6 := et == 0x86DD && u8 bs l3 / 16 == 6 && decide (l3 + 40 ≤ bs.length)
  let ihl := 4 * (u8 bs l3 % 16)
  let fo := u16 bs (l3 + 6)
  let nh := if ip4 then u8 bs (l3 + 9) else if ip6 then u8 bs (l3 + 6) else 0
  { outer := outer, inner := inner, etypeAt := ea, etype := et, l3 := l3, ip4 := ip4, ip6 := ip6, ihl := ihl, proto := nh
    firstFrag := ip4 && fo % 8192 == 0 && fo / 8192 % 2 == 1
    laterFrag := ip4 && fo % 8192 != 0
    total := if ip4 then u16 bs (l3 + 2) else if ip6 then 40 + u16 bs (l3 + 4) else 0
    ext := ip6 && isExt nh
    l4 := if ip4 then l3 + ihl else l3 + 40 }

/-- The L4 header is parsed: TCP or UDP over IPv4 unfragmented or in a first fragment, UDP over IPv6 with no extension
header (R518). -/
def Hdr.hasL4 (h : Hdr) : Bool :=
  (h.ip4 && !h.laterFrag && (h.proto == 6 || h.proto == 17)) || (h.ip6 && h.proto == 17)

/-! ### Checksums (R501 to R503) -/

/-- One's complement sum of big-endian 16-bit words, an odd last byte padded with 0. -/
def sum16 : List Byte → Nat → Nat
  | a :: b :: t, acc => sum16 t (acc + a.toNat * 256 + b.toNat)
  | [a], acc => acc + a.toNat * 256
  | [], acc => acc

/-- Carries folded in: the one's complement sum in 16 bits. -/
def fold16 (x : Nat) : Nat :=
  let y := x % 65536 + x / 65536
  let z := y % 65536 + y / 65536
  z % 65536 + z / 65536

/-- The L4 bytes of the packet, and the pseudo-header's sum. -/
def l4Sum (bs : List Byte) (h : Hdr) : Nat :=
  let n := if h.ip4 then h.total - h.ihl else h.total - 40
  let data := (bs.drop h.l4).take n
  let addrs := if h.ip4 then sl bs (h.l3 + 12) 8 else sl bs (h.l3 + 8) 32
  let pseudo := if h.proto == 1 then 0 else sum16 addrs 0 + h.proto + n / 65536 + n % 65536
  fold16 (sum16 data pseudo)

/-- Offset of the L4 checksum in its header. -/
def csumAt (proto : Nat) : Nat := if proto == 6 then 16 else if proto == 17 then 6 else 2

/-- L4 bytes a checked header must have. -/
def l4Min (proto : Nat) : Nat := if proto == 6 then 20 else 8

/-- Whether the L4 checksum is one the MAC checks or inserts (R501). -/
def Hdr.checked (h : Hdr) : Bool :=
  (h.ip4 && !h.firstFrag && !h.laterFrag && (h.proto == 6 || h.proto == 17 || h.proto == 1)) || (h.ip6 && h.proto == 17)

/-- The verdict of Table 10.2 for a frame that arrived on E0 to E11. -/
def verdictOf (bs : List Byte) (trunc : Bool) : Nat :=
  let body := bs.take (bs.length - 4)
  let h := parseHdr body
  let et := h.etype
  if trunc then 6
  else if et != 0x0800 && et != 0x86DD then 0
  else if et == 0x0800 && !h.ip4 then (if body.length < h.l3 + 20 then 6 else 0)
  else if et == 0x86DD && !h.ip6 then (if body.length < h.l3 + 40 then 6 else 0)
  else if h.ip4 && decide (body.length < h.l4) then 6
  else if h.ip4 && (decide (h.ihl < 20) || fold16 (sum16 (sl body h.l3 h.ihl) 0) != 0xFFFF) then 3
  else if !h.checked then 1
  else if body.length < h.l4 + l4Min h.proto then 6
  else if h.proto == 17 && u16 body (h.l4 + 6) == 0 then (if h.ip4 then 5 else 4)
  else if l4Sum body h == 0xFFFF then 2 else 4

/-- CE set on an IP frame with ECT(0) or ECT(1); an IPv4 header checksum updated with it (R459, R463). -/
def ectOf (bs : List Byte) : Bool :=
  let h := parseHdr bs
  let e := if h.ip4 then u8 bs (h.l3 + 1) % 4 else if h.ip6 then u8 bs (h.l3 + 1) / 16 % 4 else 0
  e == 1 || e == 2

/-- The frame with CE set, and the IPv4 header checksum updated by the change of that one word. -/
def markCE (bs : List Byte) : List Byte :=
  let h := parseHdr bs
  if h.ip4 then
    let old := u16 bs h.l3
    let new := old - old % 4 + 3
    let c := u16 bs (h.l3 + 10)
    let c' := 65535 - fold16 ((65535 - c) + (65535 - old) + new)
    overlay (overlay bs h.l3 (beBytes 2 new)) (h.l3 + 10) (beBytes 2 c')
  else if h.ip6 then
    let b := u8 bs (h.l3 + 1)
    overlay bs (h.l3 + 1) [BitVec.ofNat 8 (b / 64 * 64 + 48 + b % 16)]
  else bs

/-- The checksums a TX-ring frame with CSUMINS gets (R503): IPv4 header, then L4; a computed UDP checksum of 0 is 0xFFFF. -/
def insertCsums (bs : List Byte) : List Byte :=
  let h := parseHdr bs
  let b1 := if h.ip4 then
      let z := overlay bs (h.l3 + 10) [0, 0]
      overlay z (h.l3 + 10) (beBytes 2 (65535 - fold16 (sum16 (sl z h.l3 h.ihl) 0)))
    else bs
  if h.checked then
    let at' := h.l4 + csumAt h.proto
    let z := overlay b1 at' [0, 0]
    let c := 65535 - l4Sum z h
    overlay z at' (beBytes 2 (if h.proto == 17 && c == 0 then 0xFFFF else c))
  else b1

/-- The FCS of the bytes before it (IEEE 802.3 sends its CRC-32 least significant byte first). -/
def fcsOf (body : List Byte) : List Byte := leBytes 4 (crc32 body).toNat

/-- The frame with a new FCS. -/
def reFcs (bs : List Byte) : List Byte :=
  let body := bs.take (bs.length - 4)
  body ++ fcsOf body

/-- A stomped frame's end: four bytes that are the bitwise inverse of the correct FCS of the bytes sent (R473). -/
def stompFcs (bs : List Byte) : List Byte :=
  let body := bs.take (bs.length - 4)
  body ++ (fcsOf body).map fun b => ~~~ b

/-- Frames whose transmission the MAC ledgers beside TC7 (R506). -/
def ledgered (bs : List Byte) : Bool :=
  let h := parseHdr bs
  h.etype == 0x88F7 ||
    (h.hasL4 && h.proto == 17 && (u16 bs (h.l4 + 2) == 319 || u16 bs (h.l4 + 2) == 320))

end Sys2Proof.Machine
end

