-- ==== Sys2Proof/Machine/FabricOps.lean ====
section
/-!
DEFINITION. What chapter 09 gives the fabric: the bobbin map, pools, meters, the admission decision, removal of frames,
the choice of the next frame of a wire egress, and the launch of a train.
-/

namespace Sys2Proof.Machine

/-! ### Bobbin map, profiles, groups (R454 to R456) -/

/-- Word 0 and word 1 of bobbin `b`'s map entry. -/
def State.qcfg (s : State) (b w : Nat) : Word := BitVec.ofNat 32 ((s.conf 4 256).num (8 * b + 4 * w) 4)
def bobEn (s : State) (b : Nat) : Bool := bitOf (s.qcfg b 0) 31
def bobMcast (s : State) (b : Nat) : Bool := bitOf (s.qcfg b 0) 30
def bobMgmt (s : State) (b : Nat) : Bool := bitOf (s.qcfg b 0) 29
def bobEgress (s : State) (b : Nat) : Nat := bitsOf (s.qcfg b 0) 24 5
def bobTc (s : State) (b : Nat) : Nat := bitsOf (s.qcfg b 0) 20 3
def bobProfile (s : State) (b : Nat) : Nat := bitsOf (s.qcfg b 0) 8 8
def bobGroup (s : State) (b : Nat) : Nat := bitsOf (s.qcfg b 1) 16 12
def bobMeter (s : State) (b : Nat) : Nat := bitsOf (s.qcfg b 1) 0 12
/-- A field of the profile of bobbin `b` (Table 9.5). -/
def profNum (s : State) (b off n : Nat) : Nat := (s.conf 4 (bobProfile s b)).num off n
/-- Guaranteed cells of bobbin `b`. -/
def bobGuar (s : State) (b : Nat) : Nat := profNum s b 2 2
/-- The bobbins the map enables, in ascending order. -/
def enabledBobbins (s : State) : List Nat :=
  (s.conf 4 256).filterMap fun e => if e.1 % 8 = 3 ∧ 128 ≤ e.2.toNat then some (e.1 / 8) else none
/-- MASK of a multicast group, and the bobbin it names for internal port 14, 16 or 15 (R456). -/
def groupMask (s : State) (g : Nat) : Nat := (s.conf 4 257).num (16 * g) 4
def groupBobbin (s : State) (g port : Nat) : Nat :=
  (s.conf 4 257).num (16 * g + if port = 14 then 4 else if port = 16 then 6 else 8) 2

/-! ### Cells (R452, R458) -/

/-- Cells that `n` bytes occupy. -/
def cellsOf (n : Nat) : Nat := ceilDiv n 256
/-- Cells of bobbin `b`, its reservations and references among them. -/
def depthOf (s : State) (b : Nat) : Nat := ((s.bob.queue.filter fun e => e.bobbin == b).map QEntry.cells).sum
/-- Cells that frames admitted to bobbin `b` use or reserve in the shared pool. -/
def ownCells (s : State) (b : Nat) : Nat :=
  ((s.bob.frames.filter fun f => f.stage == .held && !f.mgmt && !f.freed && f.bobbin == b).map Frame.cells).sum
/-- All such cells. -/
def sharedUsed (s : State) : Nat :=
  ((s.bob.frames.filter fun f => f.stage == .held && !f.mgmt && !f.freed).map Frame.cells).sum
/-- Cells used in the steward pool of 256. -/
def stewardUsed (s : State) : Nat :=
  ((s.bob.frames.filter fun f => f.stage == .held && f.mgmt && !f.freed).map Frame.cells).sum
/-- Guarantee cells of `b` it does not use now. -/
def unusedGuar (s : State) (b : Nat) : Nat := bobGuar s b - ownCells s b
/-- Guarantee cells held back for all enabled bobbins (BOB_GUARSUM). -/
def guarHeld (s : State) : Nat := ((enabledBobbins s).map fun b => unusedGuar s b).sum
/-- Free shared cells, less unused guarantees (BOB_POOL). -/
def sharedFree (s : State) : Nat := 188128 - sharedUsed s - guarHeld s
/-- Free cells of the steward pool (BOB_STWFREE). -/
def stewardFree (s : State) : Nat := 256 - stewardUsed s

/-- The largest frame ingress `p` may bring, in bytes: MAXFRAME on E0 to E11 (R494), 9,216 elsewhere (R458). -/
def maxFrame (s : State) (p : Nat) : Nat :=
  if p < 12 then (if s.confLen 0x0204 p = 0 then 1522 else (s.conf 0x0204 p).num 2 2) else 9216
/-- Headroom of a frame of ingress `p` (R458). -/
def headroom (s : State) (p : Nat) : Nat := cellsOf (maxFrame s p)

/-! ### Meters (R460, R461) -/

/-- Buckets are kept in 1/65,536 bytes; `k` kbit/s for `ns` nanoseconds. -/
def refill (kbits ns : Nat) : Nat := kbits * ns * 65536 / 8000000

/-- The meter's state; one that was never used is full (R487). -/
def meterOf (s : State) (m : Nat) : Meter :=
  let x := Tab.get (fun _ => ({} : Meter)) s.bob.meters m
  let cbs := (s.conf 5 m).num 8 4 * 65536
  let pbs := (s.conf 5 m).num 12 3 * 65536
  if x.fresh then { x with tc := cbs, tp := pbs } else { x with tc := min cbs x.tc, tp := min pbs x.tp }

/-- A metered frame of `n` bytes with pre-colour `pre`: the colour (0 green, 1 yellow, 2 red) by RFC 2698, colour-aware
when AWARE is 1, and the meter after it. -/
def meterFrame (s : State) (m n pre : Nat) : Nat × Meter :=
  let x := meterOf s m
  let el := (s.reel - x.last).toNat
  let el := if x.fresh then 0 else el
  let cir := (s.conf 5 m).num 0 4
  let pir := (s.conf 5 m).num 4 4
  let tc := min ((s.conf 5 m).num 8 4 * 65536) (x.tc + refill cir el)
  let tp := min ((s.conf 5 m).num 12 3 * 65536) (x.tp + refill pir el)
  let pre := if bitOf (BitVec.ofNat 32 ((s.conf 5 m).num 12 4)) 31 then pre else 0
  let b := n * 65536
  let y := { x with last := s.reel, fresh := false }
  if pre = 2 ∨ tp < b then (2, { y with tc := tc, tp := tp, red := x.red + 1 })
  else if pre = 1 ∨ tc < b then (1, { y with tc := tc, tp := tp - b, yellow := x.yellow + 1 })
  else (0, { y with tc := tc - b, tp := tp - b, green := x.green + 1 })

/-! ### Admission (R459) -/

/-- Outcome of an admission decision. -/
inductive Adm where
  | admitted
  | refused
  | dropped
  deriving DecidableEq, Repr

/-- The WRED average after a decision at this depth; it keeps 8 fraction bits (R459). The division rounds down. -/
def avgNext (avg depth w : Nat) : Nat :=
  ((avg : Int) + ((depth * 256 : Nat) - (avg : Int)) / (2 ^ w : Nat)).toNat

/-- Whether a draw drops a frame of this colour at this average (R459). -/
def wredDrops (s : State) (b colour avg draw : Nat) : Bool :=
  let o := 0x10 + 12 * colour
  let minth := profNum s b o 4 * 256
  let maxth := profNum s b (o + 4) 4 * 256
  let maxp := profNum s b (o + 8) 2
  if maxth ≤ avg then true else if avg < minth then false
  else decide (draw * (maxth - minth) < maxp * (avg - minth))

/-- What an admission is asked for. -/
structure AdmReq where
  bobbin : Nat
  need : Nat
  /-- Metered bytes, the meter a rule names (0: the bobbin's), the pre-colour. -/
  len : Nat
  meter : Nat
  pre : Nat
  /-- From a TX ring: no WRED. -/
  tx : Bool
  /-- The frame carries ECT(0) or ECT(1). -/
  ect : Bool
  /-- A reference placed by a train: no meter, no pool (R468, R469). -/
  isRef : Bool := false
  colour : Nat := 0
  deriving DecidableEq, Repr

/-- A bobbin's counters and average after a decision. -/
def bobCount (b : Nat) (avg : Nat) (r : Adm) (mark : Bool) (s : State) : State :=
  s.setBobbin b fun x => { x with
    avg := avg
    dropped := x.dropped + b2n (r == .dropped)
    refused := x.refused + b2n (r == .refused)
    marked := x.marked + b2n mark }

/-- The admission decision, in the order of R459: its outcome, the colour, whether CE is set, and the state with meter,
average and counters brought up to date. -/
def admission (q : AdmReq) (s : State) : Adm × Nat × Bool × State :=
  let b := q.bobbin
  let x := s.bobbin b
  if !bobEn s b || x.refusing then (.refused, q.colour, false, bobCount b x.avg .refused false s)
  else
    let m := if q.meter ≠ 0 then q.meter else bobMeter s b
    let metered := !q.isRef && decide (m ≠ 0)
    let (colour, mt) := if metered then meterFrame s m q.len q.pre else (q.colour, {})
    let s1 := if metered then { s with bob := { s.bob with meters := Tab.set (fun _ => {}) s.bob.meters m mt } } else s
    let d := depthOf s b
    let avg := avgNext x.avg d (profNum s b 1 1)
    let mode := profNum s b 0 1
    let wred := decide (mode = 2) && !q.tx
    let drop := wred && wredDrops s b colour avg (Config.draw16 s.bob.draws).toNat
    let s2 := if wred then { s1 with bob := { s1.bob with draws := s1.bob.draws + 1 } } else s1
    let room := if q.isRef then true
      else if bobMgmt s b then decide (q.need ≤ stewardFree s)
      else decide (q.need ≤ unusedGuar s b + sharedFree s)
    if drop || decide (profNum s b 4 4 < d + q.need) || !room then (.dropped, colour, false, bobCount b avg .dropped false s2)
    else
      let mark := decide (mode = 1) && q.ect && decide (profNum s b 8 4 < d)
      (.admitted, colour, mark, bobCount b avg .admitted mark s2)

/-- A frame takes its place in bobbin `b` with `cells` reserved (R467). -/
def enqueueFrame (id b cells colour : Nat) (ce : Bool) (s : State) : State :=
  let s1 := s.setFrame id fun f => { f with
    stage := .held, bobbin := b, cells := cells, mgmt := bobMgmt s b, colour := colour, ce := f.ce || ce, tc := bobTc s b
    bytes := if ce && f.whole then markCE f.bytes else f.bytes, rewritten := f.rewritten || ce }
  { s1 with bob := { s1.bob with queue := s1.bob.queue ++ [{ bobbin := b, frame := id, isRef := false, cells := cells }] } }

/-- Frame `id` is turned away: its bytes are discarded, now or as they come. -/
def turnAway (id : Nat) (s : State) : State :=
  let fs := s.bob.frames.filterMap fun f =>
    if f.id = id then (if f.whole then none else some { f with stage := .gone }) else some f
  { s with bob := { s.bob with frames := fs } }

/-- A frame offered to a bobbin: the decision, and the frame's place or end. -/
def offerFrame (id : Nat) (q : AdmReq) (s : State) : State :=
  match admission q s with
  | (.admitted, colour, mark, t) => enqueueFrame id q.bobbin q.need colour mark t
  | (_, _, _, t) => turnAway id t

/-! ### Frames that end (R471, R475) -/

/-- Frame `id` is on this wire, or paused there (R661). -/
def Egress.has (g : Egress) (id : Nat) : Bool := g.cur == some id || g.paused.map Prod.fst == some id
/-- Whether anything still needs frame `id`'s cells or bytes. -/
def queuedRef (s : State) (id : Nat) : Bool := s.bob.queue.any fun e => e.frame == id
def copiesOf (s : State) (id : Nat) : Bool :=
  s.bob.egress.any fun e => e.2.has id || e.2.copyBuf.contains id

/-- A bobbin that has become empty ends its refusal (R771). -/
def endRefusalIfEmpty (b : Nat) (s : State) : State :=
  if depthOf s b = 0 && (s.bobbin b).refusing then
    let s1 := s.setBobbin b fun x => { x with refusing := false }
    let rings := s1.hl.rings.mapVals (fun _ => {}) fun r x =>
      if s.fld (bar2Base + 0x100000 * r + 4) 0 16 = b then { x with stallSince := none } else x
    { s1 with hl := { s1.hl with rings := rings } }
  else s

/-- A frame nothing refers to any more is gone; one that only copies refer to has freed its cells (R471). -/
def reapFrame (id : Nat) (s : State) : State :=
  if queuedRef s id then s
  else if copiesOf s id then s.setFrame id fun f => { f with freed := true }
  else { s with bob := { s.bob with frames := s.bob.frames.filter fun f => f.id != id } }

/-- One entry of the queue is taken out (the first of that frame in that bobbin). -/
def dropEntry (b id : Nat) (s : State) : State :=
  let s1 := { s with bob := { s.bob with queue := s.bob.queue.eraseP fun e => e.bobbin == b && e.frame == id } }
  endRefusalIfEmpty b (reapFrame id s1)

/-- Every entry and every copy not on a wire of a frame is removed (R475, R484). -/
def removeFrame (id : Nat) (s : State) : State :=
  let bs := (s.bob.queue.filter fun e => e.frame == id).map QEntry.bobbin
  let eg := s.bob.egress.mapVals (fun _ => {}) fun _ x =>
    { x with copyBuf := x.copyBuf.filter fun i => i != id || x.has id }
  let s1 := { s with bob := { s.bob with queue := s.bob.queue.filter (fun e => e.frame != id), egress := eg } }
  bs.foldl (fun t b => endRefusalIfEmpty b t) (reapFrame id s1)

/-! ### Wire egress (R465) -/

/-- Data rate of a wire port in Mb/s (R493, R494): the skein links' by their state. -/
def speedMbps (code : Nat) : Nat :=
  match code with
  | 1 => 10
  | 2 => 100
  | 3 => 1000
  | 4 => 2500
  | _ => 0
def portRate (s : State) (p : Nat) : Nat :=
  if p < 12 then speedMbps (s.eport p).speed
  else match (s.linkOf (p - 12)).st with
    | .up10g => 10000
    | .upSwift | .swiftOnly => 125
    | _ => 0
/-- The link of wire port `p` is up. -/
def portUp (s : State) (p : Nat) : Bool :=
  if p < 12 then (s.eport p).link else decide (portRate s p ≠ 0)

/-- Base of the BOB port registers of port `p` (R488). -/
def bobPort (p : Nat) : Nat := 0x40040100 + 0x20 * p
/-- Gate bit of class `tc` on port `p` (R465). -/
def gateOpen (s : State) (p tc : Nat) : Bool := bitOf (s.rd (bobPort p + 4)) tc
/-- DRR quantum in bytes (Table 9.9). -/
def quantum (s : State) (p tc : Nat) : Nat :=
  64 * (if tc < 4 then s.fld (bobPort p + 8) (8 * tc) 8 else s.fld (bobPort p + 12) (8 * (tc - 4)) 8)

/-- A frame is on some wire now. -/
def onWire (s : State) (id : Nat) : Bool := s.bob.egress.any fun e => e.2.has id

/-- A frame whose head entry leaves as a train: an MCAST bobbin's, or one with MIRROR or COPY (R468). -/
def needsTrain (s : State) (e : QEntry) : Bool :=
  !e.isRef && (bobMcast s e.bobbin || (s.frame? e.frame).any fun f => f.mirror.isSome || f.copy.isSome)

/-- Number of the copy buffer among the sources of a class. -/
def copySource : Nat := 65536

/-- The head entry of bobbin `b` that has not started on a wire. -/
def headOf (s : State) (b : Nat) : Option QEntry :=
  s.bob.queue.find? fun e => e.bobbin == b && !onWire s e.frame

/-- What egress `p` may start in class `tc`: source and frame, by ascending source. -/
def candidates (s : State) (p tc : Nat) : List (Nat × Nat) :=
  let bs := ((s.bob.queue.map QEntry.bobbin).eraseDups.filter fun b => bobEgress s b == p && bobTc s b == tc && !bobMcast s b)
  let qs := (ascending bs).filterMap fun b => do
    let e ← headOf s b
    let f ← s.frame? e.frame
    if (f.eligible || f.cut) && !needsTrain s e then some (b, f.id) else none
  let cs := match (s.egress p).copyBuf.head? with
    | some id => match s.frame? id with
      | some f => if f.tc == tc then [(copySource, id)] else []
      | none => []
    | none => []
  qs ++ cs

/-- The next source after `last`, in round robin. -/
def roundRobin (last : Nat) (cs : List (Nat × Nat)) : Option (Nat × Nat) :=
  match cs.find? fun c => decide (last < c.1) with
  | some c => some c
  | none => cs.head?

/-- The bytes a frame counts for in its class's deficit: its length, or its bytes so far while it cuts through. -/
def sizeOf' (s : State) (id : Nat) : Nat := ((s.frame? id).map fun f => f.bytes.length).getD 0

/-- Deficit round robin over TC0 to TC6 (R465): a class visited afresh gains its quantum; the head it can pay for goes. -/
def drr (s : State) (p : Nat) : Nat → Egress → Option (Nat × Nat) × Egress
  | 0, e => (none, e)
  | fuel + 1, e =>
    let tc := e.rrClass
    let cs := if gateOpen s p tc then candidates s p tc else []
    match roundRobin (Tab.get (fun _ => copySource) e.rrBob tc) cs with
    | none =>
      drr s p fuel { e with deficit := Tab.set (fun _ => 0) e.deficit tc 0, rrClass := (tc + 1) % 7, fresh := true }
    | some c =>
      let d := Tab.get (fun _ => 0) e.deficit tc + if e.fresh then quantum s p tc else 0
      let n := sizeOf' s c.2
      if n ≤ d then
        (some c, { e with deficit := Tab.set (fun _ => 0) e.deficit tc (d - n), fresh := false
                          rrBob := Tab.set (fun _ => copySource) e.rrBob tc c.1 })
      else drr s p fuel { e with deficit := Tab.set (fun _ => 0) e.deficit tc d, rrClass := (tc + 1) % 7, fresh := true }

/-- The next frame egress `p` starts, and its scheduler after the choice (R465). -/
def selectNext (s : State) (p : Nat) : Option (Nat × Nat) × Egress :=
  let e := s.egress p
  match (if gateOpen s p 7 then roundRobin (Tab.get (fun _ => copySource) e.rrBob 7) (candidates s p 7) else none) with
  | some c => (some c, { e with rrBob := Tab.set (fun _ => copySource) e.rrBob 7 c.1 })
  | none => if (List.range 7).all fun tc => !gateOpen s p tc || (candidates s p tc).isEmpty then (none, e) else drr s p 1200 e

/-- Whether port `p` is a through egress in the classifier bank: it sends only through frames (R507, R509). -/
def throughEgress (s : State) (p : Nat) : Bool :=
  (List.range 12).any fun i => (s.conf 1 0).num (0x1A + 0x10 * i) 1 == p && decide (s.confLen 1 0 ≠ 0) && decide (p < 12)

/-! ### Trains (R468 to R471) -/

/-- Members of the train of an entry: wire ports, then internal ports with the bobbin that takes the reference. -/
def trainMembers (s : State) (e : QEntry) : List Nat × List (Nat × Nat) :=
  let f := s.frame? e.frame
  let b := e.bobbin
  let mask := if bobMcast s b then groupMask s (bobGroup s b) else 2 ^ bobEgress s b
  let mask := match f.bind Frame.mirror with
    | some p => mask ||| 2 ^ p
    | none => mask
  let wires := (List.range 14).filter fun p => mask.testBit p
  let inner := ([14, 15, 16].filter fun p => mask.testBit p).map fun p =>
    (p, if bobMcast s b then groupBobbin s (bobGroup s b) p else b)
  (wires, match f.bind Frame.copy with
    | some cb => inner ++ [(14, cb)]
    | none => inner)

/-- Cells of the copy buffer of port `p` in use (BOB_PCPY). -/
def copyCells (s : State) (p : Nat) : Nat :=
  ((s.egress p).copyBuf.map fun id => ((s.frame? id).map Frame.cells).getD 0).sum

/-- The entry that may launch from bobbin `b`: its head, whole and good, with room in every wire member that is up (R469). -/
def launchable (s : State) (b : Nat) : Option QEntry := do
  let e ← headOf s b
  let f ← s.frame? e.frame
  if f.eligible && needsTrain s e &&
      ((trainMembers s e).1.all fun p => !portUp s p || decide (copyCells s p + f.cells ≤ 40)) then some e else none

/-- The train that launches next: TC7 first, then the higher class, round robin among bobbins within a class (R470, R486). -/
def nextTrain (s : State) : Option QEntry :=
  let bs := ascending ((s.bob.queue.map QEntry.bobbin).eraseDups)
  let es := bs.filterMap fun b => launchable s b
  let best := (es.map fun e => bobTc s e.bobbin).foldl max 0
  let cs := (es.filter fun e => bobTc s e.bobbin == best).map fun e => (e.bobbin, e.frame)
  match roundRobin (Tab.get (fun _ => 0) s.bob.rrTrain best) cs with
  | none => none
  | some c => es.find? fun e => e.bobbin == c.1

/-- One wire member takes its copy, or is dropped and counted when its link is down; a TRUNC frame is dropped there (R474). -/
def wireCopy (id : Nat) (f : Frame) (p : Nat) (s : State) : State :=
  if !portUp s p then s.count (bobPort p + 0x14) 1
  else if f.trunc then s.setEgress p fun e => { e with truncs := e.truncs + 1 }
  else s.setEgress p fun e => { e with copyBuf := e.copyBuf ++ [id] }

/-- One internal member takes a reference, if its bobbin admits it (R468, R469). -/
def placeRef (id : Nat) (f : Frame) (b : Nat) (s : State) : State :=
  let q : AdmReq :=
    { bobbin := b, need := f.cells, len := 0, meter := 0, pre := 0, tx := false, ect := ectOf f.bytes, isRef := true, colour := f.colour }
  match admission q s with
  | (.admitted, _, mark, t) =>
    { t with bob := { t.bob with queue := t.bob.queue ++ [{ bobbin := b, frame := id, isRef := true, cells := f.cells, ce := mark }] } }
  | (_, _, _, t) => t

/-- A train launches: every member takes its copy as it passes, in ascending port order, and the launching entry leaves
its bobbin. A unicast frame's own internal egress keeps its place there as a reference. -/
def launchTrain (e : QEntry) (f : Frame) (s : State) : State :=
  let (ws, is) := trainMembers s e
  let s1 := ws.foldl (fun t p => wireCopy f.id f p t) s
  let own := is.any fun i => i.2 == e.bobbin && !bobMcast s e.bobbin && i.1 != 14
  let s2 := (is.filter fun i => !(own && i.2 == e.bobbin && i.1 != 14)).foldl (fun t i => placeRef f.id f i.2 t) s1
  let s3 := { s2 with bob := { s2.bob with rrTrain := Tab.set (fun _ => 0) s2.bob.rrTrain (bobTc s e.bobbin) e.bobbin } }
  if own then
    let qs := s3.bob.queue.map fun q =>
      if q.bobbin = e.bobbin ∧ q.frame = f.id ∧ q.isRef = false then { q with isRef := true } else q
    { s3 with bob := { s3.bob with queue := qs } }
  else
    let qs := s3.bob.queue.eraseP fun q => q.bobbin == e.bobbin && q.frame == f.id && !q.isRef
    let s4 := { s3 with bob := { s3.bob with queue := qs } }
    endRefusalIfEmpty e.bobbin (reapFrame f.id s4)

/-- Frame `id` as the reader of bobbin `b` sees it: with CE, and a new FCS, where its reference was admitted so (R459, R463). -/
def frameIn (s : State) (b id : Nat) : Option Frame :=
  (s.frame? id).map fun f =>
    if s.bob.queue.any fun e => e.bobbin == b && e.frame == id && e.isRef && e.ce then { f with bytes := reFcs (markCE f.bytes) } else f

/-- BOB_ERR. -/
def bobErr : Nat := 0x4004000C

/-- The cells of frame `id` are read: single-bit errors are corrected and counted, saturating; an uncorrectable cell sets CELLUNC
and makes the frame bad (R453, R473, Table 9.8). -/
def cellsRead (id : Nat) (s : State) : State :=
  match s.frame? id with
  | none => s
  | some f =>
    let s1 := if f.flips = 0 then s
      else { s.setFrame id (fun g => { g with flips := 0 }) with
        bob := { (s.setFrame id fun g => { g with flips := 0 }).bob with cellCorr := min 65535 (s.bob.cellCorr + f.flips) } }
    if f.uncorr then (s1.setFrame id fun g => { g with bad := true }).setBits bobErr 0x80000000 else s1

/-- The eligible frames at the head of bobbin `b`, in order, up to the first that is not (R476, R477). -/
def headRun (s : State) (b : Nat) : List Frame :=
  ((s.bob.queue.filter fun e => e.bobbin == b).map fun e => s.frame? e.frame).takeWhile (fun f => f.any Frame.eligible)
    |>.filterMap id

end Sys2Proof.Machine
end

