-- ==== Sys2Proof/Machine/CardOps.lean ====
section
/-!
DEFINITION. Carding (chapter 10): the key a lane builds, range comparators, patterns, first-match rules, and the decision
of a frame by the classifier bank item (ITEM 0x0001).
-/

namespace Sys2Proof.Machine

/-- The classifier bank that runs. -/
def bank (s : State) : Mem := s.conf 1 0
/-- DEPTH, THRUOUT, THRUSPIN, THRUDELAY, THRUTIN of port `p` (Table 10.5); DEPTH 64 and no through path with no bank. -/
def cardDepth (s : State) (p : Nat) : Nat := if s.confLen 1 0 = 0 then 64 else (bank s).num (0x18 + 0x10 * p) 2
def thruOut (s : State) (p : Nat) : Nat := if s.confLen 1 0 = 0 then 0xFF else (bank s).num (0x1A + 0x10 * p) 1
def thruSpin (s : State) (p : Nat) : Nat := (bank s).num (0x1B + 0x10 * p) 1
def thruDelay (s : State) (p : Nat) : Nat := (bank s).num (0x1C + 0x10 * p) 2
def thruTin (s : State) (p : Nat) : Nat := (bank s).num (0x1E + 0x10 * p) 1

/-- The field a comparator names (R519), when the frame has it. `h` was parsed of the bytes scanned. -/
def cmpField (bs : List Byte) (h : Hdr) (code : Nat) : Option Nat :=
  let l4 := h.hasL4 && decide (h.l4 + 4 ≤ bs.length)
  match code with
  | 1 => if l4 then some (u16 bs h.l4) else none
  | 2 => if l4 then some (u16 bs (h.l4 + 2)) else none
  | 3 => if h.outer then some (u16 bs 14 % 4096) else none
  | 4 => if h.inner then some (u16 bs 18 % 4096) else none
  | 5 => some h.etype
  | 6 => if h.ip4 then some (u16 bs (h.l3 + 2)) else if h.ip6 then some (u16 bs (h.l3 + 4)) else none
  | 7 => if h.ip4 then some (u8 bs (h.l3 + 1) / 4) else if h.ip6 then some (u16 bs h.l3 / 16 % 256 / 4) else none
  | 8 => if h.ip4 && !h.laterFrag && h.proto == 1 && decide (h.l4 + 2 ≤ bs.length) then some (u16 bs h.l4)
      else if h.ip6 && h.proto == 58 && decide (h.l4 + 2 ≤ bs.length) then some (u16 bs h.l4) else none
  | _ => none

/-- RANGEHIT: bit i is comparator i's hit (R519). -/
def rangeHits (s : State) (bs : List Byte) (h : Hdr) : Nat :=
  ((List.range 64).map fun i =>
    let o := 0x100 + 8 * i
    match cmpField bs h ((bank s).num o 1) with
    | some v => if (bank s).num (o + 2) 2 ≤ v ∧ v ≤ (bank s).num (o + 4) 2 then 2 ^ i else 0
    | none => 0).sum

/-- Whether pattern `p` hits in the bytes scanned (R520). -/
def patHit (s : State) (bs : List Byte) (h : Hdr) (p : Nat) : Bool :=
  let o := 0x300 + 72 * p
  let m := bank s
  let len := m.num o 1
  let anchor : Option Nat := match m.num (o + 1) 1 with
    | 0 => some 0
    | 1 => if h.ip4 || h.ip6 then some h.l3 else none
    | 2 => if h.hasL4 then
        some (h.l4 + if h.proto == 17 then 8 else 4 * (u8 bs (h.l4 + 12) / 16)) else none
    | _ => none
  match anchor with
  | none => false
  | some a =>
    let lo := m.num (o + 2) 2
    let hi := m.num (o + 4) 2
    len != 0 && (List.range (hi + 1 - lo)).any fun i =>
      decide (a + (lo + i) + len ≤ bs.length) &&
      (List.range len).all fun j =>
        let k := m.byte (o + 40 + j)
        (bs.getD (a + (lo + i) + j) 0 &&& k) == (m.byte (o + 8 + j) &&& k)

/-- The lowest pattern that hits; the pattern engine is off in 64-byte mode (R512). -/
def patFirst (s : State) (bs : List Byte) (h : Hdr) (depth : Nat) : Option Nat :=
  if depth ≤ 64 then none else (List.range 256).find? fun p => decide ((bank s).num (0x300 + 72 * p) 1 ≠ 0) && patHit s bs h p

/-- The 64-byte key of a frame of ingress `p` (Table 10.3); `short`: it is shorter than DEPTH. -/
def cardKey (s : State) (p depth : Nat) (bs : List Byte) (short : Bool) : List Byte :=
  let h := parseHdr bs
  let pat := patFirst s bs h depth
  let ip := h.ip4 || h.ip6
  let bc := (List.range 6).all fun i => u8 bs i == 0xFF
  let l2 := b2n h.outer + 2 * b2n h.inner + 4 * b2n bc + 8 * (u8 bs 0 % 2) + 16 * b2n pat.isSome + 32 * b2n short
  let l3 := b2n h.ip4 + 2 * b2n h.ip6 + 4 * b2n (h.ip4 && decide (20 < h.ihl)) + 8 * b2n h.ext + 16 * b2n h.firstFrag
    + 32 * b2n h.laterFrag + 64 * b2n (ip && h.proto == 6) + 128 * b2n (ip && h.proto == 17)
  let tos := if h.ip4 then u8 bs (h.l3 + 1) else if h.ip6 then u16 bs h.l3 / 16 % 256 else 0
  let addr (k : Nat) : List Byte :=
    if h.ip4 then sl bs (h.l3 + 12 + 4 * k) 4 ++ List.replicate 12 0
    else if h.ip6 then sl bs (h.l3 + 8 + 16 * k) 16 else List.replicate 16 0
  [BitVec.ofNat 8 p, BitVec.ofNat 8 l2, BitVec.ofNat 8 l3, BitVec.ofNat 8 h.proto] ++ sl bs 0 6 ++ sl bs 6 6
    ++ (if h.outer then sl bs 14 2 else [0, 0]) ++ (if h.inner then sl bs 18 2 else [0, 0]) ++ beBytes 2 h.etype
    ++ [BitVec.ofNat 8 tos, BitVec.ofNat 8 (pat.getD 0)] ++ addr 0 ++ addr 1 ++ leBytes 8 (rangeHits s bs h)

/-- Whether rule `r` is VALID and matches a key (R521). -/
def ruleHit (s : State) (key : List Byte) (r : Nat) : Bool :=
  let o := 0x4B00 + 136 * r
  ((bank s).byte (o + 129)).getLsbD 0 && (List.range 64).all fun j =>
    let k := (bank s).byte (o + 64 + j)
    (key.getD j 0 &&& k) == ((bank s).byte (o + j) &&& k)

/-- The ACTION word at offset `o` (Table 10.4). -/
def actionAt (s : State) (o : Nat) : Decision :=
  let m := bank s
  { action := m.num o 1, bobbin := m.num (o + 2) 2, meter := m.num (o + 4) 2 % 4096
    colour := m.num (o + 1) 1 / 2 % 4, port := m.num (o + 6) 1
    copyBob := m.num 4 2 }

/-- A lane's decision of the first `d` bytes of a frame, `d` being its DEPTH: the deciding rule (none: the default action),
the action. -/
def cardDecide (s : State) (p d : Nat) (arrived : List Byte) (ended : Bool) : Option Nat × Decision :=
  let bs := arrived.take d
  let key := cardKey s p d bs (ended && decide (arrived.length < d))
  match (List.range (min 8192 ((bank s).num 0 4))).find? fun r => ruleHit s key r with
  | some r => (some r, actionAt s (0x4B00 + 136 * r + 128))
  | none => (none, actionAt s (0x10 + 0x10 * p))

end Sys2Proof.Machine
end

