-- ==== Sys2Proof/Machine/PlyOps.lean ====
section
/-!
DEFINITION. Time (chapter 13): the Reel reaching an instant, ply values and conversion, posted changes, ledger rings.
-/

namespace Sys2Proof.Machine

/-- 1 ns passes: the Reel counts on when it runs (R610); else, once it has started, its continuation count goes on by 40 with
each 40 ns (R121, R632). -/
def nsPasses (p : Plys) : Plys :=
  if p.running then { p with reel := p.reel + 1 }
  else if p.cont then
    if p.sub + 1 < 40 then { p with sub := p.sub + 1 } else { p with sub := 0, reel := p.reel + 40 }
  else p

/-- The Reel has reached tick `t`: a command that stands for an instant the State fixes carries the Reel to it. -/
def reachTick (t : Tick) (s : State) : State :=
  if s.ply.running && decide (s.ply.reel < t) then { s with ply := { s.ply with reel := t } } else s

/-- Nanoseconds in a second. -/
def nsPerSec : Nat := 1000000000
/-- A ply value as a count of 2^-32 ns. -/
def plyTotal (sec ns frac : Nat) : Nat := (sec * nsPerSec + ns) * 2 ^ 32 + frac
/-- Seconds (which wrap at 2^48), nanoseconds and fraction of such a count (R613). -/
def plySplit (t : Nat) : Nat × Nat × Nat :=
  (t / 2 ^ 32 / nsPerSec % 2 ^ 48, t / 2 ^ 32 % nsPerSec, t % 2 ^ 32)

/-- The ply's count at tick `r` plus `f` sixteenths, by history entry `e` (R621). -/
def histAt (e : Hist) (r : Tick) (f : Nat) : Nat :=
  plyTotal e.sec e.ns e.frac + e.incr * (r - e.t).toNat + e.incr * f / 16

/-- The history entry with the greatest T at or before `r` (R621, R633). -/
def histFor (h : List Hist) (r : Tick) : Option Hist := (h.reverse).find? fun e => decide (e.t ≤ r)

/-- The ply's count now; a ply with no history stands at 0. -/
def plyNow (s : State) (k : Nat) : Nat :=
  match histFor (s.plyOf k).hist s.reel with
  | some e => histAt e s.reel 0
  | none => 0

/-- The ply's value now: seconds, nanoseconds, fraction. -/
def plyValue (s : State) (k : Nat) : Nat × Nat × Nat := plySplit (plyNow s k)

/-- The increment in force (R614). -/
def plyIncrement (s : State) (k : Nat) : Nat := ((s.plyOf k).hist.getLast?.map Hist.incr).getD (2 ^ 32)

/-- Ply time of tick `r`, to the nearest nanosecond, halves up, when it is convertible (R621, R622). -/
def tickToPly (s : State) (k : Nat) (r : Tick) (f : Nat) : Option (Nat × Nat) :=
  if s.reel < r then none
  else match histFor (s.plyOf k).hist r with
    | none => none
    | some e =>
      let n := (histAt e r f + 2 ^ 31) / 2 ^ 32
      some (n / nsPerSec % 2 ^ 48, n % nsPerSec)

/-- The allowed increments (R614). -/
def incrLo : Nat := 4209067950
def incrHi : Nat := 4380866641

/-- A history entry is added; the ninth replaces the oldest (R617). -/
def pushHist (e : Hist) (p : Ply) : Ply :=
  { p with hist := (if p.hist.length < 8 then p.hist else p.hist.tail) ++ [e], hcount := p.hcount + 1 }

/-- Base of ply `k`'s registers. -/
def plyBase (k : Nat) : Nat := 0x40080100 + 0x40 * k
/-- Base of PLY_TSk. -/
def plyTs (k : Nat) : Nat := 0x40080400 + 0x10 * k
/-- ROLE, PORT, SRCPLY, KP, KI, STEPTHR, SYNCINT of ply `k` (R642). -/
def tsRole (s : State) (k : Nat) : Nat := s.fld (plyTs k) 28 4
def tsPort (s : State) (k : Nat) : Nat := s.fld (plyTs k) 24 4
def tsSrc (s : State) (k : Nat) : Nat := s.fld (plyTs k) 0 3
def tsKp (s : State) (k : Nat) : Nat := s.fld (plyTs k + 4) 16 16
def tsKi (s : State) (k : Nat) : Nat := s.fld (plyTs k + 4) 0 16
def tsStepThr (s : State) (k : Nat) : Nat := (s.rd (plyTs k + 8)).toNat
def tsSyncInt (s : State) (k : Nat) : Nat := s.fld (plyTs k + 12) 0 8

/-- The plies that carry a time service of ROLE 1 to 3: at most four, one of them with ROLE 3 (R625); of more the lowest
(DESIGN CHOICE, log 29). -/
def tsServed (s : State) : List Nat :=
  (List.range 8).foldl (fun ks k =>
    let r := tsRole s k
    if 1 ≤ r ∧ r ≤ 3 ∧ ks.length < 4 ∧ ¬ (r = 3 ∧ (ks.any fun j => tsRole s j == 3) = true) then ks ++ [k] else ks) []
/-- The service that runs on ply `k`: 0 for none; ROLE 4 serves PLY7 only (Table 13.2). -/
def tsService (s : State) (k : Nat) : Nat :=
  if tsRole s k = 4 then (if k = 7 then 4 else 0) else if (tsServed s).contains k then tsRole s k else 0

/-- A change is posted to ply `k`; one that is pending already makes it ignored (R615). -/
def postChange (k : Nat) (c : PlyChange) (s : State) : State :=
  if (s.plyOf k).chg.isSome then s else s.setPly k fun p => { p with chg := some c }

/-- The count after a step; a backward step past 0 leaves 0 and is under (R616). Seconds wrap (R613). -/
def stepCount (now : Nat) : Option (Bool × Nat × Nat) → Nat × Bool
  | none => (now, false)
  | some (false, sec, ns) => (now + plyTotal sec ns 0, false)
  | some (true, sec, ns) => if now < plyTotal sec ns 0 then (0, true) else (now - plyTotal sec ns 0, false)

/-- The pending change of ply `k` takes effect at its tick (R615 to R617). -/
def applyChange (k : Nat) (s : State) : State :=
  match (s.plyOf k).chg with
  | none => s
  | some c =>
    let s1 := reachTick c.at' s
    let now := match histFor (s1.plyOf k).hist c.at' with
      | some e => histAt e c.at' 0
      | none => 0
    let (v, under) := stepCount now c.step
    let (sec, ns, frac) := plySplit v
    let e : Hist := { t := c.at', sec := sec, ns := ns, frac := frac, incr := c.incr.getD (plyIncrement s1 k) }
    let s2 := s1.setPly k fun p => { pushHist e p with chg := none }
    if under then logFault 0x62 8 [BitVec.ofNat 8 k] (raiseLine 9 (s2.setBits (plyBase k) 4)) else s2

/-- Every ply at PLL lock: 0 s with increment 1.0 ns, one history entry at that tick (R639). -/
def pliesAtLock (t : Tick) : Tab Ply :=
  (List.range 8).map fun k => (k, { hist := [{ t := t, sec := 0, ns := 0, frac := 0, incr := 2 ^ 32 }], hcount := 1 })

/-! ### Ledger rings (R620) -/

/-- An entry goes into a ring of `n`: entry number w at index w mod n, with SEQ w mod 65,536. -/
def ledgerPush (n : Nat) (tick : Tick) (frac tag bobbin : Nat) (r : LRing) : LRing :=
  { r with
    e := Tab.set (fun _ => none) r.e (r.wcount % n)
      (some { tick := tick, frac := frac, seq := r.wcount % 65536, tag := tag, bobbin := bobbin })
    wcount := r.wcount + 1 }

/-- A marked edge of the skein link `l`, a transmitted frame of port `p`, a pin edge of bank `b` (Table 13.1). -/
def ledgerSkein (l : Nat) (kind : Nat) (tick : Tick) (s : State) : State :=
  { s with ply := { s.ply with sknRing := Tab.upd (fun _ => {}) s.ply.sknRing l (ledgerPush 32 tick 0 kind 0) } }
def ledgerTx (p : Nat) (tick : Tick) (bobbin tag : Nat) (s : State) : State :=
  { s with ply := { s.ply with txRing := Tab.upd (fun _ => {}) s.ply.txRing p (ledgerPush 16 tick 0 tag bobbin) } }
def ledgerPin (b pin : Nat) (rising : Bool) (frac : Nat) (tick : Tick) (s : State) : State :=
  { s with ply := { s.ply with
    pinRing := Tab.upd (fun _ => {}) s.ply.pinRing b (ledgerPush 32 tick frac (pin + 128 * b2n rising) 0) } }

end Sys2Proof.Machine
end

