-- ==== Sys2Proof/Machine/EthOps.lean ====
section
/-!
DEFINITION. The Ethernet ports' operations: a frame that arrives and ends, the through path, the PHY off and on, the start
and end of a frame on a wire egress.
-/

namespace Sys2Proof.Machine

/-- Frames the receive buffer of 16 KiB holds: those not dealt yet (R513, R516). -/
def rxHeld (e : EPort) : Nat := ((e.rx.filter fun r => !r.dealt).map fun r => r.seen.length).sum

/-- A new frame of ingress `p`, its first bit now. -/
def newFrame (p : Nat) (ledger : Tick) (s : State) : Nat × State :=
  let id := s.bob.nextId
  (id, { s with bob := { s.bob with nextId := id + 1, frames := s.bob.frames ++ [{ id := id, bytes := [], ingress := p, ledger := ledger }] } })

/-- The frame of ingress `p` that is arriving. -/
def arriving (s : State) (p : Nat) : Option Frame := s.bob.frames.find? fun f => f.ingress == p && !f.whole

/-- The arriving frame ends with these bytes, good or bad (R473, R475, R497). One already turned away is gone. -/
def endArriving (f : Frame) (bytes : List Byte) (bad trunc : Bool) (s : State) : State :=
  match f.stage with
  | .gone => { s with bob := { s.bob with frames := s.bob.frames.filter fun g => g.id != f.id } }
  | _ => s.setFrame f.id fun g => { g with
      whole := true, bad := bad, trunc := trunc, verdict := if g.ingress < 12 then verdictOf bytes trunc else 0
      bytes := if g.ce then markCE bytes else bytes }

/-- The reorder entry of a frame sees its end. -/
def rxEnded (id : Nat) (bytes : List Byte) (e : EPort) : EPort :=
  { e with rx := e.rx.map fun r => if r.frame = id then { r with ended := true, seen := if r.dealt then r.seen else bytes } else r }

/-- What THRUOUT sends of a through frame: the bytes with the edits that were in time, a new FCS when edited, an inverted
one when stomped (R507, R511). -/
def thruSent (e : EPort) : List Byte :=
  let b := e.edits.foldl (fun b x => overlay b x.1 [x.2]) e.thruBytes
  if e.thruStomp then stompFcs b else if e.edits.isEmpty then b else reFcs b

/-- SPEED of the port speed item (R494). -/
def speedCode (s : State) (p : Nat) : Nat := (s.conf 0x0204 p).num 0 1

/-- The through frame of ingress `p` has ended: THRUOUT sends it out (R507), and its SFD is ledgered where R506 names it, THRUDELAY
byte times and 320 ns after it arrived, with bobbin 0 as it comes from none (DESIGN CHOICE, log 30). -/
def thruEnd (p : Nat) (bytes : List Byte) (bad : Bool) (s : State) : State :=
  let e := s.eport p
  let out := e.thruTo
  if 4 ≤ out || e.thruEnded then s
  else
    let e' := { e with thruBytes := bytes, thruEnded := true, thruStomp := e.thruStomp || bad }
    let s1 := s.setEport p fun _ => e'
    if portUp s out then
      let s2 := (s1.setEgress out fun g => { g with
        sent := thruSent e', framesOut := g.framesOut + 1, stomps := g.stomps + b2n (bad && !e.thruStomp) }).setEport out
          fun x => { x with lpiTx := false }
      if ledgered bytes then
        ledgerTx out (e.thruTick + BitVec.ofNat 64 (e.thruDly * (8000 / max 1 (speedMbps e.speed)) + 320)) 0
          (u16 bytes (s.fld (0x40050008 + 0x100 * out) 0 16)) s2
      else s2
    else s1

/-- An edit of frame `seq`'s byte `off` reaches the delay line of ingress `p` now: in time it replaces its byte; late, it
is discarded, the frame is stomped and counted; of another frame it has no effect (R511). -/
def thruEdit (p seq off : Nat) (b : Byte) (s : State) : State :=
  let e := s.eport p
  if seq ≠ e.thruSeq then s
  else
    let bt := 8000 / max 1 (speedMbps e.speed)
    let arrived := (off + 1) * bt
    let t := (s.reel - e.thruTick).toNat
    let ok := decide (arrived ≤ t) && decide (t < arrived + e.thruDly * bt + 320)
      && (!e.thruEnded || decide (off < e.thruBytes.length))
    let e' := if ok then { e with edits := e.edits ++ [(off, b)] }
      else { e with thruStomp := true, editLate := e.editLate + 1 }
    let s1 := s.setEport p fun _ => e'
    let out := e.thruTo
    if e.thruEnded && decide (out < 4) && portUp s out then
      s1.setEgress out fun g => { g with sent := thruSent e', stomps := g.stomps + b2n (!ok && !e.thruStomp) }
    else if !ok && !e.thruStomp && decide (out < 4) then s1.setEgress out fun g => { g with stomps := g.stomps + 1 }
    else s1

/-- The link of port `p` goes down: a frame in progress on ingress ends as bad (R532). -/
def linkDrop (p : Nat) (s : State) : State :=
  let s1 := match arriving s p with
    | none => s
    | some f =>
      let t := endArriving f f.bytes true false s
      let t := t.setEport p (rxEnded f.id f.bytes)
      thruEnd p f.bytes true (t.setEgress p fun g => { g with errors := g.errors + 1 })
  s1.setEport p fun e => { e with link := false, anDone := false, lpiRx := false, lpiTx := false, changed := s.reel }

/-- PHY of Ethernet port `p` disabled: the port is in transition until its link is up again (R334 step 5, R780). -/
def ethPhyOff (p : Nat) (s : State) : State :=
  let s1 := if (s.eport p).link then linkDrop p s else s
  s1.setEport p fun e => { e with enabled := false, link := false, inTrans := true, changed := s.reel }

/-- MODE, FLAGS of the PHY mode item; DUPLEX of the port speed item (R493, R494). -/
def phyMode (s : State) (p : Nat) : Nat := (s.conf 0x0203 p).num 0 1
def phyFlag (s : State) (p i : Nat) : Bool := ((s.conf 0x0203 p).num 1 1).testBit i
def duplexCode (s : State) (p : Nat) : Nat := (s.conf 0x0204 p).num 1 1

/-- The rates of Table 10.1 for a port in its mode, as SPEED codes. -/
def portSpeeds (p mode : Nat) : List Nat :=
  if p < 4 then [1, 2] else if p < 8 then [1]
  else match mode with
    | 0 => [1, 2, 3, 4]
    | 4 => [3]
    | 5 => [4]
    | _ => [1, 2, 3]

/-- The port's kind and mode have EEE (Table 10.1). -/
def hasEee (p mode : Nat) : Bool := decide (p < 4) || (decide (8 ≤ p) && decide (mode ≤ 3))

/-- The rate and duplex of a link that comes up: as configured, or where SPEED is 0 as auto-negotiation found, when Table 10.1
has it for the port (R489, R494). -/
def linkFound (s : State) (p speed : Nat) (fullDup : Bool) : Option (Nat × Bool) :=
  if speedCode s p ≠ 0 then some (speedCode s p, duplexCode s p == 0)
  else if (portSpeeds p (phyMode s p)).contains speed then some (speed, fullDup || decide (4 ≤ p)) else none

/-- PHY of Ethernet port `p` enabled in its configured mode; a port whose mode is OFF is never enabled, and in limp state
none is (R103, R780). -/
def ethPhyOn (p : Nat) (s : State) : State :=
  if phyMode s p = 0 || s.sys.limp then s
  else s.setEport p fun e => { e with
    enabled := true, inTrans := true, mode := phyMode s p, speed := speedCode s p, changed := s.reel }

/-- PWR_BYPE; BYPE_DRIVE bit of port `n` (R780). -/
def pwrBype : Nat := 0x400E000C
def bypeDrive (s : State) (n : Nat) : Bool := bitOf (s.rd pwrBype) n

/-! ### BYPE_N (R58 to R63, R780) -/

/-- BYPE_N of port `n` driven low, and its settle time starts. -/
def bypeInline (n : Nat) (s : State) : State :=
  let bit := BitVec.ofNat 4 (2 ^ n)
  setPwr (fun p => { p with bypeLow := p.bypeLow ||| bit, settling := p.settling ||| bit }) s

/-- BYPE_N of port `n` released. -/
def bypeRelease (n : Nat) (s : State) : State :=
  let bit := BitVec.ofNat 4 (2 ^ n)
  setPwr (fun p => { p with bypeLow := p.bypeLow &&& ~~~ bit, settling := p.settling &&& ~~~ bit }) s

/-- A port starts as it is configured (R62, R780, step 5 of R334): with its BYPE_DRIVE bit 1 its BYPE_N is driven low and
its PHY is enabled once the settle time has ended; with the bit 0 BYPE_N is released and the PHY enabled at once; a port whose
mode is OFF is not enabled and its BYPE_N is released. In limp state nothing is enabled (R103). -/
def portBring (p : Nat) (s : State) : State :=
  let release (t : State) : State := if p < 4 then bypeRelease p t else t
  if s.sys.limp then s
  else if phyMode s p = 0 then (release s).setEport p fun e => { e with inTrans := false, mode := 0, speed := 0 }
  else if p < 4 ∧ bypeDrive s p = true then
    if s.pwr.bypeLow.getLsbD p then (if s.pwr.settling.getLsbD p then s else ethPhyOn p s) else bypeInline p s
  else ethPhyOn p (release s)

/-- Egress `p` starts the frame it has chosen (R465): the scheduler's state after the choice, the frame's SFD ledgered on
E0 to E11 when R506 names it, the port out of LPI. -/
def startEgress (p id : Nat) (g : Egress) (s : State) : State :=
  let f := (s.frame? id).getD { id := id, bytes := [], ingress := 0 }
  let s1 := cellsRead id (s.setEgress p fun _ => { g with cur := some id, stomped := false })
  let s2 := if p < 12 then s1.setEport p fun e => { e with lpiTx := false } else s1
  if decide (p < 12) && (f.tc == 7 || ledgered f.bytes) then
    ledgerTx p s.reel f.bobbin (u16 f.bytes (s.fld (0x40050008 + 0x100 * p) 0 16)) s2
  else s2

/-- The last frame of egress `p` has left (R466): its cells are freed. -/
def endEgress (p id : Nat) (s : State) : State :=
  match s.frame? id with
  | none => s.setEgress p fun g => { g with cur := none, stomped := false }
  | some f =>
    let g := s.egress p
    let bytes := if g.stomped then stompFcs f.bytes else if f.rewritten then reFcs f.bytes else f.bytes
    let s1 := s.setEgress p fun g => { g with
      cur := none, stomped := false, framesOut := g.framesOut + 1, sent := bytes
      copyBuf := if g.copyBuf.head? = some id then g.copyBuf.tail else g.copyBuf }
    match s1.bob.queue.find? fun e => e.frame == id && !e.isRef && !bobMcast s e.bobbin with
    | some e => if needsTrain s e then reapFrame id s1 else dropEntry e.bobbin id s1
    | none => reapFrame id s1

end Sys2Proof.Machine
end

