-- ==== Sys2Proof/Machine/FlyOps.lean ====
section
/-!
DEFINITION. The flyers' operations (chapter 08): the instruction word, pins, the shifter, FIFOs, timed actions, HUNT, halt
and start.
-/

namespace Sys2Proof.Machine

/-- Base of flyer `f`'s registers (R446); PINCFG of pin `p` (R447). -/
def flyBase (f : Nat) : Nat := 0x40030000 + 0x100 * f
def pinCfg (p : Nat) : Nat := 0x40034000 + 4 * p
/-- Manual-wide number of pin `i` (modulo 24) of flyer `f`'s bank (R402, R405). -/
def bankPin (f i : Nat) : Nat := 24 * (f / 8) + i % 24

/-! ### Settings -/

def flyOwner (s : State) (f : Nat) : Owner := if bitOf (s.rd (flyBase f)) 29 then .whorl else .steward
def flyEntry (s : State) (f : Nat) : Nat := s.fld (flyBase f) 16 9
def flyIdle (s : State) (f : Nat) : Bool := bitOf (s.rd (flyBase f)) 9
def flyMsb (s : State) (f : Nat) : Bool := bitOf (s.rd (flyBase f)) 8
def flyFullThr (s : State) (f : Nat) : Nat := s.fld (flyBase f) 0 6
def flyJpin (s : State) (f : Nat) : Nat := s.fld (flyBase f + 8) 23 5
def flySsCount (s : State) (f : Nat) : Nat := s.fld (flyBase f + 8) 20 3
def flySsBase (s : State) (f : Nat) : Nat := s.fld (flyBase f + 8) 15 5
def flyOutCount (s : State) (f : Nat) : Nat := s.fld (flyBase f + 8) 10 5
def flyOutBase (s : State) (f : Nat) : Nat := s.fld (flyBase f + 8) 5 5
def flyInBase (s : State) (f : Nat) : Nat := s.fld (flyBase f + 8) 0 5

/-! ### Flags and events -/

/-- A sticky flag sets: newly set, it is logged, and it asserts line 4 when FLY_IRQEN enables it (R444). -/
def flyFlag (f i : Nat) (s : State) : State :=
  let w : Word := BitVec.ofNat 32 (2 ^ i)
  if bitOf (s.rd (flyBase f + 0x18)) i then s
  else
    let s1 := logFault 0x40 3 [BitVec.ofNat 8 f, 0, BitVec.ofNat 8 (2 ^ i), BitVec.ofNat 8 (2 ^ i / 256)] (s.setBits (flyBase f + 0x18) w)
    if bitOf (s.rd (flyBase f + 0x28)) i then raiseLine 4 s1 else s1

/-- One event on line `line` of flyer `f`, when FLY_EVTEN enables it (R431). -/
def flyEvent (f line : Nat) (s : State) : State :=
  if bitOf (s.rd (flyBase f + 0x24)) line then tinEvents (s.fld (flyBase f + 0x20) (8 * line) 8) 1 s else s

/-! ### Pins (R403 to R406) -/

/-- FUNC, OWNER of pin `p`. -/
def pinFunc (s : State) (p : Nat) : Nat := s.fld (pinCfg p) 30 2
def pinOwner (s : State) (p : Nat) : Nat := s.fld (pinCfg p) 24 3
/-- Flyer `f` drives pin `p` (R403). -/
def flyOwns (s : State) (f p : Nat) : Bool := pinFunc s p == 1 && pinOwner s p == f % 8
/-- Whether the Farelle drives pin `p` (R406, R436, R447): a function that has the pin as an output, or a SAFE level a halt
holds it at; not in high-Z, and a 1 of an open-drain pin only releases the ball. -/
def pinDriven (s : State) (p : Nat) : Bool :=
  let x := s.pin p
  pinFunc s p != 0 && !(bitOf (s.rd (pinCfg p)) 11 && x.out) && (x.hold == .safe || (x.hold == .free && x.dir))
/-- The level at the ball: what the Farelle drives, else what the board gives. -/
def pinLevel (s : State) (p : Nat) : Bool := if pinDriven s p then (s.pin p).out else (s.pin p).ball

/-- A program or side-set write of a pin: of no effect on a pin the flyer does not own; it ends the hold of a halt (R435). -/
def flyWritePin (f p : Nat) (lvl : Bool) (s : State) : State :=
  if flyOwns s f p then s.setPin p fun x => { x with out := lvl, hold := .free } else s
/-- A write of a pin's direction bit. -/
def flyWriteDir (f p : Nat) (out : Bool) (s : State) : State :=
  if flyOwns s f p then s.setPin p fun x => { x with dir := out, hold := .free } else s

/-- Bits to pins OUT_BASE upward, at most OUT_COUNT of them: levels, or directions (R405). -/
def flyToPins (f : Nat) (dirs : Bool) (bits : List Bool) (s : State) : State :=
  ((bits.take (flyOutCount s f)).zipIdx).foldl (fun t b =>
    let p := bankPin f (flyOutBase s f + b.2)
    if dirs then flyWriteDir f p b.1 t else flyWritePin f p b.1 t) s

/-- Side-set: level bit i to pin SS_BASE + i, for i below SS_COUNT, when SSA applies (R407). -/
def flySideSet (f : Nat) (w : Word) (s : State) : State :=
  if bitOf w 5 then
    (List.range (flySsCount s f)).foldl (fun t i => flyWritePin f (bankPin f (flySsBase s f + i)) (bitOf w i) t) s
  else s

/-- The 32 bits from IN_BASE upward, modulo 24 (R405). -/
def flyInBits (s : State) (f n : Nat) : List Bool :=
  (List.range n).map fun i => pinLevel s (bankPin f (flyInBase s f + i))

/-- The number bits spell, the first being bit 0; and the bits of a word, bit 0 first. -/
def ofBits : List Bool → Nat
  | [] => 0
  | b :: t => b2n b + 2 * ofBits t
def toBits (n : Nat) (w : Word) : List Bool := (List.range n).map fun i => bitOf w i

/-! ### The program (R407, R434) -/

/-- The word at flyer `f`'s pc, in its bank's active page. -/
def flyWord (s : State) (f : Nat) : Word :=
  let b := f / 8
  Tab.get (fun _ => 0) s.fly.prog (1024 * b + 512 * b2n (s.fly.page.getLsbD b) + (s.flyer f).pc)

def flyOp (w : Word) : Nat := bitsOf w 20 4
/-- CNT of TAKE and GIVE: 0 means 32. -/
def flyCnt (w : Word) : Nat := if bitsOf w 12 5 = 0 then 32 else bitsOf w 12 5

/-- A legal instruction word (R407): the opcode, its codes, and the operand bits that must be 0. -/
def flyLegal (w : Word) : Bool :=
  match flyOp w with
  | 0x0 => !bitOf w 15
  | 0x1 => bitsOf w 17 2 != 3 && bitsOf w 6 6 == 0
  | 0x2 => decide (bitsOf w 17 3 ≤ 4) && bitsOf w 6 6 == 0
  | 0x3 => decide (bitsOf w 17 3 ≤ 4) && bitsOf w 6 6 == 0
  | 0x4 => bitsOf w 6 13 == 0
  | 0x5 => bitsOf w 6 13 == 0
  | 0x6 => decide (bitsOf w 17 3 ≤ 4) && bitsOf w 15 2 != 3 && decide (bitsOf w 12 3 ≤ 5) && bitsOf w 6 6 == 0
  | 0x7 => [0, 1, 2, 4].contains (bitsOf w 17 3)
  | 0x8 => bitsOf w 6 14 == 0
  | 0x9 => bitsOf w 6 14 == 0
  | 0xA => bitsOf w 8 12 == 0
  | 0xB => true
  | _ => false

/-- The flyer is at an instruction boundary and its word is a legal one of opcode `op`. -/
def flyReady (s : State) (f op : Nat) : Bool :=
  let x := s.flyer f
  !x.halted && !x.stalled && !x.delaying && flyOp (flyWord s f) == op && flyLegal (flyWord s f)

/-- pc + 1. -/
def flyNext (f : Nat) (s : State) : State := s.setFlyer f fun x => { x with pc := (x.pc + 1) % 512 }
/-- The instruction stalls (R411). -/
def flyStall (f : Nat) (s : State) : State := s.setFlyer f fun x => { x with stalled := true }
/-- A stalled instruction has completed. -/
def flyUnstall (f : Nat) (s : State) : State := s.setFlyer f fun x => { x with stalled := false, pc := (x.pc + 1) % 512 }

/-- FLY_STAT (Table 8.7). -/
def flyStat (s : State) (f : Nat) : Word :=
  let x := s.flyer f
  BitVec.ofNat 32 (at' 28 x.inF.length + at' 24 x.outF.length + at' 16 x.aq.length + at' 6 x.pc
    + at' 2 (b2n x.halted) + at' 1 (b2n x.hunt.locked) + b2n x.stalled)

/-! ### Shifter (R412, R413) -/

/-- One bit taken into the shifter. -/
def shTake1 (msb : Bool) (x : Flyer) (b : Bool) : Flyer :=
  if msb then { x with sh := (x.sh <<< 1) ||| (BitVec.ofNat 32 (b2n b)), fill := min 32 (x.fill + 1) }
  else if x.fill < 32 then { x with sh := x.sh ||| (BitVec.ofNat 32 (b2n b) <<< x.fill), fill := x.fill + 1 }
  else { x with sh := (x.sh >>> 1) ||| (BitVec.ofNat 32 (b2n b) <<< 31) }

/-- One bit given from the shifter: IDLEBIT when it is empty. -/
def shGive1 (msb idle : Bool) (x : Flyer) : Bool × Flyer :=
  if x.fill = 0 then (idle, x)
  else if msb then
    let k := x.fill - 1
    (bitOf x.sh k, { x with sh := x.sh &&& BitVec.ofNat 32 (2 ^ k - 1), fill := k })
  else (bitOf x.sh 0, { x with sh := x.sh >>> 1, fill := x.fill - 1 })

/-- `n` bits given, the first first. -/
def shGive (msb idle : Bool) : Nat → Flyer → List Bool × Flyer
  | 0, x => ([], x)
  | n + 1, x =>
    let (b, y) := shGive1 msb idle x
    let (bs, z) := shGive msb idle n y
    (b :: bs, z)

/-! ### Timed actions (R418 to R425) -/

/-- Fields of an action's second word (Table 8.3). -/
def actFrac (w1 : Word) : Nat := bitsOf w1 28 4
def actPly (w1 : Word) : Bool := bitOf w1 27
def actMask (w1 : Word) : Nat := bitsOf w1 14 5

/-- Malformed (R422). -/
def actBad (w0 w1 : Word) : Bool := (actPly w1 && decide (999999999 < w0.toNat)) || bitsOf w1 0 13 != 0

/-- The next edge of the 500 MHz island clock after the Reel, in sixteenths of a nanosecond. -/
def nextEdge16 (s : State) : Nat := (s.reel.toNat / 2 + 1) * 2 * 16

/-- The instant of a ply action being queued: where its ply's nanoseconds reach TNS + FRAC / 16, within 0.5 s of the ply's value
now, in units of 2^-32 ns (R421). It stays that instant of the ply whatever the ply does later (DEDUCED, log 40). -/
def actTarget (s : State) (w0 w1 : Word) : Int :=
  let sec32 : Int := (nsPerSec * 2 ^ 32 : Nat)
  let now : Int := (plyNow s (bitsOf w1 24 3) : Int)
  let d := (((w0.toNat * 2 ^ 32 + actFrac w1 * 2 ^ 28 : Nat) : Int) - now) % sec32
  now + if sec32 ≤ 2 * d then d - sec32 else d

/-- An action as it is queued. -/
def actNew (s : State) (w0 w1 : Word) : Action :=
  { at16 := none, w0 := w0, w1 := w1, tgt := if actPly w1 then actTarget s w0 w1 else 0 }

/-- Sixteenths of a nanosecond of the Reel from now to an action's instant: a Reel action's low word nearest to now, a ply
action's instant by its ply's value and increment now (R420, R421). -/
def actDelta16 (s : State) (a : Action) : Int :=
  if actPly a.w1 then
    let k := bitsOf a.w1 24 3
    (a.tgt - plyNow s k) * 16 / (plyIncrement s k : Int)
  else ((a.w0 - s.reel.setWidth 32).toInt) * 16 + (actFrac a.w1 : Int)

/-- The Reel instant an action would have now, in sixteenths. -/
def actDue16 (s : State) (a : Action) : Nat := ((s.reel.toNat * 16 : Nat) + actDelta16 s a).toNat

/-- The instant of a queued action: fixed, or as its ply stands now. -/
def actAt (s : State) (a : Action) : Nat := a.at16.getD (actDue16 s a)

/-- Side-set pin `i` of flyer `f`. -/
def ssPin (s : State) (f i : Nat) : Nat := bankPin f (flySsBase s f + i)

/-- Whether an entering action touches a pin of a pending one with a later instant (R424): a pin the flyer owns (R403). -/
def actOrder (s : State) (f due : Nat) (w1 : Word) : Bool :=
  (s.flyer f).aq.any fun a => decide (due < actAt s a) && (List.range (flySsCount s f)).any fun i =>
    (actMask a.w1).testBit i && (actMask w1).testBit i && flyOwns s f (ssPin s f i)

/-- A well-formed action enters a queue with room: late, it is to execute at the next island edge and TLATE sets; a ply
action more than 2 µs ahead is not fixed yet (R420 to R422, R424). -/
def actEnter (f : Nat) (w0 w1 : Word) (s : State) : State :=
  let a := actNew s w0 w1
  let d := actDelta16 s a
  let late := decide (d < 0)
  let due := if late then nextEdge16 s else actDue16 s a
  let fixed := late || !actPly w1 || decide (d ≤ 32000)
  let s1 := if actOrder s f due w1 then flyFlag f 7 s else s
  let s2 := if late then flyFlag f 4 s1 else s1
  s2.setFlyer f fun x => { x with aq := x.aq ++ [{ a with at16 := if fixed then some due else none }] }

/-- An action the owner posts (R418, R419, R422): a malformed one sets BADACT, one that finds the queue full AQFULL, and one
that is both sets both (R443). -/
def actPost (f : Nat) (w0 w1 : Word) (s : State) : State :=
  let full := decide (16 ≤ (s.flyer f).aq.length)
  let s1 := if actBad w0 w1 then flyFlag f 5 s else s
  if full then flyFlag f 3 s1
  else if actBad w0 w1 then s1
  else actEnter f w0 w1 s

/-- Levels the actions of one instant give side-set pin `i`, in the order programmed. -/
def actLevels (as : List Action) (i : Nat) : List Bool :=
  (as.filter fun a => (actMask a.w1).testBit i).map fun a => bitOf a.w1 (19 + i)

/-- A halt of flyer `f` is to be released at instant `t`, in sixteenths (R440). -/
def haltAt (s : State) (f t : Nat) : Bool :=
  s.whl.releases.any fun r => r.tick.toNat * 16 == t && r.entries.any fun e => e == .halt f
/-- Pin `p` hands over at a seam that instant `t` has reached (R433, R440). -/
def seamAt (s : State) (p t : Nat) : Bool :=
  s.txn.seamPins.any fun q => q.pin == p && decide (q.tick.toNat * 16 ≤ t)

/-- The earliest fixed actions of flyer `f` execute at their instant (R423, R425, R427): each owned output side-set pin
takes the level programmed last; a pulse suppressed at one instant sets RUNT. A halt at the same instant discards them, a
seam their effect on its pin (R440). -/
def actDue (f : Nat) (s : State) : State :=
  let q := (s.flyer f).aq
  match (q.filterMap Action.at16).min? with
  | none => s
  | some t =>
    let as := q.filter fun a => a.at16 == some t
    let s1 := reachTick (BitVec.ofNat 64 (t / 16)) s
    let s2 := s1.setFlyer f fun x => { x with aq := x.aq.filter fun a => a.at16 != some t }
    if haltAt s f t then s2
    else
      let s3 := s2.setFlyer f fun x => { x with go := x.go || as.any fun a => bitOf a.w1 13 }
      (List.range (flySsCount s f)).foldl (fun u i =>
        let ls := actLevels as i
        let p := ssPin s f i
        match ls.getLast? with
        | none => u
        | some l =>
          if flyOwns u f p && (u.pin p).dir && !seamAt s p t then
            let u1 := flyWritePin f p l u
            if ls.any fun x => x != l then flyFlag f 6 u1 else u1
          else u) s3

/-- The ply action of flyer `f` that is due first is fixed, 2 µs before its instant, to a Reel instant (R421, R422). -/
def actFix (f : Nat) (s : State) : State :=
  let q := (s.flyer f).aq.zipIdx
  let us := q.filter fun a => a.1.at16.isNone
  match us.foldl (fun (best : Option (Action × Nat)) a => match best with
      | none => some a
      | some b => if actAt s a.1 < actAt s b.1 then some a else some b) none with
  | none => s
  | some (a, i) =>
    let s1 := reachTick (BitVec.ofNat 64 (actAt s a / 16 - 2000)) s
    let late := decide (actDelta16 s1 a < 0)
    let due := if late then nextEdge16 s1 else actDue16 s1 a
    let s2 := s1.setFlyer f fun x => { x with aq := x.aq.set i { a with at16 := some due } }
    if late then flyFlag f 4 s2 else s2

/-! ### HUNT (R428 to R430) -/

/-- Bits the history holds (R428). -/
def huntDepth : Nat := 4096

/-- Bits taken while hunting or locked enter the history; the oldest leave it. -/
def huntTake (h : Hunt) (bs : List Bool) : Hunt :=
  let all := h.bits ++ bs
  let n := all.length - huntDepth
  { h with bits := all.drop n, base := h.base + n }

/-- Where the shifter input reads after a lock at `p`: the bit after the pattern there, while the history still holds it
(R428). -/
def huntResume (h : Hunt) (plen p : Nat) : Option Nat := if p + plen < h.base + h.bits.length then some (p + plen) else none
/-- The shifter input has taken a bit: at the end of the history it takes the pin again. -/
def huntStep (h : Hunt) : Hunt :=
  { h with rd := h.rd.bind fun r => if r + 1 < h.base + h.bits.length then some (r + 1) else none }

/-- Whether the masked pattern matches at position `c`; none while its bits have not all been taken. -/
def huntMatch (s : State) (f : Nat) (h : Hunt) (c : Nat) : Option Bool :=
  let plen := s.fld (flyBase f + 0xC) 0 6
  let pat := s.rd (flyBase f + 0x10)
  let mask := s.rd (flyBase f + 0x14)
  let msb := flyMsb s f
  if h.base + h.bits.length < c + plen ∨ c < h.base then none
  else some ((List.range plen).all fun i =>
    let j := if msb then plen - 1 - i else i
    !bitOf mask j || (h.bits.getD (c - h.base + i) false == bitOf pat j))

/-- The later sync positions of candidate `c`: locked (its last position), failed, or not yet decided. -/
inductive HuntRes where
  | lock (p : Nat)
  | fail
  | wait
  deriving DecidableEq, Repr

/-- The positions c + period, c + 2 × period, … of R428. -/
def huntCheck (s : State) (f : Nat) (h : Hunt) (period : Nat) : Nat → Nat → Nat → Nat → HuntRes
  | 0, _, _, _ => .wait
  | fuel + 1, p, run, misses =>
    match huntMatch s f h p with
    | none => .wait
    | some true => if run = 2 then .lock p else huntCheck s f h period fuel (p + period) (run + 1) misses
    | some false => if misses = 1 then .fail else huntCheck s f h period fuel (p + period) 0 (misses + 1)

/-- The search of R428 from position `c`: the lock position, or where the search stands. -/
def huntSearch (s : State) (f : Nat) (h : Hunt) (period : Nat) : Nat → Nat → Option Nat × Nat
  | 0, c => (none, c)
  | fuel + 1, c =>
    match huntMatch s f h c with
    | none => (none, c)
    | some false => huntSearch s f h period fuel (c + 1)
    | some true =>
      match huntCheck s f h period 8 (c + period) 1 0 with
      | .lock p => (some p, c)
      | .wait => (none, c)
      | .fail => huntSearch s f h period fuel (c + 1)

/-- While LOCKED, the later sync positions: the anchor, consecutive misses, whether two of them came (R430). -/
def huntFollow (s : State) (f : Nat) (h : Hunt) (period : Nat) : Nat → Nat → Nat → Nat → Nat × Nat × Bool
  | 0, _, anchor, misses => (anchor, misses, false)
  | fuel + 1, p, anchor, misses =>
    match huntMatch s f h p with
    | none => (anchor, misses, false)
    | some true => huntFollow s f h period fuel (p + period) p 0
    | some false => if misses = 1 then (anchor, 2, true) else huntFollow s f h period fuel (p + period) anchor (misses + 1)

/-- FLY_HUNT PERIOD. -/
def huntPeriod (s : State) (f : Nat) : Nat := s.fld (flyBase f + 0xC) 16 10

/-! ### Halt and start (R435 to R437) -/

/-- The pins a flyer owns. -/
def ownedPins (s : State) (f : Nat) : List Nat := ((List.range 24).map fun i => bankPin f i).filter fun p => flyOwns s f p

/-- An owned pin takes its SAFE setting: the SAFE level, or high-Z when SAFEZ is 1 (R436). Its direction bit is the program's
alone (R406), and a program's next write of the pin ends the hold (R435; DEDUCED, log 40). -/
def pinSafe (p : Nat) (s : State) : State :=
  s.setPin p fun x => { x with
    out := bitOf (s.rd (pinCfg p)) 20, hold := if bitOf (s.rd (pinCfg p)) 19 then .highZ else .safe }

/-- The flyer halts: its program stops, a HUNT with it, its action queue empties, its pins take their SAFE setting (R436). -/
def flyHalt (f : Nat) (s : State) : State :=
  (ownedPins s f).foldl (fun t p => pinSafe p t)
    (s.setFlyer f fun x => { x with
      halted := true, stalled := false, delaying := false, aq := [], hunt := { x.hunt with on := false } })

/-- The flyer starts at ENTRY; RESTART clears its state first (R435). -/
def flyStart (f : Nat) (s : State) : State :=
  let e := flyEntry s f
  if bitOf (s.rd (flyBase f)) 30 then s.setFlyer f fun _ => { pc := e, halted := false }
  else s.setFlyer f fun x => { x with
    pc := e, halted := false, stalled := false, delaying := false, hunt := { x.hunt with on := false } }

/-- Flyers with EN start at ENTRY (R445). -/
def flyersStart (s : State) : State :=
  (List.range 48).foldl (fun t f => if bitOf (t.rd (flyBase f)) 31 then flyStart f t else t) s

/-- A write of FLY_IRQEN: a flag already set that it newly enables asserts line 4 (R444). -/
def flyIrqWrite (f : Nat) (v : Word) (s : State) : State :=
  let s1 := s.regWrite (flyBase f + 0x28) v
  if s.rd (flyBase f + 0x18) &&& s1.rd (flyBase f + 0x28) &&& ~~~ (s.rd (flyBase f + 0x28)) = 0 then s1 else raiseLine 4 s1

/-- A write of FLY_CTRL (R436, R437): EN to 0 halts the flyer, EN from 0 to 1 restarts it at ENTRY. -/
def flyCtrlWrite (f : Nat) (v : Word) (s : State) : State :=
  let was := bitOf (s.rd (flyBase f)) 31
  let s1 := s.regWrite (flyBase f) v
  if was && !bitOf v 31 then flyHalt f s1
  else if !was && bitOf v 31 then flyStart f s1
  else s1

/-- The settings of flyer `f` from its bank's item (Table 8.4). -/
def flyLoadSettings (f : Nat) (s : State) : State :=
  let o := 0x800 + 0x40 * (f % 8)
  let m := s.conf 3 (f / 8)
  flyIrqWrite f (BitVec.ofNat 32 (m.num (o + 0x20) 4))
    (([(0, 0), (4, 4), (8, 8), (0xC, 0xC), (0x10, 0x10), (0x14, 0x14), (0x18, 0x20), (0x1C, 0x24)]).foldl
      (fun t x => t.regWrite (flyBase f + x.2) (BitVec.ofNat 32 (m.num (o + x.1) 4))) s)

/-- A page of bank `b` takes the program of an item (R434). -/
def flyLoadPage (b : Nat) (page : Bool) (m : Mem) (s : State) : State :=
  let k := 1024 * b + 512 * b2n page
  { s with fly := { s.fly with prog := (List.range 512).foldl (fun t i =>
      Tab.set (fun _ => 0) t (k + i) (BitVec.ofNat 32 (m.num (4 * i) 3))) s.fly.prog } }

/-- The page of bank `b` that is not active. -/
def flyOtherPage (s : State) (b : Nat) : Bool := !(s.fly.page.getLsbD b)

/-- At the epoch the bank's active page changes and its flyers take their new settings and start at ENTRY, or halt where
EN is 0 (R435). -/
def flyBankSwap (b : Nat) (s : State) : State :=
  let s2 := { s with fly := { s.fly with page := s.fly.page ^^^ BitVec.ofNat 6 (2 ^ b) } }
  (List.range 8).foldl (fun t i =>
    let f := 8 * b + i
    let t1 := flyLoadSettings f t
    if bitOf (t1.rd (flyBase f)) 31 then flyStart f t1 else flyHalt f t1) s2

/-! ### FIFOs (R414, R418) -/

/-- The owner posts a word to the out FIFO; into a full one it is discarded and OVERPUSH sets. -/
def flyPush (f : Nat) (v : Word) (s : State) : State :=
  if (s.flyer f).outF.length < 8 then s.setFlyer f fun x => { x with outF := x.outF ++ [v] } else flyFlag f 2 s
/-- The head of the in FIFO; 0 of an empty one. -/
def flyHead (s : State) (f : Nat) : Word := ((s.flyer f).inF.head?).getD 0
/-- The in FIFO without its head. -/
def flyPop (f : Nat) (s : State) : State := s.setFlyer f fun x => { x with inF := x.inF.tail }

end Sys2Proof.Machine
end

