-- ==== Sys2Proof/Machine/ConfOps.lean ====
section
/-!
DEFINITION. Configuration items and records (chapter 06): Table 6.4, the record layout of R323, how records build a
configuration, and the byte sequence that CONFHASH is taken over (R784).
-/

namespace Sys2Proof.Machine

/-- The key of an item in a configuration. -/
def itemKey (item inst : Nat) : Nat := item * 65536 + inst

/-- An ITEM and INST of Table 6.4. -/
def itemKnown (item inst : Nat) : Bool :=
  match item with
  | 0x0001 => decide (inst = 0)
  | 0x0002 => decide (inst < 4)
  | 0x0003 => decide (inst < 6)
  | 0x0004 => decide (inst ≤ 257)
  | 0x0005 => decide (1 ≤ inst ∧ inst ≤ 4095)
  | 0x0100 => decide (inst < 15)
  | 0x0201 => decide (inst < 144)
  | 0x0202 => decide (inst < 8)
  | 0x0203 | 0x0204 => decide (inst < 12)
  | _ => false

/-- The fixed length of an item whose home chapter lays one out (R784). -/
def itemFixed (item inst : Nat) : Option Nat :=
  match item with
  | 0x0001 => some (0x4B00 + 136 * 8192)
  | 0x0003 => some 0x0A00
  | 0x0004 => some (if inst < 256 then 64 else if inst = 256 then 524288 else 65536)
  | 0x0005 => some 16
  | 0x0201 | 0x0203 | 0x0204 => some 4
  | 0x0202 => some 12
  | _ => none

/-- Kinds of Table 6.4. -/
def isShadow (item : Nat) : Bool := decide (item < 0x0100)
def isSteward (item : Nat) : Bool := decide (item = 0x0100)
def isSeam (item : Nat) : Bool := decide (0x0200 ≤ item)

/-- A number into a rising list without repeats. -/
def insertNat (n : Nat) : List Nat → List Nat
  | [] => [n]
  | m :: t => if n < m then n :: m :: t else if n = m then m :: t else m :: insertNat n t

/-- An item after a record of it (R324, R784). -/
def Item.apply (r : Rec) (x : Item) : Item :=
  { len := (itemFixed r.item r.inst).getD (max x.len (r.off + r.data.length))
    bytes := x.bytes.write r.off r.data
    words := if isSteward r.item then
      (List.range (ceilDiv r.data.length 4)).foldl (fun l i => insertNat (r.off / 4 + i) l) x.words
      else x.words }

/-- A configuration after a record; records apply in staging order (R324). -/
def applyRec (c : Conf) (r : Rec) : Conf := Tab.upd (fun _ => {}) c (itemKey r.item r.inst) (Item.apply r)
def applyRecs (c : Conf) (rs : List Rec) : Conf := rs.foldl applyRec c

/-! ### Records as bytes (R323) -/

/-- Zeros up to a multiple of 4 bytes. -/
def pad4 (bs : List Byte) : List Byte := bs ++ List.replicate ((4 - bs.length % 4) % 4) 0

/-- A record laid out as R323 gives it. -/
def recBytes (r : Rec) : List Byte :=
  pad4 (leBytes 2 r.item ++ leBytes 2 r.inst ++ leBytes 4 r.off ++ leBytes 2 r.data.length ++ leBytes 2 0 ++ r.data)

/-- Bytes of records. -/
def recsBytes (rs : List Rec) : List Byte := rs.flatMap recBytes

/-- A little-endian field of a list of bytes. -/
def leAt (bs : List Byte) (o n : Nat) : Nat := ofLE ((bs.drop o).take n)

/-- The record at the head of `bs` when it is well formed: ITEM and INST of Table 6.4, LEN of 1 or more, 0 where R323 has
0, its data present. -/
def headRec (bs : List Byte) : Option Rec :=
  let n := leAt bs 8 2
  let r : Rec := { item := leAt bs 0 2, inst := leAt bs 2 2, off := leAt bs 4 4, data := (bs.drop 12).take n }
  if 12 + n ≤ bs.length ∧ 0 < n ∧ leAt bs 10 2 = 0 ∧ itemKnown r.item r.inst = true then some r else none

/-- The records that bytes spell, and the index of the first malformed one; fewer than 12 zero bytes at the end are
padding. Fuel: the number of bytes. -/
def parseRecs : Nat → List Byte → List Rec × Option Nat
  | 0, _ => ([], none)
  | fuel + 1, bs =>
    if bs.length < 12 ∧ bs.all (· == 0) then ([], none)
    else match headRec bs with
      | none => ([], some 0)
      | some r =>
        let t := parseRecs fuel (bs.drop ((12 + r.data.length + 3) / 4 * 4))
        (r :: t.1, t.2.map (· + 1))

/-- All records of some bytes. -/
def recsOf (bs : List Byte) : List Rec × Option Nat := parseRecs (bs.length + 1) bs

/-! ### A whole configuration as bytes and as records -/

/-- The bytes of CONFHASH's sequence for one item (R784). -/
def itemHashBytes (k : Nat) (x : Item) : List Byte :=
  leBytes 2 (k / 65536) ++ leBytes 2 (k % 65536) ++ leBytes 4 x.len ++ x.bytes.bytes 0 x.len

/-- CONFHASH (R784): items in ascending ITEM and INST, the order of the table's keys. -/
def confHash (c : Conf) : List Byte := sha256 (c.flatMap fun e => itemHashBytes e.1 e.2)

/-- Pieces of an item's contents from `o`, of at most 65,532 bytes, as records. How a whole configuration is split into records
is the model's choice (DESIGN CHOICE, log 37): pieces as long as LEN allows, and a record for each steward-settings word.
Fuel: the number of pieces. -/
def itemPieces (item inst : Nat) (b : Mem) : Nat → Nat → Nat → List Rec
  | 0, _, _ => []
  | fuel + 1, o, len =>
    if len = 0 then [] else
      { item := item, inst := inst, off := o, data := b.bytes o (min 65532 len) } ::
        itemPieces item inst b fuel (o + min 65532 len) (len - min 65532 len)

/-- The records that carry one item of a configuration: its whole contents, and of steward settings the words written. -/
def itemRecs (k : Nat) (x : Item) : List Rec :=
  if isSteward (k / 65536) then
    x.words.map fun w => { item := k / 65536, inst := k % 65536, off := 4 * w, data := x.bytes.bytes (4 * w) 4 }
  else itemPieces (k / 65536) (k % 65536) x.bytes (x.len / 65532 + 1) 0 x.len

/-- A record of every item of a configuration (R338). -/
def fullRecs (c : Conf) : List Rec := c.flatMap fun e => itemRecs e.1 e.2

/-- Record pages for `n` record bytes (R339). -/
def recPages (n : Nat) : Nat := ceilDiv n 492

/-- The bytes of an item, as CONF_GET and validation see them. -/
def confBytes (c : Conf) (item inst : Nat) : Item := Tab.get (fun _ => {}) c (itemKey item inst)

end Sys2Proof.Machine
end

