-- ==== Sys2Proof/Machine/Links.lean ====
section
/-!
DEFINITION. The skein's links (chapter 14): which may run, which carry what, where a device stands on the ring, and what the
device sends.
-/

namespace Sys2Proof.Machine

def lcfg (l : Nat) : Nat := 0x40090104 + 0x100 * l
/-- SKN_LCFG EN, no limp state (R103), and an image (R94): the link may run. -/
def linkAllowed (s : State) (l : Nat) : Bool := bitOf (s.rd (lcfg l)) 31 && !s.sys.limp && !s.sys.krec.imgNone
/-- The link has locked. -/
def linkLive (s : State) (l : Nat) : Bool :=
  match (s.linkOf l).st with
  | .up10g | .upSwift | .swiftOnly => true
  | .off | .monitoring | .training => false
/-- The device's transmitter on link `l` is on: the path whose output side it is, which begins at the other link, is open
(R645). -/
def txOn (s : State) (l : Nat) : Bool := !(s.linkOf (1 - l)).pathClosed

/-- The link carries frames of kind `kind`: in Kindle-fault none but the fault record (R108), in Drowse JOIN, ASSIGN, wake
and beacons (R676), else data at 10 Gb/s only (R675). -/
def carries (s : State) (l kind : Nat) : Bool :=
  linkLive s l && !s.sys.kfault && (s.sys.mode != .drowse || [6, 7, 9, 10].contains kind)
    && (kind != 0 || (s.linkOf l).st == .up10g)
/-- The device can send such a frame by link `l`. -/
def canSend (s : State) (l kind : Nat) : Bool := carries s l kind && txOn s l
/-- Data of its own can leave by link `l`: in a ring that has a master (R666). -/
def dataUp (s : State) (l : Nat) : Bool := canSend s l 0 && s.skn.masterSerial.isSome

/-! ### The ring (R656, R669, R674) -/

/-- Active devices on the ring, and the position of a device. -/
def ringSize (s : State) : Nat := s.skn.members.length
def posOf (s : State) (d : Nat) : Option Nat := (s.skn.members.find? fun m => m.dev.toNat == d).map Member.pos

/-- Links between here and device `d` on link `l` (0 east, 1 west), when both stand on the ring. -/
def hopCount (s : State) (l d : Nat) : Option Nat :=
  match posOf s s.skn.dev.toNat, posOf s d with
  | some m, some t =>
    let n := ringSize s
    some (if l = 0 then (t + n - m % n) % n else (m + n - t % n) % n)
  | _, _ => none

/-- The links crossed by `h` hops from here on link `l`. The link whose west end stands at position p is number p. -/
def crossed (s : State) (l h : Nat) : List Nat :=
  let m := (posOf s s.skn.dev.toNat).getD 0
  let n := ringSize s
  (List.range h).map fun i => if l = 0 then (m + i) % n else (m + n - 1 - i % n) % n

/-- Hops from here to device `d` on link `l` when no link on the way is broken for data. -/
def hopsTo (s : State) (l d : Nat) : Option Nat :=
  (hopCount s l d).bind fun h => if (crossed s l h).any fun x => s.skn.broken.contains x then none else some h

/-- Device `d` can be reached by link `l` now. -/
def reachable (s : State) (l d : Nat) : Bool := dataUp s l && (hopsTo s l d).isSome

/-- The link by which a management frame goes to device `d`: of those that can send the one with fewer hops, K0 when equal
(DEDUCED from R627 and R653, log 32). -/
def sideTo (s : State) (d : Nat) : Nat :=
  let h (l : Nat) : Nat := (hopCount s l d).getD 0
  if canSend s 1 1 && (!canSend s 0 1 || decide (h 1 < h 0)) then 1 else 0

/-! ### Sending -/

/-- What the device sends goes out in order. -/
def sknSend (o : SkOut) (s : State) : State := { s with skn := { s.skn with out := s.skn.out ++ [o] } }
/-- A management frame leaves by link `l`, and counts there. -/
def sknTx (l : Nat) (o : SkOut) (s : State) : State := sknSend o (s.setLink l fun k => { k with txFrm := k.txFrm + 1 })
/-- It leaves if the link can send its kind. -/
def sknTxOn (l kind : Nat) (o : SkOut) (s : State) : State := if canSend s l kind then sknTx l o s else s
/-- It leaves on link `l`, or on the other where `l` cannot send it; on none where neither can. -/
def sknTxVia (l kind : Nat) (o : Nat → SkOut) (s : State) : State :=
  if canSend s l kind then sknTx l (o l) s else sknTxOn (1 - l) kind (o (1 - l)) s
/-- A management frame has arrived on link `l`. -/
def sknRx (l : Nat) (s : State) : State := s.setLink l fun k => { k with rxFrm := k.rxFrm + 1 }

end Sys2Proof.Machine
end

