-- ==== Sys2Proof/Machine/ReplyOps.lean ====
section
/-!
DEFINITION. Replies (chapter 06): status codes, the message header, how a reply reaches who asked, and the transactions'
passage back to OPEN or on to WAITING when the Distaff has decided a persistent commit.
-/

namespace Sys2Proof.Machine

/-- Status codes (Table 6.3). -/
inductive Status where
  | ok
  | unknownCmd
  | badLength
  | badParam
  | modeDenied
  | busy
  | imageNone
  | linkDenied
  | txnLimit
  | txnUnknown
  | txnState
  | txnConflict
  | stageFull
  | recordInvalid
  | epochPast
  | epochInvalid
  | nonatomic
  | txnExpired
  | commitTooLarge
  | distaffBusy
  | gateClosed
  | distaffFault
  | distaffWorn
  | certRefused
  | authFail
  | slotState
  | cascadeUnreachable
  | cascadeTimeout
  | dmaFault
  | internal
  deriving DecidableEq, Repr

/-- The number of a status. -/
def Status.code : Status → Nat
  | .ok => 0x0000
  | .unknownCmd => 0x0001
  | .badLength => 0x0002
  | .badParam => 0x0003
  | .modeDenied => 0x0004
  | .busy => 0x0005
  | .imageNone => 0x0006
  | .linkDenied => 0x0007
  | .txnLimit => 0x0010
  | .txnUnknown => 0x0011
  | .txnState => 0x0012
  | .txnConflict => 0x0013
  | .stageFull => 0x0014
  | .recordInvalid => 0x0015
  | .epochPast => 0x0016
  | .epochInvalid => 0x0017
  | .nonatomic => 0x0018
  | .txnExpired => 0x0019
  | .commitTooLarge => 0x0020
  | .distaffBusy => 0x0021
  | .gateClosed => 0x0022
  | .distaffFault => 0x0023
  | .distaffWorn => 0x0024
  | .certRefused => 0x0030
  | .authFail => 0x0031
  | .slotState => 0x0032
  | .cascadeUnreachable => 0x0040
  | .cascadeTimeout => 0x0041
  | .dmaFault => 0x0050
  | .internal => 0x00FF

/-- A reply message: CODE, STATUS, DETAIL, 0 and what the command adds (R315). -/
def replyMsg (code : Nat) (st : Status) (detail : Nat) (pay : List Byte) : List Byte :=
  leBytes 2 code ++ leBytes 2 st.code ++ leBytes 2 detail ++ leBytes 2 0 ++ pay

/-- A reply falls due for whoever asked: in the host-bound mailbox of the same number (R280), or to the master of the
cascade (R679). -/
def pushDue (src : ReqSrc) (seq : Nat) (msg : List Byte) (s : State) : State :=
  match src with
  | .mailbox n => { s with hl := { s.hl with due := s.hl.due ++ [{ mb := n.val, seq := seq, msg := msg }] } }
  | .relay dev q => sknTx (sideTo s dev.toNat) (.reply dev q msg) s

/-- CODE of a request. -/
def reqCode (q : Req) : Nat := leAt q.msg 0 2
/-- A parameter of `n` bytes at offset `o` of the message. -/
def par (q : Req) (o n : Nat) : Nat := leAt q.msg o n
/-- The transaction a request names: TXN_STAGE to TXN_STATUS (R319, Table 6.7). -/
def reqTxn (q : Req) : Option Nat := if 0x0302 ≤ reqCode q ∧ reqCode q ≤ 0x0306 then some (par q 8 2) else none

/-! ### Transactions (R327) -/

/-- Transaction `h`. -/
def txn? (s : State) (h : Nat) : Option Txn := s.txn.txns.find? fun t => t.h == h
/-- Transaction `h` changed. -/
def setTxn (h : Nat) (f : Txn → Txn) (s : State) : State :=
  { s with txn := { s.txn with txns := s.txn.txns.map fun t => if t.h = h then f t else t } }

/-- The next seam, a multiple of 1,000 ns, at or after a tick (chapter 08). -/
def seamAfter (t : Tick) : Tick := BitVec.ofNat 64 (ceilDiv t.toNat 1000 * 1000)

/-- A commit is refused or withdrawn after its COMMIT was accepted: the reply is written and the transaction is OPEN again
with its records kept (R345, R343). -/
def commitBack (h : Nat) (st : Status) (detail : Nat) (s : State) : State :=
  match txn? s h with
  | none => s
  | some t =>
    let s1 := setTxn h (fun t => { t with st := .opened, src := none }) s
    match t.src with
    | some src => pushDue src t.tailSeq (replyMsg 0x0304 st detail []) s1
    | none => s1

/-- A persistent commit is DURABLE: it waits for its epoch, which lies at least 50 µs ahead; a Reel tick already passed
makes it LATE, and the first such seam its epoch (R332). -/
def commitDurable (h seq : Nat) (s : State) : State :=
  let soon := s.reel + 50000
  setTxn h (fun t =>
    let past := t.reelEpoch && decide (t.tick ≤ s.reel)
    { t with st := .waiting, durable := true, seq := seq, late := past
             tick := if !t.reelEpoch then soon else if past then seamAfter soon else t.tick }) s

end Sys2Proof.Machine
end

