-- ==== Sys2Proof/Machine/TxnAdv.lean ====
section
/-!
DEFINITION. How a commit goes on after its epoch (steps 3 to 5 of R334): each of the commands that ends a step calls
`txnAdvance`, which begins what comes next.
-/

namespace Sys2Proof.Machine

/-- Instances of item `item` that records of a transaction name, without repeats, rising. -/
def recInsts (item : Nat) (rs : List Rec) : List Nat :=
  (rs.filter fun r => r.item == item).foldl (fun l r => insertNat r.inst l) []

/-- An item has been applied at the present tick, or has failed to apply (R337, R348). -/
def noteApplied (h item inst : Nat) (ok : Bool) (s : State) : State :=
  setTxn h (fun t => { t with applied := t.applied ++ [{ item := item, inst := inst, ns := if ok then (s.reel - t.epochReel).toNat else 0xFFFFFFFF }] }) s

/-- Bit timing of controller `n` from its item: CAN_NBT, CAN_DBT, CAN_TDC (Table 11.1). -/
def canItem (s : State) (n : Nat) : Word × Word × Word :=
  let m := s.conf 0x0202 n
  (BitVec.ofNat 32 (m.num 0 4), BitVec.ofNat 32 (m.num 4 4), BitVec.ofNat 32 (m.num 8 4))

/-- Step 4 begins: each controller with new bit timing waits for the bus. -/
def canWait (h n : Nat) (s : State) : State :=
  let w := canItem s n
  s.setCan n fun c => { c with pend := some (w.1, w.2.1, w.2.2, h) }

/-- Step 5 for one port: it is disabled, reconfigured and re-enabled, and stays in transition until link-up; its items are
applied, its bit of ETHMASK is set. In limp state a port cannot be enabled (R103), and its items fail (R348). -/
def portReconfigure (h p : Nat) (s : State) : State :=
  let t := portBring p (ethPhyOff p s)
  let ok := !s.sys.limp
  let rs := ((txn? s h).map Txn.recs).getD []
  let t1 := if (recInsts 0x0203 rs).contains p then noteApplied h 0x0203 p ok t else t
  let t2 := if (recInsts 0x0204 rs).contains p then noteApplied h 0x0204 p ok t1 else t1
  setTxn h (fun x => { x with ethMask := if (t2.eport p).inTrans then x.ethMask ||| BitVec.ofNat 16 (2 ^ p) else x.ethMask }) t2

/-- The ports that step 5 of a transaction reconfigures, ascending. -/
def portsOf (rs : List Rec) : List Nat := (recInsts 0x0204 rs).foldl (fun l p => insertNat p l) (recInsts 0x0203 rs)

/-- No commit accepted before `t` has non-shadowed items of the same epoch still to apply (R341). -/
def txnFirst (s : State) (t : Txn) : Bool :=
  !(s.txn.txns.takeWhile fun x => x.h != t.h).any fun x => x.st == .applying && x.epochReel == t.epochReel && !x.portsDone

/-- Step 4 begins once step 3 is done, and the commits accepted before it have applied what falls on the same tick. -/
def canStep (h : Nat) (s : State) : State :=
  match txn? s h with
  | some t =>
    if t.st == .applying && !t.seamLeft && !t.canBegun && txnFirst s t then
      let ns := recInsts 0x0202 t.recs
      let left := ns.foldl (fun m n => m ||| BitVec.ofNat 8 (2 ^ n)) (0 : BitVec 8)
      ns.foldl (fun u n => canWait h n u) (setTxn h (fun x => { x with canBegun := true, canLeft := left }) s)
    else s
  | none => s

/-- Step 5 is carried out once the steps before it are done. -/
def portStep (h : Nat) (s : State) : State :=
  match txn? s h with
  | some t =>
    if t.st == .applying && !t.seamLeft && t.canBegun && t.canLeft == 0 && t.leaLeft.isEmpty && !t.portsDone then
      setTxn h (fun x => { x with portsDone := true }) ((portsOf t.recs).foldl (fun u p => portReconfigure h p u) s)
    else s
  | none => s

/-- What comes next for transaction `h`, and for the commits that waited for it. -/
def txnAdvance (h : Nat) (s : State) : State :=
  let t := portStep h (canStep h s)
  t.txn.txns.foldl (fun u x => portStep x.h (canStep x.h u)) t

end Sys2Proof.Machine
end

