-- ==== Sys2Proof/Machine/Can.lean ====
section
/-!
DEFINITION. The meanings of the CAN controllers' commands (chapter 11).
-/

namespace Sys2Proof.Machine

/-- CAN_TXREQ_WRITE (R550, R555). -/
def execCanTxreqWrite (n : Fin 8) (who : Owner) (v : Word) (s : State) : Host.Outcome State Fault Refusal :=
  .next (canOwned n who (canTxreq n v) s)

/-- CAN_TXCANCEL (R555, R571). -/
def execCanTxcancel (n : Fin 8) (who : Owner) (v : Word) (s : State) : Host.Outcome State Fault Refusal :=
  .next (canOwned n who (canCancel n v) s)

/-- CAN_POP (R555, R578, R581). -/
def execCanPop (n : Fin 8) (who : Owner) (v : Word) (s : State) : Host.Outcome State Fault Refusal :=
  .next (canOwned n who (canPopFifos n v) s)

/-- The loop delay measured in an FD frame with BRS is kept in TDCV, held at 127 − TDCO with TDCSAT set (R549). -/
def canMeasure (n b : Nat) (d : Nat) (s : State) : State :=
  let c := s.canOf n
  let w := txbCtlw c b
  if bitOf c.tdc 31 && bitOf w 31 && bitOf w 30 then
    let top := 127 - bitsOf c.tdc 16 7
    let s1 := s.setCan n fun c => { c with tdc := putField c.tdc 0 7 (min d top) }
    if top < d then canFlag n 3 s1 else s1
  else s

/-- CAN_TX_START (R549, R550, R557, R565): an active or passive controller that is not listen-only offers the pending frame
that would win arbitration. -/
def execCanTxStart (n : Fin 8) (sofTick : Tick) (loopDelay : Option Nat) (s : State) : Host.Outcome State Fault Refusal :=
  let c := s.canOf n
  if !c.enabled || c.listen || c.onBus.isSome || c.st == .busOff || c.st == .integrating then .next s
  else match canBest c with
    | none => .next s
    | some b =>
      let s1 := s.setCan n fun c => { c with onBus := some b, onBusTick := sofTick }
      match loopDelay with
      | none => .next s1
      | some d => .next (canMeasure n b d s1)

/-- CAN_TX_DONE (R551, R552, R571): a frame sent clears TXREQ and writes its event; one that lost arbitration or met an
error is cancelled if that was asked, ends with its event under ONESHOT, and else retries. -/
def execCanTxDone (n : Fin 8) (res : CanTxResult) (ec : CanErr) (s : State) : Host.Outcome State Fault Refusal :=
  let c := s.canOf n
  match c.onBus with
  | none => .next s
  | some b =>
    let bit : Word := BitVec.ofNat 32 (2 ^ b)
    let oneshot := bitOf (txbCtlw c b) 28
    let cancel := c.cancelWait &&& bit != 0
    let code := match res with
      | .sent => 0
      | .lostArbitration => 1
      | .error => 2
    let done := decide (code = 0) || oneshot || cancel
    let s1 := s.setCan n fun c => { c with
      onBus := none
      txreq := if done then c.txreq &&& ~~~ bit else c.txreq
      cancelWait := c.cancelWait &&& ~~~ bit
      framesTx := if code = 0 then c.framesTx + 1 else c.framesTx
      errs := if code = 2 then c.errs + 1 else c.errs }
    let s2 := if code = 0 || oneshot then canTxEvent n { buf := b, result := code, tick := c.onBusTick } s1 else s1
    .next (canCounters n ec s2)

/-- An error that ends a reception is counted in ERRS (R564, Table 11.4). -/
def canRxError (n : Nat) (ec : CanErr) (s : State) : State :=
  canCounters n ec (s.setCan n fun c => { c with errs := c.errs + 1 })

/-- The majority of three samples, bit by bit. -/
def majority (a b c : Nat) : Nat := (a &&& b) ||| (a &&& c) ||| (b &&& c)

/-- A frame as the controller takes it from its samples (R546). With TRIPLE 1 a bit of the nominal phase is the majority
of the three; of a frame with BRS the DLC, ESI and data lie in the data phase, which samples once. -/
def canSampled (triple : Bool) (x : CanSamples) : CanFrame :=
  let f := x.frame
  let f1 := x.before1
  let f2 := x.before2
  if !triple then f
  else
    let maj (x y z : Word) : Word := BitVec.ofNat 32 (majority x.toNat y.toNat z.toNat)
    let ctlw := maj f.ctlw f1.ctlw f2.ctlw
    let byte (i : Nat) (b : Byte) : Byte := BitVec.ofNat 8 (majority b.toNat (f1.data.getD i 0).toNat (f2.data.getD i 0).toNat)
    if bitOf ctlw 31 && bitOf ctlw 30 then
      { f with idw := maj f.idw f1.idw f2.idw, ctlw := (ctlw &&& 0xC0000000) ||| (f.ctlw &&& 0x3FFFFFFF) }
    else { idw := maj f.idw f1.idw f2.idw, ctlw := ctlw, data := f.data.mapIdx byte }

/-- CAN_FRAME_RX (R546, R553, R562, R564): a good frame is filtered into a FIFO; an error is counted, and with FDEN 0 a frame with
FDF recessive is one; a recessive res bit with FDEN is a protocol exception, after which the controller waits for 11 recessive
bits with its counters unchanged. -/
def execCanFrameRx (n : Fin 8) (f : CanSamples) (sofTick : Tick) (res : CanRxResult) (ec : CanErr) (s : State) :
    Host.Outcome State Fault Refusal :=
  let c := s.canOf n
  if !c.enabled || c.st == .busOff || c.st == .integrating then .next s
  else match res with
    | .good =>
      let g := canSampled (bitOf c.nbt 31) f
      if bitOf g.ctlw 31 && !c.fden then .next (canRxError n ec s)
      else .next (canCounters n ec (canReceive n g sofTick s))
    | .error => .next (canRxError n ec s)
    | .resRecessive =>
      if c.fden then .next (s.setCan n fun c => { c with pexc := c.pexc + 1, st := .integrating, onBus := none, changed := s.reel })
      else .next (canRxError n ec s)

/-- CAN_BUSOFF_RECOVERY (R560): error-active with both counters 0; BUSOFFS counts; the state change raises its event. -/
def execCanBusoffRecovery (n : Fin 8) (s : State) : Host.Outcome State Fault Refusal :=
  if (s.canOf n).enabled && (s.canOf n).st == .busOff then
    .next (canEvent n 3 (s.setCan n fun c => { c with
      st := .active, tec := 0, recv := 0, busOffs := c.busOffs + 1, changed := s.reel }))
  else .next s

/-- CAN_INTEGRATE (R580): 11 recessive bits, and the controller joins the bus in the state its counters give. -/
def execCanIntegrate (n : Fin 8) (s : State) : Host.Outcome State Fault Refusal :=
  if (s.canOf n).enabled && (s.canOf n).st == .integrating then
    .next (s.setCan n fun c => { c with st := canStateOf c.tec c.recv, changed := s.reel })
  else .next s

/-- CAN_CTRL_APPLY (R573): at bus idle LISTEN, FDEN and NOMATCH come into force. -/
def execCanCtrlApply (n : Fin 8) (s : State) : Host.Outcome State Fault Refusal :=
  if (s.canOf n).enabled && (s.canOf n).onBus.isNone then .next (canLoadCtrl n s) else .next s

/-- CAN_TIMING_RELOAD (R334 step 4, R337, R572): the waiting bit timing is loaded, at the end of the frame in progress or,
`forced`, after 20 ms without an idle bus; the transaction marks the controller in CANMASK. -/
def execCanTimingReload (n : Fin 8) (forced : Bool) (s : State) : Host.Outcome State Fault Refusal :=
  match (s.canOf n).pend with
  | none => .next s
  | some (nbt, dbt, tdc, h) =>
    if !forced && (s.canOf n).onBus.isSome then .next s
    else
      let bit : BitVec 8 := BitVec.ofNat 8 (2 ^ n.val)
      let t := setTxn h (fun x => { x with canLeft := x.canLeft &&& ~~~ bit, canMask := x.canMask ||| bit })
        (noteApplied h 0x0202 n.val true (canLoadTiming n nbt dbt tdc s))
      .next (txnAdvance h t)

/-- WKMODE of controller `n` (R566). -/
def wkMode (s : State) (n : Nat) : Nat := s.fld (canBase n + 0x40) 30 2

/-- CAN_WAKE_DOMINANT (R566, R567). -/
def execCanWakeDominant (n : Fin 8) (s : State) : Host.Outcome State Fault Refusal :=
  if wkMode s n = 1 then .next (wakeFire 4 s) else .next s

/-- Whether an error-free frame meets the selective wake rule (R568). -/
def wakeMatch (s : State) (n : Nat) (f : CanFrame) : Bool :=
  let b := canBase n
  let dlc := s.fld (b + 0x40) 16 4
  let mask := leBytes 4 (s.rd (b + 0x4C)).toNat ++ leBytes 4 (s.rd (b + 0x50)).toNat
  !bitOf f.ctlw 31 && !bitOf f.idw 30 && bitOf f.idw 31 == bitOf (s.rd (b + 0x40)) 29
    && decide (bitsOf f.idw 0 29 &&& s.fld (b + 0x48) 0 29 = s.fld (b + 0x44) 0 29 &&& s.fld (b + 0x48) 0 29)
    && decide (dlcOf f.ctlw = dlc)
    && (decide (dlc = 0) || (((f.data.take (dlcLen false dlc)).zip mask).any fun x => x.1 &&& x.2 != 0))

/-- CAN_WAKE_FRAME (R568, R569): a correct frame takes 1 from the error counter; a matching one fires the rule. -/
def execCanWakeFrame (n : Fin 8) (f : CanFrame) (s : State) : Host.Outcome State Fault Refusal :=
  if wkMode s n = 2 && s.sys.mode == .drowse then
    let s1 := s.setCan n fun c => { c with fec := if bitOf f.ctlw 31 then c.fec else c.fec - 1 }
    if wakeMatch s n f then .next (wakeFire 4 s1) else .next s1
  else .next s

/-- CAN_WAKE_FEC (R569): after `good` correct and then `errors` erroneous frames; at 32 the rule fires with cause FEC. -/
def execCanWakeFec (n : Fin 8) (errors good : Nat) (s : State) : Host.Outcome State Fault Refusal :=
  if wkMode s n = 2 && s.sys.mode == .drowse then
    let c := (s.canOf n).fec - good + errors
    if c < 32 then .next (s.setCan n fun x => { x with fec := c })
    else .next (wakeFire 4 (s.setCan n fun x => { x with fec := 32, fecFired := true }))
  else .next s

end Sys2Proof.Machine
end

