-- ==== Sys2Proof/Machine/Ethernet.lean ====
section
/-!
DEFINITION. The meanings of the Ethernet port and carding commands (chapter 10).
-/

namespace Sys2Proof.Machine

/-- FRAME_RX_START (R515, R516): with the port's reorder or receive buffer full the frame is discarded and counted; else
it takes a reorder entry and its SFD is ledgered (R504). On a through ingress THRUTIN's input counts (R510). DEPTH and the
through path in force now stay the frame's (R527). -/
def execFrameRxStart (p : Fin 12) (s : State) : Host.Outcome State Fault Refusal :=
  let e := s.eport p
  if !e.link || (arriving s p).isSome then .next s
  else if 128 ≤ e.rx.length ∨ 16384 ≤ rxHeld e then .next (s.setEport p fun e => { e with rxOvf := e.rxOvf + 1 })
  else
    let (id, s1) := newFrame p s.reel s
    let s2 := s1.setEport p fun e => { e with rx := e.rx ++ [{ frame := id, depth := cardDepth s p }], high := max e.high (e.rx.length + 1) }
    if 4 ≤ thruOut s p then .next s2
    else .next (tinEvents (thruTin s p) 1 ((s2.setFrame id fun f => { f with thru := true }).setEport p fun e => { e with
      thruSeq := (e.thruSeq + 1) % 2 ^ 32, thruTick := s.reel, thruBytes := [], thruEnded := false, edits := [], thruStomp := false
      thruTo := thruOut s p, thruDly := thruDelay s p }))

/-- The lane a frame is dealt to: round robin, skipping full lanes (R513). -/
def freeLane (s : State) : Option Nat :=
  ((List.range 16).map fun i => (s.eth.nextLane + i) % 16).find? fun l => decide ((Tab.get (fun _ => []) s.eth.lanes l).length < 4)

/-- LANE_DEAL (R512, R513): the first frame of the port not dealt yet, with `bytes` arrived of it, goes to a lane when it
has DEPTH bytes or has ended; with all lanes full it waits. The bank active now decides it (R527). -/
def execLaneDeal (p : Fin 12) (bytes : List Byte) (s : State) : Host.Outcome State Fault Refusal :=
  match (s.eport p).rx.find? fun r => !r.dealt with
  | none => .next s
  | some r =>
    let seen := if r.ended then r.seen else bytes
    let s1 := (s.setEport p fun e => { e with
        rx := e.rx.map fun x => if x.frame = r.frame then { x with seen := seen } else x
        thruBytes := if e.thruEnded then e.thruBytes else bytes }).setFrame r.frame fun f => if f.whole then f else { f with bytes := bytes }
    if !r.ended && decide (seen.length < r.depth) then .next s1
    else match freeLane s with
      | none => .next s1
      | some l =>
        let (rule, dec) := cardDecide s p r.depth seen r.ended
        let s2 := s1.setEport p fun e => { e with rx := e.rx.map fun x =>
          if x.frame = r.frame then { x with dealt := true, lane := some l, rule := rule, decision := some dec } else x }
        .next { s2 with eth := { s2.eth with
          nextLane := (l + 1) % 16, lanes := Tab.upd (fun _ => []) s2.eth.lanes l fun q => q ++ [(p.val, r.frame)] } }

/-- LANE_DECISION (R521, R524): the lane decides its first frame; the deciding rule's 48-bit hit counter, or the port's
count of default decisions, advances. -/
def execLaneDecision (l : Fin 16) (s : State) : Host.Outcome State Fault Refusal :=
  match Tab.get (fun _ => []) s.eth.lanes l with
  | [] => .next s
  | (p, id) :: rest =>
    let s1 := { s with eth := { s.eth with lanes := Tab.set (fun _ => []) s.eth.lanes l rest } }
    match (s.eport p).rx.find? fun r => r.frame == id with
    | none => .next s1
    | some r =>
      let s2 := s1.setEport p fun e => { e with
        rx := e.rx.map fun x => if x.frame = id then { x with decided := true } else x
        miss := if r.rule.isNone then e.miss + 1 else e.miss }
      match r.rule with
      | none => .next s2
      | some n => .next { s2 with eth := { s2.eth with hits := Tab.upd (fun _ => 0) s2.eth.hits n fun c => (c + 1) % 2 ^ 48 } }

/-- FRAME_RX_END (R473, R475, R496, R497, R501): a runt is discarded before carding; a frame longer than MAXFRAME keeps
its first MAXFRAME bytes and is TRUNC; the checksum verdict is formed; a bad frame counts as an error. -/
def execFrameRxEnd (p : Fin 12) (bytes : List Byte) (fcsOk symErr : Bool) (s : State) : Host.Outcome State Fault Refusal :=
  match arriving s p with
  | none => .next s
  | some f =>
    if bytes.length < 64 then
      let s1 := s.setEport p fun e => { e with rxRunt := e.rxRunt + 1, rx := e.rx.filter fun r => r.frame != f.id }
      let s2 := { s1 with bob := { s1.bob with frames := s1.bob.frames.filter fun g => g.id != f.id } }
      .next (thruEnd p bytes true s2)
    else
      let trunc := decide (maxFrame s p < bytes.length)
      let kept := bytes.take (maxFrame s p)
      let bad := !fcsOk || symErr
      let s1 := endArriving f kept bad trunc s
      let s2 := s1.setEport p fun e => { rxEnded f.id kept e with
        rxFcs := e.rxFcs + BitVec.ofNat 32 (b2n !fcsOk)
        rxSym := e.rxSym + BitVec.ofNat 32 (b2n symErr)
        rxTrunc := e.rxTrunc + BitVec.ofNat 32 (b2n trunc) }
      let s3 := s2.setEgress p fun g => { g with
        framesIn := g.framesIn + 1, errors := g.errors + b2n bad, truncs := g.truncs + b2n trunc }
      .next (thruEnd p kept bad s3)

/-- FRAME_ADMISSION (R459, R515, R523): the port's oldest frame, once decided, leaves its reorder entry. DROP discards it;
the other actions offer it to their bobbin, COPY and MIRROR with the further member of its train. `len` is the length the
frame will have had, metered when it has not ended yet. A through frame waits for its end (R508). -/
def execFrameAdmission (p : Fin 12) (len : Nat) (s : State) : Host.Outcome State Fault Refusal :=
  match (s.eport p).rx with
  | [] => .next s
  | r :: rest =>
    match r.decided, r.decision with
    | true, some d =>
      let s1 := s.setEport p fun e => { e with rx := rest }
      if d.action = 0 then .next (turnAway r.frame s1)
      else if (s.frame? r.frame).any Frame.thru && !r.ended then .next s
      else
        let s2 := s1.setFrame r.frame fun f => { f with
          copy := if d.action = 2 then some d.copyBob else none
          mirror := if d.action = 3 then some d.port else none }
        .next (offerFrame r.frame
          { bobbin := d.bobbin, need := headroom s p, len := if r.ended then sizeOf' s r.frame else len
            meter := d.meter, pre := d.colour, tx := false, ect := ectOf r.seen } s2)
    | _, _ => .next s

/-- LINK_UP (R489, R494, R767): the link of an enabled port is up with the rate and duplex configured, or with those
auto-negotiation found; it is no longer in transition, and sending resumes. -/
def execLinkUp (p : Fin 12) (speed : Fin 5) (fullDup : Bool) (s : State) : Host.Outcome State Fault Refusal :=
  match if (s.eport p).enabled then linkFound s p speed fullDup else none with
  | some (v, d) => .next ((raiseLine 6 s).setEport p fun e => { e with
      link := true, anDone := phyFlag s p 0, speed := v, fullDup := d, inTrans := false, aging := false, changed := s.reel })
  | none => .next s

/-- LINK_DOWN (R532): the frame in progress on ingress ends as bad, and ETH_LINKDOWN counts. -/
def execLinkDown (p : Fin 12) (s : State) : Host.Outcome State Fault Refusal :=
  if (s.eport p).link then .next ((raiseLine 6 (linkDrop p s)).setEport p fun e => { e with linkDown := e.linkDown + 1 })
  else .next s

/-- AN_TIMEOUT (Table 10.7): auto-negotiation is restarted, the port stays link down, ETH_LINKDOWN counts. -/
def execAnTimeout (p : Fin 12) (s : State) : Host.Outcome State Fault Refusal :=
  if (s.eport p).enabled && !(s.eport p).link && phyFlag s p 0 then
    .next (s.setEport p fun e => { e with anDone := false, linkDown := e.linkDown + 1 })
  else .next s

/-- LPI_ENTRY (R489, R531, R536): an idle port with EEE enters LPI: none is on the wire and none waits for it. -/
def execLpiEntry (p : Fin 12) (s : State) : Host.Outcome State Fault Refusal :=
  if (s.eport p).link && hasEee p (phyMode s p) && phyFlag s p 1 && !(s.eport p).lpiTx && (s.egress p).cur.isNone
      && (selectNext s p).1.isNone then
    .next (s.setEport p fun e => { e with lpiTx := true, lpiEnt := e.lpiEnt + 1 })
  else .next s

/-- ETH_MDIOCMD. -/
def mdioCmd : Nat := 0x40051000

/-- A write of ETH_MDIOCMD (R537): GO starts an access; GO while one runs is ignored. -/
def mdioWrite (v : Word) (s : State) : State :=
  if s.eth.mdioBusy then
    (if bitOf v 31 then s else s.regWrite mdioCmd v)
  else { s.regWrite mdioCmd v with eth := { s.eth with mdioBusy := bitOf v 31 } }

/-- MDIO_ACCESS (R537). -/
def execMdioAccess (v : Word) (s : State) : Host.Outcome State Fault Refusal := .next (mdioWrite v s)

/-- MDIO_COMPLETE (R537, Table 10.7): GO clears; a read gives DATA; with no response DATA is 0xFFFF on a read and NOACK sets. -/
def execMdioComplete (resp : Option (BitVec 16)) (s : State) : Host.Outcome State Fault Refusal :=
  if s.eth.mdioBusy then
    let s1 := { s with eth := { s.eth with mdioBusy := false } }
    let isRead := decide (s.fld mdioCmd 26 2 = 2)
    match resp with
    | some d => .next (if isRead then s1.setFld mdioCmd 0 16 d.toNat else s1)
    | none => .next ((if isRead then s1.setFld mdioCmd 0 16 0xFFFF else s1).setBits mdioCmd 0x20000000)
  else .next s

end Sys2Proof.Machine
end

