-- ==== Sys2Proof/Machine/DstOps.lean ====
section
/-!
DEFINITION. The Distaff store (chapter 03): energy estimates and the gate, segments and wear, the journal's pages and
replay, slot control, and what each gated unit programs.
-/

namespace Sys2Proof.Machine

/-! ### Energy (R159 to R168) -/

/-- PWR_CAPDECL, PWR_LEAKDECL, PWR_CHGCFG, PWR_GATE's sticky bit. -/
def capDecl : Nat := 0x400E0014
def leakDecl : Nat := 0x400E0018
def pwrGate : Nat := 0x400E0024

/-- E(p) in µJ (R159). -/
def unitEnergy (p : Nat) : Nat := 1000 + 15 * p

/-- C_eff in µF (R162): 1,000 until the configuration is applied in step 6 (R199). -/
def cEff (s : State) : Nat :=
  if s.pwr.confApplied then
    match s.pwr.capMeas with
    | some c => min (s.fld capDecl 0 14) c
    | none => s.fld capDecl 0 14
  else 1000

/-- E_V in µJ from V_HU in mV (R163); 0 when the bracket is negative. -/
def eVolts (c mv : Nat) : Nat := c * ((99 * mv) ^ 2 - 400000 ^ 2) / 20000000000
/-- E_L in µJ from Q in nC (R164). -/
def eLedgers (c q : Nat) : Nat := (q ^ 2 - c ^ 2 * 16000000) / (2000000 * c)

/-- Q after a sample: it adds 0.95 of the charge and subtracts 1.05 of the draw and the declared leakage, and stays in its
range (R164). -/
def ledgerNext (s : State) (l : HoldupSample) : Nat :=
  let plus := s.pwr.q * 100000 + 95000 * l.chgNc
  let minus := 105000 * l.drawNc + s.fld leakDecl 0 10 * l.us * 100
  min (cEff s * 12240) ((plus - minus) / 100000)

/-- A HOLDUP sample (R75, R76, R163, R164, R166): voltage, Q, the two estimates, loss of trust; a charge ends at 11.0 V. -/
def holdSample (l : HoldupSample) (s : State) : State :=
  let q := ledgerNext s l
  let el := eLedgers (cEff s) q
  let ev := eVolts (cEff s) l.vMv
  let rail := if 4000 < l.vMv then s.pwr.railOk ||| 0x80 else s.pwr.railOk &&& 0x7F
  { s with pwr := { s.pwr with
      vMv := l.vMv, q := q, eLedger := el, eVolt := ev, railOk := rail
      trusted := s.pwr.trusted && !(el == 0 && decide (0 < ev)), slowLogged := s.pwr.slowLogged && decide (l.vMv < 11000)
      leakLogged := s.pwr.leakLogged && !chargerRuns s } }

/-! ### Segments, pages, wear (R144 to R147, R181 to R183) -/

/-- The map a Distaff leaves the factory with: the regions of Table 3.1 one after another. -/
def factorySeg (p : Nat) : SegHdr :=
  let h (r l : Nat) : SegHdr := { region := r, lseg := l, gen := 0, valid := true, retired := false }
  if p < 5 then h 0 p else if p < 517 then h 1 (p - 5) else if p < 1029 then h 2 (p - 517)
  else if p < 1285 then h 3 (p - 1029) else if p < 1413 then h 4 (p - 1285) else h 5 (p - 1413)

/-- The header of physical segment `p`. -/
def segHdr (d : Dst) (p : Nat) : SegHdr := Tab.get factorySeg d.segs p
def setSeg (p : Nat) (h : SegHdr) (d : Dst) : Dst := { d with segs := Tab.set factorySeg d.segs p h }

/-- The levelled segments. -/
def pool : List Nat := (List.range 2048).drop 5

/-- The physical segment of a logical one: the valid header with the highest GEN (R147). -/
def physSeg (d : Dst) (region lseg : Nat) : Option Nat :=
  pool.foldl (fun best p =>
    let h := segHdr d p
    if h.valid && h.region == region && h.lseg == lseg then
      match best with
      | some q => if (segHdr d q).gen < h.gen then some p else best
      | none => some p
    else best) none

/-- The physical page of data page `i` of a levelled region: page 0 of each segment is its header (R147). -/
def physPage (d : Dst) (region i : Nat) : Nat := ((physSeg d region (i / 63)).getD 0) * 64 + 1 + i % 63

/-- Physical pages that `n` data pages from `i` program, the headers of the segments they enter included. -/
def dataPages (d : Dst) (region i n : Nat) : List Nat :=
  (List.range n).flatMap fun k =>
    let p := physPage d region (i + k)
    if (i + k) % 63 = 0 then [p / 64 * 64, p] else [p]

/-- Wear count of a page (R144). -/
def wearOf (d : Dst) (p : Nat) : Nat := Tab.get (fun _ => 0) d.wear p

/-- One page programmed: its count rises by 1, or 10 above 105 °C (R144). DST_HOTWR wraps past its 32 bits, as DST_WR past
its 48: the spec states saturation for DST_COMMITS alone (DESIGN CHOICE, log 37). -/
def wearPage (hot : Bool) (d : Dst) (p : Nat) : Dst :=
  let w := min 0xFFFFFF (wearOf d p + if hot then 10 else 1)
  let inPool := decide (320 ≤ p)
  { d with
    wear := Tab.set (fun _ => 0) d.wear p w
    wearMax := if inPool then max d.wearMax w else d.wearMax
    wearSum := if inPool then d.wearSum + (w - wearOf d p) else d.wearSum
    programs := (d.programs + 1) % 2 ^ 48
    hotPrograms := if hot then (d.hotPrograms + 1) % 2 ^ 32 else d.hotPrograms }

/-- Mean wear of the pool's pages (Table 3.8). -/
def wearAvg (d : Dst) : Nat := d.wearSum / 130752

/-- A segment at its endurance limit, or with three verify failures of a page (R183). -/
def segWorn (d : Dst) (p : Nat) : Bool :=
  (List.range 64).any fun i => decide (1000000 ≤ wearOf d (64 * p + i)) || decide (3 ≤ Tab.get (fun _ => 0) d.fails (64 * p + i))

/-- A page failed verify (R183). -/
def pageFailed (p : Nat) (d : Dst) : Dst := { d with fails := Tab.upd (fun _ => 0) d.fails p (· + 1) }

/-- Segments that a migration waits or runs on, as source or target. -/
def segsMoving (d : Dst) : List Nat :=
  (d.running.toList ++ d.waiting).flatMap fun u => match u with
    | .migration a b => [a, b]
    | _ => []

/-- A SPARE segment to replace another: the first by physical number, of those no migration uses (DESIGN CHOICE, log 37:
the spec does not say which). -/
def spareSeg (d : Dst) (not : Nat) : Option Nat :=
  pool.find? fun q => (segHdr d q).valid && (segHdr d q).region == 5 && q != not && !(segsMoving d).contains q

/-- Segment `p` is retired and a SPARE one, whose header page is programmed, takes its place (R183). -/
def retireDst (p : Nat) (d : Dst) : Dst :=
  let h := segHdr d p
  let out : SegHdr := { h with valid := false, retired := true }
  let d1 := { setSeg p out d with retired := d.retired + 1, spareLeft := d.spareLeft - 1 }
  if h.region = 5 then d1
  else match spareSeg d p with
    | none => d1
    | some q => wearPage (Config.hotUnit d.programs) (setSeg q { h with gen := h.gen + 1 } d1) (64 * q)

/-- SPARELEFT warnings (Table 3.6). -/
def spareWarn (before : Nat) (s : State) : State :=
  let n := s.dst.spareLeft
  let s1 := if 32 < before ∧ n ≤ 32 then logFault 0x27 1 (leBytes 2 n) s else s
  if 0 < before ∧ n = 0 then logFault 0x28 1 [] s1 else s1

/-- Segment `p` retires when it is worn (R183). -/
def retireIfWorn (p : Nat) (s : State) : State :=
  if 5 ≤ p ∧ !(segHdr s.dst p).retired ∧ segWorn s.dst p then
    spareWarn s.dst.spareLeft { s with dst := retireDst p s.dst }
  else s

/-- The coldest IMG or SPARE segment that no migration uses (R181): the one whose most worn page is worn least, the first by
physical number of equals (DESIGN CHOICE, log 37: the spec does not say what makes a segment coldest). -/
def coldest (d : Dst) : Option Nat :=
  let heat (p : Nat) := (List.range 64).foldl (fun m i => max m (wearOf d (64 * p + i))) 0
  pool.foldl (fun best p =>
    let h := segHdr d p
    if h.valid && (h.region == 1 || h.region == 2 || h.region == 5) && !(segsMoving d).contains p then
      match best with
      | some q => if heat p < heat q then some p else best
      | none => some p
    else best) none

/-- A page of a CONF or LOG segment leads the mean by more than WEARDELTA: a migration waits (R181). -/
def levelSeg (p : Nat) (s : State) : State :=
  let h := segHdr s.dst p
  let lead := (List.range 64).any fun i => decide (wearAvg s.dst + s.fld 0x40010038 0 16 < wearOf s.dst (64 * p + i))
  let queued := (segsMoving s.dst).contains p
  if (h.region = 3 ∨ h.region = 4) ∧ lead ∧ !queued then
    match coldest s.dst with
    | some src => queueUnit (.migration src p) s
    | none => s
  else s

/-- Pages have been programmed: wear, the window of R167 (R193), retirement, levelling. -/
def programmed (ps : List Nat) (s : State) : State :=
  let hot := Config.hotUnit s.dst.programs
  let s1 := { s with dst := ps.foldl (wearPage hot) s.dst, pwr := { s.pwr with lastProg := if ps.isEmpty then s.pwr.lastProg else s.ply.reel } }
  let segs := (ps.map (· / 64)).eraseDups
  segs.foldl (fun t p => levelSeg p (retireIfWorn p t)) s1

/-! ### The journal (R148 to R157) -/

/-- Pages of the journal ring (Table 3.1). -/
def ringPages : Nat := 16128

/-- A page of 512 bytes with its CRC (Table 3.3): 16 bytes of header, 492 of payload. -/
def jpage (type seq index : Nat) (pay : List Byte) : JPage :=
  let body := leBytes 2 0x4A44 ++ [BitVec.ofNat 8 type, 0] ++ leBytes 8 seq ++ leBytes 2 index ++ leBytes 2 pay.length
    ++ (pay ++ List.replicate 492 0).take 492
  { bytes := body ++ leBytes 4 (crc32 body).toNat }

/-- A page that reads back whole: its MAGIC and CRC are valid. -/
def jgood (p : JPage) : Bool :=
  !p.bad && p.bytes.length == 512 && leAt p.bytes 0 2 == 0x4A44 && leAt p.bytes 508 4 == (crc32 (p.bytes.take 508)).toNat

def jtype (p : JPage) : Nat := leAt p.bytes 2 1
def jseq (p : JPage) : Nat := leAt p.bytes 4 8
def jindex (p : JPage) : Nat := leAt p.bytes 12 2
def jpay (p : JPage) : List Byte := (p.bytes.drop 16).take (leAt p.bytes 14 2)

/-- The payload of record page `i` of a commit. -/
def bodyPage (c : Commit) (i : Nat) : List Byte := (c.body.drop (492 * i)).take 492

/-- The commit record's payload (Table 3.4). -/
def commitPay (c : Commit) (reel : Tick) : List Byte :=
  leBytes 2 (recPages c.body.length) ++ leBytes 2 (b2n c.asCkpt) ++ leBytes 4 c.first ++ leBytes 4 (crc32 c.body).toNat
    ++ leBytes 4 c.schema ++ leBytes 8 c.base ++ leBytes 8 reel.toNat ++ c.hash

/-- The good pages of the ring. -/
def ringGood (d : Dst) : List JPage := (d.ring.map Prod.snd).filter jgood

/-- The commit record of SEQ `q`, if its CRC is valid. -/
def recordOf (ps : List JPage) (q : Nat) : Option JPage := ps.find? fun p => jtype p == 2 && jseq p == q

/-- NPAGES, KIND, DATACRC, SCHEMA, BASESEQ, CONFHASH of a commit record. -/
def crNpages (p : JPage) : Nat := leAt (jpay p) 0 2
def crCkpt (p : JPage) : Bool := leAt (jpay p) 2 2 == 1
def crData (p : JPage) : Nat := leAt (jpay p) 8 4
def crSchema (p : JPage) : Nat := leAt (jpay p) 12 4
def crBase (p : JPage) : Nat := leAt (jpay p) 16 8
def crFirst (p : JPage) : Nat := leAt (jpay p) 4 4
def crHash (p : JPage) : List Byte := (jpay p).drop 32

/-- The record bytes of SEQ `q` when every record page is present. -/
def commitBody (ps : List JPage) (q n : Nat) : Option (List Byte) :=
  (List.range n).foldl (fun acc i => do
    let b ← acc
    let p ← ps.find? fun p => jtype p == 1 && jseq p == q && jindex p == i
    return b ++ jpay p) (some [])

/-- A commit that is complete (R156): its record and its bytes. -/
def complete (ps : List JPage) (q : Nat) : Option (JPage × List Byte) := do
  let r ← recordOf ps q
  let b ← commitBody ps q (crNpages r)
  if (crc32 b).toNat == crData r then some (r, b) else none

/-- SEQs of the commit records, and the highest SEQ on any page. -/
def recordSeqs (ps : List JPage) : List Nat := (ps.filter fun p => jtype p == 2).map jseq
def highestSeq (ps : List JPage) : Nat := ps.foldl (fun m p => max m (jseq p)) 0

/-- The deltas that follow checkpoint `base` from SEQ `q` on, as far as none is missing or incomplete (R157). Fuel: how
many SEQs. -/
def deltasFrom (ps : List JPage) (base : Nat) : Nat → Nat → List (JPage × List Byte)
  | 0, _ => []
  | fuel + 1, q =>
    match complete ps q with
    | some (r, b) => if crBase r = base && !crCkpt r then (r, b) :: deltasFrom ps base fuel (q + 1) else []
    | none => []

/-- What replay finds (R157, Table 3.6): the configuration with the SEQ, SCHEMA and CONFHASH of its last commit, the
checkpoint's SEQ and first page, how many deltas; the first SEQ discarded, if any; whether the latest checkpoint is lost. -/
structure Replay where
  conf : Option (Conf × Nat × Nat × List Byte) := none
  ckptSeq : Nat := 0
  first : Nat := 0
  loss : Option Nat := none
  ckptLost : Bool := false
  deriving DecidableEq, Repr

/-- Replay of the journal. -/
def replay (d : Dst) : Replay :=
  let ps := ringGood d
  let ckpts := (ps.filter fun p => jtype p == 2 && crCkpt p).map jseq
  let latest := ckpts.foldl max 0
  let good := (ckpts.filter fun q => (complete ps q).isSome).foldl max 0
  if good < latest then { ckptLost := true }
  else match complete ps good with
    | none => {}
    | some (r, b) =>
      let ds := deltasFrom ps good (highestSeq ps - good) (good + 1)
      let stop := good + ds.length + 1
      let last := (ds.getLast?.map Prod.fst).getD r
      let conf := applyRecs [] ((recsOf b).1 ++ ds.flatMap fun x => (recsOf x.2).1)
      let lost := (recordSeqs ps).any fun q => decide (stop ≤ q)
      { conf := some (conf, jseq last, crSchema last, crHash last), ckptSeq := good, first := crFirst r
        loss := if lost then some stop else none }

/-! ### Commits (R150 to R154, R160, R161) -/

/-- The configuration that runs once the durable commits that wait are applied. -/
def confAhead (s : State) : Conf :=
  applyRecs s.txn.conf ((s.txn.txns.filter fun t => t.durable && (t.st == .waiting)).flatMap Txn.recs)

/-- What the engine fixes when a commit starts: delta or checkpoint, its record bytes, SEQ, BASESEQ, CONFHASH (R153). A
delta's own pages are its record pages and its commit record. -/
def planCommit (s : State) (c : Commit) : Commit :=
  let result := applyRecs (confAhead s) c.recs
  let whole := recsBytes (fullRecs result)
  let own := if c.full then whole else recsBytes c.recs
  let n := recPages own.length
  let ck := c.full || !s.dst.chainOk || s.txn.isVolatile || decide (2000 < n) || decide (6144 < s.dst.live + n + 1)
  { c with chosen := true, asCkpt := ck, body := if ck then whole else own, hash := confHash result
           seq := s.dst.maxSeq + 1, base := if ck then s.dst.maxSeq + 1 else s.dst.ckptSeq
           pos := s.dst.ringHead, first := s.dst.ringHead }

/-- Record pages that a chunk may hold (R161): few enough for R170. -/
def chunkMax (s : State) : Nat := min 2000 ((cEff s * 239 / 8 - 1000) / 15 - 36)

/-- Record pages of the next unit of a commit, and whether it is the last (R161). -/
def chunkOf (s : State) (c : Commit) : Nat × Bool :=
  let total := recPages c.body.length
  let left := total - c.written
  if total ≤ 2000 then (left, true) else (min (chunkMax s) left, decide (left ≤ chunkMax s))

/-- Ring pages that a commit of `n` record pages may take: its record pages, its commit record, the rewrites of each unit. -/
def commitMost (s : State) (n : Nat) : Nat := n + 1 + 3 * (if n ≤ 2000 then 1 else ceilDiv n (chunkMax s))

/-- Segment headers that `n` ring pages from `pos` write: one at every ring position that is a multiple of 63, where the ring
enters a segment (DESIGN CHOICE, log 37: R147 gives each segment 63 data pages, while two worked cases count fewer). -/
def headersIn (pos n : Nat) : Nat := ((List.range n).filter fun i => (pos + i) % ringPages % 63 = 0).length

/-- p of a commit's unit (R160): the headers are those its record pages, commit record and rewrites may write. -/
def commitP (pos n : Nat) : Nat := n + headersIn pos (n + 4) + 4

/-- The commit whose unit comes next: the one in flight between its chunks, else the staged one. -/
def commitNext (s : State) : Option Commit :=
  match s.dst.inflight with
  | some c => some c
  | none => s.dst.staged.map (planCommit s)

/-! ### Slot control (R174 to R179) -/

/-- The slot control changes: both copies are written, copy 1 first (R175). -/
def changeCtl (f : SlotCtl → SlotCtl) (s : State) : State :=
  let c := { f s.dst.ctl with bseq := s.dst.ctl.bseq + 1 }
  queueUnit (.boot false c false) { s with dst := { s.dst with ctl := c } }

/-- A change that joins the one still waiting to be written, if any (R177). -/
def joinCtl (f : SlotCtl → SlotCtl) (s : State) : State :=
  let waits := s.dst.waiting.any fun u => match u with
    | .boot false c _ => c.bseq == s.dst.ctl.bseq
    | _ => false
  if waits then
    let c := f s.dst.ctl
    let w := s.dst.waiting.map fun u => match u with
      | .boot false d r => if d.bseq = c.bseq then .boot false c r else u
      | _ => u
    { s with dst := { s.dst with ctl := c, waiting := w } }
  else changeCtl f s

/-- State of a slot; false is IMG_A. -/
def slotState (c : SlotCtl) (b : Bool) : SlotState := if b then c.stB else c.stA
def setSlot (b : Bool) (x : SlotState) (c : SlotCtl) : SlotCtl := if b then { c with stB := x } else { c with stA := x }
def slotNum : SlotState → Nat
  | .empty => 0
  | .writing => 1
  | .trial => 2
  | .good => 3
  | .bad => 4

/-! ### The gate and the order of units (R165, R189, R190) -/

/-- Physical NAMEPLATE pages of blocks: segment 4, 16 blocks to a page (Table 3.1). -/
def namePages (ns : List Nat) : List Nat := (ns.map fun n => 256 + n / 16).eraseDups

/-- Blocks that a NAMEPLATE update writes: its own, and block 72 while ACKPEND holds bits or a fault record clears one. -/
def nameBlocks (s : State) (blocks : List (Nat × List Byte)) : List Nat :=
  let ns := blocks.map Prod.fst
  if s.tag.ackPend ≠ 0 ∨ ns.any (fun n => decide (56 ≤ n ∧ n < 72)) then ns ++ [72] else ns

/-- Pages that a unit programs, as E(p) counts them. -/
def unitP (s : State) (u : GUnit) : Nat :=
  match u with
  | .boot _ _ _ => 1
  | .commit n _ => (match s.dst.inflight with
    | some c => commitP c.pos n
    | none => commitP s.dst.ringHead n)
  | .log => 1
  | .nameplate blocks => max 1 (namePages (nameBlocks s blocks)).length
  | .image off data =>
    ((List.range (ceilDiv data.length 512)).foldl (fun n k => if (off / 512 + k) % 63 = 0 then n + 2 else n + 1) 0)
  | .migration _ dst => if (segHdr s.dst dst).region = 5 then 64 else 65
  | .scrub _ => 1

/-- Place of a unit in the order of R190. -/
def unitRank : GUnit → Nat
  | .boot true _ _ => 0
  | .boot false _ _ => 1
  | .commit _ _ => 2
  | .log => 3
  | .nameplate _ => 4
  | .image _ _ => 5
  | .migration _ _ => 6
  | .scrub _ => 7

/-- The units that wait: those queued, the next of a commit, a log copy while the recorder holds an entry. -/
def waitingUnits (s : State) : List GUnit :=
  let c := match commitNext s with
    | some c => [GUnit.commit (chunkOf s c).1 (chunkOf s c).2]
    | none => []
  s.dst.waiting ++ c ++ (if s.sys.recorder.isEmpty then [] else [GUnit.log])

/-- Whether Brace lets a unit start (R188, R189): log copies, and copy 2 of a BOOT pair whose copy 1 is written. A repair of
copy 2 waits, as the other BOOT copy writes do (DESIGN CHOICE, log 37). -/
def braceAllows : GUnit → Bool
  | .log => true
  | .boot true _ repair => !repair
  | _ => false

/-- The first waiting unit in the order of R190. -/
def firstUnit (s : State) : Option GUnit :=
  let us := (waitingUnits s).filter fun u => s.sys.mode != .brace || braceAllows u
  (List.range 8).findSome? fun k => us.find? fun u => unitRank u == k

/-- NEED: 2 × E(p) of the waiting unit; 0 when none waits (Table 3.10). -/
def gateNeed (s : State) : Nat := match firstUnit s with
  | some u => 2 * unitEnergy (unitP s u)
  | none => 0

/-- The waiting unit may start (R165). -/
def gateOpens (s : State) : Bool :=
  (firstUnit s).isSome && s.dst.running.isNone && s.pwr.distaffUp && s.pwr.trusted
    && decide (gateNeed s ≤ min s.pwr.eLedger s.pwr.eVolt)

/-- A unit starts: it leaves the queue, and the commit it carries is in flight. -/
def startUnit (u : GUnit) (s : State) : State :=
  match u with
  | .commit _ _ =>
    { s with dst := { s.dst with running := some u, inflight := commitNext s, staged := if s.dst.inflight.isSome then s.dst.staged else none } }
  | _ => { s with dst := { s.dst with running := some u, waiting := s.dst.waiting.erase u } }

/-- A commit that would write `n` ring pages from the head on reaches a segment that holds a page of the latest durable
checkpoint (R154). -/
def ringBlocked (s : State) (n : Nat) : Bool :=
  let lead := (s.dst.ckptFirst / 63 * 63 + ringPages - s.dst.ringHead % ringPages) % ringPages
  decide (0 < s.dst.ckptSeq) && decide (lead < n)

/-! ### What units program -/

/-- The physical pages of `n` ring positions from the head. -/
def ringRange (d : Dst) (n : Nat) : List Nat :=
  (List.range n).flatMap fun i => dataPages d 3 ((d.ringHead + i) % ringPages) 1

/-- The physical pages that a unit programs, in the order of its programs; of a commit without rewrites. A migration writes
the target's header last, and then the source's, which takes the name the target had (R182; DEDUCED, log 37). -/
def unitPages (s : State) (u : GUnit) : List Nat :=
  match u with
  | .boot copy2 _ _ => [if copy2 then 128 else 0]
  | .commit n last => ringRange s.dst (n + b2n last)
  | .log => dataPages s.dst 4 (s.dst.logNext / 12 % 8064) 1
  | .nameplate blocks => namePages (nameBlocks s blocks)
  | .image off data => dataPages s.dst (if s.dst.ctl.active then 1 else 2) (off / 512) (ceilDiv data.length 512)
  | .migration src dst =>
    ((List.range 63).map fun i => 64 * dst + 1 + i) ++ [64 * dst] ++ (if (segHdr s.dst dst).region = 5 then [] else [64 * src])
  | .scrub p => [p]

/-- Ring pages placed at the head, one after another; the head moves past them. -/
def placePages (ps : List JPage) (d : Dst) : Dst :=
  ps.foldl (fun d p => { d with ring := Tab.set (fun _ => {}) d.ring (d.ringHead % ringPages) p, ringHead := (d.ringHead + 1) % ringPages }) d

/-- The fingerprint blocks of the nameplate (Table 15.3), as two blocks: 16 and 17. -/
def fingerprint (s : State) (hash : List Byte) (seq : Nat) : List (Nat × List Byte) :=
  [(16, hash), (17, leBytes 8 seq ++ leBytes 8 s.reel.toNat ++ [BitVec.ofNat 8 (b2n s.txn.confDefault)] ++ List.replicate 15 0)]

/-- A fault record of the nameplate (R718): its block and its 32 bytes, the first 32 of its LOG record (R355). -/
def logBytes (r : LogRec) : List Byte :=
  let b := leBytes 4 r.index ++ leBytes 2 r.r.code ++ [BitVec.ofNat 8 r.r.block, r.r.mode] ++ leBytes 8 r.r.reel.toNat
    ++ r.r.detail ++ leBytes 4 r.r.kindles
  b ++ leBytes 4 (crc32 b).toNat

/-- The LOG ring holds 8,064 pages of 12 records; when it is full the page of the oldest is overwritten (R355). -/
def pushLog (r : LogRec) (d : Dst) : Dst :=
  let l := if d.log.length < 96768 then d.log else d.log.drop 12
  { d with log := l ++ [r], logNext := d.logNext + 1 }

end Sys2Proof.Machine
end

