-- ==== Sys2Proof/Machine/Distaff.lean ====
section
/-!
DEFINITION. The Distaff's commands (chapter 03, and the HOLDUP rules of chapter 01): supply of the domain, the charger, the
ledger, the start and end of each gated unit, scrub.
-/

namespace Sys2Proof.Machine

/-- The Distaff changed. -/
def setDst (f : Dst → Dst) (s : State) : State := { s with dst := f s.dst }

/-! ### Commit pages (R150 to R152) -/

/-- A page whose program or read-back failed; a commit record whose read-back failed counts as one, so that replay does not
find its commit complete (DESIGN CHOICE, log 37). -/
def badPage : JPage := { bytes := [], bad := true }

/-- The commit record of a commit. -/
def commitRecord (c : Commit) (reel : Tick) : JPage := jpage 2 c.seq 0xFFFF (commitPay c reel)

/-- What a unit of a commit writes: `n` record pages and, in the last, the commit record. -/
def unitItems (c : Commit) (n : Nat) (last : Bool) (reel : Tick) : List JPage :=
  ((List.range n).map fun i => jpage 1 c.seq (c.written + i) (bodyPage c (c.written + i))) ++ if last then [commitRecord c reel] else []

/-- Ring pages of a unit from place `i` on (R151): a page that fails, as `bad` says of its place, or a commit record read back
with more than 3 corrected bits, is written again at the next place, three times at most. The pages placed, and whether all
items were. Fuel: how many pages can be placed. -/
def writeItems (bad : List Nat) : Nat → Nat → Nat → List Nat → List JPage → List JPage × Bool
  | _, _, _, _, [] => ([], true)
  | 0, _, _, _, _ :: _ => ([], false)
  | fuel + 1, i, left, reads, p :: ps =>
    let rec2 := jtype p == 2
    if bad.contains i || (rec2 && decide (3 < reads.headD 0)) then
      if left = 0 then ([badPage], false)
      else
        let r := writeItems bad fuel (i + 1) (left - 1) (if rec2 then reads.tail else reads) (p :: ps)
        (badPage :: r.1, r.2)
    else
      let r := writeItems bad fuel (i + 1) left reads ps
      (p :: r.1, r.2)

/-- The header page of a ring segment is written as the head enters it, with FIRSTSEQ (Table 3.2). -/
def ringHeader (seq pos : Nat) (d : Dst) : Dst :=
  match physSeg d 3 (pos / 63) with
  | some p => if pos % 63 = 0 then setSeg p { segHdr d p with firstSeq := seq } d else d
  | none => d

/-- Pages of commit `c` at the ring head: their wear, their headers, their verify failures; a delta's count in DST_LIVE. -/
def putPages (c : Commit) (ps : List JPage) (s : State) : State :=
  let h := s.dst.ringHead
  let failed := (ps.zipIdx.filter fun x => x.1.bad).map fun x => physPage s.dst 3 ((h + x.2) % ringPages)
  let heads (d : Dst) : Dst := (List.range ps.length).foldl (fun d i => ringHeader c.seq ((h + i) % ringPages) d) d
  let d := placePages ps (heads (failed.foldl (fun d p => pageFailed p d) s.dst))
  programmed (ringRange s.dst ps.length)
    (setDst (fun _ => { d with maxSeq := if ps.isEmpty then d.maxSeq else max d.maxSeq c.seq
                               live := if c.asCkpt then d.live else d.live + ps.length }) s)

/-- Where record page 0 lies: after the pages that failed at the head. -/
def firstAt (c : Commit) (bad : List Nat) : Nat :=
  if c.written = 0 then (c.first + ((List.range 4).find? fun i => !bad.contains i).getD 0) % ringPages else c.first

/-- A unit of a commit ends: its pages, and whether every one was written within three rewrites. -/
def writeUnit (c : Commit) (n : Nat) (last : Bool) (bad reads : List Nat) (s : State) : State × Bool :=
  let r := writeItems bad (n + 5) 0 3 reads (unitItems { c with first := firstAt c bad } n last s.reel)
  (putPages c r.1 s, r.2)

/-- The unit that runs is cut after `pages` programs: a commit's pages stand in the ring, the others of the unit do not. -/
def cutUnit (pages : Nat) (s : State) : State :=
  match s.dst.running, s.dst.inflight with
  | some (.commit n last), some c => putPages c ((unitItems c n last s.reel).take pages) s
  | some u, _ => programmed ((unitPages s u).take pages) s
  | none, _ => s

/-! ### The domain's supply (R72, R145, R173) -/

/-- HOLDUP_TAKEOVER: VAON is gone, the domain runs from HOLDUP, and a staged commit that has not started is discarded. -/
def execHoldupTakeover (s : State) : Host.Outcome State Fault Refusal :=
  if s.pwr.distaffUp then
    .next (setDst (fun d => { d with staged := none }) (setPwr (fun p => { p with railOk := p.railOk &&& 0xBF, hucAct := true }) s))
  else .next s

/-- DISTAFF_DOMAIN_STOP: the domain stops at once, and what it latched is lost (R72, R134, R144, R152). How many pages of the
unit that ran are programmed by then is a free value. A BOOT copy, image chunk, log page or nameplate page whose unit is cut
keeps what it held: the spec does not say what it then holds (DESIGN CHOICE, notes/assumptions/37.md). -/
def execDistaffDomainStop (s : State) : Host.Outcome State Fault Refusal :=
  if s.pwr.hucAct || !s.pwr.railOk.getLsbD 6 then
    let t := cutUnit (freeNow s).toNat s
    .next
      { t with
        free := s.free + 1
        pwr := { t.pwr with distaffUp := false, hucAct := false, railOk := t.pwr.railOk &&& 0x3F, trusted := false, q := 0, eLedger := 0 }
        dst := { t.dst with running := none, inflight := none, staged := none, waiting := [], chainOk := t.dst.chainOk && t.dst.inflight.isNone }
        sys := { t.sys with latch := none } }
  else .next s

/-! ### Charger (R75, R76, R169) -/

/-- HOLDUP_CHARGED: the timed charge ends. -/
def execHoldupCharged (s : State) : Host.Outcome State Fault Refusal :=
  .next (setPwr (fun p => { p with slowLogged := false, railOk := p.railOk ||| 0x80 }) s)

/-- HOLDUP_SLOW: the time of a charge, which counts while the charger runs, has reached 4 s at `mv`, below 11.0 V (R75);
logged once for the charge. -/
def execHoldupSlow (mv : Nat) (s : State) : Host.Outcome State Fault Refusal :=
  if chargerRuns s && !s.pwr.slowLogged && decide (mv < 11000) then
    .next (logFault 0x10 14 (leBytes 2 mv) (raiseLine 1 (setPwr (fun p => { p with slowLogged := true }) s)))
  else .next s

/-- HOLDUP_LEAK: logged once for each period in which the charger stays off. -/
def execHoldupLeak (fallMv : Nat) (s : State) : Host.Outcome State Fault Refusal :=
  if !chargerRuns s && s.dst.running.isNone && s.pwr.railOk.getLsbD 6 && !s.pwr.leakLogged && decide (500 < fallMv) then
    .next (logFault 0x11 14 (leBytes 2 fallMv) (raiseLine 1 (setPwr (fun p => { p with leakLogged := true }) s)))
  else .next s

/-- CAP_MEASURE: C = I × t / ΔV, stored less 6 % (R169). -/
def execCapMeasure (us dvMv : Nat) (s : State) : Host.Outcome State Fault Refusal :=
  if chargerRuns s && decide (500 ≤ dvMv) then
    .next (setPwr (fun p => { p with capMeas := some (min 16383 (s.fld chgCfg 0 7 * us * 94 / (dvMv * 100))) }) s)
  else .next s

/-! ### The ledger (R166 to R168) -/

/-- E_L and E_V differ by more than 25 % of the larger (R168). -/
def ledgerSkewed (el ev : Nat) : Bool := decide (max el ev < 4 * (max el ev - min el ev))

/-- The samples of a window of R167, of the net HOLDUP current in µA every 100 µs, lie within ±1 mA of their mean. -/
def steady (xs : List Int) : Bool := xs.length == 1000 && xs.all fun x => decide ((1000 * x - xs.sum).natAbs ≤ 1000000)

/-- When a window that starts after the last program, and 60 s or more after the last recalibration, has lasted 100 ms. -/
def windowEnd (p : Pwr) : Tick :=
  let a := p.lastProg.toNat + 100000000
  BitVec.ofNat 64 (match p.lastRecal with
    | some r => max a (r.toNat + 60100000000)
    | none => a)

/-- LEDGER_RECALIBRATION: the window `w` ends. A window that fails is
discarded; one that passes ends no sooner than R167 and R193 allow, and while the Reel runs it has then reached that tick. -/
def execLedgerRecalibration (w : LedgerWindow) (s : State) : Host.Outcome State Fault Refusal :=
  if s.dst.running.isSome || !s.pwr.distaffUp then .next s
  else if !steady w.currents then .next (holdSample w.last s)
  else
    let t := holdSample w.last (reachTick (windowEnd s.pwr) s)
    let skew := t.pwr.trusted && ledgerSkewed t.pwr.eLedger t.pwr.eVolt
    let t1 := if skew then
        logFault 0x12 14 (leBytes 4 t.pwr.eLedger ++ leBytes 4 t.pwr.eVolt) (raiseLine 1 (t.setBits pwrGate 0x20000000))
      else t
    let q := cEff s * 99 * w.last.vMv / 100
    .next (setPwr (fun p => { p with q := q, eLedger := eLedgers (cEff s) q, trusted := true, recals := (p.recals + 1) % 512, lastRecal := some t.ply.reel }) t1)

/-- LEDGER_UNTRUSTED: the sample at which E_L has reached 0 while E_V is above 0 (R166). -/
def execLedgerUntrusted (l : HoldupSample) (s : State) : Host.Outcome State Fault Refusal := .next (holdSample l s)

/-! ### Units start and end -/

/-- A commit fails: DISTAFF_FAULT is logged, its transaction is OPEN again, and the journal holds an incomplete SEQ when
pages of it were written (R151, R153, R345). -/
def commitFails (c : Commit) (page : Nat) (s : State) : State :=
  commitBack c.txn .distaffFault 0
    (logFault 0x24 1 (leBytes 8 c.seq ++ leBytes 4 page) (raiseLine 2 <| setDst (fun d => { d with inflight := none, running := none }) s))

/-- GATED_UNIT_START: the first waiting unit starts when the gate is open at this sample (R165, R190, R194). A commit that
would reach a segment R154 protects, at any page of it, fails before its first page. -/
def execGatedUnitStart (l : HoldupSample) (s : State) : Host.Outcome State Fault Refusal :=
  let t := holdSample l s
  if gateOpens t then
    match firstUnit t with
    | some (.commit n lastU) =>
      let u := startUnit (.commit n lastU) t
      match u.dst.inflight with
      | some c =>
        if c.written = 0 ∧ ringBlocked u (commitMost u (recPages c.body.length)) = true then
          .next (commitFails c (physPage u.dst 3 u.dst.ringHead) u)
        else .next u
      | none => .next t
    | some u => .next (startUnit u t)
    | none => .next t
  else .next t

/-- A commit is DURABLE (R150): the counters of Table 3.8, the chain, the transaction, the fingerprint of the nameplate. -/
def commitDone (c : Commit) (s : State) : State :=
  let d := s.dst
  let s1 := { s with
    dst := { d with inflight := none, running := none, seq := c.seq, hash := c.hash, commits := min 0xFFFFFFFF (d.commits + 1)
                    ckptSeq := c.base, ckptFirst := if c.asCkpt then c.first else d.ckptFirst
                    live := if c.asCkpt then 0 else d.live, chainOk := !c.stale && (d.chainOk || c.asCkpt) }
    txn := { s.txn with isVolatile := c.stale } }
  queueUnit (.nameplate (fingerprint s1 c.hash c.seq)) (commitDurable c.txn c.seq (raiseLine 2 s1))

/-- The rewrites of a unit are exhausted: DISTAFF_FAULT names the page at which the last one failed. -/
def unitFails (c : Commit) (t : State) : State :=
  commitFails c (physPage t.dst 3 ((t.dst.ringHead + ringPages - 1) % ringPages)) (setDst (fun d => { d with chainOk := false }) t)

/-- COMMIT_UNIT_END: the unit with the commit record ends. `bad` are the places, counted from the ring head, whose page failed
its program or read-back; `reads` the corrected bits of the successive read-backs of the commit record (R150, R151). -/
def execCommitUnitEnd (bad reads : List Nat) (s : State) : Host.Outcome State Fault Refusal :=
  match s.dst.running, s.dst.inflight with
  | some (.commit n true), some c =>
    let r := writeUnit c n true bad reads s
    if r.2 then
      .next (commitDone { c with first := firstAt c bad } (setTxn c.txn (fun x => { x with pages := x.pages + n + 1 }) r.1))
    else .next (unitFails c r.1)
  | _, _ => .next s

/-- CHECKPOINT_CHUNK_END: a chunk before the last is written (R161); `bad` as for COMMIT_UNIT_END. -/
def execCheckpointChunkEnd (bad : List Nat) (s : State) : Host.Outcome State Fault Refusal :=
  match s.dst.running, s.dst.inflight with
  | some (.commit n false), some c =>
    let r := writeUnit c n false bad [] s
    if r.2 then
      let c1 := { c with written := c.written + n, pos := r.1.dst.ringHead, first := firstAt c bad }
      .next (setTxn c.txn (fun x => { x with pages := x.pages + n })
        (setDst (fun d => { d with running := none, inflight := if c.dead then none else some c1, chainOk := d.chainOk && !c.dead }) r.1))
    else .next (unitFails c r.1)
  | _, _ => .next s

/-- No unit of a commit runs. -/
def commitIdle (s : State) : Bool :=
  match s.dst.running with
  | some (.commit _ _) => false
  | _ => true

/-- GATE_CLOSED: the staged commit, or the one between two chunks, has waited too long and is withdrawn (R172). Chunks
already written leave an incomplete SEQ (R153). -/
def execGateClosed (staged : Bool) (s : State) : Host.Outcome State Fault Refusal :=
  if staged then
    match s.dst.staged with
    | some c => .next (commitBack c.txn .gateClosed 0 (raiseLine 1 (setDst (fun d => { d with staged := none }) s)))
    | none => .next s
  else
    match s.dst.inflight with
    | some c =>
      if commitIdle s then
        .next (commitBack c.txn .gateClosed 0
          (raiseLine 1 (setDst (fun d => { d with inflight := none, chainOk := d.chainOk && decide (c.written = 0) }) s)))
      else .next s
    | none => .next s

/-- Brace or a reset: a commit whose last unit has not started is withdrawn; a chunk that runs is its last (R188, R346). -/
def dropUnstarted (s : State) : State :=
  match s.dst.inflight with
  | none => setDst (fun d => { d with staged := none }) s
  | some c => match s.dst.running with
    | some (.commit _ true) => setDst (fun d => { d with staged := none }) s
    | some (.commit _ false) => setDst (fun d => { d with staged := none, inflight := some { c with dead := true } }) s
    | _ => setDst (fun d => { d with staged := none, inflight := none, chainOk := d.chainOk && decide (c.written = 0) }) s

/-- BOOT_COPY_WRITE_END: a copy is written; copy 2 follows copy 1 unless it holds the same already (R175). -/
def execBootCopyWriteEnd (s : State) : Host.Outcome State Fault Refusal :=
  match s.dst.running with
  | some (.boot copy2 c repair) =>
    let t := programmed [if copy2 then 128 else 0] (setDst (fun d => { d with running := none }) s)
    let t1 := if repair then logFault 0x26 1 [if copy2 then 2 else 1] t else t
    if copy2 then .next (setDst (fun d => { d with copy2 := some c }) t1)
    else
      let t2 := setDst (fun d => { d with copy1 := some c }) t1
      if t2.dst.copy2 = some c then .next t2 else .next (queueUnit (.boot true c false) t2)
  | _ => .next s

/-- The nameplate's fault record of a LOG record; KINDLE records are no faults (R718, Table 15.3). -/
def faultBlock (r : LogRec) : List (Nat × List Byte) :=
  if r.r.code = 1 then [] else [(56 + r.index % 16, (logBytes r).take 32)]

/-- LOG_COPY_END: the oldest entry of the recorder is in the LOG region, and is freed (R111). A copy whose entry a COLD reset
has cleared from the recorder meanwhile writes nothing: R69 lets the unit finish, R110 loses the entry (DESIGN CHOICE,
log 37). -/
def execLogCopyEnd (s : State) : Host.Outcome State Fault Refusal :=
  match s.dst.running, s.sys.recorder with
  | some .log, e :: rest =>
    let r : LogRec := { index := s.dst.logNext, r := e }
    let t := programmed (dataPages s.dst 4 (r.index / 12 % 8064) 1)
      { s with dst := pushLog r { s.dst with running := none }, sys := { s.sys with recorder := rest } }
    if (faultBlock r).isEmpty then .next t else .next (queueUnit (.nameplate (faultBlock r)) t)
  | some .log, [] => .next (setDst (fun d => { d with running := none }) s)
  | _, _ => .next s

/-- The nameplate after an update (R718, R724, R730): ACKPEND first, then its blocks; a fault record clears the
acknowledgement bit of its slot. -/
def nameplateAfter (ack : BitVec 16) (blocks : List (Nat × List Byte)) (m : Mem) : Mem :=
  let a0 := Mem.num m (72 * 32) 2 ||| ack.toNat
  let a1 := blocks.foldl (fun a b => if 56 ≤ b.1 ∧ b.1 < 72 then a &&& (65535 - 2 ^ (b.1 - 56)) else a) a0
  Mem.write (blocks.foldl (fun m b => Mem.write m (32 * b.1) (b.2.take 32)) m) (72 * 32) (leBytes 2 a1)

/-- NAMEPLATE_UPDATE_END. -/
def execNameplateUpdateEnd (s : State) : Host.Outcome State Fault Refusal :=
  match s.dst.running with
  | some (.nameplate blocks) =>
    let t := programmed (namePages (nameBlocks s blocks)) (setDst (fun d => { d with running := none, nameplate := nameplateAfter s.tag.ackPend blocks d.nameplate }) s)
    .next { t with tag := { t.tag with ackPend := 0 } }
  | _ => .next s

/-- The image bytes of a slot. -/
def slotMem (d : Dst) (b : Bool) : Mem := if b then d.imgB else d.imgA
def setSlotMem (b : Bool) (m : Mem) (d : Dst) : Dst := if b then { d with imgB := m } else { d with imgA := m }

/-- IMAGE_CHUNK_END: a chunk is programmed into the slot that is not ACTIVE (R176). -/
def execImageChunkEnd (s : State) : Host.Outcome State Fault Refusal :=
  match s.dst.running with
  | some (.image off data) =>
    let b := !s.dst.ctl.active
    let t := programmed (unitPages s (.image off data)) s
    .next (setDst (fun d => setSlotMem b (Mem.write (slotMem d b) off data) { d with running := none }) t)
  | _ => .next s

/-- The map after a migration (R182, R183, R197). A target that was SPARE replaces a source that is retired. Else the target
takes the source's name, and the source, which joins the pool that journal and log use, the target's, each with GEN + 1: R182
says "the worn segment", which holds the moved data now, so the freed one is meant (DEDUCED, log 37). -/
def migrated (src dst : Nat) (d : Dst) : Dst :=
  let a := segHdr d src
  let b := segHdr d dst
  let d1 := setSeg dst { a with gen := a.gen + 1 } d
  if b.region = 5 then
    { setSeg src { a with valid := false, retired := true } d1 with retired := d.retired + 1, spareLeft := d.spareLeft - 1 }
  else setSeg src { b with gen := b.gen + 1 } d1

/-- MIGRATION_END: the target's header is written last (R182). A page that fails verify, number `failed` of the target's in the
order of the unit's programs, leaves the source mapped, and counts (R144, R183). -/
def execMigrationEnd (failed : Option (Fin 64)) (s : State) : Host.Outcome State Fault Refusal :=
  match s.dst.running with
  | some (.migration src dst) =>
    let t := setDst (fun d => { d with running := none }) s
    let ps := unitPages s (.migration src dst)
    match failed with
    | none => .next (programmed ps (spareWarn s.dst.spareLeft (setDst (migrated src dst) t)))
    | some i => .next (programmed (ps.take (i.val + 1)) (setDst (pageFailed (ps.getD i.val 0)) t))
  | _ => .next s

/-! ### Scrub (R184, R185, R197) -/

/-- The scrub runs only in Spin and Drowse. -/
def scrubMode (s : State) : Bool := s.sys.mode == .spin || s.sys.mode == .drowse

/-- SCRUB_PASS_START. -/
def execScrubPassStart (s : State) : Host.Outcome State Fault Refusal :=
  if scrubMode s && !s.dst.scrubbing then
    .next (setDst (fun d => { d with scrubbing := true, scrubPage := 0, scrubCount := 0 }) s)
  else .next s

/-- An uncorrectable page (Table 3.6, R197): counted and logged; a slot that is not ACTIVE is BAD; a journal page is not
recovered; a BOOT copy's slot control page no longer reads; its levelled segment retires once a gated unit has migrated its
readable pages to a SPARE one, or at once where it has none to move or none is left. -/
def scrubBad (p : Nat) (s : State) : State :=
  let h := segHdr s.dst (p / 64)
  let inactive := if s.dst.ctl.active then 1 else 2
  let t := logFault 0x25 1 (leBytes 4 p ++ [BitVec.ofNat 8 (if p < 320 then 0 else h.region)])
    (raiseLine 2 (setDst (fun d => { d with scrubUncorr := min 0xFFFF (d.scrubUncorr + 1) }) s))
  if p < 256 then
    setDst (fun d => { d with copy1 := if p = 0 then none else d.copy1, copy2 := if p = 128 then none else d.copy2 }) t
  else if p < 320 then t
  else
    let t1 := if h.region = 3 ∧ 0 < p % 64 then
        setDst (fun d => { d with ring := Tab.upd (fun _ => {}) d.ring (h.lseg * 63 + p % 64 - 1) (fun g => { g with bad := true }) }) t
      else t
    let t2 := if h.region = inactive then changeCtl (setSlot (!s.dst.ctl.active) .bad) t1 else t1
    if h.retired || (segsMoving t2.dst).contains (p / 64) then t2
    else match (if h.region = 5 then none else spareSeg t2.dst (p / 64)) with
      | some q => queueUnit (.migration (p / 64) q) t2
      | none => spareWarn t2.dst.spareLeft (setDst (retireDst (p / 64)) t2)

/-- The running unit programs page `p`. -/
def beingProgrammed (s : State) (p : Nat) : Bool := s.dst.running.any fun u => (unitPages s u).contains p

/-- SCRUB_PAGE_READ: 4 to 8 corrected bits queue a rewrite; more than 8 cannot be corrected (R142, R185). The read of a page
that the running unit programs waits: it is served when it comes after the unit's end (R191). -/
def execScrubPageRead (bits : Nat) (s : State) : Host.Outcome State Fault Refusal :=
  if scrubMode s && s.dst.scrubbing && !beingProgrammed s s.dst.scrubPage then
    let p := s.dst.scrubPage
    let t := if 8 < bits then scrubBad p s else if 4 ≤ bits then queueUnit (.scrub p) s else s
    if p = 131071 then .next (setDst (fun d => { d with scrubbing := false, scrubPage := 0, scrubRewritten := d.scrubCount }) t)
    else .next (setDst (fun d => { d with scrubPage := p + 1 }) t)
  else .next s

/-- SCRUB_REWRITE_END: the rewrite counts for its pass, also when that has ended (Table 3.8). -/
def execScrubRewriteEnd (s : State) : Host.Outcome State Fault Refusal :=
  match s.dst.running with
  | some (.scrub p) => .next (programmed [p] (setDst (fun d => { d with
      running := none, scrubCount := if d.scrubbing then d.scrubCount + 1 else d.scrubCount
      scrubRewritten := if d.scrubbing then d.scrubRewritten else min 0xFFFF (d.scrubRewritten + 1) }) s))
  | _ => .next s

end Sys2Proof.Machine
end

