-- ==== Sys2Proof/Machine/ImageOps.lean ====
section
/-!
DEFINITION. Images (chapter 12): the header and its sections, what makes an image authentic (R584), and which slot a kindle
boots (R93, R94, R175, R177, R178).
-/

namespace Sys2Proof.Machine

/-! ### The layout (Tables 12.1 and 12.2) -/

/-- A section entry. -/
structure Sect where
  ty : Nat
  off : Nat
  len : Nat
  crc : Nat
  deriving DecidableEq, Repr

/-- MAGIC, FORMAT, NSECT, SIZE, SCHEMA, NACCEPT, ACCEPT i of an image in a slot's bytes. -/
def imgMagic (b : Mem) : Nat := b.num 0 4
def imgFormat (b : Mem) : Nat := b.num 4 2
def imgNsect (b : Mem) : Nat := b.num 6 2
def imgSize (b : Mem) : Nat := b.num 8 4
def imgSchema (b : Mem) : Nat := b.num 0xC 4
def imgNaccept (b : Mem) : Nat := b.num 0x12 2
def imgAccept (b : Mem) (i : Nat) : Nat := b.num (0x14 + 4 * i) 4
def imgPubkey (b : Mem) : List Byte := b.bytes 0x20 64

/-- Section entry `i`. -/
def sectAt (b : Mem) (i : Nat) : Sect :=
  let o := 0x60 + 16 * i
  { ty := b.num o 2, off := b.num (o + 4) 4, len := b.num (o + 8) 4, crc := b.num (o + 12) 4 }
/-- The section table. -/
def imgSects (b : Mem) : List Sect := (List.range (imgNsect b)).map (sectAt b)
/-- The section of a type. -/
def sectOf (b : Mem) (ty : Nat) : Option Sect := (imgSects b).find? fun x => x.ty == ty
/-- Its bytes; none when the image has none. -/
def sectBytes (b : Mem) (ty : Nat) : List Byte := ((sectOf b ty).map fun x => b.bytes x.off x.len).getD []

/-- A configuration schema that the image accepts (R158). -/
def imgAccepts (b : Mem) (schema : Nat) : Bool :=
  imgSchema b == schema || (List.range (imgNaccept b)).any fun i => imgAccept b i == schema

/-! ### Authenticity (R583, R584, R589) -/

/-- Two sections overlap. -/
def sectsCross (x y : Sect) : Bool := decide (x.off < y.off + y.len) && decide (y.off < x.off + x.len)

/-- Sections of a type. -/
def sectCount (xs : List Sect) (ty : Nat) : Nat := (xs.filter fun x => x.ty == ty).length

/-- R583, and no TYPE outside 1 to 8. -/
def sectsOk (size : Nat) (xs : List Sect) : Bool :=
  (xs.all fun x => decide (1 ≤ x.ty ∧ x.ty ≤ 8) && decide (x.off + x.len ≤ size - 64)
    && decide ((xs.filter (sectsCross x)).length ≤ 1))
  && ([1, 3, 4, 5, 6, 7].all fun t => sectCount xs t == 1) && ([2, 8].all fun t => decide (sectCount xs t ≤ 1))

/-- Instances of a network at most (Table 12.4). -/
def netMost (id : Nat) : Nat := [0, 4, 2, 4, 2, 2, 2, 2, 1, 8, 8, 6, 2].getD id 0

/-- Manifest entries of 16 bytes. -/
def manifest (bs : List Byte) : List (List Byte) := (List.range (bs.length / 16)).map fun i => (bs.drop (16 * i)).take 16

/-- NETID, INSTANCE, module version, SPINDLES of an entry. -/
def manNet (e : List Byte) : Nat := leAt e 0 1
def manInst (e : List Byte) : Nat := leAt e 1 1
def manVer (e : List Byte) : Nat := leAt e 2 2
def manSpin (e : List Byte) : Nat := leAt e 4 8

/-- The manifest satisfies R589. -/
def manifestOk (bs : List Byte) : Bool :=
  let es := manifest bs
  bs.length % 16 == 0 && decide (es.length ≤ 64) && es.zipIdx.all fun e =>
    let same := es.filter fun f => manNet f == manNet e.1
    decide (1 ≤ manNet e.1 ∧ manNet e.1 ≤ 12) && (same.all fun f => manVer f == manVer e.1)
      && decide ((same.filter fun f => manInst f == manInst e.1).length ≤ 1) && decide (same.length ≤ netMost (manNet e.1))
      && es.zipIdx.all fun f => f.2 == e.2 || manSpin f.1 &&& manSpin e.1 == 0

/-- A key hash in fuses that matches; a slot of zeros matches nothing (R584). -/
def keyKnown (hash : List Byte) : Bool :=
  (List.range 4).any fun i =>
    let k := Config.keyHash (BitVec.ofNat 2 i).toFin
    k == hash && k.any (· != 0)

/-- The image is authentic (R584). -/
def authentic (b : Mem) : Bool :=
  let size := imgSize b
  imgMagic b == 0x464D4749 && imgFormat b == 1 && decide (1 ≤ imgNsect b ∧ imgNsect b ≤ 32)
    && decide (64 ≤ size ∧ size ≤ 16515072) && sectsOk size (imgSects b)
    && decide (imgNaccept b ≤ 3) && ((List.range 3).all fun i => decide (i < imgNaccept b) || imgAccept b i == 0)
    && ((imgSects b).all fun x => (crc32 (b.bytes x.off x.len)).toNat == x.crc)
    && manifestOk (sectBytes b 7)
    && ecdsaVerify (imgPubkey b) (sha256 (b.bytes 0 (size - 64))) (b.bytes (size - 64) 64)
    && keyKnown (sha256 (imgPubkey b))

/-! ### The slot a kindle boots -/

/-- What step 5 finds: the slot booted, the slot control after it, the slot that failed with the other one booted, the slot
rolled back, whether the copies have to be written. -/
structure BootPick where
  boot : Option Bool
  ctl : SlotCtl
  fallback : Option Bool := none
  rollback : Option Bool := none
  change : Bool := false
  deriving DecidableEq, Repr

/-- The slots may be authenticated (R93). -/
def bootable (c : SlotCtl) (b : Bool) : Bool := slotState c b == .good || slotState c b == .trial

/-- Slot `b` is booted: TRIES of a TRIAL slot goes up (R177). -/
def bootSlot (b : Bool) (p : BootPick) : BootPick :=
  if slotState p.ctl b = .trial then { p with boot := some b, ctl := { p.ctl with tries := min 3 (p.ctl.tries + 1) }, change := true }
  else { p with boot := some b }

/-- Slot `b` is tried first, then the other one; a slot that fails is BAD (R93, R178, Table 12.9). -/
def bootFrom (auth : Bool → Bool) (b : Bool) (p : BootPick) : BootPick :=
  let bad (x : Bool) (q : BootPick) : BootPick := { q with ctl := setSlot x .bad q.ctl, change := true }
  let first := bootable p.ctl b
  if first && auth b then bootSlot b p
  else
    let p1 := if first then bad b p else p
    if bootable p1.ctl (!b) then
      if auth (!b) then bootSlot (!b) (if first then { p1 with fallback := some b } else p1) else bad (!b) p1
    else p1

/-- The choice of step 5. A TRIAL slot whose TRIES is 3 gives way to the GOOD slot, which is ACTIVE; SLOT_ROLLBACK is set when
that slot is booted (R140). The slot rolled back stays TRIAL with TRIES 3, so each later kindle does the same; when the GOOD
slot cannot boot the TRIAL slot is tried under R93 (DESIGN CHOICE, log 37). `valid`: a BOOT copy has a valid CRC. -/
def pickSlot (auth : Bool → Bool) (valid : Bool) (c : SlotCtl) : BootPick :=
  if !valid then
    let a := auth false
    let b := auth true
    if a then { boot := some false, ctl := { c with active := false, stA := .good, stB := if b then .good else .empty, tries := 0 }, change := true }
    else if b then { boot := some true, ctl := { c with active := true, stA := .empty, stB := .good, tries := 0 }, change := true }
    else { boot := none, ctl := c }
  else
    let trial := !c.active
    if slotState c trial = .trial then
      if c.tries < 3 then bootFrom auth trial { boot := none, ctl := c }
      else
        let p := bootFrom auth c.active { boot := none, ctl := c }
        if p.boot = some c.active then { p with rollback := some trial } else p
    else bootFrom auth c.active { boot := none, ctl := c }

/-- How many slots step 5 authenticates (R93, R132, R175). -/
def slotsTried (s : State) : Nat :=
  let c := s.dst.ctl
  let auth (b : Bool) : Bool := authentic (slotMem s.dst b)
  let n (b : Bool) : Nat :=
    if bootable c b then (if auth b then 1 else 1 + b2n (bootable c (!b))) else b2n (bootable c (!b))
  if s.dst.bootLost then 2
  else if slotState c (!c.active) = .trial ∧ c.tries < 3 then n (!c.active) else n c.active

/-- The image that runs: the bytes of the slot booted. -/
def activeImage (s : State) : Option Mem := s.dst.booted.map (slotMem s.dst)

end Sys2Proof.Machine
end

