-- ==== Sys2Proof/Machine/Panel.lean ====
section
/-!
DEFINITION. The operator panel (chapter 15): debounce, the event queue, repeat, stuck keys, encoders. In the operands of a
scan a 1 stands for a line that is low, as a closed contact pulls it (R692); phase A of encoder e is bit 2e of a sample,
phase B bit 2e + 1, 1 a high level.
-/

namespace Sys2Proof.Machine

/-- PNL_CFG, PNL_REPCFG, PNL_ENCCFG, PNL_FLAGS (Table 15.6). -/
def pnlCfg : Nat := 0x400A0000
def pnlRepcfg : Nat := 0x400A0004
def pnlEnccfg : Nat := 0x400A0040
def pnlFlags : Nat := 0x400A0084

def State.key (s : State) (k : Nat) : Key := Tab.get (fun _ => {}) s.pnl.keys k
def State.setKey (s : State) (k : Nat) (f : Key → Key) : State :=
  { s with pnl := { s.pnl with keys := Tab.upd (fun _ => {}) s.pnl.keys k f } }

/-- MODE of a key in `s`: 0 off, 1 queue, 2 repeat (R695). -/
def keyMode (s : State) (k : Nat) : Nat := s.fld (0x400A0010 + 4 * (k / 16)) (2 * (k % 16)) 2

/-- The scanner runs: EN is 1, and in Drowse IOB_PNL is powered (R73, R705, Table 1.4). -/
def pnlRuns (s : State) : Bool :=
  bitOf (s.rd pnlCfg) 31 &&
    match s.sys.mode with
    | .spin | .service | .brace => true
    | .kindle => decide (s.sys.kstep = 7) && !s.sys.kfault
    | .drowse => bankOk s 3
    | .dark => false

/-- The Reel in milliseconds (R694); in Drowse its continuation count (R121). -/
def pnlNow (s : State) : Nat := s.reel.toNat / 1000000 % 2 ^ 32

/-- Entries the queue holds: 64, and 8 in Drowse (R699, R705). -/
def pnlCap (s : State) : Nat := if s.sys.mode = .drowse then 8 else 64

/-- An entry enters the queue; one that finds it full is discarded and counted (R699, R700). -/
def pnlEnter (key kind ms : Nat) (s : State) : State :=
  if s.pnl.queue.length < pnlCap s then
    { s with pnl := { s.pnl with queue := s.pnl.queue ++ [{ key := key, kind := kind, ms := ms }] } }
  else { s with pnl := { s.pnl with lost := min 255 (s.pnl.lost + 1) } }

/-- A key has become pressed (R694 to R696, R706). -/
def keyPress (k ms : Nat) (s : State) : State :=
  let t := s.setKey k fun q => { q with pressed := true, run := 0, pressMs := ms, reps := 0, noRep := false }
  if keyMode s k = 0 then t else wakeFire 2 (pnlEnter k 0 ms t)

/-- A key has become released, which unmasks it (R693, R695, R704). -/
def keyRelease (k ms : Nat) (s : State) : State :=
  let t := s.setKey k fun q => { q with pressed := false, run := 0, masked := false, reps := 0, noRep := false }
  if keyMode s k = 0 then t else pnlEnter k 1 ms t

/-- One 1 ms sample of a key (R693, R726): the run of samples that differ from the state held is compared with PRESS or
RELEASE; its first sample gives the time-stamp (R694). -/
def keySample (k : Nat) (closed : Bool) (ms : Nat) (s : State) : State :=
  let q := s.key k
  if closed = q.pressed then s.setKey k fun q => { q with run := 0 }
  else
    let since := if q.run = 0 then ms else q.since
    let need := if closed then s.fld pnlCfg 0 8 else s.fld pnlCfg 8 8
    if need ≤ q.run + 1 then (if closed then keyPress k since s else keyRelease k since s)
    else s.setKey k fun q => { q with run := q.run + 1, since := since }

/-- The scans in which column `c` has been low with no row driven, counted to 3, after one more. -/
def colCount (idle : BitVec 16) (p : Pnl) (c : Nat) : Nat :=
  if idle.getLsbD c then min 3 (Tab.get (fun _ => 0) p.colBad c + 1) else 0

/-- Column `c` is ignored: its keys are neither pressed nor released. -/
def colIgnored (s : State) (c : Nat) : Bool := decide (3 ≤ Tab.get (fun _ => 0) s.pnl.colBad c)
/-- The columns ignored. -/
def colsIgnored (s : State) : Nat := (List.range 16).foldl (fun m c => if colIgnored s c then m + 2 ^ c else m) 0

/-- A column low with no row driven in 3 consecutive scans is ignored, flagged and logged (Table 15.5). -/
def colScan (idle : BitVec 16) (s : State) : State :=
  let bad := (List.range 16).foldl (fun t c => Tab.set (fun _ => 0) t c (colCount idle s.pnl c)) s.pnl.colBad
  let t := { s with pnl := { s.pnl with colBad := bad } }
  let fresh := BitVec.ofNat 16 (colsIgnored t) &&& ~~~ BitVec.ofNat 16 (colsIgnored s)
  if fresh = 0 then t
  else logFault 0x80 10 (leBytes 2 (colsIgnored t)) (raiseLine 11 (t.setBits pnlFlags (BitVec.ofNat 32 (fresh.toNat * 65536))))

/-- A row's scan: its 16 keys, and with row 0 the buttons, in ascending KEY order (R691, R725). -/
def scanRow (row : Nat) (cols idle : BitVec 16) (btns : BitVec 8) (s : State) : State :=
  let ms := pnlNow s
  let s1 := colScan idle s
  let s2 := (List.range 16).foldl
    (fun t c => if colIgnored t c then t else keySample (16 * row + c) (cols.getLsbD c) ms t) s1
  if row = 0 then (List.range 8).foldl (fun t b => keySample (128 + b) (btns.getLsbD b) ms t) s2 else s2

/-- PANEL_ROW_SCAN. -/
def execPanelRowScan (row : Fin 8) (cols : BitVec 16) (idle : BitVec 16) (btns : BitVec 8) (s : State) :
    Host.Outcome State Fault Refusal :=
  .next (if pnlRuns s then scanRow row.val cols idle btns s else s)

/-- When a key's next further press entry is due, in Reel milliseconds (R696). -/
def repeatMs (s : State) (k : Nat) : Nat :=
  let q := s.key k
  (q.pressMs + s.fld pnlRepcfg 16 8 * 10 + q.reps * 1000 / s.fld pnlRepcfg 0 6) % 2 ^ 32

/-- The Reel reaches the millisecond count `ms` (low 32 bits, R694), when it lies ahead. -/
def reachMs (ms : Nat) (s : State) : State :=
  let now := s.reel.toNat / 1000000
  let ahead := (ms + 2 ^ 32 - now % 2 ^ 32) % 2 ^ 32
  if ahead < 2 ^ 31 then reachTick (BitVec.ofNat 64 ((now + ahead) * 1000000)) s else s

/-- KEY_REPEAT: while a MODE 2 key stays pressed and unmasked, a further press entry with the computed time (R696). -/
def execKeyRepeat (k : Fin 136) (s : State) : Host.Outcome State Fault Refusal :=
  let q := s.key k.val
  if pnlRuns s && q.pressed && !q.masked && !q.noRep && decide (keyMode s k.val = 2) then
    let ms := repeatMs s k.val
    .next (pnlEnter k.val 0 ms ((reachMs ms s).setKey k.val fun q => { q with reps := q.reps + 1 }))
  else .next s

/-- When a key that stays pressed is masked, in Reel milliseconds (R702). -/
def stuckMs (s : State) (k : Nat) : Nat := ((s.key k).pressMs + s.fld pnlCfg 16 8 * 1000) % 2 ^ 32

/-- KEY_STUCK: a key pressed for STUCK seconds is masked and enters one stuck entry whatever its MODE (R702). -/
def execKeyStuck (k : Fin 136) (s : State) : Host.Outcome State Fault Refusal :=
  let q := s.key k.val
  if pnlRuns s && q.pressed && !q.masked && decide (s.fld pnlCfg 16 8 ≠ 0) then
    let ms := stuckMs s k.val
    .next (pnlEnter k.val 4 ms ((reachMs ms s).setKey k.val fun q => { q with masked := true }))
  else .next s

/-! ### Encoders (R697, R698) -/

def State.encoder (s : State) (e : Nat) : Enc := Tab.get (fun _ => {}) s.pnl.enc e
def State.setEnc (s : State) (e : Nat) (x : Enc) : State :=
  { s with pnl := { s.pnl with enc := Tab.set (fun _ => {}) s.pnl.enc e x } }

/-- A phase level counts only after it has been seen in two consecutive samples (R698). -/
def phaseFilter (last held : Option Bool) (now : Bool) : Option Bool := if last = some now then some now else held

/-- Transitions per step for DIV 1, 2, 3 (R697). -/
def encDiv (d : Nat) : Nat := if d = 1 then 1 else if d = 2 then 2 else 4

/-- The quadrature position 0 to 3 of filtered levels, phase A leading on the way up. -/
def quadPos (a b : Bool) : Nat := match a, b with
  | false, false => 0
  | true, false => 1
  | true, true => 2
  | false, true => 3

/-- One step of encoder `e`, up or down: the count, the step entry when QSTEP is 1, the wake (R697, R706). -/
def encStep (e : Nat) (up : Bool) (ms : Nat) (s : State) : State :=
  let x := s.encoder e
  let t := s.setEnc e { x with acc := 0, count := if up then x.count + 1 else x.count - 1 }
  let t2 := if bitOf (s.rd pnlEnccfg) (4 * e + 3) then pnlEnter (136 + e) (if up then 2 else 3) ms t else t
  wakeFire 2 t2

/-- A valid transition of encoder `e`: transitions add up to a step by DIV (R697). -/
def encMove (e : Nat) (ahead : Bool) (ms : Nat) (s : State) : State :=
  let div := s.fld pnlEnccfg (4 * e) 2
  if div = 0 then s
  else
    let up := (ahead == Config.encUp) != bitOf (s.rd pnlEnccfg) (4 * e + 2)
    let x := s.encoder e
    let acc : Int := x.acc + (if up then 1 else -1)
    if acc.natAbs < encDiv div then s.setEnc e { x with acc := acc } else encStep e (decide (0 < acc)) ms s

/-- One sample of encoder `e` (R698). -/
def encSample (e : Nat) (na nb : Bool) (ms : Nat) (s : State) : State :=
  let x := s.encoder e
  let a := phaseFilter x.lastA x.a na
  let b := phaseFilter x.lastB x.b nb
  let t := s.setEnc e { x with lastA := some na, lastB := some nb, a := a, b := b }
  match x.a, x.b, a, b with
  | some a0, some b0, some a1, some b1 =>
    if a0 != a1 && b0 != b1 then raiseLine 11 (t.setBits pnlFlags (BitVec.ofNat 32 (2 ^ e)))
    else if a0 == a1 && b0 == b1 then t
    else encMove e (decide (quadPos a1 b1 = (quadPos a0 b0 + 1) % 4)) ms t
  | _, _, _, _ => t

/-- ENCODER_SAMPLE. -/
def execEncoderSample (phases : BitVec 8) (s : State) : Host.Outcome State Fault Refusal :=
  if pnlRuns s then
    let ms := pnlNow s
    .next ((List.range 4).foldl (fun t e => encSample e (phases.getLsbD (2 * e)) (phases.getLsbD (2 * e + 1)) ms t) s)
  else .next s

/-! ### Reading the queue (R733) -/

/-- A read of PNL_QPOP0: the oldest entry pops and its time latches into PNL_QPOP1; an empty queue reads 0xFF in KEY. -/
def pnlPop (s : State) : State :=
  match s.pnl.queue with
  | [] => { s with rdata := 0xFF }
  | e :: q =>
    { s with rdata := BitVec.ofNat 32 (e.kind * 256 + e.key), pnl := { s.pnl with queue := q, popMs := e.ms } }

/-- PNL_QPOP_READ. -/
def execPnlQpopRead (s : State) : Host.Outcome State Fault Refusal := .next (pnlPop s)

/-! ### What steward settings and Drowse do to the panel -/

/-- A key that changes from MODE 2 stops repeating (R726): `before` is the state whose MODEs it had. -/
def modesChanged (before s : State) : State :=
  (List.range 136).foldl
    (fun t k => if (s.key k).pressed && decide (keyMode before k = 2) && decide (keyMode s k ≠ 2) then
      t.setKey k (fun q => { q with noRep := true }) else t) s

/-- The panel moves into the always-on domain: up to 8 entries are kept, and LOST of the next kindle counts those beyond (R705,
R732; DEDUCED, log 41). -/
def panelToAlwaysOn (s : State) : State :=
  let excess := s.pnl.queue.length - 8
  { s with pnl := { s.pnl with queue := s.pnl.queue.take 8, lost := min 255 excess } }

/-- The panel at a kindle: a wake keeps the entries of Drowse, and every map, count and flag is 0 (R732). LOST counts what
Drowse lost (R705). -/
def panelKindle (wake : Bool) (p : Pnl) : Pnl :=
  if wake then { queue := p.queue.take 8, lost := p.lost } else {}

/-- A key that keeps the Farelle out of Drowse (R703). -/
def panelBusy (s : State) : Bool :=
  bitOf (s.rd wakeCfg) 1 &&
    (List.range 136).any fun k => (s.key k).pressed && !(s.key k).masked && decide (keyMode s k ≠ 0)

end Sys2Proof.Machine
end

