-- ==== Sys2Proof/Machine/Roving.lean ====
section
/-!
DEFINITION. The roving sequencer (chapter 16): pattern memory and hanks, vectors and timing sets, the sequence program,
analog streams, start, stop and starvation. Times inside the sequencer are sixteenths of a nanosecond, 62.5 ps (R741).
-/

namespace Sys2Proof.Machine

/-- ROV_STAT, ROV_LANECFG, ROV_HADDR (Table 16.5). -/
def rovStat : Nat := 0x400C0000
def rovLanecfg : Nat := 0x400C0020
def rovHaddr : Nat := 0x400C0030

/-- The sequencer changed. -/
def setRov (f : Rov → Rov) (s : State) : State := { s with rov := f s.rov }

/-- The hank of a pattern address (R735). -/
def hankOf (a : Nat) : Nat := a / 131072 % 32
/-- A pattern word (R740, R745). -/
def patWord (s : State) (a : Nat) : Word := BitVec.ofNat 32 (Mem.num s.rov.mem a 4)
/-- A pattern address holds 22 bits. -/
def patAddr (a : Nat) : Nat := a % 4194304
/-- The hank of address `a` is READY. -/
def hankReady (s : State) (a : Nat) : Bool := s.rov.ready.getLsbD (hankOf a)

/-! ### Flags and halts (R753, Table 16.4) -/

/-- A flag sets: sticky, line 13; Steward 3.2 logs it once per setting. -/
def rovFlag (bit : Nat) (s : State) : State :=
  let t := raiseLine 13 (s.setBits rovStat (BitVec.ofNat 32 (2 ^ bit)))
  if bitOf (s.rd rovStat) bit then t else logFault 0xA0 12 [BitVec.ofNat 8 (2 ^ bit)] t

/-- Streams end and each output keeps its last value. -/
def streamsOff (r : Rov) : Rov := { r with stream := [], strmNext := [] }

/-- The sequencer halts with hold (R747, R753). -/
def rovHold (s : State) : State :=
  setRov (fun r => streamsOff { r with running := false, stopping := none, failed := false, startAt := none, play := none, waitr := none }) s

/-- An error flag and the halt it causes. -/
def rovError (bit : Nat) (s : State) : State := rovFlag bit (rovHold s)

/-- An instruction in error: its flag sets, and the sequencer halts at the boundary that ends the cycle in progress (R753), at
once where no vector has begun. -/
def rovFail (bit : Nat) (s : State) : State :=
  if s.rov.lastVec.isNone then rovError bit s else rovFlag bit (setRov (fun r => { r with failed := true }) s)

/-- IDLE of a lane: 0 low, 1 high, else high-Z (Table 16.5). -/
def laneIdle (s : State) (l : Nat) : Nat := s.fld rovLanecfg (4 * l) 2

/-- Lanes and outputs take their idle settings (R753, R760). -/
def rovIdle (s : State) : State :=
  let lv := (List.range 8).foldl (fun m l => if laneIdle s l = 1 then m + 2 ^ l else m) 0
  let oe := (List.range 8).foldl (fun m l => if laneIdle s l < 2 then m + 2 ^ l else m) 0
  let ao := (List.range 2).foldl
    (fun t c => Tab.set (fun _ => none) t c (some (BitVec.ofNat 16 (s.fld (0x400C0A04 + 16 * c) 0 16)))) s.rov.ao
  setRov (fun r => { r with lane := BitVec.ofNat 8 lv, laneOe := BitVec.ofNat 8 oe, ao := ao, edges := [], oeEdges := [] }) s

/-- The sequencer has halted to idle (R753). -/
def rovStopIdle (s : State) : State := rovIdle (rovHold s)

/-- ROV_STOP, HALT and Brace: a running sequencer halts at the next vector boundary (R753); `err`: an error of that boundary
still counts (R757). One that does not run takes its idle settings now. -/
def rovStopAt (err : Bool) (s : State) : State :=
  if s.rov.running then setRov (fun r => { r with stopping := some err }) s else rovStopIdle s

/-- Brace entry (R753, Table 16.4). -/
def rovBrace (s : State) : State := if s.rov.running then rovFlag 6 (rovStopAt true s) else rovStopIdle s

/-! ### READY (R736) -/

/-- The READY set becomes `m`; a hank that becomes READY does so now (R736, R754). -/
def setReady (m : BitVec 32) (s : State) : State :=
  let newly := m &&& ~~~ s.rov.ready
  let at_ := (List.range 32).foldl
    (fun t h => if newly.getLsbD h then Tab.set (fun _ => 0) t h s.reel else t) s.rov.readyAt
  setRov (fun r => { r with ready := m, readyAt := at_ }) s

/-! ### Analog streams (R749, R750) -/

/-- ARATE in 1/16 S/s of channel `c`. -/
def arate (s : State) (c : Nat) : Nat := (s.rd (0x400C0A00 + 16 * c)).toNat
/-- Sixty-fourths of source samples at the ball since the stream's sample 0, at time `t`: sample 0 appears 200 ns and 8
sample periods after the stream's first vector cycle began. -/
def streamPos (s : State) (c start t : Nat) : Int := ((t - start - 3200) * arate s c * 64 / 256000000000 : Nat) - (512 : Int)
/-- The sample of a stream at index `k`. -/
def streamSample (s : State) (x : RStream) (k : Nat) : Nat :=
  Mem.num s.rov.mem (patAddr (x.addr + 2 * (if x.loop then k % x.count else min k (x.count - 1)))) 2
/-- The 16 samples the resampler holds at index `k`: the stream's, and before it the history kept (R758). -/
def streamTaps (s : State) (c : Nat) (x : RStream) (k : Nat) : List Nat :=
  ((Tab.get (fun _ => []) s.rov.aoHist c ++ (List.range (min 16 (k + 1))).map fun i =>
    streamSample s x (k + 1 - min 16 (k + 1) + i)).reverse.take 16).reverse
/-- Channel `c` stops at index `k`, phase `ph`: the output keeps the code driven there. -/
def streamStop (c k ph : Nat) (x : RStream) (s : State) : State :=
  let taps := streamTaps s c x k
  setRov (fun r => { r with stream := Tab.set (fun _ => none) r.stream c none, aoHist := Tab.set (fun _ => []) r.aoHist c taps, ao := Tab.set (fun _ => none) r.ao c (some (Config.resampled taps ph)) }) s

/-- The stream of channel `c`, and the one that waits for the next vector cycle. -/
def streamOf (s : State) (c : Nat) : Option RStream := Tab.get (fun _ => none) s.rov.stream c
def streamNext (s : State) (c : Nat) : Option RStream := Tab.get (fun _ => none) s.rov.strmNext c

/-- Index of the sample that stream `x` of channel `c` needs at time `t`: 8 samples before the ball. -/
def streamNeeds (s : State) (c : Nat) (x : RStream) (t : Nat) : Nat := (streamPos s c x.start t / 64 + 8).toNat
/-- Its pattern address. -/
def streamAddr (s : State) (c : Nat) (x : RStream) (t : Nat) : Nat :=
  let k := streamNeeds s c x t
  patAddr (x.addr + 2 * (if x.loop then k % x.count else min k (x.count - 1)))

/-- The pattern addresses a channel's streams need at time `t`. -/
def streamAddrs (s : State) (c t : Nat) : List Nat :=
  ((streamOf s c).map fun x => streamAddr s c x t).toList ++ ((streamNext s c).map RStream.addr).toList
/-- The hanks of the samples a channel needs now are READY. -/
def streamFed (s : State) (c : Nat) : Bool := (streamAddrs s c s.rov.next).all (hankReady s)

/-- The hanks that a program running, or about to, holds: of its pc, of the vector and the samples its streams have come to, of
its return addresses and open loops (R737). -/
def rovInUse (s : State) : BitVec 32 :=
  let r := s.rov
  if r.running || r.startAt.isSome then
    let play := match r.play with
      | some p => [p.next]
      | none => []
    let strm := (List.range 2).flatMap fun c => streamAddrs s c (s.reel.toNat * 16)
    (r.pc :: play ++ strm ++ r.stack ++ r.loops.map RLoop.body).foldl (fun m a => m ||| BitVec.ofNat 32 (2 ^ hankOf a)) 0
  else 0

/-- The stream that waits on channel `c` takes its place from the vector cycle that begins now; what it replaces leaves its
history in the resampler (R750, R758). -/
def streamBegin (now c : Nat) (s : State) : State :=
  match streamNext s c with
  | none => s
  | some x =>
    let hist := match streamOf s c with
      | some y => streamTaps s c y (streamNeeds s c y now)
      | none => Tab.get (fun _ => []) s.rov.aoHist c
    setRov (fun r => { r with
      stream := Tab.set (fun _ => none) r.stream c (some { x with start := now })
      strmNext := Tab.set (fun _ => none) r.strmNext c none, aoHist := Tab.set (fun _ => []) r.aoHist c hist }) s

/-! ### Fetch (R745, R754) -/

/-- The two words of the instruction at the pc. -/
def rovW0 (s : State) : Word := patWord s s.rov.pc
def rovW1 (s : State) : Word := patWord s (s.rov.pc + 4)
/-- ADDR and B's count. -/
def rovAddr (w0 : Word) : Nat := bitsOf w0 0 22
def rovB (w1 : Word) (w : Nat) : Nat := bitsOf w1 0 w

/-- An instruction is legal: its OP is known, its unused fields are 0, its address is aligned (R745, Table 16.2). -/
def rovLegal (w0 w1 : Word) : Bool :=
  let fl := bitsOf w0 24 2
  let ad := rovAddr w0
  let hi (w : Nat) := decide (w1.toNat / 2 ^ w = 0)
  decide (bitsOf w0 22 2 = 0) && match bitsOf w0 26 6 with
    | 0x01 => decide (fl % 2 = 0) && decide (ad % 4 = 0) && hi 20
    | 0x02 => decide (fl = 0) && decide (ad % 8 = 0) && hi 0
    | 0x03 => decide (fl = 0) && decide (ad = 0) && hi 20
    | 0x04 => decide (fl = 0) && decide (ad = 0) && hi 0
    | 0x05 => decide (fl = 0) && decide (ad % 8 = 0) && hi 0
    | 0x06 => decide (fl = 0) && decide (ad = 0) && hi 0
    | 0x07 => decide (fl = 0) && decide (ad = 0)
    | 0x08 => decide (ad % 2 = 0) && hi 24
    | 0x09 => decide (fl % 2 = 0) && decide (ad = 0) && hi 0
    | 0x0A => decide (fl = 0) && decide (ad = 0) && hi 8
    | 0x0B => decide (fl = 0) && decide (ad = 0) && hi 0
    | _ => false

/-- The sequencer fetches: it runs, no HALT and no error has ended its program, no PLAY or WAITR is in progress, and the pc's
hank is READY. After ROV_STOP it fetches up to the boundary (R757). -/
def rovFetches (s : State) : Bool :=
  s.rov.running && s.rov.stopping != some false && !s.rov.failed && s.rov.play.isNone && s.rov.waitr.isNone && hankReady s s.rov.pc

/-- The instruction at the pc runs, when it is a legal one with opcode `op`; else nothing happens. -/
def rovRun (op : Nat) (f : Word → Word → State → State) (s : State) : State :=
  let w0 := rovW0 s
  let w1 := rovW1 s
  if rovFetches s && rovLegal w0 w1 && decide (bitsOf w0 26 6 = op) then f w0 w1 s else s

/-- The pc moves. -/
def rovGo (a : Nat) (s : State) : State := setRov (fun r => { r with pc := patAddr a }) s
/-- To the next instruction. -/
def rovNext (s : State) : State := rovGo (s.rov.pc + 8) s

/-! ### Instructions (Table 16.2) -/

def rovPlayAct (w0 w1 : Word) (s : State) : State :=
  rovNext (setRov (fun r => { r with play := some { next := rovAddr w0, left := rovB w1 20 + 1, release := bitOf w0 25 } }) s)
/-- ROV_PLAY. -/
def execRovPlay (s : State) : Host.Outcome State Fault Refusal := .next (rovRun 0x01 rovPlayAct s)

/-- ROV_JUMP. -/
def execRovJump (s : State) : Host.Outcome State Fault Refusal := .next (rovRun 0x02 (fun w0 _ t => rovGo (rovAddr w0) t) s)

def rovLoopAct (w1 : Word) (s : State) : State :=
  if s.rov.loops.length < 8 then
    rovNext (setRov (fun r => { r with loops := { body := patAddr (r.pc + 8), left := rovB w1 20 } :: r.loops }) s)
  else rovFail 3 s
/-- ROV_LOOP: a ninth open loop halts with NESTERR (R746). -/
def execRovLoop (s : State) : Host.Outcome State Fault Refusal := .next (rovRun 0x03 (fun _ w1 t => rovLoopAct w1 t) s)

def rovEndlAct (s : State) : State :=
  match s.rov.loops with
  | [] => rovFail 3 s
  | l :: rest =>
    if l.left = 0 then rovNext (setRov (fun r => { r with loops := rest }) s)
    else rovGo l.body (setRov (fun r => { r with loops := { l with left := l.left - 1 } :: rest }) s)
/-- ROV_ENDL: with no open loop NESTERR (R746). -/
def execRovEndl (s : State) : Host.Outcome State Fault Refusal := .next (rovRun 0x04 (fun _ _ t => rovEndlAct t) s)

def rovCallAct (w0 : Word) (s : State) : State :=
  if s.rov.stack.length < 8 then
    rovGo (rovAddr w0) (setRov (fun r => { r with stack := patAddr (r.pc + 8) :: r.stack }) s)
  else rovFail 4 s
/-- ROV_CALL: a full stack halts with STACKERR (R746). -/
def execRovCall (s : State) : Host.Outcome State Fault Refusal := .next (rovRun 0x05 (fun w0 _ t => rovCallAct w0 t) s)

def rovRetAct (s : State) : State :=
  match s.rov.stack with
  | [] => rovFail 4 s
  | a :: rest => rovGo a (setRov (fun r => { r with stack := rest }) s)
/-- ROV_RET: an empty stack halts with STACKERR (R746). -/
def execRovRet (s : State) : Host.Outcome State Fault Refusal := .next (rovRun 0x06 (fun _ _ t => rovRetAct t) s)

/-- How far ahead of the Reel's low word a WAITR value lies. -/
def waitrAhead (s : State) (b : Word) : Nat := (b - s.reel.setWidth 32).toNat
def rovWaitrAct (w1 : Word) (s : State) : State :=
  let t := rovNext s
  if waitrAhead s w1 = 0 ∨ 2 ^ 31 < waitrAhead s w1 then t else setRov (fun r => { r with waitr := some w1 }) t
/-- ROV_WAITR: a tick that lies in the past is taken as passed (R759). -/
def execRovWaitr (s : State) : Host.Outcome State Fault Refusal := .next (rovRun 0x07 (fun _ w1 t => rovWaitrAct w1 t) s)

/-- ROV_WAITR_EXPIRY: the Reel's low word reaches the value, and the program continues. -/
def execRovWaitrExpiry (s : State) : Host.Outcome State Fault Refusal :=
  match s.rov.waitr with
  | some b =>
    if s.rov.running then
      .next (setRov (fun r => { r with waitr := none }) (reachTick (s.reel + BitVec.ofNat 64 (waitrAhead s b)) s))
    else .next s
  | none => .next s

/-- The channel field. -/
def rovChan (w0 : Word) : Nat := bitsOf w0 25 1
def rovAstartAct (w0 w1 : Word) (s : State) : State :=
  let x : RStream := { addr := rovAddr w0, count := rovB w1 24 + 1, loop := bitOf w0 24 }
  rovNext (setRov (fun r => { r with strmNext := Tab.set (fun _ => none) r.strmNext (rovChan w0) (some x) }) s)
/-- ROV_ASTART: the stream begins with the next vector cycle, and replaces one already running on the channel there (R750, R758). -/
def execRovAstart (s : State) : Host.Outcome State Fault Refusal := .next (rovRun 0x08 rovAstartAct s)

/-- The stream of channel `c` stops where it stands; the output keeps its last value. -/
def streamHalt (c : Nat) (s : State) : State :=
  let s1 := setRov (fun r => { r with strmNext := Tab.set (fun _ => none) r.strmNext c none }) s
  match streamOf s c with
  | none => s1
  | some x =>
    let p := streamPos s c x.start (s.reel.toNat * 16)
    if p < 0 then setRov (fun r => { r with stream := Tab.set (fun _ => none) r.stream c none }) s1
    else streamStop c (p / 64).toNat (p % 64).toNat x s1
/-- ROV_ASTOP. -/
def execRovAstop (s : State) : Host.Outcome State Fault Refusal :=
  .next (rovRun 0x09 (fun w0 _ t => rovNext (streamHalt (rovChan w0) t)) s)

/-- ANALOG_STREAM_END: a stream with LOOP 0 has played its last sample; the channel holds its last output (R750). -/
def execAnalogStreamEnd (c : Fin 2) (s : State) : Host.Outcome State Fault Refusal :=
  match streamOf s c.val with
  | some x =>
    if s.rov.running && !x.loop then .next (streamStop c.val (x.count - 1) 0 x s) else .next s
  | none => .next s

/-- ROV_EVT: one event on task input B (R373). -/
def execRovEvt (s : State) : Host.Outcome State Fault Refusal :=
  .next (rovRun 0x0A (fun _ w1 t => rovNext (tinEvents (rovB w1 8) 1 t)) s)

/-- ROV_HALT (R753). -/
def execRovHalt (s : State) : Host.Outcome State Fault Refusal := .next (rovRun 0x0B (fun _ _ t => rovStopAt false t) s)

/-- ROV_BADOP: an unknown OP or a non-zero unused field halts the sequencer (R745). -/
def execRovBadop (s : State) : Host.Outcome State Fault Refusal :=
  if rovFetches s && !rovLegal (rovW0 s) (rovW1 s) then .next (rovFail 1 s) else .next s

/-! ### Vector cycles (R740 to R748) -/

/-- PERIOD, FMT, E1, E2 of a timing set's lane. -/
def tsBase (ts : Nat) : Nat := 0x400C0100 + 0x80 * ts
def tsPeriod (s : State) (ts : Nat) : Nat := s.fld (tsBase ts) 0 24
def tsFmt (s : State) (ts l : Nat) : Nat := s.fld (tsBase ts + 8 + 8 * l) 30 2
def tsE1 (s : State) (ts l : Nat) : Nat := s.fld (tsBase ts + 8 + 8 * l) 0 24
def tsE2 (s : State) (ts l : Nat) : Nat := s.fld (tsBase ts + 12 + 8 * l) 0 24

/-- The edges of lane `l` in a cycle of vector `v` (R742). -/
def laneEdges (s : State) (v : Word) (l : Nat) : List REdge :=
  let ts := bitsOf v 28 4
  let d : REdge := { lane := l, at' := tsE1 s ts l, level := bitOf v l }
  match tsFmt s ts l with
  | 0 => [d]
  | 1 => [d, { lane := l, at' := tsE2 s ts l, level := false }]
  | 2 => [d, { lane := l, at' := tsE2 s ts l, level := true }]
  | _ => []

/-- The lane levels after some edges. -/
def lanesAfter (es : List REdge) (lv : BitVec 8) : BitVec 8 :=
  es.foldl (fun m e => if e.level then m ||| BitVec.ofNat 8 (2 ^ e.lane) else m &&& ~~~ BitVec.ofNat 8 (2 ^ e.lane)) lv

/-- Bits of a vector that must be 0 (R740). -/
def badVec (v : Word) : Bool := decide (v &&& 0x0F00FF00 ≠ 0)

/-- The lanes whose drive vector `v` changes, each at E1 of its lane (R744). -/
def driveEdges (s : State) (v : Word) : List REdge :=
  ((List.range 8).filter fun l => s.rov.laneOe.getLsbD l != bitOf v (16 + l)).map fun l =>
    { lane := l, at' := tsE1 s (bitsOf v 28 4) l, level := bitOf v (16 + l) }

/-- A cycle of vector `v` begins now: its edges, its OE, the streams that wait for it (R741, R742, R744, R750). -/
def vecCycle (v : Word) (now : Nat) (s : State) : State :=
  let es := (List.range 8).flatMap (laneEdges s v)
  let oe := BitVec.ofNat 8 (bitsOf v 16 8)
  let t := setRov (fun r => { r with edges := es, oeEdges := driveEdges s v, lane := lanesAfter es r.lane, laneOe := oe, lastVec := some v, vcount := r.vcount + 1, began := now, next := now + tsPeriod s (bitsOf v 28 4) }) s
  streamBegin now 1 (streamBegin now 0 t)

/-- The last vector is held for one more cycle of its timing set (R747). -/
def holdCycle (v : Word) (now : Nat) (s : State) : State :=
  setRov (fun r => { r with edges := [], oeEdges := [], began := now, next := now + tsPeriod s (bitsOf v 28 4) }) s

/-- The PLAY after its vector at `p.next` has begun; with RELEASE the hank the stream leaves becomes inactive (R745). -/
def playOn (p : RPlay) (s : State) : State :=
  let a := patAddr (p.next + 4)
  let rdy := if p.release && decide (hankOf a ≠ hankOf p.next) then s.rov.ready &&& ~~~ BitVec.ofNat 32 (2 ^ hankOf p.next) else s.rov.ready
  setRov (fun r => { r with ready := rdy, play := if p.left ≤ 1 then none else some { p with next := a, left := p.left - 1 } }) s

/-- READY of the hank of `a` has come in time for the boundary: before the cycle that ends, or 200 ns before its end (R754). -/
def readyInTime (s : State) (a now : Nat) : Bool :=
  let r := (Tab.get (fun _ => 0) s.rov.readyAt (hankOf a)).toNat * 16
  hankReady s a && (s.rov.lastVec.isNone || decide (r ≤ s.rov.began) || decide (r + 3200 ≤ now))

/-- At a cycle boundary (R740, R748, R754): the next vector begins; a malformed one halts; an item from a hank that is not
READY starves; with no vector ready, and in WAITR, the last one is held. -/
def boundary (now : Nat) (s : State) : State :=
  match s.rov.play with
  | some p =>
    if !readyInTime s p.next now || !streamFed s 0 || !streamFed s 1 then rovError 0 s
    else
      let v := patWord s p.next
      if badVec v then rovError 2 s else playOn p (vecCycle v now s)
  | none =>
    match s.rov.waitr, s.rov.lastVec with
    | some _, some v => holdCycle v now s
    | some _, none => s
    | none, last =>
      if !readyInTime s s.rov.pc now then rovError 0 s
      else match last with
        | some v => holdCycle v now (setRov (fun r => { r with gaps := r.gaps + 1 }) s)
        | none => s

/-- The boundary of a sequencer that may be about to halt: an error wins over ROV_STOP, and holds (R757). -/
def boundaryOrHalt (now : Nat) (s : State) : State :=
  if s.rov.failed then rovHold s
  else match s.rov.stopping with
  | none => boundary now s
  | some false => rovStopIdle s
  | some true => let t := boundary now s; if t.rov.running then rovStopIdle s else t

/-- VECTOR_CYCLE. The boundary comes when the cycle before it ends (R741). -/
def execVectorCycle (s : State) : Host.Outcome State Fault Refusal :=
  if s.rov.running then
    let t := reachTick (BitVec.ofNat 64 (s.rov.next / 16)) s
    .next (boundaryOrHalt (max s.rov.next (s.reel.toNat * 16)) t)
  else .next s

/-! ### Start and the steward's port (R739, R752) -/

/-- A start: it clears STARVED, the error flags and ROV_VCOUNT (R752). -/
def rovBegin (entry : Nat) (s : State) : State :=
  let t := s.setFld rovStat 0 7 0
  setRov (fun r => { streamsOff r with running := true, failed := false, startAt := none, pc := patAddr entry, loops := [], stack := [], play := none, waitr := none, lastVec := none, vcount := 0, began := s.reel.toNat * 16, next := s.reel.toNat * 16 }) t

/-- ROV_START_TICK: the start tick arrives, and the sequencer begins fetching (R752). -/
def execRovStartTick (s : State) : Host.Outcome State Fault Refusal :=
  match s.rov.startAt with
  | some t => .next (rovBegin s.rov.pc (reachTick t s))
  | none => .next s

/-- One access of ROV_HDATA at the address ROV_HADDR, which then advances by 4; a write into a READY hank is ignored and
sets WERR (R739). -/
def hdataAccess (w : Option Word) (s : State) : State :=
  let a := s.fld rovHaddr 0 22 / 4 * 4
  let t := s.setFld rovHaddr 0 22 (s.fld rovHaddr 0 22 + 4)
  match w with
  | none => { t with rdata := patWord s a }
  | some v => if hankReady s a then rovFlag 5 t else setRov (fun r => { r with mem := Mem.write r.mem a (leBytes 4 v.toNat) }) t

/-- ROV_HDATA_ACCESS. -/
def execRovHdataAccess (w : Option Word) (s : State) : Host.Outcome State Fault Refusal := .next (hdataAccess w s)

/-- WAITING in ROV_STAT: a start tick, a WAITR, or a hank that is not READY is waited for. -/
def rovWaiting (s : State) : Bool :=
  s.rov.startAt.isSome || s.rov.running && (s.rov.waitr.isSome || match s.rov.play with
    | some p => !hankReady s p.next
    | none => !hankReady s s.rov.pc)

end Sys2Proof.Machine
end

