-- ==== Sys2Proof/Machine/SkeinOps.lean ====
section
/-!
DEFINITION. The skein's operations (chapter 14): headers, routes, credits and the bubble rule, injection and transit,
delivery, the master's bookkeeping.
-/

namespace Sys2Proof.Machine

/-- Free credits downstream: 3 per class, 1 management credit per class per link (R658, R660). -/
def credits (k : Link) (tc : Nat) : Nat := Tab.get (fun _ => 3) k.cred tc
def mcredits (k : Link) (tc : Nat) : Nat := Tab.get (fun _ => 1) k.mcred tc

/-! ### The header (Table 14.1) -/

def hKind (h : List Byte) : Nat := u8 h 0
def hTc (h : List Byte) : Nat := u8 h 1 % 8
def hColour (h : List Byte) : Nat := u8 h 1 / 8 % 4
def hHops (h : List Byte) : Nat := u16 h 2
def hAll (h : List Byte) : Bool := decide (128 ≤ u8 h 4)
def hDev (h : List Byte) : Nat := u16 h 4 % 1024
def hBobbin (h : List Byte) : Nat := u16 h 6
def hSrc (h : List Byte) : Nat := u16 h 8 % 1024
/-- HCRC is right (R651). -/
def hGood (h : List Byte) : Bool := h.length == 16 && u16 h 14 == (crc16 (h.take 14)).toNat
/-- The header with HOPS replaced and its check made anew. -/
def hSetHops (h : List Byte) (n : Nat) : List Byte :=
  let b := overlay (h.take 14) 2 (beBytes 2 n)
  b ++ beBytes 2 (crc16 b).toNat
/-- A header. -/
def mkHdr (kind tc colour hops dst src len seq : Nat) : List Byte :=
  let b := [BitVec.ofNat 8 kind, BitVec.ofNat 8 (tc + 8 * colour)] ++ beBytes 2 hops ++ beBytes 4 dst ++ beBytes 2 src
    ++ beBytes 2 len ++ beBytes 2 seq
  b ++ beBytes 2 (crc16 b).toNat

/-! ### Routes (R654, R655) -/

/-- The remote table entry of a bobbin or of a multicast group (R654). -/
def remoteEntry (s : State) (g : Nat) : Word := s.rd (0x40098000 + 4 * g)
/-- Target device and bobbin of bobbin `b`'s frames; none when the entry is not VALID or names this device. -/
def remoteOf (s : State) (b : Nat) : Option (Nat × Nat) :=
  let e := remoteEntry s (bobGroup s b)
  if bitOf e 31 && bitsOf e 16 10 != s.skn.dev.toNat then some (bitsOf e 16 10, bitsOf e 0 16) else none

/-- Skein port that serves the frames bobbin `b` sends to preferred port `p`: the other one while the target can be
reached only that way (R655). -/
def skeinPortOf (s : State) (b p : Nat) : Nat :=
  match remoteOf s b with
  | none => p
  | some (d, _) => if !reachable s (p - 12) d && reachable s (25 - p - 12) d then 25 - p else p

/-! ### Sending (R654, R658 to R660) -/

/-- A frame leaves by link `l` on a credit of its class, or a management credit. -/
def sendOn (l : Nat) (hdr payload : List Byte) (transit : Bool) (s : State) : State :=
  let tc := hTc hdr
  let s1 := s.setLink l fun k => { k with
    txFrm := k.txFrm + 1
    cred := if hKind hdr = 0 then Tab.set (fun _ => 3) k.cred tc (credits k tc - 1) else k.cred
    mcred := if hKind hdr = 0 then k.mcred else Tab.set (fun _ => 1) k.mcred tc (mcredits k tc - 1)
    lastTransit := if hKind hdr = 0 then Tab.set (fun _ => false) k.lastTransit tc transit else k.lastTransit }
  let s2 := sknSend (.frame l hdr payload) s1
  if hKind hdr = 2 ∨ hKind hdr = 3 ∨ hKind hdr = 4 then ledgerSkein l (hKind hdr) s.reel s2 else s2

/-- The egress of link `l` can take a frame of class `tc` now: nothing is on it, or a lower-class frame that TC7 preempts
(R661). -/
def wireFree (s : State) (l tc : Nat) : Bool :=
  match (s.egress (12 + l)).cur with
  | none => true
  | some id => tc == 7 && (s.frame? id).all fun f => f.tc != 7

/-- This device may inject in class `tc` on link `l`: two free credits, and not twice in a row before a waiting transit
frame of the class (R659). -/
def injectMay (s : State) (l tc : Nat) : Bool :=
  let k := s.linkOf l
  dataUp s l && decide (2 ≤ credits k tc) &&
    (!(k.transit.any fun x => hKind x.1 == 0 && hTc x.1 == tc) || Tab.get (fun _ => false) k.lastTransit tc)

/-- Sources of skein port `p` in class `tc` that may start: the bobbins it serves and its copy buffer, each with a head frame
that has no valid entry, and is discarded, or whose target can be reached that way and that may be injected (R465, R654,
R655). -/
def skeinReady (s : State) (p tc : Nat) : List (Nat × Nat) :=
  let goes (b : Nat) : Bool := match remoteOf s b with
    | none => true
    | some (d, _) => injectMay s (p - 12) tc && reachable s (p - 12) d
  let bs := ascending ((s.bob.queue.map QEntry.bobbin).eraseDups.filter fun b =>
    (bobEgress s b == 12 || bobEgress s b == 13) && !bobMcast s b && bobTc s b == tc && skeinPortOf s b (bobEgress s b) == p)
  let heads := bs.filterMap fun b => do
    let e ← headOf s b
    let f ← s.frame? e.frame
    if f.eligible && !needsTrain s e && goes b then some (b, f.id) else none
  let copy := match (s.egress p).copyBuf.head?.bind s.frame? with
    | some f => if f.tc == tc && goes f.bobbin then [(copySource, f.id)] else []
    | none => []
  heads ++ copy

/-- What skein port `p` starts in class `tc`, with its gate open. -/
def skeinPick (s : State) (p tc : Nat) : Option (Nat × Nat) :=
  if gateOpen s p tc then roundRobin (Tab.get (fun _ => copySource) (s.egress p).rrBob tc) (skeinReady s p tc) else none

/-- The choice of a skein egress: the higher class first when it is free; a TC7 frame over a lower-class one (R661). -/
def skeinNext (s : State) (p : Nat) : Option (Nat × Nat) :=
  if (s.egress p).cur.isNone then ((List.range 8).reverse.filterMap fun tc => skeinPick s p tc).head?
  else if wireFree s (p - 12) 7 then skeinPick s p 7 else none

/-- A transit frame may go: the egress can take it, one credit of its class or a management credit is free, and it is not
the second of its class in a row before an injection that is ready (R659 to R661). -/
def transitMay (s : State) (l : Nat) (hdr : List Byte) : Bool :=
  let tc := hTc hdr
  canSend s l (hKind hdr) && wireFree s l tc &&
    if hKind hdr = 0 then decide (1 ≤ credits (s.linkOf l) tc)
      && !(Tab.get (fun _ => false) (s.linkOf l).lastTransit tc && ((skeinPick s (12 + l) tc).any fun c => (remoteOf s c.1).isSome))
    else decide (1 ≤ mcredits (s.linkOf l) tc)

/-- A transit frame goes out; a lower-class frame it has preempted resumes after it (R661). -/
def transitGo (l : Nat) (hdr payload : List Byte) (s : State) : State :=
  let t := sendOn l hdr payload true s
  if (s.egress (12 + l)).cur.isSome then sknSend (.resume l) t else t

/-- A frame arrives for forwarding by link `l`: it goes at once when it may, or waits in the transit store. -/
def forward (l : Nat) (hdr payload : List Byte) (s : State) : State :=
  if transitMay s l hdr && ((s.linkOf l).transit.all fun x => hTc x.1 != hTc hdr) then transitGo l hdr payload s
  else s.setLink l fun k => { k with transit := k.transit ++ [(hdr, payload)] }

/-- The first waiting transit frame of link `l` that may go now is sent, its credit returned to its sender. -/
def drainTransit (l : Nat) (s : State) : State :=
  match (s.linkOf l).transit.find? fun x => transitMay s l x.1 with
  | none => s
  | some x =>
    let s1 := s.setLink l fun k => { k with transit := k.transit.erase x }
    sknSend (.credit (1 - l) (hKind x.1 != 0) (hTc x.1)) (transitGo l x.1 x.2 s1)

/-- The frame chosen is addressed to its remote entry and injected, a lower-class frame on the wire paused for it (R661); with no
valid entry it is discarded and counted (R654, R656). -/
def inject (p src id : Nat) (s : State) : State :=
  let l := p - 12
  let f := (s.frame? id).getD { id := id, bytes := [], ingress := 0 }
  let b := f.bobbin
  match remoteOf s b with
  | none =>
    let s1 := s.setLink l fun k => { k with noRoute := k.noRoute + 1 }
    if src = copySource then reapFrame id (s1.setEgress p fun g => { g with copyBuf := g.copyBuf.tail }) else dropEntry b id s1
  | some (d, rb) =>
    let hops := (hopsTo s l d).getD 0
    let bytes := if f.rewritten then reFcs f.bytes else f.bytes
    let h := mkHdr 0 f.tc f.colour hops (d * 65536 + rb) s.skn.dev.toNat bytes.length s.skn.txSeq
    let s1 := (cellsRead id s).setEgress p fun g => { g with
      cur := some id, stomped := false, paused := g.cur.map fun i => (i, g.stomped)
      rrBob := Tab.set (fun _ => copySource) g.rrBob f.tc src }
    let s2 := { s1 with skn := { s1.skn with txSeq := (s1.skn.txSeq + 1) % 65536 } }
    sendOn l h bytes false s2

/-- A skein egress whose frame has ended goes on with the frame it had preempted, after a RESUME block (R661), or with a waiting
transit frame (R659). -/
def skeinEnded (p : Nat) (s : State) : State :=
  match (s.egress p).paused with
  | some x => sknSend (.resume (p - 12)) (s.setEgress p fun g => { g with cur := some x.1, stomped := x.2, paused := none })
  | none => drainTransit (p - 12) s

/-! ### Topology (R669) -/

/-- The ring state a TOPOLOGY frame carries. -/
def topologyNow (s : State) : Topology :=
  { closed := s.skn.closed, master := s.skn.masterId, members := s.skn.members, broken := s.skn.broken }

/-- Hop counts to the master, from the members and broken links held (R669). -/
def setHops (s : State) : State :=
  { s with skn := { s.skn with
    hopsE := (hopsTo s 0 s.skn.masterId.toNat).getD 0, hopsW := (hopsTo s 1 s.skn.masterId.toNat).getD 0 } }

/-- SKN_TOPOCNT. -/
def topoCnt : Nat := 0x40090008

/-- The master sends its TOPOLOGY in both directions and counts the change (R669). -/
def sendTopology (s : State) : State :=
  let s1 := (setHops s).count topoCnt 1
  sknTxOn 1 8 (.topology 1 (topologyNow s1)) (sknTxOn 0 8 (.topology 0 (topologyNow s1)) s1)

/-- The device becomes master (R664, R665). -/
def becomeMaster (s : State) : State :=
  { s with skn := { s.skn with
    master := true, standby := false, joined := true, masterSerial := some Config.serial
    assigned := true, dev := if s.skn.assigned then s.skn.dev else s.sys.straps.hint
    masterId := if s.skn.assigned then s.skn.dev else s.sys.straps.hint
    members := if s.skn.members.isEmpty then [{ dev := s.sys.straps.hint, mode := BitVec.ofNat 3 (modeNum s.sys.mode), pos := 0 }]
      else s.skn.members
    known := if s.skn.known.any fun x => x.1 == Config.serial then s.skn.known
      else s.skn.known ++ [(Config.serial, if s.skn.assigned then s.skn.dev else s.sys.straps.hint)] } }

/-- The device ID a JOIN from position `pos` gets (R667): the one its serial number had; its hint when no other holds it; else
the highest unused. -/
def assignId (s : State) (pos : Nat) (j : Join) : BitVec 10 :=
  match s.skn.known.find? fun x => x.1 == j.serial with
  | some x => x.2
  | none =>
    let unused (d : BitVec 10) : Bool := (s.skn.known.all fun x => x.2 != d) && s.skn.members.all fun m => m.dev != d || m.pos == pos
    if unused j.hint then j.hint
    else (((List.range 1024).reverse.map fun d => BitVec.ofNat 10 d).find? unused).getD 0

/-- A path closes (R670): the device takes no further part on that side. -/
def closePath (l : Nat) (s : State) : State :=
  s.setLink l fun k => { k with pathClosed := true, locked := false, st := .monitoring, kfOpen := false, fellBack := false, cred := [], mcred := [] }

/-- A link of the ring is no longer up: the ends report it to the master the other way; the master's topology follows
(R674). In Kindle-fault the side closes again (R108). -/
def linkLost (l : Nat) (s : State) : State :=
  let s1 := (raiseLine 10 s).setLink l fun k => { k with locked := false, st := .training, cred := [], mcred := [], changed := s.reel }
  if s.sys.kfault then closePath l s
  else if s.skn.master then
    let me := (posOf s s.skn.dev.toNat).getD 0
    let n := max 1 (ringSize s)
    let broken := if l = 0 then me else (me + n - 1) % n
    sendTopology { s1 with skn := { s1.skn with closed := false, broken := (s1.skn.broken.erase broken) ++ [broken] } }
  else sknTxOn (1 - l) 1 (.linkDown l) s1

end Sys2Proof.Machine
end

