-- ==== Sys2Proof/Machine/LedgerOps.lean ====
section
/-!
DEFINITION. What the ledger area reads as (R643, Table 13.6): the ledger rings, the ply histories, the Reel.
-/

namespace Sys2Proof.Machine

/-- The 16 bytes of an entry of a pin or a skein ring. -/
def pinEntryBytes (e : Ledger) : List Byte :=
  leBytes 8 e.tick.toNat ++ leBytes 2 e.seq ++ [BitVec.ofNat 8 e.frac, BitVec.ofNat 8 e.tag, 0, 0, 0, 0]

/-- The 16 bytes of an entry of a transmit ring. -/
def txEntryBytes (e : Ledger) : List Byte :=
  leBytes 8 e.tick.toNat ++ leBytes 2 e.bobbin ++ leBytes 2 e.tag ++ leBytes 2 e.seq ++ [BitVec.ofNat 8 e.frac, 0]

/-- A byte of a ring at offset `o` of it: WCOUNT, MISSED, the entries from 0x100. -/
def ringByte (f : Ledger → List Byte) (r : LRing) (missed : Bool) (o : Nat) : Byte :=
  if o < 4 then byteOf r.wcount o
  else if o < 8 then (if missed then byteOf r.missed (o - 4) else 0)
  else if o < 0x100 then 0
  else match Tab.get (fun _ => none) r.e ((o - 0x100) / 16) with
    | some e => (f e).getD (o % 16) 0
    | none => 0

/-- The 32 bytes of a history entry. -/
def histBytes (e : Hist) : List Byte :=
  leBytes 8 e.t.toNat ++ leBytes 4 e.sec ++ leBytes 2 (e.sec / 2 ^ 32) ++ leBytes 2 0 ++ leBytes 4 e.ns
    ++ leBytes 4 e.frac ++ leBytes 8 e.incr

/-- A byte of the history of a ply: HCOUNT, then the entry numbered w at place w mod 8. -/
def histByte (p : Ply) (o : Nat) : Byte :=
  if o < 4 then byteOf p.hcount o
  else if o < 0x100 then 0
  else
    let j := (o - 0x100) / 32
    let first := p.hcount - p.hist.length
    match p.hist.zipIdx.find? fun e => (first + e.2) % 8 == j with
    | some e => (histBytes e.1).getD (o % 32) 0
    | none => 0

/-- A byte of the ledger area. -/
def ledgerByte (s : State) (o : Nat) : Byte :=
  let ring (t : Tab LRing) (i : Nat) : LRing := Tab.get (fun _ => {}) t i
  if o < 0x1800 then ringByte pinEntryBytes (ring s.ply.pinRing (o / 0x400)) true (o % 0x400)
  else if o < 0x3000 then ringByte txEntryBytes (ring s.ply.txRing ((o - 0x1800) / 0x200)) false (o % 0x200)
  else if o < 0x4000 then histByte (s.plyOf ((o - 0x3000) / 0x200)) (o % 0x200)
  else if o < 0x4800 then ringByte pinEntryBytes (ring s.ply.sknRing ((o - 0x4000) / 0x400)) false (o % 0x400)
  else if o < 0x4808 then byteOf s.reel.toNat (o - 0x4800)
  else 0

/-- `n` bytes of the ledger area, little-endian. -/
def ledgerNum (s : State) (o n : Nat) : Nat := ofLE ((List.range n).map fun i => ledgerByte s (o + i))

end Sys2Proof.Machine
end

