-- ==== Sys2Proof/Machine/Operands.lean ====
section
/-!
DEFINITION. The operand forms of Yukin (chapter 04): general registers, sign extension, the arithmetic of Tables 4.4 and
4.5, the segment check of R214, the element of a long instruction.
-/

namespace Sys2Proof.Machine

/-! ### General registers (R210) -/

/-- g`r`; g0 reads as 0. -/
def gGet (g : Tab Word) (r : Nat) : Word := if r = 0 then 0 else Tab.get (fun _ => 0) g r
/-- g`r` written; a write of g0 is discarded. -/
def gSet (g : Tab Word) (r : Nat) (v : Word) : Tab Word := if r = 0 then g else Tab.set (fun _ => 0) g r v

/-! ### Immediates (R215, R216, Table 4.5) -/

def sext12 (i : BitVec 12) : Word := i.signExtend 32
def sext16 (i : BitVec 16) : Word := i.signExtend 32
def zext16 (i : BitVec 16) : Word := i.setWidth 32
/-- The displacement of a branch or a jump, in bytes. -/
def disp16 (d : BitVec 16) : Word := (d.signExtend 32) <<< 2
def disp26 (d : BitVec 26) : Word := (d.signExtend 32) <<< 2

/-! ### Arithmetic (Table 4.4, R220) -/

/-- A Bool as a result register's value. -/
def boolWord (b : Bool) : Word := if b then 1 else 0

/-- Shift amount: the low five bits. -/
def shamt (b : Word) : Nat := b.toNat % 32

/-- High 32 bits of the signed product. -/
def mulhS (a b : Word) : Word := BitVec.ofInt 32 (a.toInt * b.toInt / 2 ^ 32)
/-- High 32 bits of the unsigned product. -/
def mulhU (a b : Word) : Word := BitVec.ofNat 32 (a.toNat * b.toNat / 2 ^ 32)

/-- Signed quotient, truncated toward zero; all ones by zero (R220). -/
def divS (a b : Word) : Word := if b = 0 then 0xFFFFFFFF else BitVec.ofInt 32 (a.toInt.tdiv b.toInt)
/-- Unsigned quotient; all ones by zero (R220). -/
def divU (a b : Word) : Word := if b = 0 then 0xFFFFFFFF else BitVec.ofNat 32 (a.toNat / b.toNat)
/-- Signed remainder, the sign of the dividend; the dividend by zero (R220). -/
def remS (a b : Word) : Word := if b = 0 then a else BitVec.ofInt 32 (a.toInt.tmod b.toInt)
/-- Unsigned remainder; the dividend by zero (R220). -/
def remU (a b : Word) : Word := if b = 0 then a else BitVec.ofNat 32 (a.toNat % b.toNat)

/-- Number of leading zero bits. -/
def clzW (a : Word) : Word := BitVec.ofNat 32 (((List.range 32).reverse.takeWhile fun i => !bitOf a i).length)

/-- Bit-field extract of `w` bits at `pos` (R221). -/
def bfxW (a : Word) (pos w : Nat) (sg : Bool) : Word :=
  let f := (a >>> pos) &&& fieldMask 0 w
  if sg && bitOf f (w - 1) then f ||| ~~~ fieldMask 0 w else f

/-- Bit-field insert (R221). -/
def bfiW (d a : Word) (pos w : Nat) : Word := (d &&& ~~~ (fieldMask 0 w <<< pos)) ||| ((a &&& fieldMask 0 w) <<< pos)

/-- Code of lane `i` of a permute. -/
def permCode (sel : BitVec 16) (i : Nat) : Nat := sel.toNat / 16 ^ i % 16

/-- One lane of a permute (R221). -/
def permLane (a : Word) (c : Nat) : Nat :=
  let b := bitsOf a (8 * (c % 4)) 8
  if c / 4 = 0 then b else if c / 4 = 1 then (if 128 ≤ b then 255 else 0) else 0

/-- Byte permute (R221). -/
def permW (a : Word) (sel : BitVec 16) : Word :=
  BitVec.ofNat 32 ((List.range 4).foldl (fun x i => x + permLane a (permCode sel i) * 256 ^ i) 0)

/-- A permute with any lane mode 11 is illegal (R222). -/
def permBad (sel : BitVec 16) : Bool := (List.range 4).any fun i => decide (permCode sel i / 4 = 3)

/-- A CRC register after `n` bytes of a word, least significant byte first (R227). -/
def crcFold (c : Word) (v n : Nat) : Word := crc32Fold c (leBytes n v)

/-! ### The segment check (R214) -/

/-- Kinds of access. -/
inductive Access where
  | fetch
  | read
  | write
  deriving DecidableEq, Repr

/-- Cause codes (Table 4.15). -/
def cIllegal : Nat := 0x01
def cPriv : Nat := 0x02
def cSegPriv : Nat := 0x03
def cSegInvalid : Nat := 0x04
def cSegRights : Nat := 0x05
def cAlign : Nat := 0x06
def cSegLimit : Nat := 0x07
def cBus : Nat := 0x08
def cEcc : Nat := 0x09
def cBudget : Nat := 0x0A
def cSvc : Nat := 0x10
def cBrk : Nat := 0x11
def cContract : Nat := 0x20

/-- The right a kind of access needs (Table 4.2). -/
def rightBit : Access → Nat
  | .read => 1
  | .write => 2
  | .fetch => 3

/-- The check of R214 up to the mapping of the physical address: the first fault found, in its order. -/
def segFault (ext : Bool) (sg : Nat) (x : Seg) (off size : Nat) (k : Access) : Option Nat :=
  if ext && (decide (sg < 8) || !bitOf x.rights 4) then some cSegPriv
  else if !bitOf x.rights 0 then some cSegInvalid
  else if !bitOf x.rights (rightBit k) then some cSegRights
  else if off % size ≠ 0 then some cAlign
  else if x.limit.toNat < off + size then some cSegLimit
  else if 2 ^ 32 ≤ x.base.toNat + off then some cSegLimit
  else none

/-! ### Loaded values (Table 4.6) -/

/-- A loaded value of `size` bytes, sign- or zero-extended. -/
def extendLoad (v size : Nat) (signed : Bool) : Word :=
  if signed && decide (2 ^ (8 * size - 1) ≤ v) then BitVec.ofInt 32 ((v : Int) - 2 ^ (8 * size)) else BitVec.ofNat 32 v

/-! ### Elements of long instructions (R225) -/

/-- Bytes of the next element: 4 when the offsets it uses are word-aligned and 4 or more remain, else 1. -/
def elemSize (offs : List Word) (g3 : Word) : Nat :=
  if (offs.all fun o => decide (o.toNat % 4 = 0)) && decide (4 ≤ g3.toNat) then 4 else 1

end Sys2Proof.Machine
end

