-- ==== Sys2Proof/Machine/WhorlOps.lean ====
section
/-!
DEFINITION. The whorl's operations (chapter 07): lea boundaries on their plies, the slot's segments and what its loads and
stores reach, staged entries, commit, discard and release, HOLD and safe outputs.
-/

namespace Sys2Proof.Machine

/-! ### Lea boundaries (R362 to R364) -/

/-- The ply nanoseconds at tick `r` by history entry `e`, not wrapped at the ply's 48 bits of seconds. -/
def histNs (e : Hist) (r : Nat) : Nat := (plyTotal e.sec e.ns e.frac + e.incr * (r - e.t.toNat)) / 2 ^ 32

/-- The first tick at or after `t0` at which the ply reaches a value that is PHASE modulo PERIOD (R362), going through its
history entries in order; `prev` is the entry before. A step starts a count of its own: values it passes over are not
reached. -/
def boundaryFrom (period phase t0 : Nat) : Option Hist → List Hist → Option Nat
  | _, [] => none
  | prev, e :: rest =>
    let from' := max t0 e.t.toNat
    let start := histNs e from'
    let lo :=
      if e.t.toNat < from' then histNs e (from' - 1) + 1
      else match prev with
        | some p => if histNs p from' = start && decide (p.t.toNat < from') then histNs p (from' - 1) + 1 else start
        | none => start
    let v := lo + (phase % period + period - lo % period) % period
    let r := max from' (e.t.toNat + ceilDiv (v * 2 ^ 32 - plyTotal e.sec e.ns e.frac) e.incr)
    match rest with
    | [] => some r
    | n :: _ => if r < n.t.toNat then some r else boundaryFrom period phase t0 (some e) rest

/-- The ply has been stepped after tick `b`: an entry that does not continue the one before it. -/
def steppedSince (b : Nat) : List Hist → Bool
  | e :: f :: rest =>
    (decide (b < f.t.toNat) && decide (plyTotal f.sec f.ns f.frac ≠ plyTotal e.sec e.ns e.frac + e.incr * (f.t - e.t).toNat))
      || steppedSince b (f :: rest)
  | _ => false

/-- The strand's first lea boundary to come that lies at or after tick `t0`. A strand that has just started takes the first
after its start (R101); a running one the next value of its ply, or, when the ply has been stepped, the first at or after
the end of the present lea (R364). -/
def boundaryAfter (s : State) (k t0 : Nat) : Option Nat :=
  let st := s.strand k
  match st.lea with
  | none => none
  | some l =>
    if l.period = 0 then none
    else
      let h := (s.plyOf l.ply).hist
      let b := st.boundary.toNat
      boundaryFrom l.period l.phase (max t0 (if st.on && steppedSince b h then b + l.period else b + 1)) none h

/-- The strand's next lea boundary. -/
def nextBoundary (s : State) (k : Nat) : Option Nat := boundaryAfter s k 0

/-- A change of strand `k`'s ply that is posted for the next boundary's tick, or for one before it, takes effect (R397). -/
def plyFirst (k : Nat) (s : State) : State :=
  match (s.strand k).lea, nextBoundary s k with
  | some l, some b => if ((s.plyOf l.ply).chg).any fun c => decide (c.at'.toNat ≤ b) then applyChange l.ply s else s
  | _, _ => s

/-! ### The certificate and leas as bytes (Table 7.2) -/

/-- A slot record. -/
def slotDefOf (bs : List Byte) : SlotDef :=
  let f (o n : Nat) : Nat := ofLE ((bs.drop o).take n)
  { start := f 0 4, len := f 4 2, spindle := f 6 1, profile := f 7 1, entry := f 8 4 }

/-- A lea from its strand record and its slot records, all 32 bytes long. -/
def leaOf (strand : List Byte) (slots : List Byte) : Lea :=
  let f (o n : Nat) : Nat := ofLE ((strand.drop o).take n)
  { ply := f 1 1 % 8, period := f 4 4, phase := f 8 4, base := f 12 4
    slots := (List.range (f 2 2)).map fun i => slotDefOf ((slots.drop (32 * i)).take 32) }

/-! ### Spindles -/

/-- Context of spindle `n` at the start of a slot: g31 holds the completion sentinel (R358). -/
def sentinel : Word := 0xFFFFFFF0
def loadCtx (p : Spindle) : Tab Word := gSet p.ctx 31 sentinel

/-- The spindles of a strand. -/
def strandSpindles (s : State) (k : Nat) : List Nat :=
  (List.range 64).filter fun n => (s.spindle n).strand == k && decide (0 < (s.spindle n).codeLen)

/-- Element `i` of a slot's profile. -/
def profAt (sl : Slot) (i : Nat) : Nat := sl.profile.getD i 0

/-- Flyer `f` is named by the profile. -/
def profFlyer (sl : Slot) (f : Nat) : Bool := (if f < 24 then (profAt sl 10).testBit f else (profAt sl 11).testBit (f - 24)) && decide (f < 48)

/-- s0 to s5 of a slot (Table 7.1): V, RD, WR, EX as they apply. Windows s2 to s5 start at 0. -/
def slotSegs (p : Spindle) (prof : List Nat) : Tab Seg :=
  [(0, { base := BitVec.ofNat 32 p.codeBase, limit := BitVec.ofNat 32 p.codeLen, rights := 0xB }),
   (1, { base := BitVec.ofNat 32 (prof.getD 0 0), limit := BitVec.ofNat 32 (prof.getD 1 0), rights := 0x7 }),
   (2, { base := 0, limit := 0x64000, rights := 0x7 }), (3, { base := 0, limit := 0x3000, rights := 0x7 }),
   (4, { base := 0, limit := 0x14810, rights := 0x3 }), (5, { base := 0, limit := 0x28000, rights := 0x7 })]

/-- The running slot changed. -/
def setWhl (f : Whl → Whl) (s : State) : State := { s with whl := f s.whl }

/-! ### Staging (R369, R370) -/

/-- A slot stages an entry; one beyond 512 raises CONTRACT (R370). -/
def stage (e : Staged) (sl : Slot) : Except Nat Slot :=
  if sl.count < 512 then .ok { sl with staged := sl.staged ++ [e], count := sl.count + 1 } else .error cContract

/-- Where staged stores to the enqueue buffer stand among the addresses of staged stores. -/
def enqPa : Nat := 0x100000000

/-- The youngest staged store that overlaps `size` bytes at `pa`. -/
def youngest (sl : Slot) (pa size : Nat) : Option (Nat × Nat × Word) :=
  sl.staged.reverse.findSome? fun e => match e with
    | .store a n v => if a < pa + size ∧ pa < a + n then some (a, n, v) else none
    | _ => none

/-- A load of staged memory: forwarded from the youngest overlapping store that holds all its bytes, CONTRACT when that
store holds only some, else memory (R242, R248). -/
def stagedLoad (sl : Slot) (m : Mem) (at' pa size : Nat) : Except Nat Nat :=
  match youngest sl pa size with
  | none => .ok (m.num at' size)
  | some (a, n, v) =>
    if a ≤ pa ∧ pa + size ≤ a + n then .ok (v.toNat / 2 ^ (8 * (pa - a)) % 2 ^ (8 * size)) else .error cContract

/-! ### Task inputs in s4 (R375) -/

/-- The count a read of input `n` tests: the counter less this slot's staged decrements. -/
def tinTested (s : State) (sl : Slot) (n : Nat) : Nat :=
  Tab.get (fun _ => 0) s.whl.tin n - (sl.staged.filter fun e => e == .tin n).length

/-- TIN_NEXT: the lowest masked input whose tested count is not 0, with bit 31; a decrement of it is staged. -/
def tinNext (s : State) (sl : Slot) : Except Nat (Nat × Slot) :=
  match (List.range 256).find? fun n => (profAt sl 12).testBit n && decide (tinTested s sl n ≠ 0) with
  | none => .ok (0, sl)
  | some n => match stage (.tin n) sl with
    | .ok t => .ok (2 ^ 31 + n, t)
    | .error c => .error c

/-! ### The frame window s2 (R478, R479, R510) -/

/-- Bobbin `i` of the window, when the profile names one. -/
def winBobbin (sl : Slot) (i : Nat) : Option Nat := if profAt sl (2 + i) < 65536 then some (profAt sl (2 + i)) else none

/-- The eligible frames of bobbin `b` that this slot has not been granted. -/
def readyFrames (s : State) (sl : Slot) (b : Nat) : List Frame :=
  (headRun s b).filter fun f => !(sl.granted.contains (b, f.id))

/-- The ingress code of a descriptor or of the window's STATUS (Table 9.1). -/
def ingressCode (p : Nat) : Nat := if p = 16 then 14 else p

/-- STATUS of a frame (Table 5.7). -/
def frameStatus (f : Frame) : Nat :=
  b2n f.trunc * 32768 + f.verdict % 8 * 4096 + ingressCode f.ingress % 16 * 256 + f.tc % 8

/-- The bytes of granted frame `k` as the window shows them: LEN, STATUS, 0, LEDGER, the frame. -/
def grantedByte (s : State) (sl : Slot) (k o : Nat) : Byte :=
  match sl.granted[k]? with
  | none => 0
  | some (b, id) => match frameIn s b id with
    | none => 0
    | some f =>
      if o < 16 then (leBytes 2 f.bytes.length ++ leBytes 2 (frameStatus f) ++ leBytes 4 0 ++ leBytes 8 f.ledger.toNat).getD o 0
      else f.bytes.getD (o - 16) 0

/-- The through ingresses whose delay line spindle `n` sees, in ascending order (R510). -/
def thruPorts (s : State) (n : Nat) : List Nat := (List.range 12).filter fun p => decide (thruOut s p < 4) && thruSpin s p == n

/-- A byte of the delay line of ingress `p` (R510). -/
def thruByte (s : State) (p o : Nat) : Byte :=
  let e := s.eport p
  let n := e.thruBytes.length
  if o < 16 then (leBytes 4 e.thruSeq ++ leBytes 4 n ++ leBytes 8 e.thruTick.toNat).getD o 0
  else
    let j := o - 16
    if j < 2048 ∧ j < n then e.thruBytes.getD (j + (n - 1 - j) / 2048 * 2048) 0 else 0

/-- A byte read from the window outside the register words. -/
def winByte (s : State) (sl : Slot) (o : Nat) : Byte :=
  if o < 0x10000 then 0
  else if o < 0x50000 then grantedByte s sl ((o - 0x10000) / 0x4000) (o % 0x4000)
  else if o < 0x60000 then 0
  else match (thruPorts s sl.spindle)[(o - 0x60000) / 0x2000]? with
    | some p => thruByte s p (o % 0x2000)
    | none => 0

/-- A load from s2. -/
def winLoad (s : State) (sl : Slot) (o size : Nat) : Except Nat Nat :=
  if 0x50000 ≤ o ∧ o < 0x50000 + 9216 then stagedLoad sl sl.enq (o - 0x50000) (enqPa + (o - 0x50000)) size
  else if o < 0x80 then
    if size ≠ 4 then .error cBus
    else match winBobbin sl (o / 16) with
      | none => .ok 0
      | some b => match o % 16 with
        | 0 => .ok (min 65535 (readyFrames s sl b).length)
        | 8 => .ok (Tab.get (fun _ => 0) sl.got (o / 16))
        | 12 => .ok (Tab.get (fun _ => 0) sl.txres (o / 16))
        | _ => .ok 0
  else .ok (ofLE ((List.range size).map fun i => winByte s sl (o + i)))

/-- A request of `n` frames of window bobbin `i` (R479): whole eligible frames in order, up to position 15. -/
def winReq (i n : Nat) (s : State) (sl : Slot) : Except Nat Slot :=
  match winBobbin sl i with
  | none => .ok sl
  | some b =>
    let fs := (readyFrames s sl b).take (min (min n 16) (16 - sl.granted.length))
    match stage (.grant b fs.length) sl with
    | .error c => .error c
    | .ok t => .ok { t with granted := t.granted ++ fs.map (fun f => (b, f.id)), got := Tab.set (fun _ => 0) t.got i fs.length }

/-- The admission request of a frame that an internal port hands over whole (R458, R459). -/
def innerReq (b : Nat) (bytes : List Byte) (tx : Bool) : AdmReq :=
  { bobbin := b, need := 36, len := bytes.length + 4, meter := 0, pre := 0, tx := tx, ect := ectOf bytes }

/-- A frame of an internal port, its bytes with the FCS the Farelle adds, is offered to bobbin `b`: its number, and
whether it was admitted. -/
def offerInner (port b : Nat) (bytes : List Byte) (tx : Bool) (s : State) : Nat × Bool × State :=
  let (id, s1) := newFrame port 0 s
  let s2 := s1.setFrame id fun f => { f with bytes := bytes ++ fcsOf bytes }
  let s3 := offerFrame id (innerReq b bytes tx) s2
  match (s3.frame? id).map Frame.stage with
  | some .held => (id, true, s3)
  | _ => (id, false, { s3 with bob := { s3.bob with frames := s3.bob.frames.filter fun f => f.id != id } })

/-- A frame admitted from an internal port is whole and eligible: its reservation shrinks to its cells (R458, R476). -/
def innerWhole (id : Nat) (s : State) : State :=
  let s1 := s.setFrame id fun f =>
    let b := if f.ce then reFcs (markCE f.bytes) else f.bytes
    { f with whole := true, eligible := true, bytes := b, cells := cellsOf b.length }
  let qs := s1.bob.queue.map fun e => if e.frame = id then { e with cells := ((s1.frame? id).map Frame.cells).getD e.cells } else e
  { s1 with bob := { s1.bob with queue := qs } }

/-- A TXLEN write (R479): the admission decision for the first `len` bytes of the enqueue buffer. -/
def winEnqueue (i len : Nat) (s : State) (sl : Slot) : Except Nat (Slot × State) :=
  match winBobbin sl i with
  | none => .ok (sl, s)
  | some b =>
    if 9216 < len then (match stage (.grant b 0) sl with
      | .error c => .error c
      | .ok t => .ok ({ t with txres := Tab.set (fun _ => 0) t.txres i 0 }, s))
    else if 512 ≤ sl.count then .error cContract
    else
      let (id, ok, s1) := offerInner 16 b (sl.enq.bytes 0 len) false s
      match stage (if ok then .enqueue id else .grant b 0) sl with
      | .error c => .error c
      | .ok t => .ok ({ t with txres := Tab.set (fun _ => 0) t.txres i (b2n ok) }, s1)

/-- A store to s2. -/
def winStore (o size : Nat) (v : Word) (s : State) (sl : Slot) : Except Nat (Slot × State) :=
  if 0x50000 ≤ o ∧ o < 0x50000 + 9216 then
    match stage (.store (enqPa + (o - 0x50000)) size v) sl with
    | .error c => .error c
    | .ok t => .ok ({ t with enq := t.enq.write (o - 0x50000) (leBytes size v.toNat) }, s)
  else if size ≠ 4 then .error cBus
  else if o < 0x80 ∧ o % 16 = 4 then (winReq (o / 16) v.toNat s sl).map fun t => (t, s)
  else if o < 0x80 ∧ o % 16 = 12 then winEnqueue (o / 16) v.toNat s sl
  else if 0x60000 ≤ o ∧ o % 0x2000 = 0x1000 then
    match (thruPorts s sl.spindle)[(o - 0x60000) / 0x2000]? with
    | none => .error cBus
    | some p => (stage (.edit p (s.eport p).thruSeq (bitsOf v 16 16) (BitVec.ofNat 8 (bitsOf v 0 8))) sl).map fun t => (t, s)
  else .error cBus

/-! ### The flyer window s3 (R414, R418, R419) -/

/-- A load from s3: the flyer's registers lie at 0x100 × flyer with the offsets of Table 8.7. -/
def flyWinLoad (s : State) (sl : Slot) (o size : Nat) : Except Nat (Nat × Slot) :=
  let f := o / 0x100
  if size ≠ 4 ∨ !profFlyer sl f then .error cBus
  else if o % 0x100 = 0x1C then .ok ((flyStat s f).toNat, sl)
  else if o % 0x100 = 0x40 then
    let popped := (sl.staged.filter fun e => e == .pop f).length
    match if flyOwner s f = .whorl then (s.flyer f).inF[popped]? else none with
    | none => .ok (0, sl)
    | some v => (stage (.pop f) sl).map fun t => (v.toNat, t)
  else .ok (0, sl)

/-- A store to s3: an action's words, a word for the out FIFO, START by EN of FLY_CTRL (R437, R599). -/
def flyWinStore (o size : Nat) (v : Word) (sl : Slot) : Except Nat Slot :=
  let f := o / 0x100
  if size ≠ 4 ∨ !profFlyer sl f then .error cBus
  else match o % 0x100 with
    | 0x00 => if bitOf v 31 then stage (.start f) sl else .ok sl
    | 0x30 => .ok { sl with act0 := Tab.set (fun _ => 0) sl.act0 f v }
    | 0x34 => stage (.act f (Tab.get (fun _ => 0) sl.act0 f) v) sl
    | 0x44 => stage (.push f v) sl
    | _ => .error cBus

/-! ### Task inputs, gates and CAN in s4 and s5 -/

/-- A load from s4: TIN_NEXT at 0, the counters of the masked inputs from 0x1000, the ledger area from 0x10000 (R643). -/
def tinLoad (s : State) (sl : Slot) (o size : Nat) : Except Nat (Nat × Slot) :=
  if 0x10000 ≤ o then .ok (ledgerNum s (o - 0x10000) size, sl)
  else if size ≠ 4 then .error cBus
  else if o = 0 then tinNext s sl
  else if 0x1000 ≤ o ∧ o < 0x1400 then
    let n := (o - 0x1000) / 4
    .ok (if (profAt sl 12).testBit n then tinTested s sl n else 0, sl)
  else .error cBus

/-- The CAN controller that an offset of s5 lies in, and the offset of its window (R555). -/
def canWin (sl : Slot) (o : Nat) : Option (Nat × Nat) :=
  let n := (o - 0x20000) / 0x1000
  if 0x20000 ≤ o ∧ (profAt sl 13).testBit n = true ∧ n < 8 ∧ 0x500 ≤ o % 0x1000 then some (n, o % 0x1000) else none

/-- A load from s5. -/
def outLoad (s : State) (sl : Slot) (o size : Nat) : Except Nat Nat :=
  if size ≠ 4 then .error cBus
  else match canWin sl o with
    | some (n, off) =>
      let own := sl.staged.reverse.findSome? fun e => match e with
        | .can m p v => if m = n ∧ p = off ∧ off < 0xF00 then some v else none
        | _ => none
      .ok (own.getD (canWinRead s n off)).toNat
    | none => .ok 0

/-- A store to s5: the gate mask of port p at 4 × p (R466), a CAN window word. -/
def outStore (o size : Nat) (v : Word) (sl : Slot) : Except Nat Slot :=
  if size ≠ 4 then .error cBus
  else match canWin sl o with
    | some (n, off) => stage (.can n off v) sl
    | none =>
      if o < 0x44 ∧ (profAt sl 15).testBit (o / 4) = true then stage (.gate (o / 4) (BitVec.ofNat 8 v.toNat)) sl
      else .error cBus

/-! ### Loads and stores of a slot -/

/-- A checked load of `size` bytes through slot segment `sg` at `pa`. -/
def slotLoad (s : State) (sl : Slot) (sg pa size : Nat) : Except Nat (Nat × Slot) :=
  match sg with
  | 0 => if pa + size ≤ 262144 then .ok (s.whl.code.num pa size, sl) else .error cBus
  | 1 => if pa + size ≤ 1048576 then (stagedLoad sl s.whl.data pa pa size).map fun v => (v, sl) else .error cBus
  | 2 => (winLoad s sl pa size).map fun v => (v, sl)
  | 3 => flyWinLoad s sl pa size
  | 4 => tinLoad s sl pa size
  | 5 => (outLoad s sl pa size).map fun v => (v, sl)
  | _ => .error cBus

/-- A checked store. -/
def slotStore (sg pa size : Nat) (v : Word) (s : State) (sl : Slot) : Except Nat (Slot × State) :=
  match sg with
  | 1 => if pa + size ≤ 1048576 then (stage (.store pa size v) sl).map fun t => (t, s) else .error cBus
  | 2 => winStore pa size v s sl
  | 3 => (flyWinStore pa size v sl).map fun t => (t, s)
  | 5 => (outStore pa size v sl).map fun t => (t, s)
  | _ => .error cBus

/-! ### Safe outputs, discard, release (R385 to R387, R596 to R598) -/

/-- The frame without FCS at an offset of section 8: a u16 length, then its bytes. -/
def safeFrame (s : State) (off : Nat) : List Byte :=
  let b := s.whl.safeFrames.drop off
  (b.drop 2).take (ofLE (b.take 2))

/-- A safe-output entry as what is released (Table 12.6). -/
def safeStaged (s : State) (x : SafeOut) : List Staged :=
  match x.kind with
  | 1 => [.halt x.target]
  | 2 => [.cancel x.target (BitVec.ofNat 32 x.data)]
  | 3 => [.frame x.arg (safeFrame s x.data)]
  | 4 => [.gate x.target (BitVec.ofNat 8 x.data)]
  | 5 => [.event x.arg]
  | _ => []

/-- The safe outputs of spindle `n`, in their listed order. -/
def safeEntries (s : State) (n : Nat) : List Staged :=
  (Tab.get (fun _ => []) s.whl.safe n).flatMap (safeStaged s)

/-- Entries to be released at a tick. -/
def pushRelease (t : Tick) (n : Nat) (es : List Staged) (s : State) : State :=
  setWhl (fun w => { w with releases := w.releases ++ [{ tick := t, spindle := n, entries := es }] }) s

/-- The reservations of a discarded slot are released (R479). -/
def dropReservations (es : List Staged) (s : State) : State :=
  es.foldl (fun t e => match e with
    | .enqueue id => removeFrame id t
    | _ => t) s

/-- The running slot fails: its entries are discarded, its spindle goes into HOLD with the context it had, the event is
logged with the tick of its deadline or fault, and its safe outputs are due 16 ns after its end (R385 to R387, R398). -/
def slotFail (kind sub : Nat) (sl : Slot) (s : State) : State :=
  let t := dropReservations sl.staged s
  let t1 := t.setSpindle sl.spindle fun p => { p with st := .hold, braceHeld := false, overruns := min 65535 (p.overruns + 1) }
  let tick := if kind = 1 then sl.stop - 8 else s.reel
  let e : FlogEntry := { kind := kind, spindle := sl.spindle, slot := sl.index, tick := tick }
  let d := [BitVec.ofNat 8 sl.spindle, BitVec.ofNat 8 sub] ++ leBytes 2 sl.index ++ leBytes 4 0 ++ leBytes 8 tick.toNat
  let t2 := logFault (if kind = 1 then 0x31 else 0x32) 2 d (setWhl (pushFlog e) t1)
  pushRelease (sl.stop + 16) sl.spindle (safeEntries t2 sl.spindle) (setWhl (fun w => { w with slot := none }) t2)

/-- CONTRACT is raised in the running slot (R250, R386). -/
def contract (sub : Nat) (s : State) : State :=
  match s.whl.slot with
  | none => s
  | some sl => slotFail 2 sub sl s

/-- The running slot commits (R359, R371, R376): its registers become the context, its decrements are applied, its entries
are due 16 ns after its end; a spindle that Brace holds goes into HOLD and adds its safe outputs (R390, R598). -/
def slotCommit (sl : Slot) (s : State) : State :=
  let held := (s.spindle sl.spindle).braceHeld
  let t := s.setSpindle sl.spindle fun p => { p with ctx := Tab.erase sl.g 31, st := if held then .hold else .idle }
  let tin := sl.staged.foldl (fun m e => match e with
    | .tin n => Tab.upd (fun _ => 0) m n (fun c => c - 1)
    | _ => m) t.whl.tin
  let t1 := setWhl (fun w => { w with slot := none, tin := tin, enqBuf := sl.enq }) t
  let grants := sl.granted.map fun g => Staged.grant g.1 g.2
  let rest := sl.staged.filter fun e => match e with
    | .tin _ | .grant _ _ => false
    | _ => true
  pushRelease (sl.stop + 16) sl.spindle (grants ++ rest ++ if held then safeEntries t1 sl.spindle else []) t1

/-- One entry reaches its island (R371). -/
def releaseOne (e : Staged) (s : State) : State :=
  let owned (f : Nat) (g : State → State) : State := if flyOwner s f = .whorl then g s else s
  match e with
  | .store pa n v => if pa < enqPa then setWhl (fun w => { w with data := w.data.write pa (leBytes n v.toNat) }) s else s
  | .push f v => owned f (flyPush f v)
  | .pop f => owned f (flyPop f)
  | .act f w0 w1 => owned f (actPost f w0 w1)
  | .halt f => flyHalt f s
  | .start f => if (s.flyer f).halted then flyStart f s else s
  | .cancel n m => canCancel n m s
  | .can n off v => canWinWrite n off .whorl v s
  | .frame b bytes =>
    let (id, ok, t) := offerInner 16 b bytes false s
    if ok then innerWhole id t else t
  | .enqueue id => innerWhole id s
  | .gate p m => s.regWrite (bobPort p + 4) (m.setWidth 32)
  | .event n => tinEvents n 1 s
  | .tin n => setWhl (fun w => { w with tin := Tab.upd (fun _ => 0) w.tin n (fun c => c - 1) }) s
  | .edit p seq off b => thruEdit p seq off b s
  | .grant b id => dropEntry b id s

/-- The release that comes next: the earliest tick, the lowest spindle (R606). -/
def nextRelease (s : State) : Option Release :=
  s.whl.releases.foldl (fun best r => match best with
    | none => some r
    | some q => if r.tick < q.tick ∨ (r.tick = q.tick ∧ r.spindle < q.spindle) then some r else some q) none

/-- Its entries are released in program order at its tick. -/
def releaseNext (s : State) : State :=
  match nextRelease s with
  | none => s
  | some r =>
    let t := reachTick r.tick (setWhl (fun w => { w with releases := w.releases.erase r }) s)
    r.entries.foldl (fun u e => releaseOne e u) t

/-! ### Brace, strands that start and stop -/

/-- Brace entry (R390, R598): a spindle whose image declares HOLD enters it at the end of its slot in progress, or at once
with its safe outputs due 16 ns after the end of the slot now running. -/
def braceSpindle (n : Nat) (s : State) : State :=
  let p := s.spindle n
  if p.bracePol && (p.st == .idle || p.st == .running) then
    if p.st == .running then s.setSpindle n fun p => { p with braceHeld := true }
    else
      let at' := match s.whl.slot with
        | some sl => sl.stop + 16
        | none => s.reel + 16
      pushRelease at' n (safeEntries s n) (s.setSpindle n fun p => { p with st := .hold, braceHeld := true })
  else s

def braceWhorl (s : State) : State := (List.range 64).foldl (fun t n => braceSpindle n t) s

/-- Strands start: each that has a lea and does not run waits for its first boundary from now (R101); one that was to stop
goes on. -/
def startStrands (s : State) : State :=
  (List.range 4).foldl (fun t k =>
    if (t.strand k).run then t.setStrand k fun st => { st with stopping := false }
    else if (t.strand k).lea.isSome then
      t.setStrand k fun st => { st with run := true, on := false, boundary := t.reel, next := 0, stopping := false }
    else t) s

/-- Strands are to stop at their next boundary (R120, R394). -/
def stopStrands (s : State) : State :=
  (List.range 4).foldl (fun t k => if (t.strand k).run then t.setStrand k fun st => { st with stopping := true } else t) s

/-- The strand stops, with the safe outputs of its spindles released (R120). -/
def strandStop (k : Nat) (s : State) : State :=
  let t := s.setStrand k fun st => { st with run := false, on := false, stopping := false, next := 0, collided := false }
  (strandSpindles t k).foldl (fun u n =>
    if (u.spindle n).st == .idle || (u.spindle n).st == .running then pushRelease u.reel n (safeEntries u n) u else u) t

/-! ### One instruction in the whorl's slot (R247 to R250, R787) -/

/-- A slot's code runs until it jumps to the sentinel (R359). -/
def slotRuns (sl : Slot) : Bool := sl.pc != sentinel

/-- One Yukin-W instruction: the fetch through s0, then its effect on the slot and the state, or CONTRACT. -/
def whlRun (body : State → Slot → Except Nat (Slot × State)) (s : State) : State :=
  match s.whl.slot with
  | none => s
  | some sl =>
    if !slotRuns sl then s
    else match segFault false 0 (Tab.get (fun _ => {}) sl.seg 0) sl.pc.toNat 4 .fetch with
      | some c => contract c s
      | none => match body s sl with
        | .ok (t, u) => { u with whl := { u.whl with slot := some t } }
        | .error c => contract c s

end Sys2Proof.Machine
end

