-- ==== Sys2Proof/Machine/ModeOps.lean ====
section
/-!
DEFINITION. Modes (chapter 02): what the reset kinds clear, COLD and WARM reset, entry to Brace and to Kindle-fault, the
rails of step 3, Drowse entry.
-/

namespace Sys2Proof.Machine

/-- The SYS state changed. -/
def setSys (f : Sys → Sys) (s : State) : State := { s with sys := f s.sys }

/-! ### What resets clear (R125, Tables 0.3 and 2.7) -/

/-- The registers after a reset of a kind. -/
def regsReset (k : RKind) (s : State) : State := { s with regs := resetRegs k s.regs, latch := [] }

/-- The skein after power was off or a kindle begins: both paths closed; a wake keeps ID, master and hop counts (R677), and
anything but a COLD reset what the master holds of serial numbers (R667). -/
def sknKindle (wake cold : Bool) (k : Skn) : Skn :=
  if wake then
    { assigned := k.assigned, master := k.master, conflict := k.conflict, standby := k.standby, masterId := k.masterId, dev := k.dev
      masterSerial := k.masterSerial, hopsE := k.hopsE, hopsW := k.hopsW, members := k.members, known := k.known, out := k.out }
  else { known := if cold then [] else k.known, out := k.out }

/-- The tag serves from its own field power throughout (R732); the reader starts anew. -/
def tagKindle (cold : Bool) (t : Tag) : Tag :=
  { field := t.field, secured := t.secured, quiet := t.quiet, selected := t.selected, backoff := t.backoff, answer := t.answer
    ackPend := if cold then 0 else t.ackPend }

/-- The wake decoders' counts, COLD fields held in the always-on domain (R12, Table 11.6). -/
def canWakeKept (t : Tab Can) : Tab Can := t.mapVals (fun _ => {}) fun _ c => { fec := c.fec, fecFired := c.fecFired }

/-- The blocks whose power goes with the switched rails lose their state; what balls show, what has been sent to the host
and on the skein, the Reel's count and the COLD fields stay. -/
def islandsLost (s : State) : State :=
  { s with
    txn := {}, stw := {}, hl := { out := s.hl.out }, whl := {}, bob := {}, eth := {}, can := canWakeKept s.can, rov := {}
    fly := { pins := s.fly.pins.mapVals (fun _ => {}) fun _ p => { ball := p.ball } }
    ply := { reel := s.ply.reel, cont := s.ply.cont, sub := s.ply.sub } }

/-- Every block as a kindle finds it. -/
def blocksCleared (wake cold : Bool) (s : State) : State :=
  { islandsLost s with skn := sknKindle wake cold s.skn, pnl := panelKindle wake s.pnl, tag := tagKindle cold s.tag }

/-- Supplies of the switched rails off: REG_EN low, BYPE_N released, VCORE_VID at code 56 (R31, R61, R783). -/
def railsOff (p : Pwr) : Pwr :=
  { p with regEn := 0, ready := 0, pgTied := 0, bypeLow := 0, settling := 0, vidOut := 56, railOk := p.railOk &&& 0xF0 }

/-! ### COLD reset (R73, R74, R125, R134) -/

/-- The Farelle takes a COLD reset: `rails` and `banks` are out of range, `rail` is the one recorded, `pg` whether R74 caused it. A
gated unit that runs goes on (R69); units that wait do not start (R781). The Reel restarts at 0 (Table 2.7). -/
def coldReset (rails : BitVec 8) (banks : BitVec 13) (rail : Nat) (pg : Bool) (s : State) : State :=
  let d := dropUnstarted s
  let l := if s.sys.mode = .dark ∧ s.sys.due = some .cold ∧ s.sys.latch.isSome = true then s.sys.latch
    else some { mask := 1 ||| (if s.sys.resetNLow then 2 else 0) ||| (if pg then 0x10 else 0) ||| (if s.sys.mode = .brace then 0x20 else 0)
                rail := rail, step := if s.sys.mode = .kindle then s.sys.kstep else 0 }
  let t := regsReset .cold (blocksCleared false true { d with dst := { d.dst with waiting := [], imgWrite := none } })
  { t with
    ply := {}, can := []
    sys := { latch := l, due := some .cold, resetNLow := s.sys.resetNLow, straps := s.sys.straps
             railIdx := s.sys.railIdx, kindles := s.sys.kindles }
    pwr := { railsOff s.pwr with
      railOk := (s.pwr.railOk &&& 0xF0) &&& ~~~ rails, banks := s.pwr.banks &&& ~~~ banks, senseWarn := true, slowLogged := false, leakLogged := false
      q := 0, eLedger := 0, eVolt := 0, trusted := false, recals := 0, capMeas := none, lastProg := 0, lastRecal := none, confApplied := false } }

/-- The banks watched now (R73, Table 1.4): outside Drowse all; in Drowse IOB_PWR, IOB_CAN, IOB_PNL and IOB_HOST while a
wake source that needs it is enabled (tag 3, CAN 2, panel 1, host 4). -/
def banksWatched (s : State) : BitVec 13 :=
  if s.sys.mode = .drowse then
    let w (src bank : Nat) : BitVec 13 := if bitOf (s.rd wakeCfg) src then BitVec.ofNat 13 (2 ^ bank) else 0
    w 3 0 ||| w 4 1 ||| w 2 2 ||| w 1 3
  else 0x1FFF

/-- Of the rails and banks given, those watched now, as rails (R73): switched ones from ready on, unless the fall is of a
tied PG; VAON always; VIO33 and VIO18 by their banks. -/
def watched (s : State) (rails : BitVec 8) (banks : BitVec 13) (byPg : Bool) : BitVec 8 :=
  let switched := s.pwr.ready &&& (if byPg then ~~~ s.pwr.pgTied else 0xF)
  let b := if byPg then 0 else banks &&& banksWatched s
  (rails &&& ((switched.setWidth 8) ||| (if byPg then 0 else 0x40)))
    ||| (if b &&& vio33Banks = 0 then 0 else 0x10) ||| (if b &&& vio18Banks = 0 then 0 else 0x20)

/-- The lowest index in a mask of rails. -/
def lowestRail (m : BitVec 8) : Nat := ((List.range 8).find? fun i => m.getLsbD i).getD 0xFF

/-! ### WARM reset (R134, R781, R783) -/

/-- The causes latched as a WARM reset of cause bit `bit` is taken: those of resets whose kindle has not begun stay. -/
def warmLatch (bit : BitVec 8) (y : Sys) : Option ResetLatch :=
  let l : ResetLatch := if y.due.isSome then y.latch.getD { mask := if y.due = some .cold then 1 else 0 } else { mask := 0 }
  some { l with mask := l.mask ||| bit ||| (if y.mode = .brace then 0x20 else 0) }

/-- What both kinds of WARM reset do; `c` is the cause. -/
def warmReset (c : KCause) (s : State) : State :=
  let d := dropUnstarted s
  let t := regsReset .warm (blocksCleared false false { d with dst := { d.dst with waiting := [], imgWrite := none } })
  let y := s.sys
  let old := y.due == some .cold
  { t with
    pwr := (chargerNote { s with pwr := { railsOff s.pwr with eVolt := 0, confApplied := false }, sys := { s.sys with mode := .dark } }).pwr
    sys := { mode := .dark, latch := warmLatch (if c = .pin then 2 else 4) y
             due := if old then some .cold else some c, resetNLow := y.resetNLow, straps := y.straps, railIdx := y.railIdx
             lost := y.lost, recorder := y.recorder, braceEntries := y.braceEntries, braceRecovered := y.braceRecovered
             eccCorr := y.eccCorr, extFaults := y.extFaults, doubles := y.doubles, kindles := y.kindles, kcause := y.kcause } }

/-- The WARM reset of command 0x0203, of HL_HOSTRST and of the boot ROM (R266, R783): every REG_EN low for the off time. -/
def cmdReset (s : State) : State :=
  setSys (fun y => { y with mode := .kindle, kstep := 1, offTime := true }) (warmReset .cmd s)

/-- With no command waiting 1 ns passes (log 3): a WARM reset that RESET_WARM has announced is taken, else the Reel counts on. -/
def tick (s : State) : State := if s.sys.resetDue then cmdReset s else { s with ply := nsPasses s.ply }

/-- The WARM reset of RESET_N (R51, R85). -/
def pinReset (s : State) : State := setSys (fun y => { y with resetNLow := true }) (warmReset .pin s)

/-! ### Brace (R112 to R115) -/

/-- Persistent commits that have not started are refused (R113, R188, R346). -/
def refuseCommits (s : State) : State :=
  let running := match s.dst.running with
    | some (.commit _ true) => true
    | _ => false
  let hs := (s.dst.staged.map Commit.txn).toList ++ (if running then [] else (s.dst.inflight.map Commit.txn).toList)
  hs.foldl (fun t h => commitBack h .modeDenied (modeNum .brace) t) (dropUnstarted s)

/-- The Farelle enters Brace, to return to `ret`. -/
def enterBrace (ret : Mode) (s : State) : State :=
  let n := min 0xFFFF (s.sys.braceEntries + 1)
  let t := setSys (fun y => { y with mode := .brace, retMode := ret, kstep := 0, braceEntries := n, window := false }) (refuseCommits s)
  rovBrace (braceWhorl (raiseLine 0 (logFault 0x09 0 (leBytes 4 n) t)))

/-! ### Rails of step 3 (R25, R26, R28, R106) -/

/-- The order in which the switched rails are enabled: VISL, VCORE, VSD18, VSD09. -/
def railOrder : List Nat := [1, 0, 3, 2]

/-- The next rail from place `pos` on that is not ready has its REG_EN driven high; its PG, sampled just before, decides
whether it is tied (R28). -/
def nextRail (pg : Bool) (pos : Nat) (s : State) : State :=
  match (railOrder.zipIdx.drop pos).find? fun r => !s.pwr.ready.getLsbD r.1 with
  | none => setSys (fun y => { y with railPos := 4, railTries := 0 }) s
  | some (r, i) =>
    let bit := BitVec.ofNat 4 (2 ^ r)
    setPwr (fun p => { p with regEn := p.regEn ||| bit, pgTied := if pg then p.pgTied ||| bit else p.pgTied &&& ~~~ bit })
      (setSys (fun y => { y with railPos := i, railTries := 0, retryOff := false }) s)

/-- The rail being enabled. -/
def railNow (s : State) : Option Nat := railOrder[s.sys.railPos]?

/-- Worst-case duration of kindle step `n` in µs (Table 2.3): of step 5, 240 ms for each slot it authenticates (R132). -/
def worstUs (s : State) (n : Nat) : Nat :=
  match n with
  | 1 => 2000
  | 2 => 15000
  | 3 => 20000
  | 4 => 80000
  | 5 => 240000 * max 1 (slotsTried s)
  | 6 => 60000
  | _ => 583000

/-- Step `n` has met a timeout of its own in this kindle: the crystal's, a rail's or the PLL's. -/
def timeoutMet (s : State) (n : Nat) : Bool :=
  (n == 2 && s.sys.krec.limp) || (n == 3 && (decide (s.sys.retries ≠ 0) || decide (s.sys.pllTries ≠ 0)))

/-- KINDLE_LATE of step `n`, whose duration is `us` (R132, R136, R140): recorded once for a step that exceeds its worst case
without meeting a timeout. RAIL of SYS_KFAULT keeps what it held (DESIGN CHOICE, log 36). -/
def noteLate (n us : Nat) (s : State) : State :=
  if worstUs s n < us && !timeoutMet s n && !s.sys.lateSteps.getLsbD n then
    let t := setSys (fun y => { y with
      krec := { y.krec with late := true, lateStep := if y.krec.lateStep = 0 then n else y.krec.lateStep }
      lateSteps := y.lateSteps ||| BitVec.ofNat 8 (2 ^ n), kfStep := n, kfCode := 5 }) s
    logFault 0x07 0 ([BitVec.ofNat 8 n, 0, 0, 0] ++ leBytes 4 us) t
  else s

/-- Step 2 ends after `us`, and REG_EN_ISL is driven high (R89, R102). -/
def enterStep3 (us : Nat) (pg : Bool) (s : State) : State :=
  nextRail pg 0 (setSys (fun y => { y with
    kstep := 3, ktime := Tab.set (fun _ => 0) y.ktime 1 us, railPos := 0, railTries := 0, pllLocked := false, pllTries := 0 }) (noteLate 2 us s))

/-- Step 3 ends after `us` once every rail is ready and the PLL is locked. -/
def endStep3 (us : Nat) (s : State) : State :=
  if s.sys.railPos = 4 ∧ s.sys.pllLocked = true then
    setSys (fun y => { y with kstep := 4, ktime := Tab.set (fun _ => 0) y.ktime 2 us }) (noteLate 3 us s)
  else s

/-- Step 3 runs. -/
def inStep3 (s : State) : Bool := s.sys.mode == .kindle && decide (s.sys.kstep = 3) && !s.sys.kfault

/-- Kindle-fault (R107, R108): REG_EN low but VSD18's when it was found ready, the bypasses closed, BYPE_N released. -/
def kindleFault (code rail : Nat) (s : State) : State :=
  let t := closePath 0 (closePath 1 s)
  let u := setPwr (fun p => { p with regEn := p.ready &&& 8, ready := p.ready &&& 8, bypeLow := 0, settling := 0, vidOut := 56, railOk := p.railOk &&& (if p.ready.getLsbD 3 then 0xF8 else 0xF0) }) t
  { setSys (fun y => { y with kfault := true, kfStep := y.kstep, kfRail := rail, kfCode := code, pllLocked := false }) u with
    ply := { u.ply with running := false } }

/-! ### Drowse entry (R120, R577, R676, R705) -/

/-- Pending transmit buffers of a controller are discarded and counted; it is disabled (R577). -/
def canDrowse (n : Nat) (s : State) : State :=
  let k := ((List.range 32).filter fun b => bitOf (s.canOf n).txreq b).length
  (canDisable n s).setCan n fun c => { c with txreq := 0, txDrop := c.txDrop + BitVec.ofNat 32 k }

/-- A link goes on at the swift rate from the always-on domain (R650, R676). -/
def linkSwift (k : Link) : Link :=
  match k.st with
  | .up10g => { k with st := .upSwift }
  | _ => k

/-- Every release still due is released: what the strands left when they stopped. -/
def releaseAll : Nat → State → State
  | 0, s => s
  | n + 1, s => releaseAll n (releaseNext s)

/-- Drowse entry. A tied PG of VSD18, whose REG_EN stays high, stays tied: in the kindle after Drowse its REG_EN is not driven
nor its PG sampled, and R28 ends a tie only when the next kindle starts (DESIGN CHOICE, log 36).
The strands have stopped with their safe outputs, which are released; ports are disabled and BYPE_N released, the skein moves to swift,
the panel to the always-on domain, and every REG_EN but VSD18's goes low. -/
def enterDrowse (s : State) : State :=
  let s2 := releaseAll s.whl.releases.length s
  let s3 := (List.range 12).foldl (fun t p => if (t.eport p).enabled then ethPhyOff p t else t) s2
  let s4 := rovStopIdle ((List.range 8).foldl (fun t n => canDrowse n t) s3)
  let s5 := s4.setLink 0 linkSwift |>.setLink 1 linkSwift
  let s6 := islandsLost (panelToAlwaysOn s5)
  let s7 := setPwr (fun p => { p with regEn := 8, ready := p.ready &&& 8, pgTied := p.pgTied &&& 8, bypeLow := 0, settling := 0, vidOut := 56, railOk := p.railOk &&& 0xF8 }) s6
  let s8 := setSys (fun y => { y with mode := .drowse, retMode := .dark, entering := false, drowseReq := none, kstep := 0, wakeLimp := y.limp, window := false }) s7
  if s8.sys.wakePending && supplyValid s8 then startWake s8 else s8

end Sys2Proof.Machine
end

