-- ==== Sys2Proof/Machine/Whorl.lean ====
section
/-!
DEFINITION. The meanings of the whorl's commands (chapter 07), and of the frame window's (chapter 09).
-/

namespace Sys2Proof.Machine

/-! ### Lea boundaries -/

/-- The lowest-numbered running strand below `k`, against which phase is measured (R367). -/
def refStrand (s : State) (k : Nat) : Option Nat := (List.range k).find? fun j => (s.strand j).run && (s.strand j).on

/-- The error of a boundary at `b` against the nominal relation to strand `j` (R367): the difference of the boundaries less
that of the PHASEs, to the nearest of the relations that repeat with the greatest common divisor of the periods. -/
def phaseError (x y : Lea) (b bj : Nat) : Int :=
  let g : Int := (Nat.gcd x.period y.period : Nat)
  let d := ((b : Int) - bj - ((x.phase : Int) - y.phase)) % g
  if g < 2 * d then d - g else d

/-- PHERR of a strand other than the lowest; beyond PHASEWIN, DRIFT_LIMIT and line 3 (R367, R398). -/
def measurePhase (k b : Nat) (s : State) : State :=
  match refStrand s k, (s.strand k).lea with
  | some j, some x =>
    match (s.strand j).lea with
    | none => s
    | some y =>
      let e := phaseError x y b (s.strand j).boundary.toNat
      let t := s.setStrand k fun st => { st with pherr := e }
      if s.whl.phaseWin < e.natAbs then
        let f : FlogEntry := { kind := 4, spindle := 0, slot := 0, tick := t.reel }
        logFault 0x35 2 ([BitVec.ofNat 8 k, 0, 0, 0] ++ leBytes 4 (BitVec.ofInt 32 e).toNat)
          (raiseLine 3 (setWhl (pushFlog f) (t.setBits (0x40020118 + 0x20 * k) 1)))
      else t
  | _, _ => s

/-- The commits that wait for strand `k`'s lea to change: one that did not change it at its epoch notes it (R334, R337). -/
def leaNoted (k b : Nat) (s : State) : State :=
  let hs := (s.txn.txns.filter fun t => t.st == .applying && t.leaLeft.contains k).map Txn.h
  hs.foldl (fun u h =>
    let v := setTxn h (fun x => { x with leaLeft := x.leaLeft.erase k }) u
    txnAdvance h (if (txn? s h).any fun t => t.epochReel.toNat == b then v else noteApplied h 2 k true v)) s

/-- The bit of WHL_HOLDCLR of a spindle. -/
def holdClrReg (n : Nat) : Nat := 0x40020018 + 4 * (n / 32)

/-- The pending lea takes over at a boundary at or after its epoch (R363); its data areas get their first contents (R786),
and spindles of the strand that OVERRUN or CONTRACT held leave HOLD (R389). -/
def switchLea (k b : Nat) (s : State) : State :=
  match (s.strand k).pend with
  | none => s
  | some (l, t) =>
    if b < t.toNat then s
    else
      let s1 := leaNoted k b (s.setStrand k fun st => { st with lea := some l, pend := none })
      let bs := (s.conf 2 k).bytes 0 (s.confLen 2 k)
      let s2 := setWhl (fun w => { w with data := (Config.leaData bs).foldl (fun m e => m.setByte (e.1 % 1048576) e.2) w.data }) s1
      (strandSpindles s2 k).foldl (fun u n =>
        if (u.spindle n).st == .hold && !(u.spindle n).braceHeld then
          (u.setFld (holdClrReg n) (n % 32) 1 0).setSpindle n fun p => { p with st := .idle }
        else u) s2

/-- Spindles that Brace held resume at their strand's first boundary after the return (R390). -/
def resumeHeld (k : Nat) (s : State) : State :=
  if s.sys.mode = .brace then s
  else (strandSpindles s k).foldl (fun u n =>
    if (u.spindle n).braceHeld && (u.spindle n).st == .hold then u.setSpindle n fun p => { p with st := .idle, braceHeld := false }
    else u) s

/-- LEA_BOUNDARY (R362 to R364, R101, R120, R367, R390, R397). A change of the strand's ply posted for the boundary's tick, or
for one before it, takes effect first. -/
def execLeaBoundary (k : Fin 4) (s0 : State) : Host.Outcome State Fault Refusal :=
  let s := plyFirst k s0
  if !(s.strand k).run then .next s
  else match nextBoundary s k with
    | none => .next s
    | some b =>
      let t := reachTick (BitVec.ofNat 64 b) s
      if (t.strand k).stopping then .next (strandStop k t)
      else
        let t1 := resumeHeld k (switchLea k b t)
        let t2 := t1.setStrand k fun st => { st with on := true, boundary := BitVec.ofNat 64 b, next := 0, collided := false }
        .next (measurePhase k b t2)

/-! ### Slots -/

/-- The slot a strand starts next: its index, its definition, its start tick. -/
def dueSlot (s : State) (k : Nat) : Option (Nat × SlotDef × Nat) :=
  let st := s.strand k
  if st.run && st.on then do
    let l ← st.lea
    let d ← l.slots[st.next]?
    return (st.next, d, st.boundary.toNat + d.start)
  else none

/-- A lower-numbered strand whose slot falls due at the same tick starts first (R391). -/
def lowerFirst (s : State) (k at' : Nat) : Bool :=
  (List.range k).any fun j => (dueSlot s j).any fun d => d.2.2 == at'

/-- The next slot of a spindle takes its WHL_HOLDCLR bit: one that OVERRUN or CONTRACT holds leaves HOLD (R389). -/
def clearHold (n : Nat) (s : State) : State :=
  if bitOf (s.rd (holdClrReg n)) (n % 32) && !(s.spindle n).braceHeld then
    let t := s.setFld (holdClrReg n) (n % 32) 1 0
    if (s.spindle n).st == .hold then t.setSpindle n fun p => { p with st := .idle } else t
  else s

/-- The slot starts on its spindle: context, segments, entry point (R358, R368). -/
def slotBegin (k i : Nat) (d : SlotDef) (at' : Nat) (s : State) : State :=
  let p := s.spindle d.spindle
  let prof := Tab.get (fun _ => []) s.whl.profiles d.profile
  let sl : Slot := {
    strand := k, index := i, spindle := d.spindle, start := BitVec.ofNat 64 at', stop := BitVec.ofNat 64 (at' + d.len)
    g := loadCtx p, seg := slotSegs p prof, pc := BitVec.ofNat 32 d.entry, profile := prof, staged := [], count := 0
    granted := [], enq := s.whl.enqBuf, act0 := [], got := [], txres := [] }
  (setWhl (fun w => { w with slot := some sl }) s).setSpindle d.spindle fun p => { p with st := .running }

/-- SLOT_START (R358, R368, R388, R391, R392): behind a running slot it is delayed and counted once; a spindle in HOLD or
refused runs it as an idle slot. -/
def execSlotStart (k : Fin 4) (s : State) : Host.Outcome State Fault Refusal :=
  match dueSlot s k with
  | none => .next s
  | some (i, d, at') =>
    if lowerFirst s k at' then .next s
    else
      let t := reachTick (BitVec.ofNat 64 at') s
      if t.whl.slot.isSome then
        if (t.strand k).collided then .next t
        else .next ((t.count 0x4002000C 1).setStrand k fun st => { st with collided := true })
      else
        let t1 := (clearHold d.spindle t).setStrand k fun st => { st with next := i + 1, collided := false }
        if (t1.spindle d.spindle).st == .idle then .next (slotBegin k i d at' t1) else .next t1

/-- TIN_NEXT_READ (R375, R376): the running slot reads TIN_NEXT into a register. -/
def execTinNextRead (rd : GReg) (s : State) : Host.Outcome State Fault Refusal :=
  .next (whlRun (fun u sl => (tinNext u sl).map fun r =>
    ({ r.2 with g := gSet r.2.g rd.toNat (BitVec.ofNat 32 r.1), pc := r.2.pc + 4 }, u)) s)

/-- SLOT_COMPLETE (R359, R371, R393): the code has jumped to the sentinel, by the deadline. -/
def execSlotComplete (s : State) : Host.Outcome State Fault Refusal :=
  match s.whl.slot with
  | none => .next s
  | some sl => if sl.pc = sentinel ∧ s.reel ≤ sl.stop - 8 then .next (slotCommit sl s) else .next s

/-- OVERRUN (R385, R393): the deadline comes and the slot has not completed. -/
def execOverrun (s : State) : Host.Outcome State Fault Refusal :=
  match s.whl.slot with
  | none => .next s
  | some sl =>
    if sl.pc = sentinel ∧ s.reel ≤ sl.stop - 8 then .next s
    else .next (slotFail 1 0 sl (reachTick (sl.stop - 8) s))

/-- SLOT_RELEASE (R371, R387, R597, R604 to R606). -/
def execSlotRelease (s : State) : Host.Outcome State Fault Refusal := .next (releaseNext s)

/-- The islands run: from the end of kindle step 3 on, but in Drowse and in Kindle-fault (R399). -/
def islandsUp (s : State) : Bool :=
  match s.sys.mode with
  | .dark | .drowse => false
  | .kindle => decide (4 ≤ s.sys.kstep) && !s.sys.kfault
  | .spin | .brace | .service => true

/-- TASK_INPUT_EVENT (R373, R374): `k` events in one island cycle. -/
def execTaskInputEvent (n : Fin 256) (k : Nat) (s : State) : Host.Outcome State Fault Refusal :=
  if islandsUp s then .next (tinEvents n k s) else .next s

/-! ### Pace and trim (R381 to R384) -/

/-- PWR_VID, WHL_SLACK, WHL_SLACKTHR. -/
def pwrVid : Nat := 0x400E0008
def whlSlack : Nat := 0x40020004
def whlSlackthr : Nat := 0x40020008

/-- The margin of one monitor, in 0.01 % (R381). -/
def paceMargin (n meas : Nat) : Int :=
  ((Config.paceRef n : Int) - meas) * 10000 / (Config.paceRef n : Int)

/-- M: the least margin of the sixteen monitors. -/
def paceM (meas : List Nat) : Int :=
  (List.range 16).foldl (fun m n => min m (paceMargin n (meas.getD n 0))) (paceMargin 0 (meas.getD 0 0))

/-- M as the 16 bits a record or a register holds. -/
def margin16 (m : Int) : Nat := (BitVec.ofInt 16 m).toNat

/-- SLACK (R384): sticky bit, line 3, the whorl's log; Steward 3.2 writes VIDCODE 56. -/
def slackNow (s : State) : State :=
  let e : FlogEntry := { kind := 3, spindle := 0, slot := 0, tick := s.reel }
  logFault 0x33 2 (leBytes 2 (margin16 s.whl.margin))
    ((raiseLine 3 (setWhl (pushFlog e) (s.setBits whlSlack 0x80000000))).setFld pwrVid 0 6 56)

/-- A slot whose deadline has come without its completion overruns before anything of the same instant (R396). -/
def overrunFirst (s : State) : State :=
  match s.whl.slot with
  | some sl => if sl.stop - 8 ≤ s.reel ∧ sl.pc ≠ sentinel then slotFail 1 0 sl s else s
  | none => s

/-- PACE_UPDATE (R381, R384, R396): the measurements, the margin; a fall below WHL_SLACKTHR is SLACK. -/
def execPaceUpdate (meas : List Nat) (s0 : State) : Host.Outcome State Fault Refusal :=
  let s := overrunFirst s0
  if !islandsUp s then .next s
  else
    let m := paceM meas
    let thr : Int := (s.fld whlSlackthr 0 16 : Nat)
    let fell := decide (m < thr) && (decide (thr ≤ s.whl.margin) || !bitOf (s.rd whlSlack) 31)
    let pace := (List.range 16).foldl (fun t n => Tab.set (fun _ => 0) t n (meas.getD n 0 % 65536)) s.sys.pace
    let t := setWhl (fun w => { w with margin := m, above20 := if 2000 ≤ m then w.above20 + 1 else 0 })
      { s with sys := { s.sys with pace := pace } }
    .next (if fell then slackNow t else t)

/-- VCORE_TRIM (R383): 10 ms without break are a thousand updates after the first. TRIMLIM is logged as it sets. -/
def execVcoreTrim (s : State) : Host.Outcome State Fault Refusal :=
  if !stewardRuns s then .next s
  else
    let m := s.whl.margin
    let code := s.fld pwrVid 0 6
    if m < 1500 then
      if code < 56 then .next (s.setFld pwrVid 0 6 (code + 1))
      else if bitOf (s.rd whlSlack) 30 then .next s
      else .next (logFault 0x34 2 (leBytes 2 (margin16 m)) (s.setBits whlSlack 0x40000000))
    else if 1000 < s.whl.above20 ∧ 0 < code then .next (s.setFld pwrVid 0 6 (code - 1))
    else .next s

/-! ### HOLD and the fault log -/

/-- A write of the WHL_HOLDCLR pair or of half of it: the bits set, and each stays until its spindle's next slot, or the
switch that frees it, takes it (R389, R400). -/
def holdClear (mask : Nat) (s : State) : State :=
  (s.setBits 0x40020018 (BitVec.ofNat 32 mask)).setBits 0x4002001C (BitVec.ofNat 32 (mask / 2 ^ 32))

/-- HOLD_CLEAR. -/
def execHoldClear (mask : BitVec 64) (s : State) : Host.Outcome State Fault Refusal := .next (holdClear mask.toNat s)

/-- A read of WHL_FLOG (R400): the oldest entry is returned and popped, its tick latched. -/
def flogRead (s : State) : Word × State :=
  match s.whl.flog with
  | [] => (0, s)
  | e :: rest =>
    (BitVec.ofNat 32 (e.kind * 2 ^ 28 + e.spindle % 64 * 2 ^ 22 + e.slot % 8192),
      setWhl (fun w => { w with flog := rest, flogTick := e.tick }) s)

/-- WHL_FLOG_READ. -/
def execWhlFlogRead (s : State) : Host.Outcome State Fault Refusal :=
  let r := flogRead s
  .next { r.2 with rdata := r.1 }

/-! ### The frame window (R478, R479) -/

/-- WHORL_BURST_REQ: the running slot requests `n` frames of window bobbin `i`. -/
def execWhorlBurstReq (i : Fin 8) (n : Nat) (s : State) : Host.Outcome State Fault Refusal :=
  .next (whlRun (fun u sl => (winReq i n u sl).map fun r => ({ r with pc := r.pc + 4 }, u)) s)

/-- WHORL_ENQUEUE: a TXLEN write of the running slot. -/
def execWhorlEnqueue (i : Fin 8) (len : Nat) (s : State) : Host.Outcome State Fault Refusal :=
  .next (whlRun (fun u sl => (winEnqueue i len u sl).map fun r => ({ r.1 with pc := r.1.pc + 4 }, r.2)) s)

end Sys2Proof.Machine
end

