-- ==== Sys2Proof/Machine/Modes.lean ====
section
/-!
DEFINITION. The meanings of the supply, mode and kindle commands up to the end of step 3 (chapters 01 and 02).
-/

namespace Sys2Proof.Machine

/-! ### Supplies and resets -/

/-- A kindle that waits for its time zero reaches it (R782): after a COLD reset or RESET_N the mode becomes Kindle. -/
def reachTimeZero (s : State) : State :=
  if s.sys.timeZero || s.sys.resetNLow || s.sys.offTime then s
  else match s.sys.due with
    | none => s
    | some _ => setSys (fun y => { y with mode := .kindle, kstep := 1, timeZero := true }) s

/-- VALID_SUPPLY (R24, R84, R782): VAON and the banks are inside their ranges and PWRSENSE is not warning. -/
def execValidSupply (s : State) : Host.Outcome State Fault Refusal :=
  if s.sys.due.isSome && !s.sys.timeZero then
    .next (reachTimeZero (chargerNote (setPwr (fun p => { p with railOk := p.railOk ||| 0x40, banks := 0x1FFF, senseWarn := false, distaffUp := true, hucAct := false }) s)))
  else .next s

/-- COLD_RESET (R73, R84, R118, R131): a watched supply at its reset level, or a watched PG that fell. -/
def execColdReset (lost : Supplies) (byPg : Bool) (s : State) : Host.Outcome State Fault Refusal :=
  let m := watched s lost.rails lost.banks byPg
  if m = 0 then .next s else .next (coldReset lost.rails lost.banks (lowestRail m) false s)

/-- RAIL_PG_MISMATCH (R74): a COLD reset; the record follows at the next kindle. -/
def execRailPgMismatch (rail : Fin 4) (s : State) : Host.Outcome State Fault Refusal :=
  if (s.pwr.ready &&& ~~~ s.pwr.pgTied).getLsbD rail.val then .next (coldReset (BitVec.ofNat 8 (2 ^ rail.val)) 0 rail.val true s)
  else .next s

/-- SKEIN_BYPASS_CLOSE (R54). -/
def execSkeinBypassClose (s : State) : Host.Outcome State Fault Refusal := .next (closePath 0 (closePath 1 s))

/-- A Drowse entry that was accepted is turned back (R129): its request is answered MODE_DENIED, the strands go on. -/
def drowseDenied (s : State) : State :=
  let ok := replyMsg 0x0202 .ok 0 []
  let no := replyMsg 0x0202 .modeDenied (modeNum .brace) []
  let t := match s.sys.drowseReq with
    | some (.mailbox n, q, _) =>
      { s with hl := { s.hl with due := s.hl.due.map fun d => if d.mb = n.val ∧ d.seq = q ∧ d.msg = ok then { d with msg := no } else d } }
    | some (.relay dev q', _, _) =>
      { s with skn := { s.skn with out := s.skn.out.map fun o => if o = .reply dev q' ok then .reply dev q' no else o } }
    | none => s
  startStrands (setSys (fun y => { y with entering := false, drowseReq := none }) t)

/-- The Drowse entry that runs was accepted no more than 5 µs ago, as the Reel counts (R129). -/
def drowseJust (s : State) : Bool :=
  match s.sys.drowseReq with
  | some (_, _, t) => decide (s.ply.reel.toNat ≤ t.toNat + 5000)
  | none => false

/-- PWRSENSE_WARN (R40, R112, R116, R126, R129): Spin and Service go to Brace; while Drowse entry runs a warning that passes
its filter in the 5 µs of the command's acceptance turns the entry back into Brace, and a later one does not stop it; in
Brace the recovery window closes; elsewhere the mode stays. -/
def execPwrsenseWarn (s : State) : Host.Outcome State Fault Refusal :=
  let t := setPwr (fun p => { p with senseWarn := true }) s
  match s.sys.mode with
  | .spin | .service =>
    if s.sys.entering then (if drowseJust s then .next (enterBrace s.sys.mode (drowseDenied t)) else .next t) else .next (enterBrace s.sys.mode t)
  | .brace => .next (setSys (fun y => { y with window := false }) t)
  | .dark | .kindle | .drowse => .next t

/-- PWRSENSE_RECOVER (R40, R115): PWRSENSE stops warning; in Brace the recovery window opens. -/
def execPwrsenseRecover (s : State) : Host.Outcome State Fault Refusal :=
  let t := setPwr (fun p => { p with senseWarn := false }) s
  if s.sys.mode = .brace then .next (raiseLine 0 (setSys (fun y => { y with window := true }) t)) else .next t

/-- BRACE_RECOVERED (R115): the window has been open for 10 ms; `us` is how long Brace lasted. -/
def execBraceRecovered (us : Nat) (s : State) : Host.Outcome State Fault Refusal :=
  if s.sys.mode = .brace ∧ s.sys.window = true ∧ s.pwr.senseWarn = false then
    let n := min 0xFFFF (s.sys.braceRecovered + 1)
    let t := setSys (fun y => { y with mode := y.retMode, retMode := .dark, window := false, braceRecovered := n }) s
    let v := if t.fly.wait then let x := flyersStart t; { x with fly := { x.fly with wait := false } } else t
    let u := raiseLine 0 (logFault 0x0A 0 (leBytes 4 n ++ leBytes 4 us) v)
    .next (chargerNote (if u.sys.mode = .spin then startStrands u else u))
  else .next s

/-- RESET_N_LOW (R51, R84, R85, R127, R128). -/
def execResetNLow (s : State) : Host.Outcome State Fault Refusal :=
  if s.sys.resetNLow then .next s else .next (pinReset s)

/-- RESET_N_RISE (R782): time zero comes with it when supply is valid, and else with valid supply. -/
def execResetNRise (s : State) : Host.Outcome State Fault Refusal :=
  let t := setSys (fun y => { y with resetNLow := false }) s
  if supplyValid t then .next (reachTimeZero t) else .next t

/-- WARM_OFF_TIME_END (R782, R783). -/
def execWarmOffTimeEnd (s : State) : Host.Outcome State Fault Refusal :=
  if s.sys.offTime then
    let t := setSys (fun y => { y with offTime := false }) s
    if supplyValid t then .next (reachTimeZero t) else .next t
  else .next s

/-! ### VCORE setpoint (R30, R31, R80) -/

/-- A write of PWR_VID: the output follows at once while REG_EN_CORE is low. -/
def vidWrite (v : Word) (s : State) : State :=
  let t := s.regWrite pwrVid v
  if s.pwr.regEn.getLsbD 0 then t else setPwr (fun p => { p with vidOut := t.fld pwrVid 0 6 }) t

/-- PWR_VID_WRITE. -/
def execPwrVidWrite (v : Word) (s : State) : Host.Outcome State Fault Refusal := .next (vidWrite v s)

/-- VID_STEP: one step toward VIDCODE while REG_EN_CORE is high. -/
def execVidStep (s : State) : Host.Outcome State Fault Refusal :=
  let c := s.fld pwrVid 0 6
  if s.pwr.regEn.getLsbD 0 then
    .next (setPwr (fun p => { p with vidOut := if p.vidOut < c then p.vidOut + 1 else if c < p.vidOut then p.vidOut - 1 else c }) s)
  else .next s

/-! ### BYPE_N (R59 to R63, R780) -/

/-- Software sets BYPE_DRIVE bit `n`: an enabled port goes inline. -/
def bypeSet (n : Nat) (s : State) : State :=
  if bypeDrive s n then s
  else
    let t := s.setFld pwrBype n 1 1
    if (s.eport n).enabled then bypeInline n (ethPhyOff n t) else t

/-- Software clears BYPE_DRIVE bit `n`: an enabled port, or one whose settle time runs, goes without relay control. -/
def bypeClear (n : Nat) (s : State) : State :=
  if bypeDrive s n then
    let t := s.setFld pwrBype n 1 0
    if (s.eport n).enabled || s.pwr.settling.getLsbD n then ethPhyOn n (bypeRelease n (ethPhyOff n t)) else t
  else s

/-- BYPE_DRIVE_SET. -/
def execBypeDriveSet (n : Fin 4) (s : State) : Host.Outcome State Fault Refusal := .next (bypeSet n s)
/-- BYPE_DRIVE_CLEAR. -/
def execBypeDriveClear (n : Fin 4) (s : State) : Host.Outcome State Fault Refusal := .next (bypeClear n s)

/-- BYPE_SETTLE_DONE (R62): the port's PHY is enabled. -/
def execBypeSettleDone (n : Fin 4) (s : State) : Host.Outcome State Fault Refusal :=
  if s.pwr.settling.getLsbD n.val then
    .next (ethPhyOn n (setPwr (fun p => { p with settling := p.settling &&& ~~~ BitVec.ofNat 4 (2 ^ n.val) }) s))
  else .next s

/-! ### Kindle, steps 1 to 3 -/

/-- SYS_RSTCAUSE (Table 2.10). -/
def sysRstcause : Nat := 0x40000024

/-- The causes recorded as resets end (R134): a COLD reset writes the register, a WARM reset adds its bits. With the latch
lost in the Distaff domain a COLD reset reports POR alone, with RAILIDX 0xFF. -/
def recordCause (c : KCause) (s : State) : State :=
  let m (dflt : BitVec 8) : Word := ((s.sys.latch.map ResetLatch.mask).getD dflt).setWidth 32
  match c with
  | .cold => { s with regs := setReg s.regs sysRstcause (m 1), sys := { s.sys with railIdx := (s.sys.latch.map ResetLatch.rail).getD 0xFF } }
  | .pin => s.setBits sysRstcause (m 2)
  | .cmd => s.setBits sysRstcause (m 4)
  | .wake => s.setBits sysRstcause 8

/-- The slot control a kindle finds: the copy with the higher BSEQ (R175). -/
def bootCtl (d : Dst) : Option SlotCtl :=
  match d.copy1, d.copy2 with
  | some a, some b => some (if a.bseq < b.bseq then b else a)
  | some a, none => some a
  | none, b => b

/-- KINDLES of the kindle under way (R174): one more than the copy in use holds, or will hold when the BOOT copy write that
still runs (R69) has ended. -/
def kindlesOf (d : Dst) : Nat :=
  let old := ((bootCtl d).map SlotCtl.kindles).getD 0
  match d.running with
  | some (.boot _ c _) => max old c.kindles + 1
  | _ => old + 1

/-- RAIL_PG_MISMATCH is logged at the kindle after it, with the step that ran when it occurred (R74, R136). -/
def recordPg (s : State) : State :=
  match s.sys.latch with
  | some l =>
    if l.mask.getLsbD 4 then
      logFault 0x05 0 [BitVec.ofNat 8 l.rail] (setSys (fun y => { y with kfStep := l.step, kfRail := l.rail, kfCode := 4 }) s)
    else s
  | none => s

/-- KINDLE_START (R43, R68, R87, R89, R110, R125, R134, R135, R782): step 1 ends after `us` with the straps sampled, and
step 2 begins; a wake begins with step 2, its blocks as a kindle finds them, and one from a Drowse entered in limp state
goes on to step 3 in limp state at once, `pg` being the PG sampled there. -/
def execKindleStart (straps : Straps) (us : Nat) (pg : Bool) (s : State) : Host.Outcome State Fault Refusal :=
  match s.sys.due with
  | none => .next s
  | some c =>
    if s.sys.mode != .kindle || !s.sys.timeZero || s.sys.kstep != 1 then .next s
    else
      let wake := c == .wake
      let t0 := setPwr (fun p => { p with eVolt := 0, confApplied := false }) (if wake then regsReset .kindle (blocksCleared true false s) else s)
      let t1 := recordCause c t0
      let limp := wake && t1.sys.wakeLimp
      let t2 := setSys (fun y => { y with
        kindles := kindlesOf s.dst, ktime := Tab.set (fun _ => 0) [] 0 (if wake then 0 else us)
        retries := 0, krec := { wake := wake, limp := limp }, kcause := c, kstep := 2, limp := limp
        straps := if wake then y.straps else straps }) t1
      let t3 := setSys (fun y => { y with due := none, latch := none, lateSteps := 0, wakeLimp := false }) (if c == .cold then recordPg t2 else t2)
      let t4 := if wake then t3 else noteLate 1 us t3
      .next (if limp then enterStep3 0 pg t4 else t4)

/-- Step 2 runs. -/
def inStep2 (s : State) : Bool := s.sys.mode == .kindle && decide (s.sys.kstep = 2)

/-- CRYSTAL_READY (R87, R89, R135). -/
def execCrystalReady (us : Nat) (pg : Bool) (s : State) : Host.Outcome State Fault Refusal :=
  if inStep2 s then .next (enterStep3 us pg s) else .next s

/-- CRYSTAL_TIMEOUT (R102, R103, R136). The fault names no rail: RAIL of SYS_KFAULT keeps what it held (the spec gives no
value; DESIGN CHOICE, log 36). -/
def execCrystalTimeout (us : Nat) (pg : Bool) (s : State) : Host.Outcome State Fault Refusal :=
  if inStep2 s then
    let t := setSys (fun y => { y with limp := true, krec := { y.krec with limp := true }, kfStep := 2, kfCode := 1 }) s
    .next (enterStep3 us pg (logFault 0x02 0 [] t))
  else .next s

/-- XTAL_LATE (R105, R136): reported once; the Reel is not moved. RAIL keeps what it held (DESIGN CHOICE, log 36). -/
def execXtalLate (s : State) : Host.Outcome State Fault Refusal :=
  if s.sys.limp && !s.sys.xtalLate then
    let t := setSys (fun y => { y with xtalLate := true, kfStep := if y.mode = .kindle then y.kstep else 0, kfCode := 6 }) s
    .next (logFault 0x03 0 (leBytes 8 s.reel.toNat) t)
  else .next s

/-- RAIL_READY (R25, R26, R73): the rail is watched from now on, and the next REG_EN goes high. -/
def execRailReady (us : Nat) (pg : Bool) (s : State) : Host.Outcome State Fault Refusal :=
  match railNow s with
  | none => .next s
  | some r =>
    if inStep3 s && s.pwr.regEn.getLsbD r && !s.sys.retryOff then
      let t := setPwr (fun p => { p with ready := p.ready ||| BitVec.ofNat 4 (2 ^ r), railOk := p.railOk ||| BitVec.ofNat 8 (2 ^ r) }) s
      .next (endStep3 us (nextRail pg (s.sys.railPos + 1) t))
    else .next s

/-- RAIL_TIMEOUT (R106, R107, R110, R136): the rail's REG_EN goes low for the off time of a retry; when the third retry
has failed, Kindle-fault. -/
def execRailTimeout (s : State) : Host.Outcome State Fault Refusal :=
  match railNow s with
  | none => .next s
  | some r =>
    if inStep3 s && s.pwr.regEn.getLsbD r && !s.sys.retryOff then
      if s.sys.railTries < 3 then
        let n := s.sys.railTries + 1
        let t := setPwr (fun p => { p with regEn := p.regEn &&& ~~~ BitVec.ofNat 4 (2 ^ r) }) s
        .next (logFault 0x0E 0 [BitVec.ofNat 8 r, BitVec.ofNat 8 n]
          (setSys (fun y => { y with railTries := n, retries := min 255 (y.retries + 1), retryOff := true }) t))
      else .next (logFault 0x04 0 [BitVec.ofNat 8 r, 3] (kindleFault 2 r s))
    else .next s

/-- RAIL_RETRY (R106). -/
def execRailRetry (s : State) : Host.Outcome State Fault Refusal :=
  match railNow s with
  | none => .next s
  | some r =>
    if inStep3 s && s.sys.retryOff then
      .next (setPwr (fun p => { p with regEn := p.regEn ||| BitVec.ofNat 4 (2 ^ r) }) (setSys (fun y => { y with retryOff := false }) s))
    else .next s

/-- The PLL may lock: VISL is ready (R90). -/
def pllMay (s : State) : Bool := inStep3 s && s.pwr.ready.getLsbD 1 && !s.sys.pllLocked

/-- PLL_LOCK (R90, R91, R632, R639): the Reel starts at 0 after a COLD reset, and else goes on from the continuation count
of 40 ns steps; every ply starts at 0. -/
def execPllLock (steps us : Nat) (s : State) : Host.Outcome State Fault Refusal :=
  if pllMay s then
    let r := if s.sys.kcause = .cold then 0 else s.reel + BitVec.ofNat 64 (40 * steps)
    .next (endStep3 us { s with ply := { reel := r, running := true, cont := true, ply := pliesAtLock r }, sys := { s.sys with pllLocked := true } })
  else .next s

/-- PLL_LOCK_TIMEOUT (R109): retried once; a second failure is Kindle-fault, whose RAIL is 0 (DESIGN CHOICE, log 36). -/
def execPllLockTimeout (s : State) : Host.Outcome State Fault Refusal :=
  if pllMay s then
    if s.sys.pllTries = 0 then .next (logFault 0x06 0 [] (setSys (fun y => { y with pllTries := 1 }) s))
    else .next (logFault 0x06 0 [] (kindleFault 3 0 s))
  else .next s

/-- KINDLE_LATE (R132, R136, R140): step `step`, running or ended, has lasted `us`. -/
def execKindleLate (step : Fin 8) (us : Nat) (s : State) : Host.Outcome State Fault Refusal :=
  if s.sys.mode = .kindle ∧ 1 ≤ step.val ∧ step.val ≤ s.sys.kstep then .next (noteLate step.val us s) else .next s

/-! ### Drowse and wake -/

/-- Every strand has stopped, each at its boundary, and no slot runs (R120, R394). -/
def strandsStopped (s : State) : Bool := ((List.range 4).all fun k => !(s.strand k).run) && s.whl.slot.isNone

/-- DROWSE_ENTRY (R120, R129, R130, R394, R577, R705, R753): it waits for the strands and the sequencer to stop. -/
def execDrowseEntry (s : State) : Host.Outcome State Fault Refusal :=
  if s.sys.entering && strandsStopped s && !s.rov.running then .next (enterDrowse s) else .next s

/-- SYS_WAKEALARM (Table 2.13). -/
def wakeAlarm (s : State) : Tick := (s.rd 0x40000064).setWidth 64 <<< 32 ||| (s.rd 0x40000060).setWidth 64

/-- WAKE_SOURCE_FIRE (R86, R122 to R124, R130): the alarm fires as the Reel's continuation count reaches SYS_WAKEALARM, and
carries the count there; a count past it does not reach it. -/
def execWakeSourceFire (src : BitVec 6) (s : State) : Host.Outcome State Fault Refusal :=
  if src.getLsbD 5 then
    if s.ply.reel ≤ wakeAlarm s then .next (wakeFire src { s with ply := { s.ply with reel := wakeAlarm s } })
    else .next (wakeFire (src &&& 0x1F) s)
  else .next (wakeFire src s)

/-- WAKE_HOLD_END (R86): the held wake starts its kindle. -/
def execWakeHoldEnd (s : State) : Host.Outcome State Fault Refusal :=
  if s.sys.mode = .drowse ∧ s.sys.wakePending = true ∧ supplyValid s = true then .next (startWake s) else .next s

/-- UNWATCHED_BANK_LOSS (R73, R86): in Drowse a bank that is not watched leaves its range, with no reset. -/
def execUnwatchedBankLoss (bank : Fin 13) (s : State) : Host.Outcome State Fault Refusal :=
  if s.sys.mode = .drowse ∧ (banksWatched s).getLsbD bank.val = false then
    .next (setPwr (fun p => { p with banks := p.banks &&& ~~~ BitVec.ofNat 13 (2 ^ bank.val) }) s)
  else .next s

/-- UNWATCHED_BANK_RETURN (R36, R86): a bank returns in Drowse; and in Dark, where it may return before supply is valid, so
that the charger runs. -/
def execUnwatchedBankReturn (bank : Fin 13) (s : State) : Host.Outcome State Fault Refusal :=
  if s.sys.mode = .drowse ∨ s.sys.mode = .dark then
    .next (chargerNote (setPwr (fun p => { p with banks := p.banks ||| BitVec.ofNat 13 (2 ^ bank.val) }) s))
  else .next s

/-- The PCIe link is the host link, and may be up (R270, Table 5.8). -/
def pcieMay (s : State) : Bool :=
  !s.sys.straps.bootsel.getLsbD 0 && match s.sys.mode with
    | .kindle => decide (4 ≤ s.sys.kstep) && !s.sys.kfault
    | .spin | .brace | .service => true
    | .dark | .drowse => false

/-- Any of the settings of Table 5.1 that a host may choose: MSI-X, INTA, or MSI with 1 to 32 vectors; the payload and read
request sizes; a completion timeout of 10 ms to 250 ms. -/
def pciOf (w : Word) : PciCfg :=
  { ints := match bitsOf w 0 3 with
      | 0 => .msix
      | 1 => .inta
      | k + 2 => .msi (2 ^ k)
    mps := 128 * 2 ^ bitsOf w 3 1
    mrrs := 128 * 2 ^ (bitsOf w 4 2 % 3)
    ctoMs := 10 + bitsOf w 6 26 % 241 }

/-- PCIE_LINK_UP (R123, R272, R305): WAKE_N is released. What the host has set in the endpoint by then is the host's choice:
a free value among the settings of Table 5.1 (notes/assumptions/35.md). -/
def execPcieLinkUp (s : State) : Host.Outcome State Fault Refusal :=
  if pcieMay s then
    .next { s with hl := { s.hl with pcieUp := true, pci := pciOf (freeNow s) }, sys := { s.sys with wakeNLow := false }, free := s.free + 1 }
  else .next s

end Sys2Proof.Machine
end

