-- ==== Sys2Proof/Machine/Tag.lean ====
section
/-!
DEFINITION. The contactless port (chapter 15): detuning pings of the reader, and the nameplate tag with its states OPEN and
SECURED. An addressed tag command is served in the quiet state too, as ISO/IEC 15693 has it.
-/

namespace Sys2Proof.Machine

/-- TAG_STAT and TAG_PINGCFG (Table 15.7). -/
def tagStat : Nat := 0x400B0000
def tagPingcfg : Nat := 0x400B0008

/-- The tag changed. -/
def setTag (f : Tag → Tag) (s : State) : State := { s with tag := f s.tag }

/-! ### Detuning pings (R711 to R714) -/

/-- The reader may ping: PINGEN is 1 in Spin, Service or Drowse, and no aerial fault has stopped the pings. -/
def pingsOn (s : State) : Bool :=
  bitOf (s.rd tagPingcfg) 31 && !s.tag.antFault &&
    match s.sys.mode with
    | .spin | .service | .drowse => true
    | _ => false

/-- The ping differs from the baseline by a threshold or more (R712): amplitudes in 0.1 %, phases in 0.01°. -/
def pingDetects (s : State) (amp : Nat) (phase : Int) : Bool :=
  decide (s.fld tagPingcfg 16 8 ≤ ((amp : Int) - s.tag.baseAmp).natAbs) ||
    decide (s.fld tagPingcfg 8 8 * 10 ≤ (phase - s.tag.basePhase).natAbs)

/-- The amplitude lies outside 50 % to 150 % of the kindle baseline (Table 15.5). -/
def pingBad (t : Tag) (amp : Nat) : Bool := decide (2 * amp < t.kindleAmp) || decide (3 * t.kindleAmp < 2 * amp)

/-- One of the first 8 pings after a kindle: their mean is the baseline (R713). -/
def pingLearn (amp : Nat) (phase : Int) (t : Tag) : Tag :=
  let u := { t with lastAmp := amp, lastPhase := phase, pings := t.pings + 1, sumAmp := t.sumAmp + amp,
                    sumPhase := t.sumPhase + phase }
  if u.pings = 8 then
    { u with baseAmp := u.sumAmp / 8, basePhase := u.sumPhase.tdiv 8, kindleAmp := u.sumAmp / 8 }
  else u

/-- A ping without detection moves the baseline by 1/16 of its difference from the measurement (R713). -/
def pingMove (amp : Nat) (phase : Int) (t : Tag) : Tag :=
  { t with baseAmp := ((t.baseAmp : Int) + ((amp : Int) - t.baseAmp).tdiv 16).toNat
           basePhase := t.basePhase + (phase - t.basePhase).tdiv 16 }

/-- A measured ping (R712, R713, Table 15.5). -/
def pingMeasured (amp : Nat) (phase : Int) (s : State) : State :=
  if s.tag.pings < 8 then setTag (pingLearn amp phase) s
  else
    let t := setTag (fun u => { u with lastAmp := amp, lastPhase := phase }) s
    if pingBad s.tag amp then logFault 0x91 11 (leBytes 2 amp) (setTag (fun u => { u with antFault := true }) t)
    else if pingDetects s amp phase then wakeFire 8 (raiseLine 12 (t.setBits tagStat 0x10000000))
    else setTag (pingMove amp phase) t

/-- DETUNE_PING: skipped and counted while an external field is present or IOB_PWR is unpowered (R711, R714). -/
def execDetunePing (amp : Nat) (phase : Int) (s : State) : Host.Outcome State Fault Refusal :=
  if pingsOn s then
    if s.tag.field || !bankOk s 0 then .next (setTag (fun u => { u with pingSkip := u.pingSkip + 1 }) s)
    else .next (pingMeasured amp phase s)
  else .next s

/-! ### The OEM blocks (Table 15.3) -/

/-- The bytes TAG_OEM holds for nameplate block 24 + `i`. -/
def oemBytes (s : State) (i : Nat) : List Byte := (List.range 8).flatMap fun j => leBytes 4 (s.rd (0x400B0400 + 32 * i + 4 * j)).toNat
/-- Those of the blocks `is` that differ from the nameplate are written. -/
def oemKept (is : List Nat) (s : State) : State :=
  let bs := is.filterMap fun i => if oemBytes s i = s.dst.nameplate.bytes (32 * (24 + i)) 32 then none else some (24 + i, oemBytes s i)
  if bs.isEmpty then s else queueUnit (.nameplate bs) s

/-! ### What the tag answers -/

/-- An error answer. -/
def tagError (code : Nat) (s : State) : State := setTag (fun u => { u with answer := some (some code, []) }) s
/-- A good answer with its data. -/
def tagData (d : List Byte) (s : State) : State := setTag (fun u => { u with answer := some (none, d) }) s
/-- A command that reaches the tag: without a field nothing happens. -/
def inField (f : State → State) (s : State) : State := if s.tag.field then f s else s

/-- The UID (R716). -/
def tagUid : Tick := BitVec.ofNat 64 (0xE0 * 2 ^ 56 + Config.mfr.toNat * 2 ^ 48 + Config.serial.toNat % 2 ^ 48)

/-- What a tag read finds: while an update runs, the read of a page it programs waits for it and returns the new contents
(R192). -/
def plateNow (s : State) : Mem :=
  match s.dst.running with
  | some (.nameplate blocks) => nameplateAfter s.tag.ackPend blocks s.dst.nameplate
  | _ => s.dst.nameplate

/-- The ACKPEND bits, and block 72's, as a read of block 72 gives them (R724). -/
def ackBits (s : State) : BitVec 16 := BitVec.ofNat 16 (Mem.num (plateNow s) (72 * 32) 2) ||| s.tag.ackPend

/-- The 32 bytes of nameplate block `n`; block 72 is served from ACKPEND while it is held (R716, R724). -/
def blockBytes (s : State) (n : Nat) : List Byte :=
  if n = 72 then leBytes 2 (ackBits s).toNat ++ (Mem.bytes (plateNow s) (72 * 32 + 2) 30)
  else Mem.bytes (plateNow s) (n * 32) 32

/-- A block the present state lets a reader read (Table 15.3). -/
def blockReadable (secured : Bool) (n : Nat) : Bool :=
  decide (n < 40) || decide (n = 72) || (secured && decide (n < 72))

/-- A served read counts in READS while the Farelle is powered (Table 15.7). -/
def countRead (s : State) : State :=
  if stewardRuns s then setTag (fun u => { u with reads := u.reads + 1 }) s else s

/-- Reads of `count` blocks from `n` (R717). -/
def tagRead (n count : Nat) (s : State) : State :=
  let ns := (List.range count).map (n + ·)
  if ns.all (blockReadable s.tag.secured) then tagData (ns.flatMap (blockBytes s)) (countRead s) else tagError 0x10 s

/-! ### Field and timers -/

/-- TAG_POWER_UP: the tag powers up in OPEN, with the back-off running (R720, R721). -/
def execTagPowerUp (s : State) : Host.Outcome State Fault Refusal :=
  if s.tag.field then .next s
  else .next (setTag (fun u => { u with field := true, secured := false, quiet := false, selected := false, backoff := true }) s)

/-- TAG_FIELD_LOSS: back to OPEN (R722). -/
def execTagFieldLoss (s : State) : Host.Outcome State Fault Refusal :=
  .next (setTag (fun u =>
    { u with field := false, secured := false, quiet := false, selected := false, backoff := false }) s)

/-- TAG_SECURE_EXPIRY: 60 s after it became SECURED the tag returns to OPEN (R722). -/
def execTagSecureExpiry (s : State) : Host.Outcome State Fault Refusal := .next (setTag (fun u => { u with secured := false }) s)

/-- TAG_BACKOFF_END (R721). -/
def execTagBackoffEnd (s : State) : Host.Outcome State Fault Refusal := .next (setTag (fun u => { u with backoff := false }) s)

/-! ### Tag commands (R715) -/

/-- TAG_INVENTORY: a tag that is not quiet answers with its UID (R716). -/
def execTagInventory (s : State) : Host.Outcome State Fault Refusal :=
  .next (inField (fun t => if t.tag.quiet then t else tagData (leBytes 8 tagUid.toNat) t) s)

/-- TAG_STAY_QUIET: the tag answers nothing and takes part in no inventory. -/
def execTagStayQuiet (s : State) : Host.Outcome State Fault Refusal :=
  .next (inField (setTag fun u => { u with quiet := true, selected := false }) s)

/-- TAG_SELECT: the tag with that UID is selected and answers; any other is deselected and answers nothing. -/
def execTagSelect (uid : Tick) (s : State) : Host.Outcome State Fault Refusal :=
  .next (inField (fun t =>
    if uid = tagUid then tagData [] (setTag (fun u => { u with selected := true, quiet := false }) t)
    else setTag (fun u => { u with selected := false }) t) s)

/-- TAG_RESET_TO_READY: out of the quiet and selected states, and back to OPEN (R722). -/
def execTagResetToReady (s : State) : Host.Outcome State Fault Refusal :=
  .next (inField (fun t => tagData [] (setTag (fun u => { u with quiet := false, selected := false, secured := false }) t)) s)

/-- TAG_GET_SYSTEM_INFORMATION: the UID, the number of blocks less 1, their size less 1 (R716), and what ISO/IEC 15693 adds. -/
def execTagGetSystemInformation (s : State) : Host.Outcome State Fault Refusal :=
  .next (inField (fun t => tagData (leBytes 8 tagUid.toNat ++ [255, 31] ++ Config.tagSystemInfo) t) s)

/-- TAG_READ_SINGLE_BLOCK (R717). -/
def execTagReadSingleBlock (n : Fin 256) (s : State) : Host.Outcome State Fault Refusal := .next (inField (tagRead n.val 1) s)

/-- TAG_READ_MULTIPLE_BLOCKS: up to 8 blocks (R715, R717). -/
def execTagReadMultipleBlocks (n : Fin 256) (count : Fin 9) (s : State) : Host.Outcome State Fault Refusal :=
  .next (inField (tagRead n.val count.val) s)

/-- A write of block 72 (R724); Write single block serves no other block (R715). -/
def tagWrite (n : Nat) (data : List Byte) (s : State) : State :=
  if n ≠ 72 then tagError 0x01 s
  else if !s.tag.secured then tagError 0x12 s
  else if !s.pwr.railOk.getLsbD 6 then tagError 0x13 s
  else
    queueUnit (.nameplate [])
      (tagData [] (setTag (fun u => { u with ackPend := u.ackPend ||| BitVec.ofNat 16 (ofLE (data.take 2)) }) s))

/-- TAG_WRITE_SINGLE_BLOCK. -/
def execTagWriteSingleBlock (n : Fin 256) (data : List Byte) (s : State) : Host.Outcome State Fault Refusal :=
  .next (inField (tagWrite n.val data) s)

/-- The stored password and AES key, in blocks 248 to 255 (Table 15.3): password first, then key. -/
def tagPassword (s : State) : Nat := Mem.num s.dst.nameplate (248 * 32) 4
def tagKey (s : State) : Nat := Mem.num s.dst.nameplate (248 * 32 + 4) 16

/-- A failed attempt: the back-off runs from it; Steward 3.2 counts and logs it while powered (R721, Table 15.5). -/
def authFails (code : Nat) (s : State) : State :=
  let t := tagError code (setTag (fun u => { u with backoff := true, secured := false }) s)
  if stewardRuns s then
    let n := min 65535 (s.tag.authFail + 1)
    logFault 0x90 11 (leBytes 2 n) (setTag (fun u => { u with authFail := n }) t)
  else t

/-- An attempt to become SECURED (R720, R721). -/
def authAttempt (good : Bool) (s : State) : State :=
  if s.tag.backoff then authFails 0x0F s
  else if good then tagData [] (setTag (fun u => { u with secured := true }) s)
  else authFails 0x0F s

/-- TAG_AUTHENTICATE: mutual authentication succeeds when the reader holds the stored key; an all-zero key disables it (R720). -/
def execTagAuthenticate (key : BitVec 128) (s : State) : Host.Outcome State Fault Refusal :=
  .next (inField (fun t => authAttempt (decide (key.toNat = tagKey t ∧ key.toNat ≠ 0)) t) s)

/-- SECURE_PWD: a stored password of 0 disables it (R720). A request with another manufacturer code is not for this tag. -/
def execSecurePwd (mfr : Byte) (pwd : Word) (s : State) : Host.Outcome State Fault Refusal :=
  .next (inField (fun t =>
    if mfr = Config.mfr then authAttempt (decide (pwd.toNat = tagPassword t ∧ pwd.toNat ≠ 0)) t else t) s)

/-- The codes R715 serves, by ISO/IEC 15693's numbers. -/
def tagServed : List Nat := [0x01, 0x02, 0x20, 0x21, 0x23, 0x25, 0x26, 0x2B, 0x35, 0xB2]

/-- TAG_UNKNOWN_COMMAND: error code 0x01 (R715). -/
def execTagUnknownCommand (code : Byte) (s : State) : Host.Outcome State Fault Refusal :=
  .next (inField (fun t => if tagServed.contains code.toNat then t else tagError 0x01 t) s)

end Sys2Proof.Machine
end

