-- ==== Sys2Proof/Machine/Flags.lean ====
section
/-!
DEFINITION. Status registers: for each register window, the bits that only the hardware changes, composed from the typed
fields of the State as the register tables of the chapters lay them out.
-/

namespace Sys2Proof.Machine

/-- A field of `w` bits at bit `lo`: the value's low bits. -/
def fieldAt (lo w v : Nat) : Nat := v % 2 ^ w * 2 ^ lo

/-! ### SYS (Tables 1.9, 2.9 to 2.14, 4.18, R401) -/

/-- SYS_STRAP (R77). -/
def strapBits (x : Straps) : Nat := fieldAt 12 1 (b2n x.master) + fieldAt 10 2 x.bootsel.toNat + fieldAt 0 10 x.hint.toNat

/-- SYS_MODE (R133). KSTEP is 0 outside Kindle. -/
def sysModeBits (s : State) : Nat :=
  fieldAt 15 1 (b2n s.sys.limp) + fieldAt 14 1 (b2n s.sys.kfault) + fieldAt 11 3 (modeNum s.sys.retMode)
    + fieldAt 3 4 (if s.sys.mode = .kindle then s.sys.kstep else 0) + fieldAt 0 3 (modeNum s.sys.mode)

/-- SYS_KFAULT (R136). -/
def kfaultBits (y : Sys) : Nat :=
  fieldAt 24 8 y.lost + fieldAt 16 8 y.retries + fieldAt 12 4 y.kfStep + fieldAt 8 4 y.kfRail + fieldAt 0 8 y.kfCode

/-- SYS_KREC (R140). -/
def krecBits (k : KRec) : Nat :=
  fieldAt 16 4 k.lateStep + fieldAt 15 1 (b2n k.slot) + fieldAt 9 1 (b2n k.wake) + fieldAt 8 1 (b2n k.limp)
    + fieldAt 7 1 (b2n k.late) + fieldAt 6 1 (b2n k.loss) + fieldAt 5 1 (b2n k.cascLate) + fieldAt 4 1 (b2n k.cert)
    + fieldAt 3 1 (b2n k.imgNone) + fieldAt 2 1 (b2n k.rollback) + fieldAt 1 1 (b2n k.fallback) + fieldAt 0 1 (b2n k.confDefault)

/-- SYS_STWERR (R269). -/
def stwerrBits (y : Sys) : Nat := fieldAt 16 16 y.eccCorr + fieldAt 8 8 y.extFaults + fieldAt 0 8 y.doubles

def sysBits (s : State) (o : Nat) : Nat :=
  match o with
  | 0x10 => strapBits s.sys.straps
  | 0x20 => sysModeBits s
  | 0x24 => fieldAt 8 8 s.sys.railIdx
  | 0x50 => kfaultBits s.sys
  | 0x54 => fieldAt 16 16 s.sys.braceEntries + fieldAt 0 16 s.sys.braceRecovered
  | 0x68 => krecBits s.sys.krec
  | 0x70 => stwerrBits s.sys
  | _ =>
    if 0x30 ≤ o ∧ o < 0x4C then Tab.get (fun _ => 0) s.sys.ktime ((o - 0x30) / 4)
    else if 0x80 ≤ o ∧ o < 0xC0 then fieldAt 0 16 (Tab.get (fun _ => 0) s.sys.pace ((o - 0x80) / 4))
    else if 0xC0 ≤ o ∧ o < 0x100 then fieldAt 0 16 (Config.paceRef ((o - 0xC0) / 4))
    else 0

/-! ### PWR (Tables 1.10, 1.13, 3.10) -/

def pwrBits (s : State) (o : Nat) : Nat :=
  match o with
  | 0x00 => fieldAt 9 1 (b2n s.pwr.hucAct) + fieldAt 8 1 (b2n s.pwr.senseWarn) + (railStat s.pwr).toNat
  | 0x0C => fieldAt 16 4 s.pwr.bypeLow.toNat
  | 0x1C => fieldAt 0 20 s.pwr.eLedger
  | 0x20 => fieldAt 0 20 s.pwr.eVolt
  | 0x24 => fieldAt 31 1 (b2n (gateOpens s)) + fieldAt 30 1 (b2n s.pwr.trusted) + fieldAt 20 9 s.pwr.recals + fieldAt 0 20 (gateNeed s)
  | 0x28 => match s.pwr.capMeas with
    | some c => fieldAt 31 1 1 + fieldAt 0 14 c
    | none => 0
  | _ => 0

/-! ### DST (Tables 3.7 to 3.9) -/

/-- UNIT of DST_STAT. -/
def unitCode (d : Dst) : Nat :=
  match d.running with
  | none => 0
  | some u => match u with
    | .boot _ _ _ => Config.bootUnit.toNat
    | .commit _ _ => 1
    | .log => 2
    | .nameplate _ => 3
    | .image _ _ => 4
    | .migration _ _ => 5
    | .scrub _ => 6

/-- DST_SLOT (R203). -/
def slotBits (c : SlotCtl) : Nat :=
  fieldAt 16 2 c.tries + fieldAt 12 4 (slotNum c.stB) + fieldAt 8 4 (slotNum c.stA) + fieldAt 0 1 (b2n c.active)

/-- DST_STAT (R201). -/
def dstStatBits (d : Dst) : Nat :=
  fieldAt 7 1 (b2n (d.loaded && decide (d.spareLeft = 0))) + fieldAt 6 1 (b2n (d.loaded && decide (d.spareLeft ≤ 32)))
    + fieldAt 5 1 (b2n d.staged.isSome) + fieldAt 4 1 (b2n d.inflight.isSome) + fieldAt 0 3 (unitCode d)

def dstBits (s : State) (o : Nat) : Nat :=
  let d := s.dst
  match o with
  | 0x00 => dstStatBits d
  | 0x08 => d.seq
  | 0x0C => d.seq / 2 ^ 32
  | 0x10 => d.live
  | 0x14 => min 0xFFFFFFFF d.commits
  | 0x18 => d.programs
  | 0x1C => fieldAt 0 16 (d.programs / 2 ^ 32)
  | 0x20 => d.wearMax
  | 0x24 => wearAvg d
  | 0x28 => d.hotPrograms
  | 0x2C => fieldAt 16 10 d.retired + fieldAt 0 10 d.spareLeft
  | 0x30 => fieldAt 16 16 d.scrubRewritten + fieldAt 0 16 d.scrubUncorr
  | 0x34 => slotBits d.ctl
  | _ => 0

/-! ### WHL (Table 7.6) -/

/-- Spindles `lo` to `lo + 31` in HOLD. -/
def holdBits (s : State) (lo : Nat) : Nat :=
  ((List.range 32).map fun i => if (s.spindle (lo + i)).st = .hold then 2 ^ i else 0).sum

def spNum : SpState → Nat
  | .idle => 0
  | .running => 1
  | .hold => 2
  | .refused => 3

/-- The registers of strand `k` from +0x00 to +0x14. -/
def strandBits (s : State) (k r : Nat) : Nat :=
  let st := s.strand k
  let ofLea (l : Lea) : Nat := fieldAt 16 13 l.slots.length + fieldAt 0 13 l.base
  match r with
  | 0x00 => fieldAt 31 1 (b2n (st.run && st.on)) + fieldAt 24 3 ((st.lea.map Lea.ply).getD 0)
  | 0x04 => fieldAt 0 24 ((st.lea.map Lea.period).getD 0)
  | 0x08 => fieldAt 0 24 ((st.lea.map Lea.phase).getD 0)
  | 0x0C => (st.lea.map ofLea).getD 0
  | 0x10 => (st.pend.map fun p => fieldAt 31 1 1 + ofLea p.1).getD 0
  | 0x14 => (BitVec.ofInt 32 st.pherr).toNat
  | _ => 0

def whlBits (s : State) (o : Nat) : Nat :=
  let w := s.whl
  match o with
  | 0x00 => (w.slot.map fun sl => fieldAt 31 1 1 + fieldAt 16 7 sl.spindle + fieldAt 0 13 sl.index).getD 0
  | 0x04 => margin16 w.margin
  | 0x10 => holdBits s 0
  | 0x14 => holdBits s 32
  | 0x24 => w.flogTick.toNat
  | 0x28 => w.flogTick.toNat / 2 ^ 32
  | 0x2C => fieldAt 0 8 w.flost
  | _ =>
    if 0x100 ≤ o ∧ o < 0x180 then strandBits s ((o - 0x100) / 0x20) (o % 0x20)
    else if 0x400 ≤ o ∧ o < 0x500 then
      let p := s.spindle ((o - 0x400) / 4)
      fieldAt 30 2 (spNum p.st) + fieldAt 29 1 (b2n p.bracePol) + fieldAt 0 16 p.overruns
    else if 0x1000 ≤ o ∧ o < 0x1400 then fieldAt 0 8 (Tab.get (fun _ => 0) w.tin ((o - 0x1000) / 4))
    else 0

/-! ### FLY (Tables 8.7 and 8.8, R448) -/

/-- A bank's levels at the balls. -/
def bankLevels (s : State) (b : Nat) : Nat :=
  ((List.range 24).map fun i => if (pinLevel s (24 * b + i)) then 2 ^ i else 0).sum

/-- A word of bank `b`'s program pages: page p lies at +0x800 × p, so the one not active at +0x800 × (1 − PAGE) (R434, R448). -/
def pageWord (s : State) (b o : Nat) : Nat :=
  (Tab.get (fun _ => 0) s.fly.prog (1024 * b + 512 * (o / 0x800 % 2) + o % 0x800 / 4)).toNat

def flyBits (s : State) (o : Nat) : Nat :=
  if o < 0x3000 then
    match o % 0x100 with
    | 0x1C => (flyStat s (o / 0x100)).toNat
    | 0x38 => (s.flyer (o / 0x100)).x.toNat
    | 0x3C => (s.flyer (o / 0x100)).y.toNat
    | _ => 0
  else if 0x4000 ≤ o ∧ o < 0x4240 then b2n (pinLevel s ((o - 0x4000) / 4))
  else if 0x5000 ≤ o ∧ o < 0x5060 then
    match o % 0x10 with
    | 0 => b2n (s.fly.page.getLsbD ((o - 0x5000) / 0x10))
    | 8 => bankLevels s ((o - 0x5000) / 0x10)
    | _ => 0
  else if 0x8000 ≤ o ∧ o < 0xE000 then pageWord s ((o - 0x8000) / 0x1000) o
  else 0

/-! ### BOB (Table 9.9) -/

/-- The bobbin and the meter selected. -/
def qsel (s : State) : Nat := s.fld 0x40040010 0 16
def msel (s : State) : Nat := s.fld 0x40040050 0 12

/-- Eligible frames of bobbin `b`. -/
def eligibleIn (s : State) (b : Nat) : Nat :=
  (s.bob.queue.filter fun e => e.bobbin == b && ((s.frame? e.frame).any fun f => f.eligible)).length

def bobBits (s : State) (o : Nat) : Nat :=
  let b := qsel s
  let x := s.bobbin b
  let m := meterOf s (msel s)
  match o with
  | 0x00 => fieldAt 0 18 (sharedFree s)
  | 0x04 => fieldAt 0 17 (guarHeld s)
  | 0x08 => fieldAt 0 9 (stewardFree s)
  | 0x0C => fieldAt 0 16 s.bob.cellCorr
  | 0x14 => (s.qcfg b 0).toNat
  | 0x18 => (s.qcfg b 1).toNat
  | 0x1C => fieldAt 0 18 (depthOf s b)
  | 0x20 => fieldAt 0 26 x.avg
  | 0x24 => (s.bob.queue.filter fun e => e.bobbin == b).length
  | 0x28 => eligibleIn s b
  | 0x30 => x.dropped
  | 0x34 => x.dropped / 2 ^ 32
  | 0x38 => x.marked
  | 0x3C => x.marked / 2 ^ 32
  | 0x40 => x.refused
  | 0x44 => x.refused / 2 ^ 32
  | 0x54 => fieldAt 0 24 (m.tc / 65536)
  | 0x58 => fieldAt 0 24 (m.tp / 65536)
  | 0x5C => m.green.toNat
  | 0x60 => m.yellow.toNat
  | 0x64 => m.red.toNat
  | _ => if 0x100 ≤ o ∧ o < 0x320 ∧ o % 0x20 = 0x10 then fieldAt 0 6 (copyCells s ((o - 0x100) / 0x20)) else 0

/-! ### ETH and CRD (Tables 10.8 and 10.9) -/

/-- ETH_PSTAT (R536). -/
def pstatBits (e : EPort) : Nat :=
  fieldAt 31 1 (b2n e.link) + fieldAt 30 1 (b2n e.anDone) + fieldAt 29 1 (b2n e.lpiRx) + fieldAt 28 1 (b2n e.lpiTx)
    + fieldAt 27 1 (b2n e.fullDup) + fieldAt 24 3 e.speed + fieldAt 20 4 e.mode + fieldAt 3 1 (b2n e.inTrans)

def ethBits (s : State) (o : Nat) : Nat :=
  if o < 0xC00 then
    let e := s.eport (o / 0x100)
    match o % 0x100 with
    | 0x00 => pstatBits e
    | 0x10 => e.rxFcs.toNat
    | 0x14 => e.rxRunt.toNat
    | 0x18 => e.rxSym.toNat
    | 0x1C => e.rxTrunc.toNat
    | 0x20 => e.rxOvf.toNat
    | 0x24 => e.editLate.toNat
    | 0x28 => e.lpiEnt.toNat
    | 0x2C => e.linkDown.toNat
    | _ => 0
  else if o = 0x1000 then fieldAt 31 1 (b2n s.eth.mdioBusy)
  else 0

/-- The hit counter of the selected rule. -/
def hitCount (s : State) : Nat := Tab.get (fun _ => 0) s.eth.hits (s.fld 0x40060040 0 13)

def crdBits (s : State) (o : Nat) : Nat :=
  match o with
  | 0x00 => fieldAt 16 16 ((bank s).num 0 4) + b2n s.eth.bank
  | 0x44 => hitCount s
  | 0x48 => fieldAt 0 16 (hitCount s / 2 ^ 32)
  | _ =>
    if 0x10 ≤ o ∧ o < 0x40 then (s.eport ((o - 0x10) / 4)).miss.toNat
    else if 0x80 ≤ o ∧ o < 0xC0 then fieldAt 0 3 (Tab.get (fun _ => []) s.eth.lanes ((o - 0x80) / 4)).length
    else if 0x100 ≤ o ∧ o < 0x130 then
      let e := s.eport ((o - 0x100) / 4)
      fieldAt 16 8 e.high + fieldAt 0 8 e.rx.length
    else 0

/-! ### CAN (Table 11.6) -/

def canStNum : CanState → Nat
  | .active => 0
  | .passive => 1
  | .busOff => 2
  | .integrating => 3

def canBits (s : State) (o : Nat) : Nat :=
  let c := s.canOf (o / 0x1000)
  if 0x8000 ≤ o then 0
  else match o % 0x1000 with
  | 0x04 => c.nbt.toNat
  | 0x08 => c.dbt.toNat
  | 0x0C => c.tdc.toNat
  | 0x10 => fieldAt 30 2 (canStNum c.st) + fieldAt 16 8 c.recv + fieldAt 0 9 c.tec
  | 0x18 => c.errs.toNat
  | 0x1C => c.busOffs.toNat
  | 0x20 => c.pexc.toNat
  | 0x24 => c.rxLost.toNat
  | 0x28 => c.txDrop.toNat
  | 0x2C => c.framesRx.toNat
  | 0x54 => fieldAt 8 1 (b2n c.fecFired) + fieldAt 0 8 c.fec
  | r => if 0x500 ≤ r then (canWinRead s (o / 0x1000) r).toNat else 0

/-! ### PLY (R640, Table 13.5, R643) -/

def plyRegBits (s : State) (k r : Nat) : Nat :=
  let p := s.plyOf k
  let v := plyValue s k
  match r with
  | 0x00 => fieldAt 4 1 (b2n p.holdover) + fieldAt 3 1 (b2n s.sys.limp) + fieldAt 1 1 (b2n p.chg.isSome)
  | 0x04 => v.1
  | 0x08 => fieldAt 0 16 (v.1 / 2 ^ 32)
  | 0x0C => fieldAt 0 30 v.2.1
  | 0x10 => plyIncrement s k
  | 0x14 => fieldAt 0 8 (plyIncrement s k / 2 ^ 32)
  | _ => 0

def plyBits (s : State) (o : Nat) : Nat :=
  match o with
  | 0 => s.reel.toNat
  | 4 => s.reel.toNat / 2 ^ 32
  | 8 => b2n s.sys.limp
  | _ =>
    if 0x100 ≤ o ∧ o < 0x300 then plyRegBits s ((o - 0x100) / 0x40) (o % 0x40)
    else if 0x1000 ≤ o ∧ o < 0x5810 then ledgerNum s (o - 0x1000) 4
    else 0

/-! ### SKN (Table 14.4) -/

def linkNum : LinkState → Nat
  | .off => 0
  | .monitoring => 1
  | .training => 2
  | .up10g => 3
  | .upSwift => 4
  | .swiftOnly => 5

/-- SKN_ID. -/
def sknIdBits (k : Skn) : Nat :=
  fieldAt 31 1 (b2n k.assigned) + fieldAt 30 1 (b2n k.master) + fieldAt 29 1 (b2n k.conflict) + fieldAt 28 1 (b2n k.standby)
    + fieldAt 16 10 k.masterId.toNat + fieldAt 0 10 k.dev.toNat

/-- Credits of a link: 2 bits for each class, and one management credit bit for each (R658, R660). -/
def credBits (k : Link) : Nat :=
  ((List.range 8).map fun tc => fieldAt (2 * tc) 2 (credits k tc) + fieldAt (16 + tc) 1 (mcredits k tc)).sum

def linkBits (k : Link) (r : Nat) : Nat :=
  match r with
  | 0x00 => fieldAt 29 3 (linkNum k.st) + fieldAt 28 1 (b2n k.pathClosed) + fieldAt 27 1 (b2n k.locked)
  | 0x08 => credBits k
  | 0x10 => k.txFrm.toNat
  | 0x14 => k.rxFrm.toNat
  | 0x18 => k.crcErr.toNat
  | 0x1C => k.aborts.toNat
  | 0x20 => k.lost.toNat
  | 0x24 => k.hopDrop.toNat
  | 0x28 => k.noRoute.toNat
  | 0x2C => k.credStall.toNat
  | 0x30 => k.lockLoss.toNat
  | _ => 0

def sknBits (s : State) (o : Nat) : Nat :=
  match o with
  | 0 => sknIdBits s.skn
  | 4 => fieldAt 31 1 (b2n s.skn.closed) + fieldAt 20 11 s.skn.members.length + fieldAt 10 10 s.skn.hopsE + fieldAt 0 10 s.skn.hopsW
  | _ => if 0x100 ≤ o ∧ o < 0x300 then linkBits (s.linkOf ((o - 0x100) / 0x100)) (o % 0x100) else 0

/-! ### PNL and TAG (Tables 15.6 and 15.7) -/

/-- Keys `lo` to `lo + n - 1` that a test holds of. -/
def keyBits (s : State) (lo n : Nat) (f : Key → Bool) : Nat :=
  ((List.range n).map fun i => if f (s.key (lo + i)) then 2 ^ i else 0).sum

def pnlBits (s : State) (o : Nat) : Nat :=
  match o with
  | 0x50 => fieldAt 16 7 s.pnl.queue.length + fieldAt 0 8 s.pnl.lost
  | 0x58 => s.pnl.popMs
  | 0x80 => fieldAt 8 8 (keyBits s 128 8 Key.masked) + keyBits s 128 8 Key.pressed
  | _ =>
    if 0x60 ≤ o ∧ o < 0x70 then keyBits s (8 * (o - 0x60)) 32 Key.pressed
    else if 0x70 ≤ o ∧ o < 0x80 then keyBits s (8 * (o - 0x70)) 32 Key.masked
    else if 0x90 ≤ o ∧ o < 0xA0 then (s.encoder ((o - 0x90) / 4)).count.toNat
    else 0

/-- An amplitude and a signed phase in one word. -/
def ampPhase (amp : Nat) (phase : Int) : Nat := fieldAt 16 16 amp + (BitVec.ofInt 16 phase).toNat

def tagBits (s : State) (o : Nat) : Nat :=
  let t := s.tag
  match o with
  | 0x00 => fieldAt 31 1 (b2n t.field) + fieldAt 30 1 (b2n t.secured) + fieldAt 29 1 (b2n t.antFault) + fieldAt 16 8 Config.mfr.toNat
  | 0x04 => fieldAt 16 16 t.pingSkip.toNat + t.reads.toNat
  | 0x0C => ampPhase t.baseAmp t.basePhase
  | 0x10 => ampPhase t.lastAmp t.lastPhase
  | 0x14 => fieldAt 16 16 t.ackPend.toNat + Mem.num s.dst.nameplate (72 * 32) 2
  | 0x18 => fieldAt 0 16 t.authFail
  | _ => 0

/-! ### ROV (Table 16.5) -/

def rovBits (s : State) (o : Nat) : Nat :=
  match o with
  | 0x00 => fieldAt 31 1 (b2n s.rov.running) + fieldAt 30 1 (b2n (rovWaiting s))
  | 0x04 => s.rov.ready.toNat
  | 0x08 => (rovInUse s).toNat
  | 0x0C => s.rov.vcount.toNat
  | 0x10 => fieldAt 0 22 s.rov.pc
  | 0x14 => s.rov.gaps.toNat
  | _ => 0

/-! ### MBX, BAR0 and BAR2 (Tables 5.2, 5.3, 5.6, 5.10, 17.3) -/

def mbxBits (s : State) (o : Nat) : Nat :=
  match o with
  | 0 => s.hl.hfull.toNat
  | 4 => s.hl.dfull.toNat
  | 8 => (s.rd mbWdrop).toNat
  | _ =>
    if 0x1000 ≤ o ∧ o < 0x3000 then s.hl.dev.num (o - 0x1000) 4
    else if 0x3000 ≤ o ∧ o < 0x5000 then s.hl.hst.num (o - 0x3000) 4
    else 0

/-- No authentic image (R94, Table 5.3). -/
def imageNone (s : State) : Bool := s.sys.krec.imgNone

/-- HL_MODE (R277). -/
def hlModeBits (s : State) : Nat := fieldAt 31 1 (b2n s.hl.ready) + fieldAt 30 1 (b2n (imageNone s)) + sysModeBits s

/-- The mailbox windows as the host reads them: 0 until the steward serves them (R305). -/
def hostWindow (s : State) (o n : Nat) : Nat := if s.hl.ready then s.hl.hst.num o n else 0

/-- Steward 3.2 runs: from kindle step 7 on (R93), whether or not it serves the mailboxes yet. -/
def stewardServes (s : State) : Bool := stewardRuns s && (s.sys.mode != .kindle || decide (7 ≤ s.sys.kstep))

/-- What the host sees: the reset link state of Table 5.2. -/
def bar0Bits (s : State) (o : Nat) : Nat :=
  match o with
  | 0x00 => 0x71401D9A
  | 0x04 => fieldAt 8 8 Config.stepping
  | 0x08 => if stewardServes s && !imageNone s then Config.fwver else 0
  | 0x0C => Config.serial.toNat
  | 0x10 => Config.serial.toNat / 2 ^ 32
  | 0x14 => fieldAt 31 1 (b2n s.skn.assigned) + fieldAt 0 10 s.skn.dev.toNat
  | 0x40 => hlModeBits s
  | 0x44 => s.hl.beat.toNat
  | 0x100 => s.hl.hfull.toNat
  | 0x104 => s.hl.dfull.toNat
  | 0x1800 => s.hl.pba.toNat
  | _ =>
    if 0x1000 ≤ o ∧ o < 0x1200 then (s.hl.msix.num (o - 0x1000) 4)
    else if 0x2000 ≤ o ∧ o < 0x4000 then hostWindow s (o - 0x2000) 4
    else 0

/-- Window base of ring `r`; its registers (Table 5.6). -/
def ringBase (r : Nat) : Nat := bar2Base + 0x100000 * r
def ringEnabled (s : State) (r : Nat) : Bool := bitOf (s.rd (ringBase r)) 31
def ringIsRx (s : State) (r : Nat) : Bool := bitOf (s.rd (ringBase r)) 30
/-- An error of RING_ERR but BADCFG stops the ring (Table 5.6). -/
def ringStopped (s : State) (r : Nat) : Bool := decide (s.fld (ringBase r + 0x20) 0 3 ≠ 0)
def ringDben (s : State) (r : Nat) : Bool := bitOf (s.rd (ringBase r)) 29
def ringDbsel (s : State) (r : Nat) : Nat := s.fld (ringBase r) 24 5
def ringSize' (s : State) (r : Nat) : Nat := 64 * 2 ^ s.fld (ringBase r) 0 4
def ringBob (s : State) (r : Nat) : Nat := s.fld (ringBase r + 4) 0 16
def ringTail (s : State) (r : Nat) : Nat := s.fld (ringBase r + 8) 0 14

/-- Descriptors from HEAD up to TAIL. -/
def descsTail (s : State) (r : Nat) : Nat := (ringTail s r + ringSize' s r - (s.ring r).head % ringSize' s r) % ringSize' s r

/-- Address of field `o` of the `i`-th descriptor from HEAD on, in the descriptor arrays (R299). -/
def descAddr (s : State) (r i o : Nat) : Nat := 0x100000 * r + 0x1000 + 32 * (((s.ring r).head + i) % ringSize' s r) + o
/-- BUFLEN of that descriptor, and its CTRL. -/
def descBuf (s : State) (r i : Nat) : Nat := s.hl.desc.num (descAddr s r i 8) 2
def descCtrl (s : State) (r i : Nat) : Nat := s.hl.desc.num (descAddr s r i 10) 2

/-- Descriptors the Farelle holds: from HEAD up to TAIL, as far as OWN is 1 (R300). -/
def descsGiven (s : State) (r : Nat) : Nat := ((List.range (descsTail s r)).takeWhile fun i => (descCtrl s r i).testBit 15).length

/-- Descriptors in flight: of bursts that have not completed. -/
def descsBusy (s : State) (r : Nat) : Nat := ((s.hl.bursts.filter fun b => b.ring == r).map Burst.descs).sum

/-- How many of the descriptors from place `i` on, of `n`, a frame of `len` bytes fills; none when they are too few. -/
def descsFor (s : State) (r : Nat) : Nat → Nat → Nat → Option Nat
  | 0, _, len => if len = 0 then some 0 else none
  | n + 1, i, len =>
    if len = 0 then some 0
    else (descsFor s r n (i + 1) (len - descBuf s r i)).map (· + 1)

/-- A ring that is enabled is the one bound to its bobbin unless a lower one that is enabled names the same (R297: a bobbin
is bound to at most one ring; which one is the model's reading, log 23). -/
def ringBound (s : State) (r : Nat) : Bool :=
  ringEnabled s r && (List.range r).all fun q => !(ringEnabled s q && ringBob s q == ringBob s r)

/-- The RX ring bound to bobbin `b`: one that is enabled, else the lowest. -/
def rxRingOf (s : State) (b : Nat) : Option Nat :=
  let rs := (List.range 64).filter fun r => ringIsRx s r && ringBob s r == b
  match rs.find? fun r => ringBound s r with
  | some r => some r
  | none => rs.head?

/-- An RX ring can take its bobbin's head frame: it is enabled, not stopped, and has descriptors for the whole frame. -/
def ringTakes (s : State) (r b : Nat) : Bool :=
  ringBound s r && !ringStopped s r &&
    match s.bob.queue.find? fun e => e.bobbin == b with
    | none => true
    | some e => (descsFor s r (descsGiven s r - descsBusy s r) (descsBusy s r) (((s.frame? e.frame).map fun f => f.bytes.length).getD 0)).isSome

/-- Bobbin `b` stalls (R769): it holds a cell and its ring cannot take its head frame, or its egress is the host and it has
no ring. -/
def bobStalled (s : State) (b : Nat) : Bool :=
  decide (0 < depthOf s b) && match rxRingOf s b with
    | some r => !ringTakes s r b
    | none => decide (bobEgress s b = 15)

/-- RING_STALL (R779). -/
def stallBits (s : State) (r : Nat) : Nat :=
  let b := ringBob s r
  let ms := match (s.ring r).stallSince with
    | some t => if bobStalled s b then min 65535 ((s.reel - t).toNat / 1000000) else 0
    | none => 0
  fieldAt 31 1 (b2n (ringIsRx s r && (s.bobbin b).refusing)) + ms

def bar2Bits (s : State) (o : Nat) : Nat :=
  let r := o / 0x100000
  match o % 0x100000 with
  | 0x0C => fieldAt 0 14 (s.ring r).head
  | 0x10 => (s.ring r).frames.toNat
  | 0x24 => stallBits s r
  | w => if 0x1000 ≤ w ∧ w < 0x1000 + 32 * 16384 then s.hl.desc.num o 4 else 0

/-! ### Any register -/

/-- The bits of register `a` that only the hardware changes. -/
def roBits (s : State) (a : Nat) : Word :=
  BitVec.ofNat 32 (
    if bar2Base ≤ a then bar2Bits s (a - bar2Base)
    else if bar0Base ≤ a then bar0Bits s (a - bar0Base)
    else
      let o := a % 65536
      match a / 65536 with
      | 0x4000 => sysBits s o
      | 0x4001 => dstBits s o
      | 0x4002 => whlBits s o
      | 0x4003 => flyBits s o
      | 0x4004 => bobBits s o
      | 0x4005 => ethBits s o
      | 0x4006 => crdBits s o
      | 0x4007 => canBits s o
      | 0x4008 => plyBits s o
      | 0x4009 => sknBits s o
      | 0x400A => pnlBits s o
      | 0x400B => tagBits s o
      | 0x400C => rovBits s o
      | 0x400D => mbxBits s o
      | 0x400E => pwrBits s o
      | _ => 0)

end Sys2Proof.Machine
end

