-- ==== Sys2Proof/Machine/HostOps.lean ====
section
/-!
DEFINITION. The host link's operations (chapter 05): when the links serve, mailboxes and their full flags, doorbells,
HL_HOSTRST, and what the host's reads and writes of BAR0 and BAR2 do.
-/

namespace Sys2Proof.Machine

/-- The host link changed. -/
def setHl (f : Hl → Hl) (s : State) : State := { s with hl := f s.hl }
/-- One bit of a flag word. -/
def bitW (n : Nat) : Word := BitVec.ofNat 32 (2 ^ n)

/-! ### Which link serves (R270, R271, R305) -/

/-- The selected link serves the host in the modes in which the steward runs (Table 5.8). -/
def linkMode (s : State) : Bool := stewardRuns s

/-- The SPI host port serves; PCIe serves. -/
def spiServes (s : State) : Bool := spiSelected s && linkMode s
def pcieServes (s : State) : Bool := !spiSelected s && s.hl.pcieUp && linkMode s
/-- A host link serves. -/
def hostServes (s : State) : Bool := spiServes s || pcieServes s
/-- The DMA rings run: PCIe serves in Spin, Brace or Service. -/
def ringsRun (s : State) : Bool := pcieServes s && s.sys.mode != .kindle

/-! ### Doorbells (R286 to R289, R306) -/

/-- Interrupt messages for the doorbells of a mask, in ascending order. -/
def msgs (m : Word) (s : State) : State :=
  (List.range 32).foldl (fun t n => if bitOf m n then hostMsg n t else t) s

/-- A write of DB_STATUS: `mask` clears, and what sets in the same access stays set. -/
def doorbellClear (mask setNow : Word) (s : State) : State :=
  let old := s.rd dbStatus
  msgs (setNow &&& ~~~ old &&& ~~~ s.rd dbMask)
    { s with regs := setReg s.regs dbStatus ((old &&& ~~~ mask) ||| setNow) }

/-- A write of DB_MASK: a doorbell that is unmasked while set sends its interrupt. -/
def dbMaskWrite (v : Word) (s : State) : State :=
  msgs (s.rd dbStatus &&& s.rd dbMask &&& ~~~ v) (s.regWrite dbMask v)

/-! ### Mailboxes (R278 to R285) -/

/-- Byte address of a mailbox's tail word in a window memory. -/
def tailAt (n : Nat) : Nat := 256 * n + 252

/-- The host writes bytes of device-bound mailbox `n` from offset `o` on: into a full one they are discarded and WDROP sets;
an access that covers the tail word's first byte sets the full flag and raises line 14 (R279, R282, R290). -/
def devBytes (n o : Nat) (bs : List Byte) (s : State) : State :=
  if bitOf s.hl.dfull n then s.setBits mbWdrop (bitW n)
  else
    let t := setHl (fun h => { h with dev := h.dev.write (256 * n + o) bs }) s
    if o ≤ 252 ∧ 252 < o + bs.length then raiseLine 14 (setHl (fun h => { h with dfull := h.dfull ||| bitW n, order := h.order ++ [n] }) t) else t

/-- The host writes a word of device-bound mailbox `n` at offset `o`. -/
def devWrite (n o : Nat) (v : Word) (s : State) : State := devBytes n o (leBytes 4 v.toNat) s

/-- The host's read of the tail word of host-bound mailbox `n` completes: its full flag clears (R279, R284). -/
def hostTailRead (n : Nat) (s : State) : State := setHl (fun h => { h with hfull := h.hfull &&& ~~~ bitW n }) s

/-- The steward's read of a device-bound tail word: its full flag clears; line 14 follows the flags (R279, R314). -/
def devTailRead (n : Nat) (s : State) : State :=
  let t := setHl (fun h => { h with dfull := h.dfull &&& ~~~ bitW n, order := h.order.erase n }) s
  if t.hl.dfull = 0 then clearLine 14 t else t

/-- The doorbell that MB_DBMAP names for host-bound mailbox `n` (Table 5.2). -/
def dbMapOf (s : State) (n : Nat) : Nat := s.fld (bar0Base + 0x120 + 4 * (n / 4)) (8 * (n % 4)) 5

/-- The tail word of host-bound mailbox `n` has been written: its full flag sets, and a doorbell-signalled mailbox raises
its doorbell (R279, R286). -/
def hostFull (n : Nat) (s : State) : State :=
  let t := setHl (fun h => { h with hfull := h.hfull ||| bitW n }) s
  if bitOf (s.rd mbHmode) n then ringDoorbell (dbMapOf s n) t else t

/-- The steward writes a word of host-bound mailbox `n` at offset `o`. -/
def hstWrite (n o : Nat) (v : Word) (s : State) : State :=
  let t := setHl (fun h => { h with hst := h.hst.write (256 * n + o) (leBytes 4 v.toNat) }) s
  if o = 252 then hostFull n t else t

/-- A whole message with its tail word into host-bound mailbox `n`. -/
def hstMessage (n seq : Nat) (msg : List Byte) (s : State) : State :=
  let tail := leBytes 2 (msg.length % 512) ++ leBytes 2 seq
  hostFull n (setHl (fun h => { h with hst := (h.hst.write (256 * n) msg).write (tailAt n) tail }) s)

/-! ### HL_HOSTRST (R276, R309) -/

/-- A write of HL_HOSTRST: 0x0000_0203 performs the WARM reset of command 0x0203. -/
def hostReset (v : Word) (s : State) : State := if v = 0x203 then cmdReset s else s

/-! ### Ring registers (R297 to R300) -/

/-- RING_ERR of ring `r`; an error sets. -/
def ringErr (r bit : Nat) (s : State) : State := s.setBits (ringBase r + 0x20) (bitW bit)
/-- SIZEERR, UR, CTO, BADCFG. -/
def eSize : Nat := 0
def eUr : Nat := 1
def eCto : Nat := 2
def eBadcfg : Nat := 3

/-- A write of RING_CTRL, RING_BOB, RING_WBLO or RING_WBHI (R298): while ENABLE is 1 direction, size, bobbin and
write-back address stay, and BADCFG sets; of RING_CTRL the other fields are written. -/
def ringCfgWrite (r off : Nat) (v : Word) (s : State) : State :=
  let a := ringBase r + off
  if !ringEnabled s r then s.regWrite a v
  else if off = 0 then
    let v' := putField (putField v 30 1 (b2n (ringIsRx s r))) 0 4 (s.fld a 0 4)
    let t := s.regWrite a v'
    if t.rd a = (s.regWrite a v).rd a then t else ringErr r eBadcfg t
  else ringErr r eBadcfg s

/-- BUFLEN of a descriptor: 64 to 16,320, a multiple of 64 (Table 5.7). -/
def bufOk (n : Nat) : Bool := decide (64 ≤ n ∧ n ≤ 16320 ∧ n % 64 = 0)

/-- A descriptor among those given has its BUFLEN outside the range (R311). -/
def badDesc (s : State) (r : Nat) : Bool := (List.range (descsGiven s r)).any fun i => !bufOk (descBuf s r i)

/-- A stall that has ended no longer counts (R769, R771). -/
def unstall (r : Nat) (s : State) : State :=
  if bobStalled s (ringBob s r) then s else s.setRing r fun x => { x with stallSince := none }

/-- A write of RING_TAIL hands descriptors to the Farelle; an enabled ring stops on a bad one (R300, R311). -/
def ringTailWrite (r : Nat) (v : Word) (s : State) : State :=
  let t := s.regWrite (ringBase r + 8) v
  unstall r (if ringEnabled t r && badDesc t r then ringErr r eSize t else t)

/-! ### The host's words (R271, R275, R276) -/

/-- A BAR0 offset that the SPI host port reaches. -/
def spiReaches (o : Nat) : Bool := decide (o < 0x1000) || decide (0x2000 ≤ o)

/-- A write of the MSI-X table: a vector that pends is sent when its entry is unmasked. -/
def msixWrite (o : Nat) (v : Word) (s : State) : State :=
  let t := setHl (fun h => { h with msix := h.msix.write o (leBytes 4 v.toNat) }) s
  let n := o / 16
  if bitOf t.hl.pba n && !msixMasked t.hl n then
    hostMsg n (setHl (fun h => { h with pba := h.pba &&& ~~~ bitW n }) t)
  else t

/-- The host writes a word of BAR0. -/
def bar0Write (o : Nat) (v : Word) (s : State) : State :=
  if spiSelected s && !spiReaches o then s
  else if o = 0x48 then hostReset v s
  else if o = 0x110 then doorbellClear v 0 s
  else if o = 0x114 then dbMaskWrite v s
  else if 0x1000 ≤ o ∧ o < 0x1200 then msixWrite (o - 0x1000) v s
  else if 0x2000 ≤ o ∧ o < 0x4000 then devWrite ((o - 0x2000) / 256) (o % 256) v s
  else s.regWrite (bar0Base + o) v

/-- The host reads a word of BAR0: its value, and the tail flag it clears. -/
def bar0Value (s : State) (o : Nat) : Word :=
  if spiSelected s && !spiReaches o then 0
  else readFields (fieldsAt (bar0Base + o)) (s.rd (bar0Base + o)) ||| roBits s (bar0Base + o)

/-- The host-bound mailbox whose tail word lies at BAR0 offset `o`. -/
def bar0Tail (o : Nat) : Option Nat := if 0x2000 ≤ o ∧ o % 256 = 252 then some ((o - 0x2000) / 256) else none

/-- The host writes a word of BAR2: ring registers and descriptors. -/
def bar2Write (o : Nat) (v : Word) (s : State) : State :=
  let r := o / 0x100000
  let w := o % 0x100000
  if spiSelected s then s
  else if w = 0 ∨ w = 4 ∨ w = 0x18 ∨ w = 0x1C then unstall r (ringCfgWrite r w v s)
  else if w = 8 then ringTailWrite r v s
  else if 0x1000 ≤ w ∧ w < 0x1000 + 32 * 16384 then setHl (fun h => { h with desc := h.desc.write o (leBytes 4 v.toNat) }) s
  else s.regWrite (bar2Base + o) v

end Sys2Proof.Machine
end

