-- ==== Sys2Proof/Machine/Time.lean ====
section
/-!
DEFINITION. The meanings of the ply commands (chapter 13).
-/

namespace Sys2Proof.Machine

/-- The change the change registers of ply `k` hold (R615), for the bits of PLY_CHGGO: STEP, INCR, ATTICK. A named tick that
has passed is the next tick (log 29). -/
def chgOf (s : State) (k : Nat) (v : Word) : PlyChange :=
  let b := plyBase k
  let incr := s.fld (b + 0x30) 0 8 * 2 ^ 32 + (s.rd (b + 0x2C)).toNat
  let named : Tick := BitVec.ofNat 64 ((s.rd (b + 0x38)).toNat * 2 ^ 32 + (s.rd (b + 0x34)).toNat)
  { at' := if bitOf v 2 && decide (s.reel < named) then named else s.reel + 1
    step := if bitOf v 0 then
        some (bitOf (s.rd (b + 0x24)) 31, s.fld (b + 0x24) 0 16 * 2 ^ 32 + (s.rd (b + 0x20)).toNat, s.fld (b + 0x28) 0 30)
      else none
    incr := if bitOf v 1 then some (clampNat incrLo incrHi incr) else none }

/-- PLY_CHANGE_POST (R615): a write of PLY_CHGGO. A write that names neither a step nor an increment posts nothing. -/
def execPlyChangePost (k : Fin 8) (v : Word) (s : State) : Host.Outcome State Fault Refusal :=
  if bitOf v 0 || bitOf v 1 then .next (postChange k (chgOf s k v) s) else .next s

/-- PLY_CHANGE_APPLY (R615 to R617). -/
def execPlyChangeApply (k : Fin 8) (s : State) : Host.Outcome State Fault Refusal := .next (applyChange k s)

/-- PLY_SECLO read (R636): the low seconds are returned, the high seconds and the nanoseconds latched. -/
def readSeclo (k : Nat) (s : State) : Word × State :=
  let v := plyValue s k
  let b := plyBase k
  (BitVec.ofNat 32 v.1, { s with
    latch := ((s.latch.set (fun _ => none) (b + 8) (some (BitVec.ofNat 32 (v.1 / 2 ^ 32)))).set
      (fun _ => none) (b + 12) (some (BitVec.ofNat 32 v.2.1))) })

/-- PLY_SECLO_READ (R636). -/
def execPlySecloRead (k : Fin 8) (s : State) : Host.Outcome State Fault Refusal :=
  let r := readSeclo k s
  .next { r.2 with rdata := r.1 }

/-- A synchronisation of ply `k` (R627): theta beyond STEPTHR steps the ply at once and is logged, drift then 0; else the
drift integrates, in 2^-64, and the increment follows, to the nearest 2^-32 ns as in Table 13.7. Synchronisation ends
holdover (R630). -/
def servo (k : Nat) (y : SyncSample) (s : State) : State :=
  match tickToPly s k y.tick 0 with
  | none => s
  | some (sec, ns) =>
    let theta : Int := (sec * nsPerSec + ns : Nat) - (y.masterNs : Int)
    let s1 := s.setPly k fun p => { p with holdover := false }
    let next := s.reel + 1
    if (tsStepThr s k : Int) < theta.natAbs then
      let n := theta.natAbs
      let s2 := postChange k { at' := next, step := some (decide (0 < theta), n / nsPerSec, n % nsPerSec), incr := none }
        (s1.setPly k fun p => { p with drift := 0 })
      logFault 0x60 8 ([BitVec.ofNat 8 k, 0, 0, 0, 0, 0, 0, 0] ++ leBytes 8 (BitVec.ofInt 64 theta).toNat) s2
    else if y.interval = 0 then s1
    else
      let unit : Int := 1024 * (y.interval : Int)
      let drift := (s.plyOf k).drift + (tsKi s k : Int) * theta * 2 ^ 64 / unit
      let incr := ((2 ^ 64 - drift - (tsKp s k : Int) * theta * 2 ^ 64 / unit + 2 ^ 31) / 2 ^ 32).toNat
      postChange k { at' := next, step := none, incr := some (clampNat incrLo incrHi incr) }
        (s1.setPly k fun p => { p with drift := drift })

/-- TIME_SYNC (R627, R631): for ROLE 1 to 4, outside limp state. -/
def execTimeSync (k : Fin 8) (y : SyncSample) (s : State) : Host.Outcome State Fault Refusal :=
  let role := tsService s k
  if 1 ≤ role ∧ role ≤ 4 ∧ s.sys.limp = false then .next (servo k y (reachTick y.tick s)) else .next s

/-- TIME_SERVICE_SEND (R506, R625): a master-capable service sends its event message at TC7 on its PORT, whose SFD is
ledgered. The manual does not name the bobbin, and the message is IEEE 1588's: BOBBIN and TAG are free values. -/
def execTimeServiceSend (k : Fin 8) (s : State) : Host.Outcome State Fault Refusal :=
  let role := tsService s k
  let p := tsPort s k
  if (role = 2 ∨ role = 3) ∧ s.sys.limp = false ∧ p < 12 ∧ (s.eport p).link = true then
    let w := freeNow s
    let s1 := (tookFree s).setEgress p fun g => { g with framesOut := g.framesOut + 1 }
    .next (ledgerTx p s.reel (bitsOf w 0 16) (bitsOf w 16 16) s1)
  else .next s

/-- HOLDOVER (R630): the ply keeps its increment; HOLDOVER is logged. -/
def execHoldover (k : Fin 8) (s : State) : Host.Outcome State Fault Refusal :=
  let role := tsService s k
  if 1 ≤ role ∧ role ≤ 4 ∧ (s.plyOf k).holdover = false then
    .next (logFault 0x61 8 [BitVec.ofNat 8 k] (raiseLine 9 (s.setPly k fun p => { p with holdover := true })))
  else .next s

end Sys2Proof.Machine
end

