-- ==== Sys2Proof/Machine/Skein.lean ====
section
/-!
DEFINITION. The meanings of the skein's commands (chapter 14) and of cascade time (chapter 13).
-/

namespace Sys2Proof.Machine

/-- What makes PLY7 of the master follow ply `src` (R628): its increment where that differs, a step to its value where that is
off by a nanosecond or more; nothing where both agree. -/
def followChange (src : Nat) (s : State) : Option PlyChange :=
  let d : Int := (plyNow s src : Int) - (plyNow s 7 : Int)
  let n := d.natAbs / 2 ^ 32
  let incr := if plyIncrement s src = plyIncrement s 7 then none else some (plyIncrement s src)
  let step := if n = 0 then none else some (decide (d < 0), n / nsPerSec, n % nsPerSec)
  if incr.isNone && step.isNone then none else some { at' := s.reel + 1, incr := incr, step := step }

/-- A time block goes out on link `l`, ledgered (R682). -/
def timeTx (l : Nat) (b : TimeBlock) (s : State) : State :=
  if canSend s l 2 then ledgerSkein l 2 s.reel (sknTx l (.time l b) s) else s

/-- CASCADE_TIME_BLOCK (R628): the master's PLY7 follows the ply SRCPLY names, or runs free when that is PLY7 itself; a time
block with its origin goes out on both links, each ledgered (R682). -/
def execCascadeTimeBlock (s : State) : Host.Outcome State Fault Refusal :=
  if !s.skn.master || s.sys.mode == .drowse then .next s
  else
    let s1 := match (if tsSrc s 7 = 7 then none else followChange (tsSrc s 7) s) with
      | none => s
      | some c => postChange 7 c s
    let b : TimeBlock := { originNs := plyNow s 7 / 2 ^ 32, corrNs := 0, syncInt := tsSyncInt s 7 }
    .next (timeTx 1 b (timeTx 0 b s1))

/-- CASCADE_TIME_RECEIVE (R627, R628, R682): a member takes the block from the direction with fewer hops to the master, K0
when equal; its ledgered arrival with the link delay corrects PLY7, and the block goes on with residence and delay added. -/
def execCascadeTimeReceive (l : Fin 2) (b : TimeBlock) (arrival : Tick) (s : State) : Host.Outcome State Fault Refusal :=
  if !carries s l 2 then .next s
  else
    let s0 := ledgerSkein l 2 arrival (reachTick arrival (sknRx l s))
    let near := if s.skn.hopsE ≤ s.skn.hopsW then 0 else 1
    if s.skn.master || !s.skn.assigned || l.val ≠ near then .next s0
    else
      let delay := (s.linkOf l).delayNs
      let y : SyncSample := { tick := arrival, masterNs := b.originNs + b.corrNs + delay
                              interval := b.originNs - (s.skn.lastOrigin.getD b.originNs) }
      let s1 := if s.sys.limp then s0 else servo 7 y s0
      let s2 := { s1 with skn := { s1.skn with lastOrigin := some b.originNs } }
      .next (timeTx (1 - l) { b with corrNs := b.corrNs + delay + (s2.reel - arrival).toNat } s2)

/-- LINK_DELAY_EXCHANGE (R628, R682): the link's delay as the two-way exchange measured it; its request and response are
ledgered. -/
def execLinkDelayExchange (l : Fin 2) (delayNs : Nat) (s : State) : Host.Outcome State Fault Refusal :=
  if canSend s l 3 then
    .next (ledgerSkein l 4 s.reel (ledgerSkein l 3 s.reel (s.setLink l fun k => { k with
      delayNs := delayNs, txFrm := k.txFrm + 1, rxFrm := k.rxFrm + 1 })))
  else .next s

/-- This device's JOIN goes out on link `l`, or on the other (R667). -/
def sendJoin (l : Nat) (s : State) : State :=
  sknTxVia l 6 (fun k => .join k { serial := Config.serial, hint := s.sys.straps.hint, mode := BitVec.ofNat 3 (modeNum s.sys.mode) }) s

/-- What a device that has just locked a link sends: in Kindle-fault its fault record, by the output it drives (R671, R673);
else the master its TOPOLOGY, any other its JOIN to the master it knows (R667, R677). -/
def joinOn (l : Nat) (s : State) : State :=
  if s.sys.kfault then
    let o := if txOn s l then l else 1 - l
    sknTx o (.fault o s.sys.kfCode s.sys.kfRail) s
  else if s.skn.master then sendTopology { s with skn := { s.skn with joined := true } }
  else if s.skn.masterSerial.isSome then sendJoin l s
  else s

/-- A master whose link on one side has locked has it back in its ring: for data at 10 Gb/s, else for management only (R675). -/
def linkBack (l : Nat) (s : State) : State :=
  let me := (posOf s s.skn.dev.toNat).getD 0
  let n := max 1 (ringSize s)
  let x := if l = 0 then me else (me + n - 1) % n
  let b := s.skn.broken.erase x
  { s with skn := { s.skn with
    broken := if (s.linkOf l).st = .up10g then b else b ++ [x], closed := linkLive s l && linkLive s (1 - l) } }

/-- SKEIN_LOCK (R647, R649, R671, R673): a receiver that trains or monitors has locked. The path that begins at its side
opens, at the rate locked at; a link that fell back to swift is SWIFTONLY. -/
def execSkeinLock (l : Fin 2) (atSwift : Bool) (s : State) : Host.Outcome State Fault Refusal :=
  let k := s.linkOf l
  let may := linkAllowed s l && (k.st == .monitoring || k.st == .training)
    && (if s.sys.kfault then k.kfOpen && atSwift
        else s.sys.mode == .spin || s.sys.mode == .brace || s.sys.mode == .service || s.sys.mode == .drowse || s.sys.kstep == 7)
  if !may then .next s
  else
    let st : LinkState := if !atSwift then .up10g else if k.fellBack then .swiftOnly else .upSwift
    .next (joinOn l (linkBack l ((raiseLine 10 s).setLink l fun k => { k with
      st := st, locked := true, pathClosed := false, cred := [], mcred := [], changed := s.reel })))

/-- SKEIN_LINK_DOWN (R648, R674): two missed alignment positions, or a partner silent for 2 µs. -/
def execSkeinLinkDown (l : Fin 2) (lostFrames : Nat) (s : State) : Host.Outcome State Fault Refusal :=
  if linkLive s l then
    .next (linkLost l (s.setLink l fun k => { k with
      lost := k.lost + BitVec.ofNat 32 lostFrames, lockLoss := k.lockLoss + 1, fellBack := false }))
  else .next s

/-- SWIFT_FALLBACK (R649). -/
def execSwiftFallback (l : Fin 2) (s : State) : Host.Outcome State Fault Refusal :=
  if linkAllowed s l && ((s.linkOf l).st == .training || (s.linkOf l).st == .monitoring) then
    .next (s.setLink l fun k => { k with st := .training, fellBack := true })
  else .next s

/-- SWIFTONLY_RETRY (R649): the link tries 10 Gb/s. -/
def execSwiftonlyRetry (l : Fin 2) (s : State) : Host.Outcome State Fault Refusal :=
  if (s.linkOf l).st = .swiftOnly then
    .next (s.setLink l fun k => { k with st := .training, locked := false, fellBack := false, changed := s.reel })
  else .next s

/-- SKEIN_RATE_FOLLOW (R650): to swift with the partner, or back to 10 Gb/s training with it. -/
def execSkeinRateFollow (l : Fin 2) (toSwift : Bool) (s : State) : Host.Outcome State Fault Refusal :=
  let k := s.linkOf l
  if toSwift && k.st == .up10g then .next (s.setLink l fun k => { k with st := .upSwift, changed := s.reel })
  else if !toSwift && (k.st == .upSwift || k.st == .swiftOnly) then
    .next (s.setLink l fun k => { k with st := .training, locked := false, fellBack := false, changed := s.reel })
  else .next s

/-- A data frame for this device is offered for admission with ingress 12 or 13 and the header's pre-colour (R652). -/
def deliverData (l : Nat) (h payload : List Byte) (s : State) : State :=
  let (id, s1) := newFrame (12 + l) 0 s
  let s2 := s1.setFrame id fun f => { f with bytes := payload, whole := true, thru := false }
  let s3 := s2.setEgress (12 + l) fun g => { g with framesIn := g.framesIn + 1 }
  offerFrame id { bobbin := hBobbin h, need := headroom s (12 + l), len := payload.length, meter := 0, pre := hColour h
                  tx := false, ect := ectOf payload } s3

/-- A frame is delivered here: data to its bobbin; a wake frame in Drowse fires wake source 0 and is acknowledged (R678); a
member's Kindle-fault record is logged on the master (R108). The other management kinds have commands of their own. -/
def deliver (l : Nat) (h payload : List Byte) (s : State) : State :=
  if hKind h = 0 then deliverData l h payload s
  else if hKind h = 9 && (s.sys.mode == .drowse || s.sys.entering) then
    wakeFire 1 (sknTx (sideTo s (hSrc h)) (.ack (BitVec.ofNat 10 (hSrc h))) s)
  else if hKind h = 1 && s.skn.master && payload.length == 11 then logFault 0x73 9 payload s
  else s

/-- A frame that is bad at its end has been forwarded by link `l` as far as it came when it could go; it ends there with ABORT
(R657). -/
def abortOn (l : Nat) (h payload : List Byte) (s : State) : State :=
  if transitMay s l h then sknSend (.abort l) (transitGo l h payload s) else s

/-- SKEIN_FRAME_RECEIVE (R651 to R653, R657 to R659): a header with a bad check ends the frame; a frame with a bad FCS, or one its
sender aborted, is discarded and counted, and aborted where it is being forwarded. A good one loses one hop; it is delivered
when DST names this device, delivered and forwarded when ALL, else forwarded; with no hop left it is discarded and counted. -/
def execSkeinFrameReceive (l : Fin 2) (hdr payload : List Byte) (good : Bool) (s : State) : Host.Outcome State Fault Refusal :=
  if !carries s l (hKind hdr) then .next s
  else
    let s1 := sknRx l s
    let body := payload.take (payload.length - 4)
    let h := hSetHops hdr (hHops hdr - 1)
    let mine := s.skn.assigned && decide (hDev hdr = s.skn.dev.toNat)
    let onward := (!mine || hAll hdr) && decide (1 < hHops hdr)
    let ret (t : State) : State := sknSend (.credit l (hKind hdr != 0) (hTc hdr)) t
    let bad (t : State) : State := ret (if onward then abortOn (1 - l) h payload t else t)
    if !hGood hdr then .next (s1.setLink l fun k => { k with crcErr := k.crcErr + 1 })
    else if !good then .next (bad (s1.setLink l fun k => { k with aborts := k.aborts + 1 }))
    else if hKind hdr == 0 && payload.drop (payload.length - 4) != fcsOf body then
      .next (bad (s1.setLink l fun k => { k with crcErr := k.crcErr + 1 }))
    else
      let s2 := if hKind hdr = 2 ∨ hKind hdr = 3 ∨ hKind hdr = 4 then ledgerSkein l (hKind hdr) s.reel s1 else s1
      let s3 := if mine || hAll hdr then deliver l h payload s2 else s2
      if onward then .next (forward (1 - l) h payload s3)
      else if mine || hAll hdr then .next (ret s3)
      else .next (ret (s3.setLink l fun k => { k with hopDrop := k.hopDrop + 1 }))

/-- CREDIT_RETURN (R658, R659): credits of a class, or a management credit, come back, and a waiting transit frame goes. -/
def execCreditReturn (l : Fin 2) (mgmt : Bool) (tc : Fin 8) (n : Nat) (s : State) : Host.Outcome State Fault Refusal :=
  let s1 := s.setLink l fun k => { k with
    cred := if mgmt then k.cred else Tab.set (fun _ => 3) k.cred tc (min 3 (credits k tc + n))
    mcred := if mgmt then Tab.set (fun _ => 1) k.mcred tc (min 1 (mcredits k tc + n)) else k.mcred }
  .next (drainTransit l s1)

/-- SKN_CREDSTALL (Table 14.3): the link is reset and retrained, and counted. -/
def execSknCredstall (l : Fin 2) (s : State) : Host.Outcome State Fault Refusal :=
  if linkLive s l then .next (linkLost l (s.setLink l fun k => { k with credStall := k.credStall + 1, fellBack := false }))
  else .next s

/-- The device is a master candidate (R664). -/
def candidate (s : State) : Bool := s.sys.straps.master

/-- BEACON_SEND (R664, R665): the master sends a beacon on both sides; a candidate that has heard of no master becomes it. -/
def execBeaconSend (s : State) : Host.Outcome State Fault Refusal :=
  let up := carries s 0 10 || carries s 1 10
  let s1 := if candidate s && s.skn.masterSerial.isNone && !s.skn.standby && up then becomeMaster s else s
  if s1.skn.master then .next (sknTxOn 1 10 (.beacon 1 Config.serial) (sknTxOn 0 10 (.beacon 0 Config.serial) s1))
  else .next s1

/-- A beacon of a master not known before: a device that is not assigned sends its JOIN to it (R667). -/
def joinNew (l : Nat) (serial : Tick) (s : State) : State :=
  if !s.skn.assigned && s.skn.masterSerial != some serial then sendJoin l s else s

/-- BEACON_RECEIVE (R664, R665, R667, R684): a beacon goes on round the ring. Of two candidates in kindle the lower serial
number is master; a running master stays master; any other candidate sets MASTER_CONFLICT, logs it and serves as standby. One
that had been master is not assigned. -/
def execBeaconReceive (l : Fin 2) (serial : Tick) (s : State) : Host.Outcome State Fault Refusal :=
  if !carries s l 10 then .next s
  else if serial == Config.serial then .next (sknRx l s)
  else
    let s0 := sknTxOn (1 - l) 10 (.beacon (1 - l) serial) (sknRx l s)
    let heard (t : State) : State :=
      let u := joinNew l serial t
      { u with skn := { u.skn with masterSerial := some serial } }
    if !candidate s then .next (heard s0)
    else if s.skn.master && (s.sys.mode != .kindle || decide (Config.serial < serial)) then .next s0
    else
      let s1 := heard { s0 with skn := { s0.skn with
        master := false, standby := true, conflict := true, assigned := s.skn.assigned && !s.skn.master, joined := s.skn.joined && !s.skn.master } }
      if s.skn.conflict then .next s1 else .next (logFault 0x71 9 (leBytes 8 serial.toNat) s1)

/-- MASTER_TAKEOVER (R665): this standby, the lowest-serial one, has received no beacon for 50 ms and becomes master; it
keeps every device ID already assigned and is logged. -/
def execMasterTakeover (s : State) : Host.Outcome State Fault Refusal :=
  if s.skn.standby && !s.skn.master then
    let s1 := becomeMaster s
    .next (sendTopology (logFault 0x72 9 (leBytes 2 s1.skn.dev.toNat) s1))
  else .next s

/-- JOIN_RECEIVE (R667, R669): the master assigns an ID and answers, and its TOPOLOGY names the member at its position. -/
def execJoinReceive (l : Fin 2) (j : Join) (pos : Nat) (s : State) : Host.Outcome State Fault Refusal :=
  if !s.skn.master || !carries s l 6 then .next s
  else
    let d := assignId s pos j
    let known := if s.skn.known.any fun x => x.1 == j.serial then s.skn.known else s.skn.known ++ [(j.serial, d)]
    let ms := (s.skn.members.filter fun m => m.dev != d && m.pos != pos) ++ [{ dev := d, mode := j.mode, pos := pos }]
    let s1 := sknTxOn l 7 (.assign l { serial := j.serial, dev := d, master := s.skn.dev }) (sknRx l s)
    .next (sendTopology { s1 with skn := { s1.skn with known := known, members := ms } })

/-- ASSIGN_RECEIVE (R628, R668): the device takes the ID its serial number is given; PLY7 takes ROLE 4. -/
def execAssignReceive (l : Fin 2) (a : Assign) (s : State) : Host.Outcome State Fault Refusal :=
  if a.serial = Config.serial ∧ s.skn.master = false ∧ carries s l 7 = true then
    let s1 := sknRx l s
    .next ({ s1 with skn := { s1.skn with assigned := true, joined := true, dev := a.dev, masterId := a.master } } |>.setFld (plyTs 7) 28 4 4)
  else .next s

/-- A TOPOLOGY frame with ALL goes on to the last active device of its direction (R653, R656). -/
def topologyOn (l : Nat) (t : Topology) (s : State) : State :=
  if (hopCount s l t.master.toNat).any fun h => h + 1 < ringSize s then sknTxOn (1 - l) 8 (.topology (1 - l) t) s else s

/-- TOPOLOGY_RECEIVE (R669): ring state, members and breaks; the hop counts follow from them. -/
def execTopologyReceive (l : Fin 2) (t : Topology) (s : State) : Host.Outcome State Fault Refusal :=
  if s.skn.master || !carries s l 8 then .next s
  else
    let s1 := sknRx l s
    .next (topologyOn l t ((setHops { s1 with skn := { s1.skn with
      closed := t.closed, masterId := t.master, members := t.members, broken := t.broken } }).count topoCnt 1))

/-- KFAULT_SWIFT_CHECK (R108, R673): a side opens for the swift attempt unless its tap sees 10 Gb/s signalling. -/
def execKfaultSwiftCheck (l : Fin 2) (sees10g : Bool) (s : State) : Host.Outcome State Fault Refusal :=
  if s.sys.kfault && linkAllowed s l && s.pwr.ready.getLsbD 3 && !sees10g && !linkLive s l then
    .next (s.setLink l fun k => { k with pathClosed := false, st := .training, kfOpen := true })
  else .next s

/-- RELAY_REQUEST (R679): the target's steward takes the inner request as if it had come from a mailbox. -/
def execRelayRequest (l : Fin 2) (src : BitVec 10) (seq : Nat) (req : List Byte) (s : State) : Host.Outcome State Fault Refusal :=
  if s.skn.assigned && carries s l 1 && (s.sys.mode == .spin || s.sys.mode == .brace || s.sys.mode == .service) then
    .next { sknRx l s with hl := { s.hl with taken := s.hl.taken ++ [{ src := .relay src seq, seq := seq, msg := req }] } }
  else .next s

/-- A frame of bobbin `b` for skein link `l` ages out: it counts in SKN_NOROUTE and BOB_QDROP (R768). -/
def skeinAged (l b : Nat) (s : State) : State :=
  ((s.setLink l fun k => { k with noRoute := k.noRoute + 1 })).setBobbin b fun x => { x with dropped := x.dropped + 1 }

/-- SKEIN_AGEOUT (R768): the first head frame for port 12 or 13 whose target cannot be reached either way is discarded; of no
bobbin, the first copy that waits there for such a target. -/
def execSkeinAgeout (l : Fin 2) (s : State) : Host.Outcome State Fault Refusal :=
  let p := 12 + l.val
  let lost (b : Nat) : Bool := match remoteOf s b with
    | some (d, _) => !reachable s 0 d && !reachable s 1 d
    | none => false
  match s.bob.queue.find? fun e => bobEgress s e.bobbin == p && !bobMcast s e.bobbin && lost e.bobbin && !onWire s e.frame with
  | some e => .next (dropEntry e.bobbin e.frame (skeinAged l e.bobbin s))
  | none => match (s.egress p).copyBuf.head?.bind s.frame? with
    | some f =>
      if lost f.bobbin && !(s.egress p).has f.id then
        .next (reapFrame f.id ((skeinAged l f.bobbin s).setEgress p fun g => { g with copyBuf := g.copyBuf.tail }))
      else .next s
    | none => .next s

end Sys2Proof.Machine
end

