-- ==== Sys2Proof/Machine/Bus.lean ====
section
/-!
DEFINITION. One access to a block register by the steward, over the register tables (Machine/Regs.lean) and the status bits
(Machine/Flags.lean): an access that has a command of its own does what that command does. An undefined offset reads 0 and
ignores writes (R14).
-/

namespace Sys2Proof.Machine

/-! ### Latched pairs (R196, R488, R538, R612, R636) -/

/-- The low words whose read latches the word above them. -/
def pairLows : List Nat := [0x40010008, 0x40010018, 0x40040030, 0x40040038, 0x40040040, 0x40060044, 0x40080000]

/-- The ply whose PLY_SECLO lies at `a`. -/
def secloOf (a : Nat) : Option Nat := (List.range 8).find? fun k => plyBase k + 4 == a

/-- The high words that a latched pair's read returns when latched. -/
def isPairHigh (a : Nat) : Bool :=
  pairLows.contains (a - 4) || (List.range 8).any fun k => a == plyBase k + 8 || a == plyBase k + 12

/-- What is latched for a high word. -/
def latched (s : State) (a : Nat) : Option Word := Tab.get (fun _ => none) s.latch a

/-- A register's value, nothing read away: its software bits and its status bits, or a latched high word. -/
def plainValue (s : State) (a : Nat) : Word :=
  match (if isPairHigh a then latched s a else none) with
  | some v => v
  | none => readFields (fieldsAt a) (s.rd a) ||| roBits s a

/-- A read of a latched pair's low word: its value, the high word latched. -/
def pairRead (a : Nat) (s : State) : Word × State :=
  match secloOf a with
  | some k => readSeclo k s
  | none =>
    let hi := roBits s (a + 4)
    (plainValue s a, { s with latch := s.latch.set (fun _ => none) (a + 4) (some hi) })

/-- The RC field that is typed state: LOST of PNL_QLVL (Table 15.6). -/
def pnlQlvl : Nat := 0x400A0050

/-- A read of a register that has RC fields, with `event` counted in the same access (R8, R10). -/
def rcRead (a : Nat) (event : Bool) (s : State) : Word × State :=
  let v := plainValue s a
  if a = pnlQlvl then (v, { s with pnl := { s.pnl with lost := b2n event } })
  else (v, { s with regs := setReg s.regs a (readClears (fieldsAt a) (s.rd a) event) })

/-! ### Reads -/

/-- The device-bound mailbox whose tail word lies at block offset `o` of MBX (Table 5.10). -/
def mbxTail (o : Nat) : Option Nat := if 0x1000 ≤ o ∧ o < 0x3000 ∧ o % 256 = 252 then some ((o - 0x1000) / 256) else none

/-- The steward reads the word of block registers at `a`; `event` is counted in the same access (R10). An event of a queue
that a read pops (a new entry) is no value of the access: its own command brings it, after the read. -/
def busRead (a : Nat) (event : Bool) (s : State) : Word × State :=
  let o := a % 65536
  if pairLows.contains a || (secloOf a).isSome then pairRead a s
  else if a = 0x40020020 then flogRead s
  else if a = 0x400A0054 then let t := pnlPop s; (t.rdata, { t with rdata := s.rdata })
  else if a = 0x400C0034 then let t := hdataAccess none s; (t.rdata, { t with rdata := s.rdata })
  else if a / 65536 = 0x4003 ∧ o < 0x3000 ∧ o % 0x100 = 0x40 then
    let f := o / 0x100
    if flyOwner s f = .steward then (flyHead s f, flyPop f s) else (0, s)
  else if a / 65536 = 0x400D then
    (plainValue s a, match mbxTail o with
      | some n => devTailRead n s
      | none => s)
  else rcRead a event s

/-! ### Writes -/

/-- A write of PWR_BYPCTL: SETTLE_MS is stored, and each BYPE_DRIVE bit that changes acts on its port (R81, R780). -/
def bypWrite (v : Word) (s : State) : State :=
  let t := s.regWrite pwrBype (putField v 0 4 (s.fld pwrBype 0 4))
  (List.range 4).foldl (fun u n => if bitOf v n then bypeSet n u else bypeClear n u) t

/-- GPIO pins of bank `b` take the level of FLY_GPIOOUT (R448). -/
def gpioApply (b : Nat) (s : State) : State :=
  (List.range 24).foldl (fun t i =>
    let p := 24 * b + i
    if pinFunc t p = 2 then t.setPin p fun x => { x with out := bitOf (t.rd (0x40035004 + 0x10 * b)) i } else t) s

/-- A write of a word of bank `b`'s program pages: only the page that is not active takes it (R448), and bits [31:24] stay 0,
their bound (R450). -/
def pageWrite (b o : Nat) (v : Word) (s : State) : State :=
  let page := o / 0x800 % 2
  if page = b2n (s.fly.page.getLsbD b) then s
  else { s with fly := { s.fly with prog := Tab.set (fun _ => 0) s.fly.prog (1024 * b + 512 * page + o % 0x800 / 4) (v &&& 0xFFFFFF) } }

/-- A write to the FLY block. -/
def flyBusWrite (o : Nat) (v : Word) (s : State) : State :=
  let a := 0x40030000 + o
  let f := o / 0x100
  let mine (t : State) : State := if flyOwner s f = .steward then t else s
  if o < 0x3000 then
    match o % 0x100 with
    | 0x00 => flyCtrlWrite f v s
    | 0x30 => mine (s.regWrite a v)
    | 0x34 => mine (actPost f (s.rd (flyBase f + 0x30)) v s)
    | 0x44 => mine (flyPush f v s)
    | 0x28 => flyIrqWrite f v s
    | _ => s.regWrite a v
  else if 0x5000 ≤ o ∧ o < 0x5060 then
    (if o % 0x10 = 4 then gpioApply ((o - 0x5000) / 0x10) (s.regWrite a v) else s)
  else if 0x8000 ≤ o ∧ o < 0xE000 then pageWrite ((o - 0x8000) / 0x1000) (o % 0x1000) v s
  else s.regWrite a v

/-- A write to the CAN block: the control register, the owner's window, the rest (R555). -/
def canBusWrite (o : Nat) (v : Word) (s : State) : State :=
  let n := o / 0x1000
  let r := o % 0x1000
  if 8 ≤ n then s
  else if r = 0 then canCtrlWrite n v s
  else if 0x500 ≤ r then canWinWrite n r .steward v s
  else s.regWrite (0x40070000 + o) v

/-- A write of SKN_LCFG: a link disabled goes down and is off, its path as it was (R670); enabled again it monitors (Table 14.4). -/
def lcfgWrite (l : Nat) (v : Word) (s : State) : State :=
  let was := bitOf (s.rd (lcfg l)) 31
  let t := s.regWrite (lcfg l) v
  if was && !bitOf v 31 then (if linkLive t l then linkLost l t else t).setLink l fun k => { k with st := .off, locked := false }
  else if !was && bitOf v 31 then t.setLink l fun k => { k with st := .monitoring }
  else t

/-- A write of a ply's PLY_CHGGO (R615). -/
def chggoWrite (k : Nat) (v : Word) (s : State) : State :=
  if bitOf v 0 || bitOf v 1 then postChange k (chgOf s k v) s else s

/-- A write of TAG_OEM: when the bytes of its nameplate block then differ from the nameplate's, the block is written
(Table 15.3, R719). -/
def oemWrite (o : Nat) (v : Word) (s : State) : State :=
  oemKept [(o - 0x400) / 32] (s.regWrite (0x400B0000 + o) v)

/-- The steward writes the word of block registers at `a`. -/
def busWrite (a : Nat) (v : Word) (s : State) : State :=
  let o := a % 65536
  match a / 65536 with
  | 0x4002 => if o = 0x18 then holdClear v.toNat s else if o = 0x1C then holdClear (v.toNat * 2 ^ 32) s else s.regWrite a v
  | 0x4003 => flyBusWrite o v s
  | 0x4005 => if o = 0x1000 then mdioWrite v s else s.regWrite a v
  | 0x4007 => canBusWrite o v s
  | 0x4008 => if 0x100 ≤ o ∧ o < 0x300 ∧ o % 0x40 = 0x3C then chggoWrite ((o - 0x100) / 0x40) v s else s.regWrite a v
  | 0x4009 => if o = 0x104 then lcfgWrite 0 v s else if o = 0x204 then lcfgWrite 1 v s else s.regWrite a v
  | 0x400A => if 0x10 ≤ o ∧ o ≤ 0x30 then modesChanged s (s.regWrite a v) else s.regWrite a v
  | 0x400B => if 0x400 ≤ o ∧ o < 0x800 then oemWrite o v s else s.regWrite a v
  | 0x400C => if o = 0x34 then hdataAccess (some v) s else s.regWrite a v
  | 0x400D => if 0x3000 ≤ o ∧ o < 0x5000 then hstWrite ((o - 0x3000) / 256) (o % 256) v s else s
  | 0x400E =>
    if o = 8 then vidWrite v s else if o = 0x0C then bypWrite v s else if o = 0x10 then chargerNote (s.regWrite a v) else s.regWrite a v
  | _ => s.regWrite a v

end Sys2Proof.Machine
end

