-- ==== Sys2Proof/Machine/RingOps.lean ====
section
/-!
DEFINITION. The DMA rings' operations (R297 to R304, R464, R477, R503, R769 to R771): which frames a burst takes, how frames
lie in descriptors, what a completed burst writes, how a stall of a bobbin starts and ends.
-/

namespace Sys2Proof.Machine

/-! ### Bursts -/

/-- Bursts of ring `r` in flight; frames they carry. -/
def burstsOf (s : State) (r : Nat) : List Burst := s.hl.bursts.filter fun b => b.ring == r
def framesBusy (s : State) (r : Nat) : List Nat := (burstsOf s r).flatMap Burst.frames

/-- The ring runs: enabled and bound to its bobbin, not stopped, its link and mode allow it. -/
def ringGoes (s : State) (r : Nat) : Bool := ringsRun s && ringBound s r && !ringStopped s r

/-- Read requests to host memory that TX bursts have outstanding (R304). -/
def readsBusy (s : State) : Nat := (s.hl.bursts.map Burst.reads).sum

/-- Read requests for `len` bytes over the descriptors from place `i` on: each buffer is read in requests of at most the
max read request size. Fuel: how many descriptors. -/
def readsFor (s : State) (r : Nat) : Nat → Nat → Nat → Nat
  | 0, _, _ => 0
  | n + 1, i, len => ceilDiv (min len (descBuf s r i)) s.hl.pci.mrrs + readsFor s r n (i + 1) (len - descBuf s r i)

/-- Frames a burst takes in order, from descriptor place `i` on with `n` left: whole frames while they fit, at most `k` of
them and `bytes` bytes; how many descriptors they need. -/
def takeFrames (s : State) (r : Nat) : List Frame → Nat → Nat → Nat → Nat → List Nat × Nat
  | [], _, _, _, _ => ([], 0)
  | _ :: _, _, _, 0, _ => ([], 0)
  | f :: fs, i, n, k + 1, bytes =>
    if bytes < f.bytes.length then ([], 0)
    else match descsFor s r n i f.bytes.length with
      | none => ([], 0)
      | some d =>
        let t := takeFrames s r fs (i + d) (n - d) k (bytes - f.bytes.length)
        (f.id :: t.1, d + t.2)

/-- An RX burst starts (R303, R304, R477): the eligible frames at the head of the bobbin that no burst carries yet. A frame
that all the ring's descriptors together could not hold stops the ring (R311). -/
def rxStart (r : Nat) (s : State) : State :=
  if !ringGoes s r || !ringIsRx s r || decide (16 ≤ (s.hl.bursts.filter Burst.rx).length) then s
  else if badDesc s r then ringErr r eSize s
  else
    let busy := descsBusy s r
    let fs := (headRun s (ringBob s r)).filter fun f => !(framesBusy s r).contains f.id
    let t := takeFrames s r fs busy (descsGiven s r - busy) 32 65536
    match fs with
    | f :: _ =>
      if t.1.isEmpty && decide (busy = 0) && decide (descsGiven s r + 1 = ringSize' s r) && (descsFor s r (descsGiven s r) 0 f.bytes.length).isNone then
        ringErr r eSize s
      else setHl (fun h => { h with bursts := h.bursts ++ [{ ring := r, rx := true, frames := t.1, descs := t.2 }] }) s
    | [] => setHl (fun h => { h with bursts := h.bursts ++ [{ ring := r, rx := true, frames := [], descs := 0 }] }) s

/-- Descriptors of the next TX frame: up to the first with EOF, of those given and not in flight. -/
def txDescs (s : State) (r : Nat) : Option Nat :=
  let busy := descsBusy s r
  ((List.range (descsGiven s r - busy)).find? fun k => (descCtrl s r (busy + k)).testBit 0).map (· + 1)

/-- CSUMINS of the next TX frame. -/
def txCsum (s : State) (r : Nat) : Bool := (descCtrl s r (descsBusy s r)).testBit 3

/-- A TX frame is offered for admission before it is read; while admission fails the ring waits, and nothing is lost or
counted (R464, R763). Its reads begin while fewer than 64 requests are outstanding, and are at most 64 at a time (R304). -/
def txOffer (r : Nat) (bytes : List Byte) (s : State) : State :=
  if !ringGoes s r || ringIsRx s r || decide (64 ≤ readsBusy s) then s
  else if badDesc s r then ringErr r eSize s
  else match txDescs s r with
    | none => s
    | some d =>
      let (id, ok, t) := offerInner 15 (ringBob s r) bytes true s
      if ok then
        let u := t.setFrame id fun f => { f with csumIns := txCsum s r }
        setHl (fun h => { h with bursts := h.bursts ++ [{ ring := r, rx := false, frames := [id], descs := d, reads := min 64 (readsFor s r d (descsBusy s r) bytes.length) }] })
          (u.setRing r fun x => { x with txWaits := false })
      else s.setRing r fun x => { x with txWaits := true }

/-! ### Completion (R300 to R303) -/

/-- The bytes of a frame over descriptors from place `i` on: each place with its bytes. Fuel: how many descriptors. -/
def splitFrame (s : State) (r : Nat) : Nat → Nat → List Byte → List (Nat × List Byte)
  | 0, _, _ => []
  | n + 1, i, bs =>
    if bs.isEmpty then [] else (i, bs.take (descBuf s r i)) :: splitFrame s r n (i + 1) (bs.drop (descBuf s r i))

/-- One RX descriptor is filled and returned: the data to its buffer, the write-back fields, OWN cleared, SOF and EOF as
the frame begins and ends there. -/
def fillDesc (r i : Nat) (f : Frame) (bs : List Byte) (sof eof : Bool) (s : State) : State :=
  let addr := s.hl.desc.num (descAddr s r i 0) 8
  let ctrl := descCtrl s r i % 32768 / 4 * 4 + 2 * b2n sof + b2n eof
  setHl (fun h => { h with
    out := h.out ++ [.mem addr bs]
    desc := (h.desc.write (descAddr s r i 10) (leBytes 2 ctrl)).write (descAddr s r i 0x10)
      (leBytes 2 bs.length ++ leBytes 2 (frameStatus f) ++ leBytes 8 f.ledger.toNat) }) s

/-- The frames of an RX burst into its descriptors. -/
def fillFrames (r : Nat) : List Nat → Nat → State → State
  | [], _, s => s
  | id :: ids, i, s =>
    match frameIn s (ringBob s r) id with
    | none => fillFrames r ids i s
    | some f =>
      let ps := splitFrame s r f.bytes.length i f.bytes
      let t := ps.foldl (fun u p => fillDesc r p.1 f p.2 (decide (p.1 = i)) (decide (p.1 + 1 = i + ps.length)) u) s
      fillFrames r ids (i + ps.length) t

/-- TX descriptors are returned (R300): their write-back fields are written, then OWN is cleared. No byte is placed in a TX
buffer and no SFD is ledgered: LEN and LEDGER 0, STATUS the frame's (log 23). -/
def clearOwn (r n status : Nat) (s : State) : State :=
  (List.range n).foldl (fun t i =>
    setHl (fun h => { h with
      desc := (h.desc.write (descAddr t r i 0x10) (leBytes 2 0 ++ leBytes 2 status ++ leBytes 8 0)).write
        (descAddr t r i 10) (leBytes 2 (descCtrl t r i % 32768)) }) t) s

/-- STATUS of the frame of a TX burst. -/
def txStatus (s : State) (b : Burst) : Nat := ((b.frames.head?.bind s.frame?).map frameStatus).getD 0

/-- HEAD and the frame count advance, the completion record is written, then the doorbell when DBEN is 1 or a returned
descriptor asked for it (R301, R302). -/
def burstRecord (r n count : Nat) (irq : Bool) (s : State) : State :=
  let size := ringSize' s r
  let t := s.setRing r fun x => { x with head := (x.head + n) % size, frames := x.frames + BitVec.ofNat 32 count }
  let wb := (t.rd (ringBase r + 0x18)).toNat + (t.rd (ringBase r + 0x1C)).toNat * 2 ^ 32
  let u := setHl (fun h => { h with out := h.out ++ [.mem wb (leBytes 4 (t.ring r).head ++ leBytes 4 (t.ring r).frames.toNat)] }) t
  if ringDben u r || irq then ringDoorbell (ringDbsel u r) u else u

/-- A TX frame has been read into its cells: its checksums are inserted, and it is whole (R503). -/
def txWhole (id : Nat) (s : State) : State :=
  (innerWhole id s).setFrame id fun f =>
    if f.csumIns then { f with bytes := reFcs (insertCsums (f.bytes.take (f.bytes.length - 4)) ++ f.bytes.drop (f.bytes.length - 4)) } else f

/-- A refusal and a stall end when the ring completes a burst (R771). -/
def refusalEnds (r b : Nat) (s : State) : State :=
  (s.setBobbin b fun x => { x with refusing := false }).setRing r fun x => { x with stallSince := none }

/-- A host-memory read of the ring's has failed and the host has not cleared it: CTO or UR is set (R310). -/
def readFaulted (s : State) (r : Nat) : Bool :=
  bitOf (s.rd (ringBase r + 0x20)) eUr || bitOf (s.rd (ringBase r + 0x20)) eCto

/-- The first burst of ring `r` completes. While a read error stops the ring the frames of a TX burst stay in their
bobbin as they are (R310): they are read again once the host has cleared the error. -/
def burstDone (r : Nat) (s : State) : State :=
  match (burstsOf s r).head? with
  | none => s
  | some b => if !b.rx && readFaulted s r then s else
    let irq := (List.range b.descs).any fun i => (descCtrl s r i).testBit 2
    let s1 := setHl (fun h => { h with bursts := h.bursts.erase b }) s
    if b.rx then
      let s2 := burstRecord r b.descs b.frames.length irq (fillFrames r b.frames 0 s1)
      refusalEnds r (ringBob s r) (b.frames.foldl (fun t id => dropEntry (ringBob s r) id t) s2)
    else burstRecord r b.descs 1 irq (b.frames.foldl (fun t id => txWhole id t) (clearOwn r b.descs (txStatus s b) s1))

/-- The bursts of a ring are abandoned: RX frames stay in their bobbin; a TX frame that was being read ends there, and the
host gives it again (R308). -/
def abandon (r : Nat) (s : State) : State :=
  let ids := ((burstsOf s r).filter fun b => !b.rx).flatMap Burst.frames
  let t := setHl (fun h => { h with bursts := h.bursts.filter fun b => b.ring != r }) s
  (ids.foldl (fun u id => removeFrame id u) t).setRing r fun x => { x with txWaits := false }

/-- A stall of bobbin `b` has lasted 1 ms: it refuses from now on (R770). -/
def refusalStart (b : Nat) (s : State) : State :=
  if bobStalled s b then
    let t := s.setBobbin b fun x => { x with refusing := true }
    match rxRingOf s b with
    | none => t
    | some r => t.setRing r fun x => { x with stallSince := some (x.stallSince.getD (s.reel - 1000000)) }
  else s

end Sys2Proof.Machine
end

