-- ==== Sys2Proof/Machine/CertOps.lean ====
section
/-!
DEFINITION. The schedule certificate (chapter 07): its parts (Table 7.2), the checks of Table 7.3, the safe-output
declarations of section 6 with the checks of R785, and what the whorl loads from an image.
-/

namespace Sys2Proof.Machine

/-! ### Parts -/

/-- A strand record, a spindle record, a slot record. -/
structure CStrand where
  strand : Nat
  ply : Nat
  nslot : Nat
  period : Nat
  phase : Nat
  first : Nat
  deriving DecidableEq, Repr

structure CSpin where
  spindle : Nat
  strand : Nat
  bracepol : Bool
  base : Nat
  len : Nat
  hash : List Byte
  flyers : Nat
  groups : Nat
  bobbins : Nat
  deriving DecidableEq, Repr

structure CSlot where
  d : SlotDef
  wcet : Nat
  staged : Nat
  deriving DecidableEq, Repr

def cStrand (bs : List Byte) : CStrand :=
  { strand := leAt bs 0 1, ply := leAt bs 1 1, nslot := leAt bs 2 2, period := leAt bs 4 4, phase := leAt bs 8 4, first := leAt bs 12 4 }
def cSpin (bs : List Byte) : CSpin :=
  { spindle := leAt bs 0 1, strand := leAt bs 1 1, bracepol := leAt bs 2 1 == 1, base := leAt bs 4 4, len := leAt bs 8 4
    hash := (bs.drop 16).take 32, flyers := leAt bs 0x30 6, groups := leAt bs 0x36 2, bobbins := leAt bs 0x38 4 }
def cSlot (bs : List Byte) : CSlot := { d := slotDefOf bs, wcet := leAt bs 12 4, staged := leAt bs 16 2 }

/-- Piece `i` of `n` bytes from offset `o`. -/
def pieceAt (bs : List Byte) (o n i : Nat) : List Byte := (bs.drop (o + n * i)).take n

def certNstrand (c : List Byte) : Nat := leAt c 6 1
def certNspin (c : List Byte) : Nat := leAt c 7 1
def certNslot (c : List Byte) : Nat := leAt c 8 2
def certStrandBytes (c : List Byte) : List (List Byte) := (List.range (certNstrand c)).map (pieceAt c 128 32)
def certSpins (c : List Byte) : List CSpin :=
  (List.range (certNspin c)).map fun i => cSpin (pieceAt c (128 + 32 * certNstrand c) 64 i)
/-- Slot records `first` to `first + n - 1`. -/
def certSlotBytes (c : List Byte) (first n : Nat) : List Byte :=
  (c.drop (128 + 32 * certNstrand c + 64 * certNspin c + 32 * first)).take (32 * n)

/-- PHASEWIN_NS, RATEPPM, GUARD_NS. -/
def certPhaseWin (c : List Byte) : Nat := leAt c 0x3C 4
def certRate (c : List Byte) : Nat := leAt c 0x40 4
def certGuard (c : List Byte) : Nat := leAt c 0x44 4

/-- The lea of strand `k` as bytes, its strand record and then its slot records: the whorl schedule item when the
configuration holds one, else the certificate's own. -/
def leaBytes (cert : List Byte) (c : Conf) (k : Nat) : Option (List Byte) :=
  let x := confBytes c 2 k
  if 0 < x.len then some (x.bytes.bytes 0 x.len)
  else (certStrandBytes cert).find? (fun b => leAt b 0 1 == k) |>.map fun b =>
    b ++ certSlotBytes cert (cStrand b).first (cStrand b).nslot

/-- Its parts. -/
def leaStrand (bs : List Byte) : CStrand := cStrand (bs.take 32)
def leaSlots (bs : List Byte) : List CSlot := (List.range (leaStrand bs).nslot).map fun i => cSlot (pieceAt bs 32 32 i)

/-- What a check looks at: the certificate, the image's sections 3, 6 and 8, the lea of each strand that has one. -/
structure CertIn where
  cert : List Byte
  sect3 : List Byte
  sect6 : List Byte
  sect8 : List Byte
  leas : List (Nat × List Byte)
  deriving DecidableEq, Repr

/-- The leas of a configuration. -/
def leasOf (cert : List Byte) (c : Conf) : List (Nat × List Byte) :=
  (List.range 4).filterMap fun k => (leaBytes cert c k).map fun b => (k, b)

/-! ### Safe-output declarations (Table 12.6, R785) -/

/-- A header with its entries. -/
structure SafeHdr where
  spindle : Nat
  count : Nat
  zero : Nat
  entries : List (List Byte)
  deriving DecidableEq, Repr

/-- The headers of section 6. Fuel: its bytes. -/
def safeHdrs : Nat → List Byte → List SafeHdr
  | 0, _ => []
  | fuel + 1, bs =>
    if bs.length < 4 then []
    else
      let n := leAt bs 1 1
      { spindle := leAt bs 0 1, count := n, zero := leAt bs 2 2, entries := (List.range n).map (pieceAt bs 4 8) }
        :: safeHdrs fuel (bs.drop (4 + 8 * n))

/-- An entry. -/
def safeOf (e : List Byte) : SafeOut := { kind := leAt e 0 1, target := leAt e 1 1, arg := leAt e 2 2, data := leAt e 4 4 }

/-- The entry keeps to Table 12.6; a FRAME's frame lies wholly inside section 8. -/
def safeOk (sect8 : List Byte) (e : List Byte) : Bool :=
  let x := safeOf e
  e.length == 8 && match x.kind with
    | 1 => decide (x.target < 48) && x.arg == 0 && x.data == 0
    | 2 => decide (x.target < 8) && x.arg == 0
    | 3 => x.target == 0 && x.data % 4 == 0 && decide (x.data + 2 + leAt sect8 x.data 2 ≤ sect8.length)
    | 4 => decide (x.target < 14) && x.arg == 0 && decide (x.data < 256)
    | 5 => x.target == 0 && decide (x.arg < 256) && x.data == 0
    | _ => false

/-- The declarations of an image. -/
def safeAll (x : CertIn) : List SafeHdr := safeHdrs (x.sect6.length + 1) x.sect6

/-- A header names a spindle of the certificate (R785: else the certificate is refused). -/
def safeNamed (x : CertIn) (h : SafeHdr) : Bool :=
  decide (h.spindle < 64) && (certSpins x.cert).any fun p => p.spindle == h.spindle

/-- The declarations of spindle `n` keep R785. -/
def safeSpinOk (x : CertIn) (n : Nat) : Bool :=
  let hs := (safeAll x).filter fun h => h.spindle == n
  decide (hs.length ≤ 1) && hs.all fun h => decide (h.count ≤ 16) && h.zero == 0 && h.entries.all (safeOk x.sect8)

/-! ### Checks of scope "certificate" (Table 7.3) -/

/-- MAGIC, VERSION, CERTHASH; REVMASK; RELEASE_NS, CORNER_MV, CORNER_TJ; IMGHASH. -/
def certHeadOk (x : CertIn) : Bool :=
  let c := x.cert
  leAt c 0 4 == 0x54574C43 && leAt c 4 2 == 1
    && sha256 (c.take 0x60 ++ List.replicate 32 0 ++ c.drop 0x80) == (c.drop 0x60).take 32
    && (leAt c 0xC 4).testBit Config.stepping
    && leAt c 0x30 4 == 16 && leAt c 0x34 2 == 620 && leAt c 0x36 2 == 125
    && sha256 (x.sect3 ++ x.sect6) == (c.drop 0x10).take 32

/-- A lea keeps R360: its fields, its slots in order without overlap, the last ending within the period. -/
def leaOk (k : Nat) (bs : List Byte) : Bool :=
  let st := leaStrand bs
  let ss := leaSlots bs
  st.strand == k && decide (st.ply < 8) && decide (1 ≤ st.nslot ∧ st.nslot ≤ 4096)
    && decide (10000 ≤ st.period ∧ st.period ≤ 16000000) && decide (st.phase < st.period)
    && (ss.all fun x => decide (20 ≤ x.d.len ∧ x.d.len ≤ 8000) && decide (x.d.spindle < 64) && decide (x.d.start + x.d.len ≤ st.period))
    && (ss.zip ss.tail).all fun p => decide (p.1.d.start + p.1.d.len ≤ p.2.d.start)

/-- The gap before the lea boundary (R365). -/
def endGapOk (rate : Nat) (bs : List Byte) : Bool :=
  let st := leaStrand bs
  let stop := (leaSlots bs).foldl (fun m x => max m (x.d.start + x.d.len)) 0
  decide (stop + ceilDiv (st.period * 2 * rate) 1000000 ≤ st.period)

/-- Two slots of different strands stay apart by `guard`, and do not overlap, in every period: `g` divides both periods. -/
def slotsApart (g guard a la b lb : Nat) : Bool :=
  let d := (b + g - a % g) % g
  decide (la + guard ≤ d) && decide (d + lb + guard ≤ g)

/-- All slots of two leas. -/
def leasApart (guard : Nat) (x y : List Byte) : Bool :=
  let p := leaStrand x
  let q := leaStrand y
  let g := Nat.gcd p.period q.period
  (leaSlots x).all fun a => (leaSlots y).all fun b => slotsApart g guard (p.phase + a.d.start) a.d.len (q.phase + b.d.start) b.d.len

/-- Every two of some leas. -/
def allApart (guard : Nat) : List (List Byte) → Bool
  | [] => true
  | x :: t => (t.all (leasApart guard x)) && allApart guard t

/-- H of some leas: the least common multiple of their periods. -/
def hyper (bs : List (List Byte)) : Nat := bs.foldl (fun h b => Nat.lcm h (leaStrand b).period) 1

/-- The limits, guard band and overlaps of a schedule; `more` slots of the slot table are in use beside it (R361). -/
def scheduleOk (x : CertIn) (more : Nat) : Bool :=
  let c := x.cert
  let bs := x.leas.map Prod.snd
  let merged := decide (1 < bs.length)
  decide (certRate c ≤ 500) && (x.leas.all fun l => leaOk l.1 l.2)
    && decide (((bs.map fun b => (leaStrand b).nslot).sum) + more ≤ 8192)
    && (bs.all (endGapOk (certRate c)))
    && (!merged || (decide (hyper bs ≤ 16000000)
      && decide (2 * certPhaseWin c * 1000000 + hyper bs * 2 * certRate c ≤ certGuard c * 1000000)
      && allApart (certGuard c) bs))

/-- All checks of scope "certificate". -/
def certOk (x : CertIn) (more : Nat) : Bool := certHeadOk x && scheduleOk x more && (safeAll x).all (safeNamed x)

/-! ### Checks of scope "spindle" -/

/-- The slots of spindle `n`. -/
def spinSlots (x : CertIn) (n : Nat) : List CSlot := (x.leas.flatMap fun l => leaSlots l.2).filter fun s => s.d.spindle == n

/-- Flyers of a profile as a mask of 48 bits; its task-input groups of 16; its bobbins. -/
def profFlyers (p : List Nat) : Nat := p.getD 10 0 % 2 ^ 24 + p.getD 11 0 % 2 ^ 24 * 2 ^ 24
def profGroups (p : List Nat) : Nat :=
  ((List.range 16).map fun g => if p.getD 12 0 / 2 ^ (16 * g) % 65536 = 0 then 0 else 2 ^ g).sum
def profBobbins (p : List Nat) : List Nat := (((p.drop 2).take 8).filter fun b => decide (b < 65536)).eraseDups

/-- `a` names nothing outside `b`. -/
def within (a b : Nat) : Bool := a &&& b == a

/-- The profiles name only what RESSUM holds, and no other spindle's flyer. -/
def resourcesOk (x : CertIn) (p : CSpin) : Bool :=
  let ps := ((spinSlots x p.spindle).map fun s => s.d.profile).eraseDups.map (Config.sect3Profile x.sect3)
  let others := (certSpins x.cert).filter fun q => q.spindle != p.spindle
  (ps.all fun r => within (profFlyers r) p.flyers && within (profGroups r) p.groups
    && others.all fun q => profFlyers r &&& q.flyers == 0)
  && decide ((ps.flatMap profBobbins).eraseDups.length ≤ p.bobbins)

/-- All checks of one spindle; one that no strand of its certificate's record carries has nothing of its own to fail. -/
def spinOk (x : CertIn) (n : Nat) : Bool :=
  match (certSpins x.cert).find? fun p => p.spindle == n with
  | none => (spinSlots x n).isEmpty
  | some p =>
    sha256 (Config.spinParts x.sect3 x.sect6 n) == p.hash
      && ((spinSlots x n).all fun s => decide (s.wcet + 8 ≤ s.d.len) && decide (s.staged ≤ 512))
      && (x.leas.all fun l => l.1 == p.strand || (leaSlots l.2).all fun s => s.d.spindle != n)
      && resourcesOk x p && safeSpinOk x n

/-- The spindles refused (R379, R380): all of them when the certificate is. -/
def refusedMask (x : CertIn) (more : Nat) : BitVec 64 :=
  if !certOk x more then BitVec.allOnes 64
  else (List.range 64).foldl (fun m n => if spinOk x n then m else m ||| BitVec.ofNat 64 (2 ^ n)) 0

/-! ### What the whorl loads (R96, R609) -/

/-- The lea that bytes spell. -/
def leaFrom (bs : List Byte) : Lea := leaOf (bs.take 32) (bs.drop 32)

/-- Spindle `p` of the certificate, refused or not. -/
def loadSpin (m : BitVec 64) (p : CSpin) (s : State) : State :=
  s.setSpindle p.spindle fun _ => {
    st := if m.getLsbD p.spindle then .refused else .idle
    bracePol := p.bracepol, codeBase := p.base, codeLen := p.len, strand := p.strand }

/-- Strand `k` has a lea; its spindles' data areas have their first contents (R786). -/
def loadLea (k : Nat) (bs : List Byte) (s : State) : State :=
  if leaOk k bs then
    setWhl (fun w => { w with data := (Config.leaData bs).foldl (fun m e => m.setByte (e.1 % 1048576) e.2) w.data })
      (s.setStrand k fun st => { st with lea := some (leaFrom bs) })
  else s

/-- Step 6: section 3, the certificate with what it refuses (each refused spindle, listed or not, runs idle slots), the leas, section 6, the safe frames. -/
def loadWhorl (x : CertIn) (m : BitVec 64) (s : State) : State :=
  let safe := (safeAll x).foldl (fun t h =>
    if h.spindle < 64 ∧ !m.getLsbD h.spindle then Tab.set (fun _ => []) t h.spindle (h.entries.map safeOf) else t) []
  let s1 := setWhl (fun w => { w with
    code := Mem.write [] 0 ((Config.sect3Code x.sect3).take 262144)
    profiles := (List.range 256).foldl (fun t i => Tab.set (fun _ => []) t i (Config.sect3Profile x.sect3 i)) []
    safe := safe, safeFrames := x.sect8, cert := x.cert, sect3 := x.sect3, sect6 := x.sect6
    phaseWin := certPhaseWin x.cert, refused := m }) s
  let s2 := ((certSpins x.cert).filter fun p => decide (p.spindle < 64)).foldl (fun t p => loadSpin m p t) s1
  let s3 := (List.range 64).foldl (fun t n => if m.getLsbD n then t.setSpindle n fun p => { p with st := .refused } else t) s2
  x.leas.foldl (fun t l => loadLea l.1 l.2 t) s3

/-- The sections a check of the running image looks at, with the leas of configuration `c`. -/
def certIn (s : State) (c : Conf) : CertIn :=
  { cert := s.whl.cert, sect3 := s.whl.sect3, sect6 := s.whl.sect6, sect8 := s.whl.safeFrames, leas := leasOf s.whl.cert c }

end Sys2Proof.Machine
end

