-- ==== Sys2Proof/Machine/ValidOps.lean ====
section
/-!
DEFINITION. What each block refuses of a transaction's records at COMMIT, and of a replayed configuration at kindle (R347,
R158): the rules of the items of Table 6.4, each in its chapter's words.
-/

namespace Sys2Proof.Machine

/-- The state with another running configuration: what a block reads of a configuration that does not run yet. -/
def withConf (c : Conf) (s : State) : State := { s with txn := { s.txn with conf := c } }

/-! ### Classifier bank (R526) -/

/-- An action word at offset `o` of the bank. -/
def actionOk (m : Mem) (o : Nat) : Bool := decide (m.num o 1 ≤ 3) && decide (m.num (o + 6) 1 ≤ 13)

/-- THRUOUT of port `p` keeps R507: 0xFF, or a port of E0 to E3 of the same kind and speed; THRUDELAY within its range. -/
def thruOk (c : Conf) (m : Mem) (p : Nat) : Bool :=
  let o := 0x10 + 0x10 * p
  let out := m.num (o + 10) 1
  let d := m.num (o + 12) 2
  let speed (q : Nat) : Nat := (confBytes c 0x0204 q).bytes.num 0 1
  out == 0xFF || (decide (p < 4) && decide (out < 4) && speed out == speed p && decide (16 ≤ d ∧ d ≤ 512))

/-- A port entry. -/
def bankPortOk (c : Conf) (m : Mem) (p : Nat) : Bool :=
  let o := 0x10 + 0x10 * p
  let d := m.num (o + 8) 2
  actionOk m o && decide (64 ≤ d ∧ d ≤ 1536) && thruOk c m p

/-- A comparator; a pattern. -/
def bankCmpOk (m : Mem) (i : Nat) : Bool :=
  let o := 0x100 + 8 * i
  decide (m.num o 1 ≤ 8) && decide (m.num (o + 2) 2 ≤ m.num (o + 4) 2)
def bankPatOk (m : Mem) (i : Nat) : Bool :=
  let o := 0x300 + 72 * i
  let n := m.num o 1
  n == 0 || (decide (n ≤ 32) && decide (m.num (o + 2) 2 ≤ m.num (o + 4) 2) && decide (m.num (o + 4) 2 + n ≤ 1536))

/-- The whole bank. -/
def crdBankOk (c : Conf) : Bool :=
  let m := (confBytes c 1 0).bytes
  let n := m.num 0 4
  decide (n ≤ 8192) && (List.range 12).all (bankPortOk c m) && (List.range 64).all (bankCmpOk m) && (List.range 256).all (bankPatOk m)
    && (List.range (min n 8192)).all fun r => actionOk m (0x4B00 + 136 * r + 128)

/-! ### Flyer program bank (R450) -/

/-- The settings of flyer `i` of a bank. -/
def flyItemOk (m : Mem) (i : Nat) : Bool :=
  let w (o : Nat) : Word := BitVec.ofNat 32 (m.num (0x800 + 0x40 * i + o) 4)
  let full := bitsOf (w 0) 0 6
  let per := bitsOf (w 0xC) 16 10
  let plen := bitsOf (w 0xC) 0 6
  decide (bitsOf (w 8) 20 3 ≤ 5) && decide (bitsOf (w 8) 10 5 ≤ 24) && decide (bitsOf (w 8) 0 5 ≤ 23) && decide (bitsOf (w 8) 5 5 ≤ 23)
    && decide (bitsOf (w 8) 15 5 ≤ 23) && decide (bitsOf (w 8) 23 5 ≤ 23) && decide (8 ≤ per ∧ per ≤ 768)
    && decide (1 ≤ plen ∧ plen ≤ 32) && decide (1 ≤ full ∧ full ≤ 32)

/-- The whole bank. -/
def flyBankOk (c : Conf) (b : Nat) : Bool :=
  let m := (confBytes c 3 b).bytes
  ((List.range 512).all fun i => m.byte (4 * i + 3) == 0) && (List.range 8).all (flyItemOk m)

/-! ### Bobbin profile and meters (R457, R461) -/

/-- A profile: the ranges of Table 9.5, and MINTH below MAXTH for every colour. -/
def profileOk (c : Conf) (i : Nat) : Bool :=
  let m := (confBytes c 4 i).bytes
  let mx := m.num 4 4
  decide (m.num 0 1 ≤ 2) && decide (m.num 1 1 ≤ 15) && decide (m.num 2 2 ≤ 4096) && decide (1 ≤ mx ∧ mx ≤ 188128) && decide (m.num 8 4 ≤ 188128)
    && [0x10, 0x1C, 0x28].all fun o => decide (m.num o 4 < m.num (o + 4) 4)

/-- The guarantees of all enabled bobbins together. -/
def guarOk (s : State) : Bool := decide (((enabledBobbins s).map (bobGuar s)).sum ≤ 65536)

/-- Entries that a table's listed bytes belong to. -/
def listedEntries (m : Mem) (size : Nat) : List Nat := (m.foldl (fun l e => if l.head? = some (e.1 / size) then l else (e.1 / size) :: l) []).reverse

/-- The map names no EGRESS of 17 or above. -/
def mapOk (s : State) : Bool := (listedEntries (s.conf 4 256) 8).all fun b => decide (bobEgress s b ≤ 16)

/-- No group names an internal member whose bobbin is MCAST. -/
def groupsOk (s : State) : Bool :=
  (listedEntries (s.conf 4 257) 16).all fun g => [14, 15, 16].all fun p => !((groupMask s g).testBit p && bobMcast s (groupBobbin s g p))

/-- A meter. -/
def meterOk (c : Conf) (i : Nat) : Bool :=
  let m := (confBytes c 5 i).bytes
  let rate (v : Nat) : Bool := decide (8 ≤ v ∧ v ≤ 10000000)
  let burst (v : Nat) : Bool := decide (64 ≤ v ∧ v ≤ 16777215)
  rate (m.num 0 4) && rate (m.num 4 4) && burst (m.num 8 4) && burst (m.num 12 3) && decide (m.num 0 4 ≤ m.num 4 4)

/-! ### Pins, CAN timing, ports (R449, R545, R495) -/

/-- A pin-function record. -/
def pinRecOk (r : Rec) : Bool :=
  let w : Word := BitVec.ofNat 32 (ofLE r.data)
  r.off == 0 && r.data.length == 4 && bitsOf w 30 2 != 3 && bitsOf w 12 2 != 3 && bitsOf w 9 2 != 3
    && bitsOf w 0 8 == 0 && bitsOf w 27 3 == 0 && bitsOf w 22 2 == 0 && bitsOf w 18 1 == 0 && bitsOf w 14 2 == 0

/-- Kernel clocks of a bit: BRP × tq. -/
def bitClocks (brp tq : Nat) : Nat := brp * tq

/-- A CAN bit-timing item: Table 11.1 and the cases of R545, at the 80 MHz kernel clock (R541). -/
def canTimingOk (nbt dbt tdc : Word) : Bool :=
  let nb := bitsOf nbt 1 8 + 1
  let n1 := bitsOf nbt 9 8 + 1
  let n2 := bitsOf nbt 17 7 + 1
  let nq := 1 + n1 + n2
  let db := bitsOf dbt 0 5 + 1
  let d1 := bitsOf dbt 8 5 + 1
  let d2 := bitsOf dbt 16 5 + 1
  let dq := 1 + d1 + d2
  let fd := bitOf dbt 31
  decide (2 ≤ n1) && decide (bitsOf nbt 24 7 + 1 ≤ n2) && decide (8 ≤ nq ∧ nq ≤ 385)
    && decide (bitClocks nb nq ≤ 8000) && decide (80 ≤ bitClocks nb nq)
    && (!bitOf nbt 31 || decide (640 ≤ bitClocks nb nq))
    && (!fd || (decide (d2 ≤ 16) && decide (bitsOf dbt 24 5 + 1 ≤ d2) && decide (5 ≤ dq ∧ dq ≤ 49) && decide (10 ≤ bitClocks db dq)
      && decide (bitClocks db dq ≤ bitClocks nb nq) && (bitOf tdc 31 || decide (40 ≤ bitClocks db dq))))
    && bitsOf tdc 0 7 == 0 && decide (bitsOf tdc 16 7 ≤ 127)

/-- The item of controller `n`. -/
def canItemOk (c : Conf) (n : Nat) : Bool :=
  let m := (confBytes c 0x0202 n).bytes
  canTimingOk (BitVec.ofNat 32 (m.num 0 4)) (BitVec.ofNat 32 (m.num 4 4)) (BitVec.ofNat 32 (m.num 8 4))

/-- MODE and AN of the PHY mode item of port `p` (Table 10.1). -/
def phyItemOk (c : Conf) (p : Nat) : Bool :=
  let m := (confBytes c 0x0203 p).bytes
  let mode := m.num 0 1
  decide (mode ≤ (if p < 8 then 1 else 5)) && !(mode == 5 && (m.num 1 1).testBit 0)

/-- SPEED, DUPLEX and MAXFRAME of the port speed item, for the port's MODE. -/
def speedItemOk (c : Conf) (p : Nat) : Bool :=
  let m := (confBytes c 0x0204 p).bytes
  let mode := (confBytes c 0x0203 p).bytes.num 0 1
  let codes : List Nat := if p < 4 then [0, 1, 2] else if p < 8 then [0, 1]
    else match mode with
      | 0 => [0, 1, 2, 3, 4]
      | 4 => [0, 3]
      | 5 => [4]
      | _ => [0, 1, 2, 3]
  let mx := m.num 2 2
  codes.contains (m.num 0 1) && decide (m.num 1 1 ≤ (if p < 4 then 1 else 0)) && decide (1522 ≤ mx ∧ mx ≤ 9216)

/-- Both items of a port, each when the configuration holds it. -/
def portItemsOk (c : Conf) (p : Nat) : Bool :=
  (decide ((confBytes c 0x0203 p).len = 0) || phyItemOk c p) && (decide ((confBytes c 0x0204 p).len = 0) || speedItemOk c p)

/-! ### Steward settings (R334, R558) -/

/-- Address of offset `off` of block `inst` in the order of Table 0.6. -/
def settingAddr (inst off : Nat) : Nat := 0x40000000 + 0x10000 * inst + off

/-- A register that a setting can change. -/
def settable (a : Nat) : Bool := (fieldsAt a).any fun f => f.acc == .rw || f.acc == .w1s || f.acc == .item

/-- Words of a record: address and value. -/
def settingWords (r : Rec) : List (Nat × Word) :=
  (List.range (r.data.length / 4)).map fun i => (settingAddr r.inst (r.off + 4 * i), BitVec.ofNat 32 (leAt r.data (4 * i) 4))

/-- The SKN remote table, which only settings change (R654). -/
def isRemote (a : Nat) : Bool := decide (0x40098000 ≤ a ∧ a < 0x4009C000)

/-- A steward-settings record: whole words of registers that settings reach. -/
def settingRecOk (r : Rec) : Bool :=
  r.off % 4 == 0 && r.data.length % 4 == 0 && decide (r.off + r.data.length ≤ 65536) && (settingWords r).all fun w => settable w.1

/-! ### Timing sets of the roving sequencer (R741, R743) -/

/-- The state with the ROV registers as configuration `c` sets them. -/
def rovSet (c : Conf) (s : State) : State :=
  let x := confBytes c 0x0100 12
  x.words.foldl (fun t w => t.regWrite (settingAddr 12 (4 * w)) (BitVec.ofNat 32 (x.bytes.num (4 * w) 4))) s

/-- Lane `l` of timing set `n`: E1 below PERIOD, and for RZ and RO E2 above E1 and below PERIOD (R743). -/
def laneOk (s : State) (n l : Nat) : Bool :=
  let e1 := tsE1 s n l
  let two := tsFmt s n l == 1 || tsFmt s n l == 2
  decide (e1 < tsPeriod s n) && (!two || (decide (e1 < tsE2 s n l) && decide (tsE2 s n l < tsPeriod s n)))

/-- Timing sets that a record writes. -/
def tsTouched (r : Rec) : List Nat :=
  (List.range 16).filter fun n => r.inst == 12 && (settingWords r).any fun w => decide (tsBase n ≤ w.1 ∧ w.1 < tsBase n + 0x80)

/-- Every timing set that a record writes keeps R743 in configuration `c`, and has a PERIOD of R741 (DEDUCED, log 39). -/
def rovRecOk (c : Conf) (s : State) (r : Rec) : Bool :=
  let t := rovSet c s
  (tsTouched r).all fun n => decide (320 ≤ tsPeriod t n) && (List.range 8).all (laneOk t n)

/-! ### All blocks -/

/-- Whether the item that record `r` stages is refused in configuration `c`, `t` being the state with it. -/
def recRefused (c : Conf) (t : State) (r : Rec) : Bool :=
  (match itemFixed r.item r.inst with
    | some n => decide (n < r.off + r.data.length)
    | none => false)
  || !(match r.item with
    | 0x0001 => crdBankOk c
    | 0x0003 => flyBankOk c r.inst
    | 0x0004 => (if r.inst < 256 then profileOk c r.inst else true) && guarOk t && mapOk t && groupsOk t
    | 0x0005 => meterOk c r.inst
    | 0x0100 => settingRecOk r && rovRecOk c t r
    | 0x0201 => pinRecOk r
    | 0x0202 => canItemOk c r.inst
    | 0x0203 | 0x0204 => portItemsOk c r.inst
    | _ => true)

/-- A commit that waits changes the lea of strand `k`. -/
def leaWaits (s : State) (k : Nat) : Bool :=
  s.txn.txns.any fun t => (t.st == .journaling || t.st == .waiting) && t.recs.any fun r => r.item == 2 && r.inst == k

/-- Slot records that stand in the slot table beside the leas the configuration comes to (R361): the active lea of each
running strand whose lea changes, by the strands `ks` of this commit, by one that waits, or by a lea already pending. -/
def slotsBeside (s : State) (ks : List Nat) : Nat :=
  ((List.range 4).map fun k =>
    let st := s.strand k
    if st.run && (ks.contains k || st.pend.isSome || leaWaits s k) then (st.lea.map fun l => l.slots.length).getD 0 else 0).sum

/-- The lowest bit set. -/
def lowestBit (m : BitVec 64) : Nat := ((List.range 64).find? fun n => m.getLsbD n).getD 0

/-- The first refusal among a transaction's records, with its status and DETAIL (R347, R380): of a whorl schedule the
spindle refused, or the record when the certificate is. -/
def validate (s : State) (base : Conf) (rs : List Rec) : Option (Status × Nat) :=
  let c := applyRecs base rs
  let t := withConf c s
  let plain := rs.findIdx? (recRefused c t)
  let lea := match rs.findIdx? fun r => r.item == 2 with
    | none => none
    | some i =>
      let x := certIn s c
      let more := slotsBeside s (recInsts 2 rs)
      let m := refusedMask x more
      if m = 0 then none else some (i, if certOk x more then lowestBit m else i)
  match plain, lea with
  | some i, some (j, d) => if i < j then some (.recordInvalid, i) else some (.certRefused, d)
  | some i, none => some (.recordInvalid, i)
  | none, some (_, d) => some (.certRefused, d)
  | none, none => none

end Sys2Proof.Machine
end

