-- ==== Sys2Proof/Machine/TxnOps.lean ====
section
/-!
DEFINITION. Configuration transactions (chapter 06): states, staging, the COMMIT's checks and acceptance, the epoch with
its order of application, the COMMIT reply.
-/

namespace Sys2Proof.Machine

/-- The transaction block changed. -/
def setTxns (f : TxnSt → TxnSt) (s : State) : State := { s with txn := f s.txn }

/-- STATE of a transaction (Table 6.5). -/
def txnNum : TxnState → Nat
  | .opened => 1
  | .journaling => 2
  | .waiting => 3
  | .applying => 4
  | .done => 5
  | .aborted => 6

/-- Neither DONE nor ABORTED. -/
def txnLive (t : Txn) : Bool := t.st != .done && t.st != .aborted

/-- A transaction ends: the latest 16 of those that have ended are kept, in the order in which they ended (Table 6.6). -/
def txnEnd (h : Nat) (st : TxnState) (s : State) : State :=
  match txn? s h with
  | none => s
  | some t =>
    let rest := s.txn.txns.filter fun x => x.h != h
    let ended := rest.filter fun x => !txnLive x
    let kept := ended.drop (ended.length - 15)
    setTxns (fun x => { x with txns := rest.filter txnLive ++ kept ++ [{ t with st := st, src := none }] }) s

/-- The handle that TXN_OPEN gives: the next that no kept transaction has; handles are 1 to 65,535 (R350). -/
def txnHandle (s : State) : Nat :=
  ((List.range 64).map fun i => (s.txn.nextH + i - 1) % 65535 + 1).find? (fun h => (txn? s h).isNone) |>.getD s.txn.nextH

/-- Bytes that records take in the staging area. -/
def stageBytes (rs : List Rec) : Nat := (recsBytes rs).length

/-- The transaction that holds an item, other than `h` (R325). -/
def itemHolder (s : State) (h : Nat) (r : Rec) : Option Nat :=
  (s.txn.txns.find? fun t => t.h != h && txnLive t && t.recs.any fun q => q.item == r.item && q.inst == r.inst).map Txn.h

/-- What staging record bytes answers (R323, R325, R326): the records, or the refusal. -/
def stageCheck (s : State) (t : Txn) (bs : List Byte) : Except (Status × Nat) (List Rec) :=
  match recsOf bs with
  | (_, some i) => .error (.recordInvalid, i)
  | (rs, none) =>
    match rs.findSome? (itemHolder s t.h) with
    | some h => .error (.txnConflict, h)
    | none =>
      let n := stageBytes rs
      let all := ((s.txn.txns.filter txnLive).map Txn.staged).sum
      if 984000 < t.staged + n ∨ 2097152 < all + n then .error (.stageFull, 0) else .ok rs

/-- Records are staged. -/
def stageRecs (h : Nat) (rs : List Rec) (s : State) : State :=
  setTxn h (fun t => { t with recs := t.recs ++ rs, staged := t.staged + stageBytes rs }) s

/-! ### COMMIT (R330 to R333, R336, R338, R339, R342, R347) -/

/-- The configuration once every commit accepted so far is applied. -/
def confNext (s : State) : Conf :=
  applyRecs s.txn.conf ((s.txn.txns.filter fun t => t.st == .journaling || t.st == .waiting).flatMap Txn.recs)

/-- FLAGS, EKIND, STRAND, EPOCH of a COMMIT. -/
structure CommitReq where
  persist : Bool
  nonatomicOk : Bool
  ekind : Nat
  strand : Nat
  tick : Tick
  deriving DecidableEq, Repr

/-- Record pages of the journal for records; pages needed when the resulting configuration is too large (R187, R339). -/
def tooLarge (c : Conf) : Option Nat :=
  let n := recPages (recsBytes (fullRecs c)).length
  if 4800 < n then some n else none

/-- The first record that a COMMIT without NONATOMIC_OK refuses (R336). -/
def nonAtomic (q : CommitReq) (rs : List Rec) : Option Nat :=
  rs.findIdx? fun r => isSteward r.item || isSeam r.item || (r.item == 2 && r.inst != q.strand)

/-- A Reel epoch more than 10 s ahead, a parameter out of range (R317, R331). -/
def epochFar (s : State) (ekind : Nat) (tick : Tick) : Bool := ekind == 1 && decide (s.reel + 10000000000 < tick)

/-- The epoch of a COMMIT is refused (R331, R333). -/
def epochRefused (s : State) (q : CommitReq) (rs : List Rec) : Option (Status × Nat) :=
  if q.ekind = 0 then
    (if (s.strand q.strand).run && (s.strand q.strand).on then none else some (.epochInvalid, q.strand))
  else if rs.any fun r => r.item == 2 then some (.epochInvalid, q.strand)
  else if q.tick < s.reel + 100000 then some (.epochPast, 0)
  else none

/-- What a PERSIST COMMIT asks of the Distaff (R161, R171, R183, R187). -/
def persistRefused (s : State) (c : Conf) : Option (Status × Nat) :=
  match tooLarge c with
  | some n => some (.commitTooLarge, n)
  | none =>
    if s.dst.staged.isSome then some (.distaffBusy, 0)
    else if s.dst.spareLeft = 0 then some (.distaffWorn, 0)
    else none

/-- Why a COMMIT is refused, in the order of R317. -/
def commitRefused (s : State) (t : Txn) (q : CommitReq) : Option (Status × Nat) :=
  match epochRefused s q t.recs with
  | some e => some e
  | none =>
    match (if q.nonatomicOk then none else nonAtomic q t.recs) with
    | some i => some (.nonatomic, i)
    | none =>
      match validate s (confNext s) t.recs with
      | some e => some e
      | none => if q.persist then persistRefused s (applyRecs (confNext s) t.recs) else none

/-- The schema of the running image. -/
def schemaNow (s : State) : Nat := ((activeImage s).map imgSchema).getD 0

/-- The inactive page of bank `b` takes the active item with the records transaction `t` stages for it (R434). -/
def pageStaged (t : Txn) (b : Nat) (s : State) : State :=
  setTxn t.h (fun x => { x with banks := b :: x.banks })
    (flyLoadPage b (flyOtherPage s b) (confBytes (applyRecs s.txn.conf t.recs) 3 b).bytes s)

/-- Each bank's inactive page is filled for the first accepted commit that stages it, and then left to the steward's writes
(R434; when, DEDUCED, log 40). -/
def pagesStaged (s : State) : State :=
  (List.range 6).foldl (fun u b =>
    match u.txn.txns.find? fun t => (t.st == .journaling || t.st == .waiting) && (recInsts 3 t.recs).contains b with
    | some t => if t.banks.contains b then u else pageStaged t b u
    | none => u) s

/-- A COMMIT is accepted: it waits for its epoch, or is handed to the Distaff first (R331, R332, R338). Accepted commits
stand in the order of their acceptance (R341, R342). -/
def commitAccept (h : Nat) (src : ReqSrc) (seq : Nat) (q : CommitReq) (s : State) : State :=
  match txn? s h with
  | none => s
  | some t =>
    let t' := { t with
      persist := q.persist, nonatomic := q.nonatomicOk, reelEpoch := q.ekind == 1, strand := q.strand, src := some src, tailSeq := seq
      tick := if q.ekind = 1 then q.tick else s.reel + 50000, st := if q.persist then .journaling else .waiting
      full := q.persist && s.txn.isVolatile, durable := false, late := false, seq := 0, applied := [], pages := 0, banks := [] }
    let s1 := pagesStaged (setTxns (fun x => { x with txns := (x.txns.filter fun y => y.h != h) ++ [t'] }) s)
    if q.persist then
      { s1 with dst := { s1.dst with staged := some { txn := h, recs := t.recs, schema := schemaNow s, full := s.txn.isVolatile } } }
    else s1

/-! ### The epoch (R334, R335, R341) -/

/-- The epoch tick of a waiting commit: the Reel tick it names, or the first lea boundary of its strand at or after the
tick it waits from; a boundary already begun counts. -/
def epochTick (s : State) (t : Txn) : Option Nat :=
  if t.reelEpoch then some t.tick.toNat
  else
    let st := s.strand t.strand
    if !st.run then none
    else if st.on && decide (t.tick ≤ st.boundary) then some st.boundary.toNat
    else boundaryAfter s t.strand t.tick.toNat

/-- A pending lea for strand `k`. At a boundary of the strand that has begun at the epoch itself it takes over at once. -/
def pendLea (k e : Nat) (s : State) : State :=
  match leaBytes s.whl.cert s.txn.conf k with
  | none => s
  | some b =>
    let t := s.setStrand k fun st => { st with pend := some (leaFrom b, BitVec.ofNat 64 e) }
    let st := t.strand k
    if st.run && st.on && st.boundary.toNat == e && st.next == 0 then switchLea k e t
    else if st.run then t
    else switchLea k e t

/-- Profiles have changed: every meter's buckets are clipped to the new CBS and PBS (R482). -/
def clipMeters (s : State) : State :=
  { s with bob := { s.bob with meters := s.bob.meters.mapVals (fun _ => {}) fun m x =>
      if x.fresh then x
      else { x with tc := min x.tc ((s.conf 5 m).num 8 4 * 65536), tp := min x.tp ((s.conf 5 m).num 12 3 * 65536) } } }

/-- A schedule that passed every check takes over: no spindle is refused any more (R380). -/
def refusalsEnd (s : State) : State :=
  let t := (List.range 64).foldl (fun u n => if (u.spindle n).st = .refused then u.setSpindle n fun p => { p with st := .idle } else u) s
  { t with whl := { t.whl with refused := 0 } }

/-- Bank `b` swaps for transaction `h`, whose program is put into the inactive page first where it is not there; what another
commit had put there is now the active page's. -/
def bankSwapped (h b : Nat) (s : State) : State :=
  let there := ((txn? s h).map Txn.banks).getD []
  let s1 := flyBankSwap b (if there.contains b then s else flyLoadPage b (flyOtherPage s b) (s.conf 3 b) s)
  setTxns (fun x => { x with txns := x.txns.map fun t => { t with banks := t.banks.filter fun y => y != b } }) s1

/-- Step 1: the shadow items swap at the epoch tick. -/
def shadowSwap (h e : Nat) (rs : List Rec) (s : State) : State :=
  let s1 := setTxns (fun x => { x with conf := applyRecs x.conf rs }) s
  let s2 := if (recInsts 1 rs).isEmpty then s1 else { s1 with eth := { s1.eth with bank := !s1.eth.bank } }
  let s3 := (recInsts 3 rs).foldl (fun t b => bankSwapped h b t) s2
  let s4 := if (recInsts 5 rs).isEmpty then s3 else clipMeters s3
  let ks := recInsts 2 rs
  let s5 := setTxn h (fun x => { x with leaLeft := ks.filter fun k => (s4.strand k).run }) s4
  let s6 := if ks.isEmpty then s5 else refusalsEnd s5
  ks.foldl (fun t k => pendLea k e t) s6

/-- A word of TAG_OEM. -/
def isOem (a : Nat) : Bool := decide (0x400B0400 ≤ a ∧ a < 0x400B0800)

/-- One word of steward settings is written; the remote table takes it directly (R654). -/
def settingWrite (w : Nat × Word) (s : State) : State :=
  if isRemote w.1 then { s with regs := setReg s.regs w.1 (w.2 &&& 0x83FFFFFF) }
  else if isOem w.1 then s.regWrite w.1 w.2 else busWrite w.1 w.2 s

/-- Steward settings of records, in staging order; then the OEM blocks that differ go to the nameplate (Table 15.3). -/
def settingsApply (rs : List Rec) (s : State) : State :=
  let ws := (rs.filter fun r => isSteward r.item).flatMap settingWords
  let t := ws.foldl (fun t w => settingWrite w t) s
  if ws.any fun w => isOem w.1 then oemKept (List.range 32) t else t

/-- Step 2: the steward settings; how long after the epoch, within 20 µs, is a free value (R334, R337). -/
def settingsStep (h : Nat) (rs : List Rec) (s : State) : State :=
  let insts := recInsts 0x0100 rs
  if insts.isEmpty then s
  else
    let ns := (freeNow s).toNat % 20001
    let t := tookFree (settingsApply rs s)
    setTxn h (fun x => { x with applied := x.applied ++ insts.map fun i => { item := 0x0100, inst := i, ns := ns } }) t

/-- Step 3 is set for the first seam at least 20 µs after the epoch. -/
def seamStep (h e : Nat) (rs : List Rec) (s : State) : State :=
  let pins := recInsts 0x0201 rs
  let tick := seamAfter (BitVec.ofNat 64 (e + 20000))
  let ps : List SeamPin := pins.map fun p => { pin := p, cfg := BitVec.ofNat 32 ((s.conf 0x0201 p).num 0 4), txn := h, tick := tick }
  setTxn h (fun x => { x with seamLeft := !pins.isEmpty }) (setTxns (fun x => { x with seamPins := x.seamPins ++ ps }) s)

/-- A commit without PERSIST has been applied: what replay reaches is not what runs, also once a commit already started is
durable (R153, R338). -/
def volatileApplied (s : State) : State :=
  { setTxns (fun x => { x with isVolatile := true }) s with
    dst := { s.dst with inflight := s.dst.inflight.map fun c => { c with stale := true } } }

/-- Step 1 of a commit at its epoch: its shadow items swap. -/
def commitSwap (h e : Nat) (s : State) : State :=
  match txn? s h with
  | none => s
  | some t =>
    let s1 := setTxn h (fun x => { x with st := .applying, epochReel := BitVec.ofNat 64 e, canBegun := false, canLeft := 0, portsDone := false }) s
    let s2 := shadowSwap h e t.recs s1
    if t.persist then s2 else volatileApplied s2

/-- The steps after it: steward settings, the seam set; steps 4 and 5 as soon as nothing is before them. -/
def commitRest (h e : Nat) (s : State) : State :=
  match txn? s h with
  | none => s
  | some t => txnAdvance h (seamStep h e t.recs (settingsStep h t.recs s))

/-- A commit whose strand has stopped is aborted; its COMMIT is answered EPOCH_INVALID (Table 6.5). -/
def commitStopped (h : Nat) (t : Txn) (s : State) : State :=
  let s1 := pagesStaged (txnEnd h .aborted s)
  match t.src with
  | some src => pushDue src t.tailSeq (replyMsg 0x0304 .epochInvalid t.strand []) s1
  | none => s1

/-- The epoch tick of commit `h` is reached: every commit that waits for this tick swaps its shadow items, and then each
applies the rest, in the order in which their COMMITs were accepted (R341). -/
def epochReached (h : Nat) (s0 : State) : State :=
  match txn? s0 h with
  | none => s0
  | some t =>
    let s := if t.st == .waiting && !t.reelEpoch then plyFirst t.strand s0 else s0
    if t.st != .waiting then s
    else match epochTick s t with
      | none => commitStopped h t s
      | some e =>
        let hs := (s.txn.txns.filter fun x => x.st == .waiting && epochTick s x == some e).map Txn.h
        let u := hs.foldl (fun u g => commitSwap g e u) (reachTick (BitVec.ofNat 64 e) s)
        pagesStaged (hs.foldl (fun u g => commitRest g e u) u)

/-- COMMIT_EPOCH (R324, R331, R332, R334, R335, R341, R435, R482, R527). -/
def execCommitEpoch (h : Nat) (s : State) : Host.Outcome State Fault Refusal := .next (epochReached h s)

/-! ### The COMMIT reply (R337, Table 6.7) -/

/-- Entries of a report. -/
def appliedBytes (as : List Applied) : List Byte := as.flatMap fun a => leBytes 2 a.item ++ leBytes 2 a.inst ++ leBytes 4 a.ns

/-- The reply of a commit: DURABLE, LATE, FULLCONF, MORE; SEQ; the epoch; the report from 0x2C on. The four bytes before it,
which Table 6.7 names no field for, are 0 (DESIGN CHOICE, log 39). -/
def commitReply (t : Txn) : List Byte :=
  leBytes 2 t.h ++ leBytes 2 (b2n t.durable + 2 * b2n t.late + 4 * b2n t.full + 8 * b2n (decide (26 < t.applied.length))) ++ leBytes 4 0
    ++ leBytes 8 (if t.persist then t.seq else 0) ++ leBytes 8 t.epochReel.toNat ++ leBytes 2 t.applied.length ++ [t.canMask.setWidth 8, 0]
    ++ leBytes 2 t.ethMask.toNat ++ leBytes 2 0 ++ leBytes 4 0 ++ appliedBytes (t.applied.take 26)

/-- Step 5 has been started for every port: the reply falls due. The transaction is DONE once it has been written (R327,
`replyWritten`); a reply to the master of the cascade is written at once. -/
def commitReplied (h : Nat) (s : State) : State :=
  match txn? s h with
  | none => s
  | some t =>
    if t.st == .applying && t.portsDone then
      let msg := replyMsg 0x0304 .ok 0 (commitReply t)
      match t.src with
      | some (.mailbox n) =>
        let s1 := setTxn h (fun x => { x with src := none }) s
        { s1 with hl := { s1.hl with due := s1.hl.due ++ [{ mb := n.val, seq := t.tailSeq, msg := msg, txn := some h }] } }
      | some src => pushDue src t.tailSeq msg (txnEnd h .done s)
      | none => s
    else s

/-- A reply has been written: the commit whose reply it is is DONE (R327). -/
def replyWritten (d : Due) (s : State) : State :=
  match d.txn with
  | some h => txnEnd h .done s
  | none => s

/-- COMMIT_REPLY. -/
def execCommitReply (h : Nat) (s : State) : Host.Outcome State Fault Refusal := .next (commitReplied h s)

/-! ### Expiry and withdrawal (R328, R329) -/

/-- TXN_EXPIRED: an OPEN transaction with no command for 300 s is aborted and logged. -/
def execTxnExpired (h : Nat) (s : State) : Host.Outcome State Fault Refusal :=
  match txn? s h with
  | none => .next s
  | some t =>
    if t.st == .opened then .next (logFault 0x51 13 (leBytes 2 h) (txnEnd h .aborted (setTxn h (fun x => { x with expired := true }) s)))
    else .next s

/-- TXN_ABORT succeeds (R328): OPEN; WAITING without PERSIST; JOURNALING while no unit of the commit has started. -/
def abortMay (s : State) (t : Txn) : Bool :=
  match t.st with
  | .opened => true
  | .waiting => !t.persist
  | .journaling => (s.dst.staged.any fun c => c.txn == t.h) || (commitIdle s && s.dst.inflight.any fun c => c.txn == t.h && c.written == 0)
  | .applying | .done | .aborted => false

/-- It is aborted: a staged commit is withdrawn, and a COMMIT that waits is answered TXN_STATE with the state ABORTED. -/
def txnAbort (h : Nat) (t : Txn) (s : State) : State :=
  let s1 := { s with dst := { s.dst with staged := s.dst.staged.filter (fun c => c.txn != h), inflight := s.dst.inflight.filter fun c => c.txn != h || c.written != 0 } }
  let s2 := pagesStaged (txnEnd h .aborted s1)
  match t.src with
  | some src => pushDue src t.tailSeq (replyMsg 0x0304 .txnState 6 []) s2
  | none => s2

end Sys2Proof.Machine
end

