-- ==== Sys2Proof/Machine/CommandOps.lean ====
section
/-!
DEFINITION. How Steward 3.2 serves a command (chapter 06): which request it is, the order of its checks (R317), the reply;
and what the replies of Tables 6.7 to 6.9 carry.
-/

namespace Sys2Proof.Machine

/-! ### Requests and replies -/

/-- The command codes of Tables 6.7 to 6.9. -/
def knownCodes : List Nat :=
  [0x0101, 0x0102, 0x0201, 0x0202, 0x0203, 0x0204, 0x0301, 0x0302, 0x0303, 0x0304, 0x0305, 0x0306, 0x0307,
   0x0401, 0x0402, 0x0403, 0x0404, 0x0405, 0x0406, 0x0407, 0x0501, 0x0502, 0x0503, 0x0601, 0x0602, 0x0603, 0x0604, 0x0605,
   0x0701, 0x0702, 0x0703, 0x0801, 0x0802, 0x0901, 0x0902, 0x0903, 0x0A01, 0x0A02, 0x0A03, 0x0A04, 0x0A05, 0x0B01, 0x0B02, 0x0B03]

/-- The commands that the recovery responder serves with no image loaded (R95). -/
def recoveryCodes : List Nat := [0x0101, 0x0102, 0x0201, 0x0203, 0x0401, 0x0402, 0x0403, 0x0404, 0x0405, 0x0B01, 0x0B02]

/-- The request of `src` that the steward has taken and is to serve. -/
def takenOf (s : State) (src : ReqSrc) : Option Req := s.hl.taken.find? fun q => q.src == src

/-- A request taken before `q` names the same transaction: `q` waits (R319). -/
def txnAhead (s : State) (q : Req) : Bool :=
  match reqTxn q with
  | none => false
  | some h => (s.hl.taken.takeWhile (· != q)).any fun x => reqTxn x == some h

/-- The request is no longer waiting. -/
def dropTaken (q : Req) (s : State) : State := setHl (fun h => { h with taken := h.taken.erase q }) s

/-- The answer to a request. -/
def answer (q : Req) (st : Status) (detail : Nat) (pay : List Byte) (s : State) : State :=
  pushDue q.src q.seq (replyMsg (reqCode q) st detail pay) s
/-- OK, with what the command adds. -/
def answerOk (q : Req) (pay : List Byte) (s : State) : State := answer q .ok 0 pay s
/-- A refusal: it has no effect (R317). -/
def refuse (q : Req) (st : Status) (detail : Nat) (s : State) : State := answer q st detail [] s

/-- Modes a command is served in. -/
def anyMode (_ : Mode) : Bool := true
def spinOrService : Mode → Bool
  | .spin | .service => true
  | .dark | .kindle | .brace | .drowse => false
def serviceOnly : Mode → Bool
  | .service => true
  | .dark | .kindle | .spin | .brace | .drowse => false
def workModes : Mode → Bool
  | .spin | .brace | .service => true
  | .dark | .kindle | .drowse => false

/-- A command of code `code` whose layout needs `need` bytes: the checks up to the mode, in the order of R317; `body` goes
on with the parameters and the resources. While a command tail-written before it names the same transaction it waits. -/
def serve (code need : Nat) (modes : Mode → Bool) (src : ReqSrc) (body : Req → State → State) (s : State) : State :=
  match takenOf s src with
  | none => s
  | some q =>
    if reqCode q != code || txnAhead s q then s
    else
      let t := dropTaken q s
      if imageNone s && !recoveryCodes.contains code then refuse q .imageNone 0 t
      else if q.msg.length < need then refuse q .badLength need t
      else if !modes s.sys.mode then refuse q .modeDenied (modeNum s.sys.mode) t
      else body q t

/-- A command that reads host memory is refused on the SPI host link (Table 6.3), before its parameters are read: the table
states the link beside the modes (DEDUCED). -/
def needPcie (q : Req) (body : State → State) (s : State) : State :=
  if spiSelected s then refuse q .linkDenied 0 s else body s

/-- The bytes read from host memory; a failed read keeps nothing (R349). -/
def hostData (q : Req) (data : Option (List Byte)) (body : List Byte → State → State) (s : State) : State :=
  match data with
  | none => refuse q .dmaFault 0 s
  | some bs => body bs s

/-- A word register as a reply carries it: the value now, whatever is latched. -/
def regBytes (s : State) (a : Nat) : List Byte := leBytes 4 (readFields (fieldsAt a) (s.rd a) ||| roBits s a).toNat

/-! ### Identity and mode -/

/-- The kindle runs from a TRIAL slot. -/
def onTrial (s : State) : Bool := s.dst.booted.any fun b => slotState s.dst.ctl b == .trial

/-- ID_GET. -/
def idBytes (s : State) : List Byte :=
  let flags := b2n (imageNone s) + 2 * b2n s.txn.confDefault + 4 * b2n s.txn.isVolatile + 8 * b2n (onTrial s)
  leBytes 1 Config.stepping ++ leBytes 1 (b2n (s.dst.booted.getD false)) ++ leBytes 2 (if imageNone s then 0 else Config.fwver)
    ++ leBytes 4 (schemaNow s) ++ leBytes 8 Config.serial.toNat ++ leBytes 2 (s.skn.dev.toNat + 32768 * b2n s.skn.assigned)
    ++ leBytes 2 flags ++ leBytes 4 0 ++ leBytes 8 s.dst.seq ++ (s.dst.hash ++ List.replicate 32 0).take 32

/-- KINDLE_REPORT. -/
def kindleBytes (s : State) : List Byte :=
  ((List.range 7).flatMap fun i => regBytes s (0x40000030 + 4 * i)) ++ regBytes s 0x40000050 ++ regBytes s 0x40000024
    ++ regBytes s 0x40000054 ++ regBytes s 0x40000068

/-- A commit is in JOURNALING, WAITING or APPLYING (R119, R344). -/
def commitsRun (s : State) : Bool := s.txn.txns.any fun t => t.st == .journaling || t.st == .waiting || t.st == .applying
/-- A transaction is OPEN. -/
def txnOpen (s : State) : Bool := s.txn.txns.any fun t => t.st == .opened
/-- The Distaff holds a commit. -/
def dstBusy (s : State) : Bool := s.dst.inflight.isSome || s.dst.staged.isSome

/-- MODE_SET to Drowse (R119, R344, R703): the mode conditions before the resources. -/
def drowseSet (q : Req) (s : State) : State :=
  if s.sys.mode != .spin || txnOpen s || s.pwr.senseWarn then refuse q .modeDenied (modeNum s.sys.mode) s
  else if commitsRun s || dstBusy s || panelBusy s then refuse q .busy 0 s
  else answerOk q [] (rovStopAt true (stopStrands (setSys (fun y => { y with entering := true, drowseReq := some (q.src, q.seq, s.ply.reel) }) s)))

/-- MODE_SET to Service. -/
def serviceSet (q : Req) (s : State) : State :=
  if commitsRun s then refuse q .busy 0 s
  else answerOk q [] (stopStrands (setSys (fun y => { y with mode := .service }) s))

/-- MODE_SET to Spin: refused while an image update waits for its WARM reset (R84). -/
def spinSet (q : Req) (s : State) : State :=
  if s.sys.imgUpdated then refuse q .modeDenied (modeNum s.sys.mode) s
  else answerOk q [] (startStrands (setSys (fun y => { y with mode := .spin }) s))

/-- MODE_SET: a TARGET equal to the present mode is OK with no effect; once Drowse entry runs no other mode is taken up. -/
def modeSet (q : Req) (s : State) : State :=
  let t := par q 8 1
  if t != 2 && t != 4 && t != 5 then refuse q .badParam 8 s
  else if t = modeNum s.sys.mode then answerOk q [] s
  else if s.sys.entering then (if t = 4 then answerOk q [] s else refuse q .modeDenied (modeNum s.sys.mode) s)
  else if t = 4 then drowseSet q s else if t = 5 then serviceSet q s else spinSet q s

/-! ### Transactions -/

/-- The transaction a command names: unknown, expired, or the body with it (Table 6.3). -/
def onTxn (q : Req) (expired : Bool) (body : Txn → State → State) (s : State) : State :=
  match txn? s (par q 8 2) with
  | none => refuse q .txnUnknown 0 s
  | some t => if t.expired && !expired then refuse q .txnExpired 0 s else body t s

/-- It is OPEN. -/
def onOpen (q : Req) (body : Txn → State → State) (s : State) : State :=
  onTxn q false (fun t u => if t.st == .opened then body t u else refuse q .txnState (txnNum t.st) u) s

/-- Record bytes are staged. -/
def stageBody (q : Req) (bs : List Byte) (t : Txn) (s : State) : State :=
  match stageCheck s t bs with
  | .error e => refuse q e.1 e.2 s
  | .ok rs =>
    let u := stageRecs t.h rs s
    answerOk q (leBytes 4 (t.staged + stageBytes rs)) u

/-- TXN_COMMIT. -/
def commitServe (q : Req) (t : Txn) (s : State) : State :=
  let r : CommitReq := {
    persist := (par q 0xA 2).testBit 0, nonatomicOk := (par q 0xA 2).testBit 1, ekind := par q 0xC 1, strand := par q 0xD 1
    tick := BitVec.ofNat 64 (par q 0x10 8) }
  match commitRefused s t r with
  | some e => refuse q e.1 e.2 s
  | none => commitAccept t.h q.src q.seq r s

/-- TXN_STATUS. -/
def statusBytes (t : Txn) (first : Nat) : List Byte :=
  leBytes 2 t.h ++ leBytes 1 (txnNum t.st) ++ [0] ++ leBytes 4 t.staged ++ leBytes 2 t.recs.length ++ leBytes 2 t.pages
    ++ leBytes 2 t.applied.length ++ leBytes 2 0 ++ appliedBytes ((t.applied.drop first).take 28)

/-- Length of an item's contents: fixed, or as records have reached; of steward settings the block's window. -/
def itemSpan (s : State) (item inst : Nat) : Nat :=
  if isSteward item then 65536 else (itemFixed item inst).getD (s.confLen item inst)

/-- CONF_GET. -/
def confGet (q : Req) (s : State) : State :=
  let item := par q 8 2
  let inst := par q 0xA 2
  let off := par q 0xC 4
  let len := par q 0x10 2
  if !itemKnown item inst then refuse q .badParam (if itemKnown item 0 || itemKnown item 1 then 0xA else 8) s
  else if itemSpan s item inst ≤ off then refuse q .badParam 0xC s
  else if len = 0 ∨ 228 < len then refuse q .badParam 0x10 s
  else if itemSpan s item inst < off + len then refuse q .badParam 0xC s
  else answerOk q (leBytes 2 len ++ leBytes 2 0 ++ (s.conf item inst).bytes off len) s

/-! ### Images (R176, R179, R352, R586) -/

/-- The slot that is not ACTIVE. -/
def spareSlot (s : State) : Bool := !s.dst.ctl.active

/-- A range of bytes joins those written. -/
def addRange (o n : Nat) : List (Nat × Nat) → List (Nat × Nat)
  | [] => [(o, n)]
  | (p, m) :: t =>
    if o + n < p then (o, n) :: (p, m) :: t
    else if p + m < o then (p, m) :: addRange o n t
    else addRange (min o p) (max (o + n) (p + m) - min o p) t

/-- Bytes written so far. -/
def bytesWritten (w : ImgWrite) : Nat := (w.ranges.map Prod.snd).sum

/-- Image data in units of at most 64 pages, cut at multiples of 32,768 bytes. Fuel: how many. -/
def imageUnits : Nat → Nat → List Byte → List GUnit
  | 0, _, _ => []
  | fuel + 1, off, bs =>
    if bs.isEmpty then []
    else
      let n := 32768 - off % 32768
      .image off (bs.take n) :: imageUnits fuel (off + n) (bs.drop n)

/-- IMG_BEGIN. -/
def imgBegin (q : Req) (s : State) : State :=
  if 16515072 < par q 8 4 then refuse q .badParam 8 s
  else
    let b := spareSlot s
    let t := changeCtl (setSlot b .writing) (setDst (fun d => { d with imgWrite := some { slotB := b, size := par q 8 4, ranges := [] } }) s)
    answerOk q [BitVec.ofNat 8 (b2n b)] t

/-- OFFSET and `n` bytes reach past the SIZE of the image being written: a parameter out of range (R317). -/
def imgPast (q : Req) (n : Nat) (s : State) : Bool := s.dst.imgWrite.any fun w => decide (w.size < par q 8 4 + n)

/-- IMG_WRITE and IMG_WRITE_DMA after their checks. -/
def imgPut (q : Req) (bs : List Byte) (s : State) : State :=
  let off := par q 8 4
  match s.dst.imgWrite with
  | none => refuse q .slotState (slotNum (slotState s.dst.ctl (spareSlot s))) s
  | some w =>
    if w.size < off + bs.length then refuse q .badParam 8 s
    else
      let w' := { w with ranges := addRange off bs.length w.ranges }
      let us := imageUnits (bs.length / 32768 + 2) off bs
      answerOk q (leBytes 4 (bytesWritten w')) (setDst (fun d => { d with imgWrite := some w', waiting := d.waiting ++ us }) s)

/-- Image units that have not ended. -/
def imageUnitsLeft (s : State) : Bool :=
  let img (u : GUnit) : Bool := match u with
    | .image _ _ => true
    | _ => false
  s.dst.waiting.any img || s.dst.running.any img

/-- IMG_END: every byte written; the slot is authenticated, and is TRIAL or BAD. -/
def imgEnd (q : Req) (s : State) : State :=
  match s.dst.imgWrite with
  | none => refuse q .slotState (slotNum (slotState s.dst.ctl (spareSlot s))) s
  | some w =>
    if bytesWritten w != w.size then refuse q .slotState (slotNum (slotState s.dst.ctl w.slotB)) s
    else
      let t := setDst (fun d => { d with imgWrite := none }) s
      if authentic (slotMem s.dst w.slotB) then
        answerOk q [] (setSys (fun y => { y with imgUpdated := true }) (changeCtl (fun c => { setSlot w.slotB .trial c with tries := 0 }) t))
      else refuse q .authFail 0 (changeCtl (setSlot w.slotB .bad) t)

/-- IMG_CONFIRM (R179). -/
def imgConfirm (q : Req) (s : State) : State :=
  match s.dst.booted with
  | some b =>
    if slotState s.dst.ctl b = .trial then
      answerOk q [] (changeCtl (fun c => { setSlot b .good c with active := b, tries := 0 }) s)
    else refuse q .slotState (slotNum (slotState s.dst.ctl b)) s
  | none => refuse q .slotState 0 s

/-! ### Ports, bobbins (Table 6.8) -/

/-- Ports of KIND 0 Ethernet, 1 CAN, 2 skein. -/
def portCount (kind : Nat) : Nat := if kind = 0 then 12 else if kind = 1 then 8 else 2

/-- KIND and INDEX are checked. -/
def onPort (q : Req) (body : Nat → Nat → State → State) (s : State) : State :=
  if 2 < par q 8 1 then refuse q .badParam 8 s
  else if portCount (par q 8 1) ≤ par q 9 1 then refuse q .badParam 9 s
  else body (par q 8 1) (par q 9 1) s

/-- STATE of an Ethernet port: a port inline with a bypass relay that is released is bypassed. -/
def ethPortState (s : State) (p : Nat) : Nat :=
  let e := s.eport p
  if e.enabled then (if e.link then 3 else if e.inTrans then 1 else 2)
  else if p < 4 ∧ s.pwr.settling.getLsbD p = true then 1
  else if p < 4 ∧ bypeDrive s p = true then 4 else 0
/-- STATE of a CAN controller (R579). -/
def canPortState (c : Can) : Nat :=
  if !c.enabled then 0
  else if c.pend.isSome then 1
  else match c.st with
    | .integrating | .busOff => 2
    | .active | .passive => 3
/-- SPEED of a CAN controller: the nominal rate in units of 10 kbit/s, of the 80 MHz kernel clock (R541, R579). -/
def canSpeed (c : Can) : Nat :=
  8000 / ((bitsOf c.nbt 1 8 + 1) * (1 + (bitsOf c.nbt 9 8 + 1) + (bitsOf c.nbt 17 7 + 1)))
/-- STATE of a skein link: bypassed while its path is closed (R689). -/
def skeinPortState (k : Link) : Nat :=
  if k.pathClosed then 4
  else match k.st with
    | .off => 0
    | .training => 1
    | .monitoring => 2
    | .up10g | .upSwift | .swiftOnly => 3

/-- PORT_STATUS. SPEED has codes for Ethernet ports (R494) and CAN controllers (R579): of a skein link it is a free value. -/
def portStatus (q : Req) (kind i : Nat) (s : State) : State :=
  let msg (st speed : Nat) (t : Tick) : List Byte := leBytes 1 st ++ leBytes 1 speed ++ leBytes 2 0 ++ leBytes 4 0 ++ leBytes 8 t.toNat
  let w := (freeNow s).toNat
  match kind with
  | 0 => answerOk q (msg (ethPortState s i) (s.eport i).speed (s.eport i).changed) s
  | 1 => answerOk q (msg (canPortState (s.canOf i)) (canSpeed (s.canOf i)) (s.canOf i).changed) s
  | _ => answerOk q (msg (skeinPortState (s.linkOf i)) w (s.linkOf i).changed) (tookFree s)

/-- PORT_COUNTERS: frames in, out, errors, TRUNC, stomped. -/
def portCounters (s : State) (kind i : Nat) : List Nat :=
  match kind with
  | 0 => let g := s.egress i; [g.framesIn, g.framesOut, g.errors, g.truncs, g.stomps]
  | 1 => let c := s.canOf i; [c.framesRx.toNat, c.framesTx.toNat, c.errs.toNat, 0, 0]
  | _ => let k := s.linkOf i; [k.rxFrm.toNat, k.txFrm.toNat, k.crcErr.toNat, 0, k.aborts.toNat]

/-- BOB_STATUS. -/
def bobBytes (s : State) (b : Nat) : List Byte :=
  let x := s.bobbin b
  leBytes 4 (depthOf s b) ++ leBytes 4 (s.bob.queue.filter fun e => e.bobbin == b).length ++ leBytes 8 x.dropped ++ leBytes 8 x.marked ++ leBytes 8 x.refused

/-! ### Plies (R614, R615, R621, R622, R626) -/

/-- PLY is checked. -/
def onPly (q : Req) (body : Nat → State → State) (s : State) : State :=
  if 7 < par q 8 1 then refuse q .badParam 8 s else body (par q 8 1) s

/-- PLY_GET. -/
def plyBytes (s : State) (k : Nat) : List Byte :=
  let v := plyValue s k
  leBytes 8 v.1 ++ leBytes 4 v.2.1 ++ leBytes 4 0 ++ leBytes 8 (plyIncrement s k) ++ leBytes 8 s.reel.toNat

/-- A ply that commands may change: ROLE 0, nothing pending (R626). -/
def plyFree (s : State) (k : Nat) : Bool := tsRole s k == 0 && (s.plyOf k).chg.isNone

/-- PLY_INCR. -/
def plyIncr (q : Req) (k : Nat) (s : State) : State :=
  let i := par q 0x10 8
  if i < incrLo ∨ incrHi < i then refuse q .badParam 0x10 s
  else if !plyFree s k then refuse q .busy 0 s
  else answerOk q [] (postChange k { at' := s.reel + 1, step := none, incr := some i } s)

/-- A tick named by a command lies too near, or too far ahead: at least `near` ns and at most 10 s. -/
def tickRefused (s : State) (t near off : Nat) : Option (Status × Nat) :=
  if t < s.reel.toNat + near then some (.epochPast, 0)
  else if s.reel.toNat + 10000000000 < t then some (.badParam, off)
  else none

/-- PLY_STEP. -/
def plyStep (q : Req) (k : Nat) (s : State) : State :=
  let sec := par q 0x10 8
  let ns := par q 0x18 4
  let t := par q 0x20 8
  if 1 < par q 9 1 then refuse q .badParam 9 s
  else if 2 ^ 48 ≤ sec then refuse q .badParam 0x10 s
  else if 999999999 < ns then refuse q .badParam 0x18 s
  else match (if t = 0 then none else tickRefused s t 1000 0x20) with
    | some e => refuse q e.1 e.2 s
    | none =>
      if !plyFree s k then refuse q .busy 0 s
      else answerOk q [] (postChange k {
        at' := if t = 0 then s.reel + 1 else BitVec.ofNat 64 t, step := some (par q 9 1 == 1, sec, ns), incr := none } s)

/-! ### Cascade (R353, R354, R679, R680) -/

/-- CASC_STATUS. -/
def cascBytes (s : State) : List Byte :=
  let swift (l : Nat) : Bool := (s.linkOf l).st == .upSwift || (s.linkOf l).st == .swiftOnly
  let f := b2n s.skn.master + 2 * b2n s.skn.conflict + 4 * b2n (s.linkOf 0).pathClosed + 8 * b2n (s.linkOf 1).pathClosed
    + 16 * b2n (swift 0 || swift 1)
  leBytes 2 s.skn.dev.toNat ++ leBytes 2 s.skn.masterId.toNat ++ leBytes 2 s.skn.members.length ++ leBytes 1 f

/-- CASC_MAP: members from a device ID on, in ascending order. -/
def mapBytes (s : State) (first : Nat) : List Byte :=
  let ms := ((List.range 1024).filterMap fun d => s.skn.members.find? fun m => m.dev.toNat == d).filter fun m => decide (first ≤ m.dev.toNat)
  let es := ms.take 60
  leBytes 2 es.length ++ leBytes 2 0 ++ es.flatMap fun m => leBytes 4 (m.dev.toNat + m.mode.toNat * 4096)

/-- The inner request of a relay wakes its target: MODE_SET with TARGET 2 (R680). -/
def isWake (inner : List Byte) : Bool := leAt inner 0 2 == 0x0202 && decide (9 ≤ inner.length) && leAt inner 8 1 == 2

/-- A relay goes out, and waits for its reply or acknowledgement. -/
def relayGo (q : Req) (target : BitVec 10) (inner : List Byte) (wake : Bool) (s : State) : State :=
  let n := s.skn.nextSeq
  let l := sideTo s target.toNat
  let r : Relay := { seq := n, src := q.src, tailSeq := q.seq, target := target, wake := wake, side := l }
  let t := { s with skn := { s.skn with nextSeq := n + 1, relays := s.skn.relays ++ [r] } }
  sknTx l (if wake then .wake target else .relay target n inner) t

/-- 512 relays are in flight in the direction of the member that the next request of `src` names: it is delayed (R679). -/
def relayFull (src : ReqSrc) (s : State) : Bool :=
  match takenOf s src with
  | none => false
  | some q =>
    let d := par q 8 2
    (s.skn.members.any fun m => m.dev.toNat == d) && decide (512 ≤ (s.skn.relays.filter fun r => r.side == sideTo s d).length)

/-- CASC_RELAY. -/
def cascRelay (q : Req) (s : State) : State :=
  let target := par q 8 2
  let inner := q.msg.drop 0xC
  if leAt inner 0 2 = 0x0703 then refuse q .badParam 0xC s
  else if !s.skn.assigned || !s.skn.master then refuse q .cascadeUnreachable target s
  else match s.skn.members.find? fun m => m.dev.toNat == target with
    | none => refuse q .cascadeUnreachable target s
    | some m =>
      let sleeps := m.mode.toNat == modeNum .drowse
      if sleeps && isWake inner then relayGo q m.dev inner true s
      else if sleeps || m.mode.toNat == modeNum .kindle || m.mode.toNat == modeNum .dark then refuse q .cascadeUnreachable target s
      else relayGo q m.dev inner false s

/-- A relay reply as CASC_RELAY carries it: cut to 244 bytes, its DETAIL then 0xFFFF (R354). -/
def relayPay (rep : List Byte) : List Byte :=
  if 244 < rep.length then (rep.take 4 ++ [0xFF, 0xFF] ++ rep.drop 6).take 244 else rep

/-- A relay ends with an answer for who asked. -/
def relayEnd (r : Relay) (st : Status) (detail : Nat) (pay : List Byte) (s : State) : State :=
  pushDue r.src r.tailSeq (replyMsg 0x0703 st detail pay) { s with skn := { s.skn with relays := s.skn.relays.erase r } }

/-! ### Panel, tag, log -/

/-- Bytes of a map of keys. -/
def keyMap (s : State) (f : Key → Bool) : List Byte := (List.range 16).map fun i => BitVec.ofNat 8 (keyBits s (8 * i) 8 f)

/-- PNL_EVENTS: entries are popped, LOST is read and cleared (R700, R701). -/
def pnlEvents (q : Req) (s : State) : State :=
  let n := par q 8 1
  if n = 0 ∨ 30 < n then refuse q .badParam 8 s
  else
    let es := s.pnl.queue.take n
    let pay := leBytes 1 es.length ++ leBytes 1 s.pnl.lost ++ leBytes 2 0
      ++ es.flatMap fun e => leBytes 1 e.key ++ leBytes 1 e.kind ++ leBytes 2 0 ++ leBytes 4 e.ms
    answerOk q pay { s with pnl := { s.pnl with queue := s.pnl.queue.drop n, lost := 0 } }

/-- PNL_STATUS. -/
def pnlStatusBytes (s : State) : List Byte :=
  keyMap s Key.pressed ++ keyMap s Key.masked ++ leBytes 1 (keyBits s 128 8 Key.pressed) ++ [0, 0, 0]
    ++ (List.range 4).flatMap fun e => leBytes 2 (s.encoder e).count.toNat

/-- Written fault records of the nameplate whose acknowledgement bit is 0. -/
def unacked (s : State) : Nat :=
  ((List.range 16).filter fun i => !(ackBits s).getLsbD i && (s.dst.nameplate.bytes (32 * (56 + i)) 32).any (· != 0)).length

/-- TAG_STATUS. -/
def tagBytes (s : State) : List Byte :=
  leBytes 1 (b2n s.tag.secured) ++ leBytes 1 (b2n s.tag.field) ++ leBytes 2 s.tag.reads.toNat ++ leBytes 2 (unacked s)

/-- READER_SCAN: a card's UID of up to 10 bytes, or none. -/
def uidBytes (card : Option (List Byte)) : List Byte :=
  let u := (card.getD []).take 10
  leBytes 1 u.length ++ [0, 0, 0] ++ u

/-- LOG_READ: up to 6 records from an INDEX on, and the INDEX to ask for next. -/
def logReadBytes (d : Dst) (i : Nat) : List Byte :=
  let rs := (d.log.filter fun r => decide (i ≤ r.index)).take 6
  let next := match rs.getLast? with
    | some r => r.index + 1
    | none => d.logNext
  leBytes 4 next ++ rs.flatMap logBytes

/-! ### Roving (R736 to R738, R752) -/

/-- ROV_HANK_WRITE after the link check. -/
def hankPut (q : Req) (bs : List Byte) (s : State) : State :=
  setRov (fun r => { r with mem := Mem.write r.mem (131072 * par q 8 1 + par q 0xC 4) (bs.take (par q 0x10 4)) }) s

/-- The first parameter of ROV_HANK_WRITE outside its range (R738). -/
def hankBad (q : Req) : Option Nat :=
  let off := par q 0xC 4
  let len := par q 0x10 4
  if 31 < par q 8 1 then some 8
  else if off % 4 ≠ 0 ∨ 131072 ≤ off then some 0xC
  else if len % 4 ≠ 0 ∨ len < 4 ∨ 131072 < len ∨ 131072 < off + len then some 0x10
  else none

/-- ROV_HANK_READY. -/
def hankReadySet (q : Req) (s : State) : State :=
  let m : BitVec 32 := BitVec.ofNat 32 (par q 8 4)
  if rovInUse s &&& ~~~ m = 0 then answerOk q [] (setReady m s) else refuse q .busy 0 s

/-- ROV_START: parameters before the resource (R317). -/
def rovStart (q : Req) (s : State) : State :=
  let entry := par q 8 4
  let t := par q 0x10 8
  if 4194304 ≤ entry ∨ entry % 8 ≠ 0 ∨ !hankReady s entry then refuse q .badParam 8 s
  else match (if t = 0 then none else tickRefused s t 10000 0x10) with
    | some e => refuse q e.1 e.2 s
    | none =>
      if s.rov.running || s.rov.startAt.isSome then refuse q .busy 0 s
      else if t = 0 then answerOk q [] (rovBegin entry s)
      else answerOk q [] (setRov (fun r => { r with startAt := some (BitVec.ofNat 64 t), pc := entry }) s)

/-- ROV_STATUS. -/
def rovStatusBytes (s : State) : List Byte :=
  leBytes 4 (b2n s.rov.running + 2 * b2n (bitOf (s.rd rovStat) 0)) ++ leBytes 4 s.rov.vcount.toNat

end Sys2Proof.Machine
end

