-- ==== Sys2Proof/Machine/Commands.lean ====
section
/-!
DEFINITION. The meanings of the steward commands (Tables 6.7 to 6.9), of the relay's replies and of requests with an
unknown code. Each serves the request that was taken from the mailbox or relay it names, if that request has its code.
-/

namespace Sys2Proof.Machine

/-- UNKNOWN_CMD (R317): the request of `src` has a code that no table gives. -/
def execUnknownCmd (src : ReqSrc) (s : State) : Host.Outcome State Fault Refusal :=
  match takenOf s src with
  | none => .next s
  | some q => if knownCodes.contains (reqCode q) then .next s else .next (refuse q .unknownCmd 0 (dropTaken q s))

/-! ### Groups 0x01 to 0x03 (Table 6.7) -/

/-- ID_GET. -/
def execIdGet (src : ReqSrc) (s : State) : Host.Outcome State Fault Refusal :=
  .next (serve 0x0101 8 anyMode src (fun q t => answerOk q (idBytes t) t) s)

/-- KINDLE_REPORT (R140). -/
def execKindleReport (src : ReqSrc) (s : State) : Host.Outcome State Fault Refusal :=
  .next (serve 0x0102 8 anyMode src (fun q t => answerOk q (kindleBytes t) t) s)

/-- MODE_GET. -/
def execModeGet (src : ReqSrc) (s : State) : Host.Outcome State Fault Refusal :=
  .next (serve 0x0201 8 anyMode src (fun q t => answerOk q (regBytes t 0x40000020 ++ regBytes t 0x4000005C) t) s)

/-- MODE_SET (R84, R119, R344, R703). -/
def execModeSet (src : ReqSrc) (s : State) : Host.Outcome State Fault Refusal :=
  .next (serve 0x0202 9 spinOrService src modeSet s)

/-- RESET_WARM (R84, R351, R783): the reply is written first, so a request waits while its host-bound mailbox is full; the
reset follows when the block next idles (`tick`), and until then the host may read the reply. -/
def warmNow (q : Req) (s : State) : State :=
  let t := setSys (fun y => { y with resetDue := true }) s
  match q.src with
  | .mailbox n => hstMessage n.val q.seq (replyMsg 0x0203 .ok 0 []) t
  | .relay _ _ => answerOk q [] t
/-- The reply of RESET_WARM cannot be written yet. -/
def warmWaits (src : ReqSrc) (s : State) : Bool :=
  match src with
  | .mailbox n => bitOf s.hl.hfull n.val
  | .relay _ _ => false
/-- RESET_WARM. -/
def execResetWarm (src : ReqSrc) (s : State) : Host.Outcome State Fault Refusal :=
  if warmWaits src s then .next s else .next (serve 0x0203 8 anyMode src warmNow s)

/-- WAKE_SET (R138, R139). -/
def execWakeSet (src : ReqSrc) (s : State) : Host.Outcome State Fault Refusal :=
  .next (serve 0x0204 0x18 spinOrService src (fun q t =>
    answerOk q [] (((t.regWrite wakeCfg (BitVec.ofNat 32 (par q 8 1))).regWrite 0x40000060 (BitVec.ofNat 32 (par q 0x10 4))).regWrite
      0x40000064 (BitVec.ofNat 32 (par q 0x14 4)))) s)

/-- A transaction is opened (R350, Table 6.6). -/
def txnOpened (q : Req) (s : State) : State :=
  if 4 ≤ (s.txn.txns.filter txnLive).length then refuse q .txnLimit 0 s
  else
    let h := txnHandle s
    answerOk q (leBytes 2 h) (setTxns (fun x => { x with txns := x.txns ++ [{ h := h }], nextH := h % 65535 + 1 }) s)
/-- TXN_OPEN. -/
def execTxnOpen (src : ReqSrc) (s : State) : Host.Outcome State Fault Refusal :=
  .next (serve 0x0301 8 workModes src txnOpened s)

/-- TXN_STAGE (R323 to R326). -/
def execTxnStage (src : ReqSrc) (s : State) : Host.Outcome State Fault Refusal :=
  .next (serve 0x0302 0xC workModes src (fun q t => onOpen q (stageBody q (q.msg.drop 0xC)) t) s)

/-- TXN_STAGE_DMA (R326, R349). -/
def txnDma (data : Option (List Byte)) (q : Req) (s : State) : State :=
  needPcie q (fun t =>
    if par q 0xC 4 = 0 ∨ 984000 < par q 0xC 4 then refuse q .badParam 0xC t
    else onOpen q (fun x u => hostData q data (fun bs v => stageBody q (bs.take (par q 0xC 4)) x v) u) t) s
/-- TXN_STAGE_DMA. -/
def execTxnStageDma (src : ReqSrc) (data : Option (List Byte)) (s : State) : Host.Outcome State Fault Refusal :=
  .next (serve 0x0303 0x18 workModes src (txnDma data) s)

/-- TXN_COMMIT (R317, R330 to R333, R336, R347). -/
def txnCommitted (q : Req) (s : State) : State :=
  if 1 < par q 0xC 1 then refuse q .badParam 0xC s
  else if par q 0xC 1 = 0 ∧ 3 < par q 0xD 1 then refuse q .badParam 0xD s
  else if epochFar s (par q 0xC 1) (BitVec.ofNat 64 (par q 0x10 8)) then refuse q .badParam 0x10 s
  else onOpen q (commitServe q) s
/-- TXN_COMMIT. -/
def execTxnCommit (src : ReqSrc) (s : State) : Host.Outcome State Fault Refusal :=
  .next (serve 0x0304 0x18 spinOrService src txnCommitted s)

/-- TXN_ABORT (R328). -/
def txnAborted (q : Req) (s : State) : State :=
  onTxn q false (fun t u => if abortMay u t then answerOk q [] (txnAbort t.h t u) else refuse q .txnState (txnNum t.st) u) s
/-- TXN_ABORT. -/
def execTxnAbort (src : ReqSrc) (s : State) : Host.Outcome State Fault Refusal :=
  .next (serve 0x0305 0xA workModes src txnAborted s)

/-- TXN_STATUS: of a transaction that is kept, expired or not. -/
def execTxnStatus (src : ReqSrc) (s : State) : Host.Outcome State Fault Refusal :=
  .next (serve 0x0306 0xC anyMode src (fun q t => onTxn q true (fun x u => answerOk q (statusBytes x (par q 0xA 2)) u) t) s)

/-- CONF_GET. -/
def execConfGet (src : ReqSrc) (s : State) : Host.Outcome State Fault Refusal :=
  .next (serve 0x0307 0x12 anyMode src confGet s)

/-! ### Groups 0x04 to 0x06 (Table 6.8) -/

/-- IMG_STATUS. -/
def imgStatusBytes (s : State) : List Byte :=
  regBytes s 0x40010034 ++ leBytes 4 ((s.dst.imgWrite.map bytesWritten).getD 0) ++ leBytes 4 ((s.dst.imgWrite.map ImgWrite.size).getD 0)
/-- IMG_STATUS. -/
def execImgStatus (src : ReqSrc) (s : State) : Host.Outcome State Fault Refusal :=
  .next (serve 0x0401 8 anyMode src (fun q t => answerOk q (imgStatusBytes t) t) s)

/-- IMG_BEGIN (R176): in Service, which a Farelle with no image is in. -/
def execImgBegin (src : ReqSrc) (s : State) : Host.Outcome State Fault Refusal :=
  .next (serve 0x0402 0xC serviceOnly src imgBegin s)

/-- IMG_WRITE: 1 to 240 data bytes. -/
def execImgWrite (src : ReqSrc) (s : State) : Host.Outcome State Fault Refusal :=
  .next (serve 0x0403 0xD serviceOnly src (fun q t => imgPut q ((q.msg.drop 0xC).take 240) t) s)

/-- IMG_WRITE_DMA (R349). -/
def imgDma (data : Option (List Byte)) (q : Req) (s : State) : State :=
  needPcie q (fun t =>
    if imgPast q (par q 0xC 4) t then refuse q .badParam 8 t
    else if par q 0xC 4 = 0 ∨ 65536 < par q 0xC 4 then refuse q .badParam 0xC t
    else hostData q data (fun bs u => imgPut q (bs.take (par q 0xC 4)) u) t) s
/-- IMG_WRITE_DMA. -/
def execImgWriteDma (src : ReqSrc) (data : Option (List Byte)) (s : State) : Host.Outcome State Fault Refusal :=
  .next (serve 0x0404 0x18 serviceOnly src (imgDma data) s)

/-- IMG_END (R586): the request waits for the image units that have not ended (R318). -/
def execImgEnd (src : ReqSrc) (s : State) : Host.Outcome State Fault Refusal :=
  if imageUnitsLeft s then .next s else .next (serve 0x0405 8 serviceOnly src imgEnd s)

/-- IMG_CONFIRM (R179). -/
def execImgConfirm (src : ReqSrc) (s : State) : Host.Outcome State Fault Refusal :=
  .next (serve 0x0406 8 workModes src imgConfirm s)

/-- IMG_REFUSALS (R96, R380). -/
def execImgRefusals (src : ReqSrc) (s : State) : Host.Outcome State Fault Refusal :=
  .next (serve 0x0407 8 anyMode src (fun q t => answerOk q (leBytes 8 t.whl.refused.toNat) t) s)

/-- PORT_STATUS. -/
def execPortStatus (src : ReqSrc) (s : State) : Host.Outcome State Fault Refusal :=
  .next (serve 0x0501 0xA anyMode src (fun q t => onPort q (portStatus q) t) s)

/-- PORT_COUNTERS: each wraps at 64 bits. -/
def execPortCounters (src : ReqSrc) (s : State) : Host.Outcome State Fault Refusal :=
  .next (serve 0x0502 0xA anyMode src
    (fun q t => onPort q (fun k i u => answerOk q ((portCounters u k i).flatMap (leBytes 8)) u) t) s)

/-- BOB_STATUS. -/
def execBobStatus (src : ReqSrc) (s : State) : Host.Outcome State Fault Refusal :=
  .next (serve 0x0503 0xA anyMode src
    (fun q t => answerOk q (bobBytes t (par q 8 2)) t) s)

/-- PLY_GET (R615). -/
def execPlyGet (src : ReqSrc) (s : State) : Host.Outcome State Fault Refusal :=
  .next (serve 0x0601 9 anyMode src (fun q t => onPly q (fun k u => answerOk q (plyBytes u k) u) t) s)

/-- PLY_INCR (R614, R626). -/
def execPlyIncr (src : ReqSrc) (s : State) : Host.Outcome State Fault Refusal :=
  .next (serve 0x0602 0x18 anyMode src (fun q t => onPly q (plyIncr q) t) s)

/-- PLY_STEP (R615, R626). -/
def execPlyStep (src : ReqSrc) (s : State) : Host.Outcome State Fault Refusal :=
  .next (serve 0x0603 0x28 anyMode src (fun q t => onPly q (plyStep q) t) s)

/-- The reply of REEL_GET: a register read of the Reel returns fraction 0 (R611). -/
def reelBytes (s : State) : List Byte :=
  leBytes 8 s.reel.toNat ++ leBytes 1 0 ++ leBytes 1 (b2n s.sys.limp)
/-- REEL_GET (R352, R611, R631). -/
def execReelGet (src : ReqSrc) (s : State) : Host.Outcome State Fault Refusal :=
  .next (serve 0x0604 8 anyMode src (fun q t => answerOk q (reelBytes t) t) s)

/-- TICK_TO_PLY: a tick with no history, or in the future, is refused (R621, R622). -/
def tickConverted (q : Req) (k : Nat) (s : State) : State :=
  match tickToPly s k (BitVec.ofNat 64 (par q 0x10 8)) 0 with
  | none => refuse q .badParam 0x10 s
  | some (sec, ns) => answerOk q (leBytes 8 sec ++ leBytes 4 ns) s
/-- TICK_TO_PLY. -/
def execTickToPly (src : ReqSrc) (s : State) : Host.Outcome State Fault Refusal :=
  .next (serve 0x0605 0x18 anyMode src (fun q t => onPly q (tickConverted q) t) s)

/-! ### Groups 0x07 to 0x0B (Table 6.9) -/

/-- CASC_STATUS. -/
def execCascStatus (src : ReqSrc) (s : State) : Host.Outcome State Fault Refusal :=
  .next (serve 0x0701 8 anyMode src (fun q t => answerOk q (cascBytes t) t) s)

/-- CASC_MAP: of a device that has joined. -/
def execCascMap (src : ReqSrc) (s : State) : Host.Outcome State Fault Refusal :=
  .next (serve 0x0702 0xA anyMode src
    (fun q t => if t.skn.assigned then answerOk q (mapBytes t (par q 8 2)) t else refuse q .cascadeUnreachable 0 t) s)

/-- CASC_RELAY (R679, R680): at the bound of 512 relays in its direction a new one waits. -/
def execCascRelay (src : ReqSrc) (s : State) : Host.Outcome State Fault Refusal :=
  if relayFull src s then .next s else .next (serve 0x0703 0x14 anyMode src cascRelay s)

/-- The relay with a number that waits. -/
def relayOf (s : State) (n : Nat) : Option Relay := s.skn.relays.find? fun r => r.seq == n

/-- RELAY_REPLY (R354, R678, R680): the target's reply, or its acknowledgement of a wake, reaches the master. -/
def execRelayReply (l : Fin 2) (seq : Nat) (rep : List Byte) (s : State) : Host.Outcome State Fault Refusal :=
  if !carries s l 1 then .next s
  else match relayOf s seq with
    | none => .next (sknRx l s)
    | some r => .next (relayEnd r .ok 0 (if r.wake then [] else relayPay rep) (sknRx l s))

/-- CASCADE_TIMEOUT (Table 6.6): no reply within 100 ms. -/
def execCascadeTimeout (seq : Nat) (s : State) : Host.Outcome State Fault Refusal :=
  match relayOf s seq with
  | none => .next s
  | some r => .next (relayEnd r .cascadeTimeout r.target.toNat [] s)

/-- PNL_EVENTS. -/
def execPnlEvents (src : ReqSrc) (s : State) : Host.Outcome State Fault Refusal :=
  .next (serve 0x0801 9 anyMode src pnlEvents s)

/-- PNL_STATUS. -/
def execPnlStatus (src : ReqSrc) (s : State) : Host.Outcome State Fault Refusal :=
  .next (serve 0x0802 8 anyMode src (fun q t => answerOk q (pnlStatusBytes t) t) s)

/-- TAG_STATUS. -/
def execTagStatus (src : ReqSrc) (s : State) : Host.Outcome State Fault Refusal :=
  .next (serve 0x0901 8 anyMode src (fun q t => answerOk q (tagBytes t) t) s)

/-- TAG_AUTH_SET (R723): password and key go to blocks 248 to 255; the new values apply once the update has finished. -/
def execTagAuthSet (src : ReqSrc) (s : State) : Host.Outcome State Fault Refusal :=
  .next (serve 0x0902 0x1C serviceOnly src
    (fun q t => answerOk q [] (queueUnit (.nameplate [(248, q.msg.extract 8 0x1C ++ List.replicate 12 0)]) t)) s)

/-- READER_SCAN (R709, R710): `card` is the first UID that the anticollision selects. -/
def readerScanned (card : Option (List Byte)) (q : Req) (s : State) : State :=
  if 2 < par q 8 1 then refuse q .badParam 8 s
  else if (if par q 8 1 = 2 then 0 else 3) < par q 9 1 then refuse q .badParam 9 s
  else if s.tag.field then refuse q .busy 0 s
  else answerOk q (uidBytes card) s
/-- READER_SCAN. -/
def execReaderScan (src : ReqSrc) (card : Option (List Byte)) (s : State) : Host.Outcome State Fault Refusal :=
  .next (serve 0x0903 0xA spinOrService src (readerScanned card) s)

/-- ROV_HANK_WRITE (R349, R738). -/
def hankWrite (data : Option (List Byte)) (q : Req) (s : State) : State :=
  needPcie q (fun t =>
    match hankBad q with
    | some o => refuse q .badParam o t
    | none =>
      if t.rov.ready.getLsbD (par q 8 1) then refuse q .busy 0 t
      else hostData q data (fun bs u => answerOk q [] (hankPut q bs u)) t) s
/-- ROV_HANK_WRITE. -/
def execRovHankWrite (src : ReqSrc) (data : Option (List Byte)) (s : State) : Host.Outcome State Fault Refusal :=
  .next (serve 0x0A01 0x20 anyMode src (hankWrite data) s)

/-- ROV_HANK_READY (R736, R737). -/
def execRovHankReady (src : ReqSrc) (s : State) : Host.Outcome State Fault Refusal :=
  .next (serve 0x0A02 0xC anyMode src hankReadySet s)

/-- ROV_START (R752). -/
def execRovStart (src : ReqSrc) (s : State) : Host.Outcome State Fault Refusal :=
  .next (serve 0x0A03 0x18 spinOrService src rovStart s)

/-- ROV_STOP (R753). -/
def execRovStop (src : ReqSrc) (s : State) : Host.Outcome State Fault Refusal :=
  .next (serve 0x0A04 8 anyMode src (fun q t => answerOk q [] (rovStopAt true t)) s)

/-- ROV_STATUS (R761). -/
def execRovStatus (src : ReqSrc) (s : State) : Host.Outcome State Fault Refusal :=
  .next (serve 0x0A05 8 anyMode src (fun q t => answerOk q (rovStatusBytes t) t) s)

/-- LOG_READ (R355). -/
def execLogRead (src : ReqSrc) (s : State) : Host.Outcome State Fault Refusal :=
  .next (serve 0x0B01 0xC anyMode src (fun q t => answerOk q (logReadBytes t.dst (par q 8 4)) t) s)

/-- WEAR_GET: offsets 0x0008 to 0x0030 of the DST block. -/
def execWearGet (src : ReqSrc) (s : State) : Host.Outcome State Fault Refusal :=
  .next (serve 0x0B02 8 anyMode src (fun q t => answerOk q ((List.range 11).flatMap fun i => regBytes t (0x40010008 + 4 * i)) t) s)

/-- GATE_GET: 0x400E_001C to 0x400E_0028. -/
def execGateGet (src : ReqSrc) (s : State) : Host.Outcome State Fault Refusal :=
  .next (serve 0x0B03 8 anyMode src (fun q t => answerOk q ((List.range 4).flatMap fun i => regBytes t (0x400E001C + 4 * i)) t) s)

end Sys2Proof.Machine
end

