-- ==== Sys2Proof/Machine/Fabric.lean ====
section
/-!
DEFINITION. The meanings of the fabric's commands (chapter 09) and of those of pressure and age-out (chapter 17).
-/

namespace Sys2Proof.Machine

/-- The one egress of a frame that is neither multicast nor copied, when it is a wire port. -/
def directWire (s : State) (f : Frame) : Option Nat :=
  if bobMcast s f.bobbin || f.mirror.isSome || f.copy.isSome || decide (14 ≤ bobEgress s f.bobbin) then none
  else some (bobEgress s f.bobbin)

/-- FRAME_END (R458, R474 to R476): the reservation shrinks to the cells used and the frame becomes eligible; a bad one is
removed, a TRUNC one for a wire egress is dropped and counted there; checksums asked for are inserted (R503). A frame
already on a wire waits for its stomp or its end. -/
def execFrameEnd (n : Nat) (s : State) : Host.Outcome State Fault Refusal :=
  match s.frame? n with
  | none => .next s
  | some f =>
    if !f.whole || f.eligible || f.stage != .held then .next s
    else if (f.bad || (f.trunc && (directWire s f).isSome)) && onWire s n then .next s
    else if f.bad then .next (removeFrame n s)
    else if f.trunc && (directWire s f).isSome then
      .next ((removeFrame n s).setEgress ((directWire s f).getD 0) fun g => { g with truncs := g.truncs + 1 })
    else
      let c := cellsOf f.bytes.length
      let s1 := s.setFrame n fun f => { f with
        eligible := true, cells := c, bytes := if f.csumIns then insertCsums f.bytes else f.bytes
        rewritten := f.rewritten || f.csumIns }
      let qs := s1.bob.queue.map fun e => if e.frame = n then { e with cells := c } else e
      .next { s1 with bob := { s1.bob with queue := qs } }

/-- Whether a frame may go out cut-through (R472): CUTEN on both ports, a wire egress no faster than the ingress; never a
frame whose checksums are inserted (R503), a through frame, or one for the skein, which is stored first (R663). -/
def mayCut (s : State) (f : Frame) : Bool :=
  match directWire s f with
  | none => false
  | some p => decide (p < 12) && f.stage == .held && !f.eligible && !f.csumIns && !f.thru && bitOf (s.rd (bobPort f.ingress)) 31
      && bitOf (s.rd (bobPort p)) 31 && portUp s p && decide (portRate s p ≤ portRate s f.ingress)

/-- CUT_THROUGH_START (R472): the frame may start before it is whole, and starts at once on an egress that is free and
chooses it. -/
def execCutThroughStart (n : Nat) (s : State) : Host.Outcome State Fault Refusal :=
  match s.frame? n with
  | none => .next s
  | some f =>
    if !mayCut s f then .next s
    else
      let s1 := s.setFrame n fun f => { f with cut := true }
      let p := (directWire s f).getD 0
      if (s.egress p).cur.isSome || throughEgress s p then .next s1
      else match selectNext s1 p with
        | (some c, g) => if c.2 = n then .next (startEgress p n g s1) else .next s1
        | (none, _) => .next s1

/-- Frame `n` is stomped on this egress if it leaves there, or is paused there; counted once. -/
def stompOn (n : Nat) (trunc : Bool) (g : Egress) : Egress :=
  let count (x : Egress) : Egress := { x with stomps := x.stomps + 1, truncs := x.truncs + b2n trunc }
  if g.cur = some n ∧ g.stomped = false then count { g with stomped := true }
  else if g.paused = some (n, false) then count { g with paused := some (n, true) }
  else g

/-- FRAME_STOMP (R473, R474, R484, R657): every wire the frame is leaving on ends it with an inverted FCS, a skein link with
an ABORT block, and counts it; its references and the copies that have not started are removed. -/
def execFrameStomp (n : Nat) (s : State) : Host.Outcome State Fault Refusal :=
  match s.frame? n with
  | none => .next s
  | some f =>
    if !(f.bad || f.trunc) || !onWire s n then .next s
    else
      let eg := s.bob.egress.mapVals (fun _ => {}) fun _ g => stompOn n (f.trunc && !f.bad) g
      let cut (l : Nat) (t : State) : State :=
        if stompOn n false (s.egress (12 + l)) = s.egress (12 + l) then t else sknSend (.abort l) t
      .next (cut 1 (cut 0 (removeFrame n { s with bob := { s.bob with egress := eg } })))

/-- EGRESS_FRAME_START (R465, R506, R654, R659, R661): a free wire egress whose link is up starts the frame it selects; a skein
egress injects it on two free credits, addressed to its remote entry, a TC7 frame over a lower-class one. -/
def execEgressFrameStart (p : Fin 14) (s : State) : Host.Outcome State Fault Refusal :=
  if 12 ≤ p.val then
    match skeinNext s p with
    | some c => .next (inject p c.1 c.2 s)
    | none => .next s
  else if (s.egress p).cur.isSome || !portUp s p || throughEgress s p then .next s
  else match selectNext s p with
    | (some c, g) => .next (startEgress p c.2 g s)
    | (none, _) => .next s

/-- EGRESS_FRAME_END (R466, R659, R661): the frame on the wire has left to its end; its cells are freed, the egress is free for the
next, or goes on with what it had preempted. -/
def execEgressFrameEnd (p : Fin 14) (s : State) : Host.Outcome State Fault Refusal :=
  match (s.egress p).cur with
  | none => .next s
  | some id =>
    if (s.frame? id).any fun f => !f.whole then .next s
    else if 12 ≤ p.val then .next (skeinEnded p (endEgress p id s))
    else .next (endEgress p id s)

/-- TRAIN_LAUNCH (R453, R469, R470): a frame with an uncorrectable cell is removed in place of its train. -/
def execTrainLaunch (s : State) : Host.Outcome State Fault Refusal :=
  match nextTrain s with
  | none => .next s
  | some e => match s.frame? e.frame with
    | none => .next s
    | some f => if f.uncorr then .next (removeFrame e.frame (cellsRead e.frame s)) else .next (launchTrain e f (cellsRead e.frame s))

/-- GATE_WRITE (R466): a write of BOB_PGATE. -/
def execGateWrite (p : Fin 17) (v : Word) (s : State) : Host.Outcome State Fault Refusal :=
  .next (s.regWrite (bobPort p + 4) v)

/-- AGEOUT_START (R766). -/
def execAgeoutStart (p : Fin 12) (s : State) : Host.Outcome State Fault Refusal :=
  if (s.eport p).link then .next s else .next (s.setEport p fun e => { e with aging := true })

/-- The frame that would be sent next is discarded: a port error and a drop of its bobbin (R766, R768). -/
def ageOne (p : Nat) (s : State) : State :=
  match selectNext s p with
  | (none, _) => s
  | (some c, g) =>
    let b := ((s.frame? c.2).map Frame.bobbin).getD 0
    let s1 := (s.setEgress p fun _ => { g with errors := g.errors + 1, copyBuf := if c.1 = copySource then g.copyBuf.tail else g.copyBuf }).setBobbin b
      fun x => { x with dropped := x.dropped + 1 }
    if c.1 = copySource then reapFrame c.2 s1 else dropEntry b c.2 s1

/-- AGEOUT_DISCARD (R766). -/
def execAgeoutDiscard (p : Fin 12) (s : State) : Host.Outcome State Fault Refusal :=
  if (s.eport p).aging && !(s.eport p).link then .next (ageOne p s) else .next s

end Sys2Proof.Machine
end

