-- ==== Sys2Proof/Machine/Flyers.lean ====
section
/-!
DEFINITION. The meanings of the flyers' commands (chapter 08). An instruction runs when the flyer stands at a word of that
opcode; its pin effects come with its side-set, and a stalled one completes by FLY_STALL_END.
-/

namespace Sys2Proof.Machine

/-- An instruction of opcode `op` begins: its side-set applies, then its action on the word (R407, R410). The action's first
argument is the state before the side-set: what the instruction reads of pins was sampled 4 ns before (R404). -/
def flyRun (f op : Nat) (act : State → Word → State → State) (s : State) : State :=
  if flyReady s f op then act s (flyWord s f) (flySideSet f (flyWord s f) s) else s

/-- FLY_BRA's condition (Table 8.2), and the counters after it: conditions 5 and 6 decrement first. -/
def braTaken (s : State) (f : Nat) (cond : Nat) : Bool × Flyer :=
  let x := s.flyer f
  let pin := pinLevel s (bankPin f (flyJpin s f))
  match cond with
  | 0x0 => (true, x)
  | 0x1 => (x.x == 0, x)
  | 0x2 => (x.x != 0, x)
  | 0x3 => (x.y == 0, x)
  | 0x4 => (x.y != 0, x)
  | 0x5 => if x.x = 0 then (false, x) else (x.x - 1 != 0, { x with x := x.x - 1 })
  | 0x6 => if x.y = 0 then (false, x) else (x.y - 1 != 0, { x with y := x.y - 1 })
  | 0x7 => (x.x == x.y, x)
  | 0x8 => (pin, x)
  | 0x9 => (!pin, x)
  | 0xA => (decide (flyFullThr s f ≤ x.fill), x)
  | 0xB => (x.fill == 0, x)
  | 0xC => (x.fill != 0, x)
  | 0xD => (x.hunt.locked, x)
  | 0xE => (!x.outF.isEmpty, x)
  | _ => (decide (x.inF.length < 8), x)

/-- BRA: pc = ADDR when the condition holds, else pc + 1. -/
def flyBraAct (f : Nat) (p : State) (w : Word) (s : State) : State :=
  let (t, x) := braTaken p f (bitsOf w 16 4)
  s.setFlyer f fun _ => { x with pc := if t then bitsOf w 6 9 else (x.pc + 1) % 512 }

/-- FLY_BRA (R407, R408). -/
def execFlyBra (f : Fin 48) (s : State) : Host.Outcome State Fault Refusal := .next (flyRun f 0x0 (flyBraAct f) s)

/-- Whether AWAIT's condition holds (Table 8.1). -/
def awaitHolds (s : State) (f : Nat) (w : Word) : Bool :=
  let i := bitsOf w 12 5
  match bitsOf w 17 2 with
  | 0 => pinLevel s (bankPin f i) == bitOf w 19
  | 1 => pinLevel s (bankPin f (flyInBase s f + i)) == bitOf w 19
  | _ => (s.flyer f).go

/-- AWAIT ends: waiting for GO clears the latch (R427). -/
def awaitEnd (f : Nat) (w : Word) (s : State) : State :=
  if bitsOf w 17 2 = 2 then s.setFlyer f fun x => { x with go := false } else s

/-- AWAIT: completes at once or stalls. -/
def flyAwaitAct (f : Nat) (p : State) (w : Word) (s : State) : State :=
  if awaitHolds p f w then flyNext f (awaitEnd f w s) else flyStall f s

/-- FLY_AWAIT (R407, R411). -/
def execFlyAwait (f : Fin 48) (s : State) : Host.Outcome State Fault Refusal := .next (flyRun f 0x1 (flyAwaitAct f) s)

/-- The bits of pins TAKE takes: from IN_BASE upward; while the shifter input lags a lock found in the history, pin IN_BASE's
come from there, the other pins' as they are (R428; DEDUCED, log 40). -/
def takePins (s : State) (f n : Nat) : List Bool :=
  let h := (s.flyer f).hunt
  match h.rd with
  | some r => h.bits.getD (r - h.base) false :: (flyInBits s f n).tail
  | none => flyInBits s f n

/-- The bits TAKE takes, in the order taken (R412, R413). -/
def takeBits (s : State) (f : Nat) (src n : Nat) : List Bool :=
  let x := s.flyer f
  let fld (w : Word) := let bs := toBits n w; if flyMsb s f then bs.reverse else bs
  match src with
  | 0 => takePins s f n
  | 1 => fld x.x
  | 2 => fld x.y
  | 3 => List.replicate n false
  | _ => List.replicate n true

/-- TAKE. -/
def flyTakeAct (f : Nat) (p : State) (w : Word) (s : State) : State :=
  let bs := takeBits p f (bitsOf w 17 3) (flyCnt w)
  flyNext f (s.setFlyer f fun x =>
    bs.foldl (shTake1 (flyMsb s f)) (if bitsOf w 17 3 = 0 then { x with hunt := huntStep x.hunt } else x))

/-- FLY_TAKE (R412, R413). -/
def execFlyTake (f : Fin 48) (s : State) : Host.Outcome State Fault Refusal := .next (flyRun f 0x2 (flyTakeAct f) s)

/-- Bits given, as a number kept in its CNT low bits (R413). -/
def giveNum (msb : Bool) (bs : List Bool) : Word := BitVec.ofNat 32 (ofBits (if msb then bs.reverse else bs))

/-- GIVE. -/
def flyGiveAct (f : Nat) (_ : State) (w : Word) (s : State) : State :=
  let msb := flyMsb s f
  let (bs, x) := shGive msb (flyIdle s f) (flyCnt w) (s.flyer f)
  let s1 := s.setFlyer f fun _ => x
  flyNext f (match bitsOf w 17 3 with
    | 0 => flyToPins f false bs s1
    | 1 => s1.setFlyer f fun x => { x with x := giveNum msb bs }
    | 2 => s1.setFlyer f fun x => { x with y := giveNum msb bs }
    | 4 => flyToPins f true bs s1
    | _ => s1)

/-- FLY_GIVE (R412, R413). -/
def execFlyGive (f : Fin 48) (s : State) : Host.Outcome State Fault Refusal := .next (flyRun f 0x3 (flyGiveAct f) s)

/-- A word of the out FIFO enters the shifter. -/
def loadWord (f : Nat) (s : State) : State :=
  s.setFlyer f fun x => match x.outF with
    | [] => x
    | v :: r => { x with sh := v, fill := 32, outF := r }

/-- LOAD: of an empty out FIFO a blocking one stalls, a non-blocking one leaves the shifter and sets STARVE (R415). -/
def flyLoadAct (f : Nat) (_ : State) (w : Word) (s : State) : State :=
  if !(s.flyer f).outF.isEmpty then flyNext f (loadWord f s)
  else if bitOf w 19 then flyStall f s
  else flyNext f (flyFlag f 0 s)

/-- FLY_LOAD (R415). -/
def execFlyLoad (f : Fin 48) (s : State) : Host.Outcome State Fault Refusal := .next (flyRun f 0x4 (flyLoadAct f) s)

/-- The shifter's word enters the in FIFO; the shifter and its fill are cleared. -/
def storeWord (f : Nat) (s : State) : State :=
  s.setFlyer f fun x => { x with inF := x.inF ++ [x.sh], sh := 0, fill := 0 }

/-- STORE: into a full in FIFO GLUT sets; a blocking one stalls, a non-blocking one discards the word (R416). -/
def flyStoreAct (f : Nat) (_ : State) (w : Word) (s : State) : State :=
  if (s.flyer f).inF.length < 8 then flyNext f (storeWord f s)
  else if bitOf w 19 then flyStall f (flyFlag f 1 s)
  else flyNext f ((flyFlag f 1 s).setFlyer f fun x => { x with sh := 0, fill := 0 })

/-- FLY_STORE (R416). -/
def execFlyStore (f : Fin 48) (s : State) : Host.Outcome State Fault Refusal := .next (flyRun f 0x5 (flyStoreAct f) s)

/-- A word with its bits in reverse order. -/
def bitRev (w : Word) : Word := BitVec.ofNat 32 (ofBits (toBits 32 w).reverse)

/-- XFER. -/
def flyXferAct (f : Nat) (p : State) (w : Word) (s : State) : State :=
  let x := s.flyer f
  let src : Word := match bitsOf w 12 3 with
    | 0 => BitVec.ofNat 32 (ofBits (flyInBits p f 32))
    | 1 => x.x
    | 2 => x.y
    | 3 => x.sh
    | 4 => s.reel.setWidth 32
    | _ => flyStat s f
  let v : Word := match bitsOf w 15 2 with
    | 0 => src
    | 1 => ~~~ src
    | _ => bitRev src
  flyNext f (match bitsOf w 17 3 with
    | 0 => flyToPins f false (toBits 32 v) s
    | 1 => s.setFlyer f fun x => { x with x := v }
    | 2 => s.setFlyer f fun x => { x with y := v }
    | 3 => s.setFlyer f fun x => { x with sh := v, fill := 32 }
    | _ => flyToPins f true (toBits 32 v) s)

/-- FLY_XFER (R407). -/
def execFlyXfer (f : Fin 48) (s : State) : Host.Outcome State Fault Refusal := .next (flyRun f 0x6 (flyXferAct f) s)

/-- PUT. -/
def flyPutAct (f : Nat) (_ : State) (w : Word) (s : State) : State :=
  let v : Word := BitVec.ofNat 32 (bitsOf w 6 11)
  flyNext f (match bitsOf w 17 3 with
    | 0 => flyToPins f false (toBits 32 v) s
    | 1 => s.setFlyer f fun x => { x with x := v }
    | 2 => s.setFlyer f fun x => { x with y := v }
    | _ => flyToPins f true (toBits 32 v) s)

/-- FLY_PUT (R407). -/
def execFlyPut (f : Fin 48) (s : State) : Host.Outcome State Fault Refusal := .next (flyRun f 0x7 (flyPutAct f) s)

/-- HUNT: stall until lock; the search starts at the bit after the anchor, or at the oldest bit held if that is later. -/
def flyHuntAct (f : Nat) (_ : State) (_ : Word) (s : State) : State :=
  s.setFlyer f fun x => { x with
    stalled := true, hunt := { x.hunt with on := true, start := max x.hunt.start x.hunt.base, rd := none } }

/-- FLY_HUNT (R428). -/
def execFlyHunt (f : Fin 48) (s : State) : Host.Outcome State Fault Refusal := .next (flyRun f 0x8 (flyHuntAct f) s)

/-- AT: the action in X and Y is queued; with the queue full it stalls (R419). -/
def flyAtAct (f : Nat) (_ : State) (_ : Word) (s : State) : State :=
  let x := s.flyer f
  if actBad x.x x.y then flyNext f (flyFlag f 5 s)
  else if 16 ≤ x.aq.length then flyStall f s
  else flyNext f (actEnter f x.x x.y s)

/-- FLY_AT (R419, R422, R424). -/
def execFlyAt (f : Fin 48) (s : State) : Host.Outcome State Fault Refusal := .next (flyRun f 0x9 (flyAtAct f) s)

/-- FLY_EVT (R431). -/
def execFlyEvt (f : Fin 48) (s : State) : Host.Outcome State Fault Refusal :=
  .next (flyRun f 0xA (fun _ w t => flyNext f (flyEvent f (bitsOf w 6 2) t)) s)

/-- FLY_DLY (R407): the flyer waits N flyer clocks, whose end is FLY_DLY_EXPIRY. -/
def execFlyDly (f : Fin 48) (s : State) : Host.Outcome State Fault Refusal :=
  .next (flyRun f 0xB (fun _ _ t => t.setFlyer f fun x => { x with delaying := true }) s)

/-- FLY_DLY_EXPIRY (R407). -/
def execFlyDlyExpiry (f : Fin 48) (s : State) : Host.Outcome State Fault Refusal :=
  if (s.flyer f).delaying then .next (s.setFlyer f fun x => { x with delaying := false, pc := (x.pc + 1) % 512 }) else .next s

/-- FLY_ILLOP (R407, R436): an illegal word at the pc halts the flyer and sets ILLOP. -/
def execFlyIllop (f : Fin 48) (s : State) : Host.Outcome State Fault Refusal :=
  let x := s.flyer f
  if x.halted || x.stalled || x.delaying || flyLegal (flyWord s f) then .next s
  else .next (flyHalt f (flyFlag f 9 s))

/-- FLY_STALL_END (R411): the stalled instruction's condition holds now, and it completes; side-set does not apply again.
HUNT completes by FLY_HUNT_LOCK. -/
def execFlyStallEnd (f : Fin 48) (s : State) : Host.Outcome State Fault Refusal :=
  let x := s.flyer f
  let w := flyWord s f
  if !x.stalled then .next s
  else match flyOp w with
    | 0x1 => if awaitHolds s f w then .next (flyUnstall f (awaitEnd f w s)) else .next s
    | 0x4 => if x.outF.isEmpty then .next s else .next (flyUnstall f (loadWord f s))
    | 0x5 => if x.inF.length < 8 then .next (flyUnstall f (storeWord f s)) else .next s
    | 0x9 => if x.aq.length < 16 then .next (flyUnstall f (actEnter f x.x x.y s)) else .next s
    | _ => .next s

/-- FLY_HUNT_LOCK (R404, R428, R429): with these bits taken from pin IN_BASE, one at each flyer clock, three consecutive sync positions are found, and LOCKED is 1. -/
def execFlyHuntLock (f : Fin 48) (bits : List Bool) (s : State) : Host.Outcome State Fault Refusal :=
  let x := s.flyer f
  if !x.hunt.on then .next s
  else
    let h := huntTake x.hunt bits
    match huntSearch s f h (huntPeriod s f) huntDepth (max h.start h.base) with
    | (some p, _) => .next (flyUnstall f (s.setFlyer f fun x => { x with
        hunt := { h with
          on := false, locked := true, anchor := p, start := p + 1, misses := 0, rd := huntResume h (s.fld (flyBase f + 0xC) 0 6) p } }))
    | (none, c) => .next (s.setFlyer f fun x => { x with hunt := { h with start := c } })

/-- FLY_SYNC_LOSS (R430): with these bits taken, two consecutive sync positions have missed: LOCKED clears, LOSS sets, and
the next HUNT starts at the bit after the last accepted one. -/
def execFlySyncLoss (f : Fin 48) (bits : List Bool) (s : State) : Host.Outcome State Fault Refusal :=
  let x := s.flyer f
  if !x.hunt.locked then .next s
  else
    let h := huntTake x.hunt bits
    let per := huntPeriod s f
    let (anchor, misses, lost) := huntFollow s f h per huntDepth (h.anchor + per * (h.misses + 1)) h.anchor h.misses
    let s1 := s.setFlyer f fun x => { x with
      hunt := { h with anchor := anchor, start := anchor + 1, misses := if lost then 0 else misses, locked := !lost } }
    .next (if lost then flyFlag f 8 s1 else s1)

/-- FLY_ACT_POST (R414, R418, R419): the owner's write of FLY_ACT1 queues FLY_ACT0 and it. -/
def execFlyActPost (f : Fin 48) (who : Owner) (w1 : Word) (s : State) : Host.Outcome State Fault Refusal :=
  if flyOwner s f = who ∧ islandsUp s = true then .next (actPost f (s.rd (flyBase f + 0x30)) w1 s) else .next s

/-- PLY_ACTION_FIX (R421). -/
def execPlyActionFix (f : Fin 48) (s : State) : Host.Outcome State Fault Refusal := .next (actFix f s)

/-- TIMED_ACTION_DUE (R423, R425, R427). -/
def execTimedActionDue (f : Fin 48) (s : State) : Host.Outcome State Fault Refusal := .next (actDue f s)

/-- FLY_IFIFO_READ (R414, R418): the owner's read pops the in FIFO; the other party's reads 0 and removes nothing. -/
def execFlyIfifoRead (f : Fin 48) (who : Owner) (s : State) : Host.Outcome State Fault Refusal :=
  if flyOwner s f = who then .next { flyPop f s with rdata := flyHead s f } else .next { s with rdata := 0 }

/-- FLY_OFIFO_WRITE (R414, R418). -/
def execFlyOfifoWrite (f : Fin 48) (who : Owner) (v : Word) (s : State) : Host.Outcome State Fault Refusal :=
  if flyOwner s f = who ∧ islandsUp s = true then .next (flyPush f v s) else .next s

/-- FLY_CTRL_WRITE (R436, R437); nothing takes it while the banks are unpowered (R445). -/
def execFlyCtrlWrite (f : Fin 48) (v : Word) (s : State) : Host.Outcome State Fault Refusal :=
  if islandsUp s then .next (flyCtrlWrite f v s) else .next s

/-- The pending actions of pin `p`'s owner no longer touch it (R433). -/
def actsLeave (p : Nat) (s : State) : State :=
  let f := 8 * (p / 24) + pinOwner s p
  let m := (List.range (flySsCount s f)).foldl (fun m i => if ssPin s f i = p then m + 2 ^ (14 + i) else m) 0
  if pinFunc s p = 1 then
    s.setFlyer f fun x => { x with aq := x.aq.map fun a => { a with w1 := a.w1 &&& ~~~ (BitVec.ofNat 32 m) } }
  else s

/-- A pin takes its new function at S + 4 ns: the keeper has held its level, the direction bit takes the new DIRINIT, a
GPIO takes its bank's level, OFF leaves high-Z; what the old owner still has pending leaves the pin (R432, R433). -/
def pinHandover (p : Nat) (cfg : Word) (s : State) : State :=
  let held := pinLevel s p
  let s1 := (actsLeave p s).setFld (pinCfg p) 8 24 (bitsOf cfg 8 24)
  let func := bitsOf cfg 30 2
  let gpio := bitOf (s.rd (0x40035004 + 0x10 * (p / 24))) (p % 24)
  s1.setPin p fun x => { x with out := if func = 2 then gpio else held, dir := func != 0 && bitOf cfg 21, hold := .free }

/-- The pins that hand over first, and their seam. -/
def seamNext (s : State) : Option (Tick × List SeamPin) :=
  match s.txn.seamPins with
  | [] => none
  | p :: ps =>
    let t := ps.foldl (fun m q => if q.tick < m then q.tick else m) p.tick
    some (t, s.txn.seamPins.filter fun q => q.tick == t)

/-- A pin hands over, and its transaction notes when. -/
def seamPin (p : SeamPin) (s : State) : State := noteApplied p.txn 0x0201 p.pin true (pinHandover p.pin p.cfg s)

/-- A commit that waits for tick `t` is applied before anything else of that instant (R442). -/
def epochFirst (t : Tick) (s : State) : State :=
  match s.txn.txns.find? fun x => x.st == .waiting && epochTick s x == some t.toNat with
  | some x => epochReached x.h s
  | none => s

/-- SEAM_HANDOVER (R432 to R434, R442, step 3 of R334): the pins that wait for the seam take their functions, and their
transactions go on to step 4. -/
def execSeamHandover (s0 : State) : Host.Outcome State Fault Refusal :=
  match seamNext s0 with
  | none => .next s0
  | some (t, ps) =>
    let s := epochFirst t s0
    let s1 := reachTick (t + 4) { s with txn := { s.txn with seamPins := s.txn.seamPins.filter fun q => q.tick != t } }
    let s2 := ps.foldl (fun u p => seamPin p u) s1
    let hs := (ps.map SeamPin.txn).eraseDups
    .next (hs.foldl (fun u h => txnAdvance h (setTxn h (fun x => { x with seamLeft := false }) u)) s2)

/-- PIN_EDGE (R431, R618, R619): a pin's level changes; an edge its LEDG field selects is ledgered, unless the pin already
had one in this island cycle (MISSED counts), and raises its event; in a bank without power it does neither (R445). -/
def execPinEdge (b : Fin 6) (pin : Fin 24) (rising : Bool) (frac : BitVec 4) (second : Bool) (s : State) :
    Host.Outcome State Fault Refusal :=
  let p := 24 * b.val + pin.val
  let s1 := s.setPin p fun x => { x with ball := rising }
  let ledg := s.fld (pinCfg p) 16 2
  if islandsUp s = true ∧ (ledg = 3 ∨ (ledg = 1 ∧ rising = true) ∨ (ledg = 2 ∧ rising = false)) then
    let s2 := if second then
        { s1 with ply := { s1.ply with pinRing := Tab.upd (fun _ => {}) s1.ply.pinRing b.val fun r => { r with missed := r.missed + 1 } } }
      else ledgerPin b pin rising frac.toNat s.reel s1
    .next (if bitOf (s.rd (pinCfg p)) 7 then flyEvent (8 * b.val + pinOwner s p) (s.fld (pinCfg p) 5 2) s2 else s2)
  else .next s1

end Sys2Proof.Machine
end

