-- ==== Sys2Proof/Machine/HostLink.lean ====
section
/-!
DEFINITION. The meanings of the host-link commands (chapter 05) and of the DMA rings (chapters 09 and 17).
-/

namespace Sys2Proof.Machine

/-! ### Mailboxes and doorbells -/

/-- MAILBOX_TAIL_WRITE (R273, R279, R282, R290, R305). -/
def execMailboxTailWrite (n : Fin 32) (tail : Word) (s : State) : Host.Outcome State Fault Refusal :=
  if hostServes s then .next (devWrite n.val 252 tail s) else .next s

/-- MAILBOX_TAIL_READ (R279, R284, R307): the last tail word; of a full mailbox the flag clears. Until READY the windows
read 0 (R305). -/
def execMailboxTailRead (n : Fin 32) (s : State) : Host.Outcome State Fault Refusal :=
  if hostServes s then .next { hostTailRead n.val s with rdata := BitVec.ofNat 32 (hostWindow s (tailAt n.val) 4) } else .next s

/-- A command or a reply of mailbox `n` is under way (R280). -/
def mbBusy (s : State) (n : Nat) : Bool :=
  let mine (r : ReqSrc) : Bool := match r with
    | .mailbox m => m.val == n
    | .relay _ _ => false
  (s.hl.taken.any fun q => mine q.src) || (s.hl.due.any fun d => d.mb == n)
    || (s.txn.txns.any fun t => t.src.any mine) || (s.skn.relays.any fun r => mine r.src)

/-- The request that stands in device-bound mailbox `n`. -/
def mbReq (s : State) (n : Fin 32) : Req :=
  let tail := s.hl.dev.num (tailAt n.val) 4
  { src := .mailbox n, seq := tail / 65536, msg := s.hl.dev.bytes (256 * n.val) (tail % 512) }

/-- The first of the full mailboxes, in the order of their tail writes, whose request may be taken: the mailbox is not busy,
and no message before it that has to wait names the same transaction (R280, R318, R319). -/
def takeNext (s : State) : List Nat → List Nat → Option Nat
  | [], _ => none
  | m :: ms, held =>
    let x := reqTxn (mbReq s (Fin.ofNat 32 m))
    if mbBusy s m || x.any fun h => held.contains h then takeNext s ms (held ++ x.toList) else some m

/-- STEWARD_COMMAND_TAKE (R279, R280, R314, R316, R318): messages are taken in the order of their tail writes, one command
at a time from a mailbox; the LEN bytes of the message are kept, and the full flag clears. The recovery responder takes
one at a time of them all (R95). Commands that name one transaction keep their order (R319). -/
def execStewardCommandTake (n : Fin 32) (s : State) : Host.Outcome State Fault Refusal :=
  if s.hl.ready && (!imageNone s || s.hl.taken.isEmpty) && takeNext s s.hl.order [] == some n.val then
    .next (devTailRead n.val (setHl (fun h => { h with taken := h.taken ++ [mbReq s n] }) s))
  else .next s

/-- STEWARD_REPLY_WRITE (R279, R285 to R289, R320, R327): the first message due in the mailbox, once its full flag is 0. -/
def execStewardReplyWrite (n : Fin 32) (s : State) : Host.Outcome State Fault Refusal :=
  match s.hl.due.find? fun d => d.mb == n.val with
  | none => .next s
  | some d =>
    if bitOf s.hl.hfull n.val then .next s
    else .next (hstMessage n.val d.seq d.msg (replyWritten d (setHl (fun h => { h with due := h.due.erase d }) s)))

/-- DOORBELL_CLEAR (R287, R289, R306). -/
def execDoorbellClear (mask setNow : Word) (s : State) : Host.Outcome State Fault Refusal :=
  if hostServes s then .next (doorbellClear mask setNow s) else .next s

/-- DB_MASK_WRITE (R288, R289). -/
def execDbMaskWrite (v : Word) (s : State) : Host.Outcome State Fault Refusal :=
  if hostServes s then .next (dbMaskWrite v s) else .next s

/-- HOST_RESET_WRITE (R276, R309). -/
def execHostResetWrite (v : Word) (s : State) : Host.Outcome State Fault Refusal :=
  if hostServes s then .next (hostReset v s) else .next s

/-- HEARTBEAT (R95, R276). -/
def execHeartbeat (s : State) : Host.Outcome State Fault Refusal :=
  if s.hl.ready then .next (setHl (fun h => { h with beat := h.beat + 1 }) s) else .next s

/-! ### SPI host port (R291 to R296) -/

/-- The status byte (Table 5.5). -/
def spiStatus (s : State) : Byte := BitVec.ofNat 8 (128 * b2n s.hl.ready + 64 * b2n (hostIrqLow s) + 32 * b2n s.hl.spiErr)

/-- What a frame returned, and whether it ends with ERR. -/
def spiEnd (out : List Byte) (err : Bool) (s : State) : State := setHl (fun h => { h with spiOut := out, spiErr := err }) s

/-- An offset that a frame may begin at. -/
def spiOffOk (off : Nat) : Bool := decide (off < 0x4000 ∧ off % 4 = 0)

/-- The next offset of a frame: it wraps from 0x3FFF to 0. -/
def spiNext (o : Nat) : Nat := (o + 4) % 0x4000

/-- Whole words are written one at a time; the bytes of an incomplete one are discarded. Fuel: how many words. -/
def spiWords : Nat → Nat → List Byte → State → State
  | 0, _, _, s => s
  | k + 1, o, bs, s => spiWords k (spiNext o) (bs.drop 4) (bar0Write o (BitVec.ofNat 32 (ofLE (bs.take 4))) s)

/-- `n` bytes read from offset `o` on: a tail word's flag clears once its four bytes are out (R295). -/
def spiBytes : Nat → Nat → Nat → State → List Byte × State
  | 0, _, _, s => ([], s)
  | k + 1, o, n, s =>
    if n = 0 then ([], s)
    else
      let bs := (leBytes 4 (bar0Value s o).toNat).take n
      let t := match bar0Tail o with
        | some m => if 4 ≤ n then hostTailRead m s else s
        | none => s
      let r := spiBytes k (spiNext o) (n - 4) t
      (bs ++ r.1, r.2)

/-- SPI_WRITE_FRAME (R292 to R294, R296, R271). -/
def execSpiWriteFrame (off : Nat) (data : List Byte) (s : State) : Host.Outcome State Fault Refusal :=
  if !spiServes s then .next s
  else if !spiOffOk off then .next (spiEnd (spiStatus s :: [0, 0]) true s)
  else .next (spiEnd (spiStatus s :: List.replicate (2 + data.length) 0) (decide (data.length % 4 ≠ 0)) (spiWords (data.length / 4) off data s))

/-- SPI_READ_FRAME (R292, R293, R295, R296, R271). -/
def execSpiReadFrame (off len : Nat) (s : State) : Host.Outcome State Fault Refusal :=
  if !spiServes s then .next s
  else if !spiOffOk off then .next (spiEnd (spiStatus s :: [0, 0]) true s)
  else
    let r := spiBytes (ceilDiv len 4) off len s
    .next (spiEnd (spiStatus s :: [0, 0, 0] ++ r.1) false r.2)

/-- SPI_STATUS_FRAME (R292). -/
def execSpiStatusFrame (s : State) : Host.Outcome State Fault Refusal :=
  if spiServes s then .next (spiEnd [spiStatus s] false s) else .next s

/-- SPI_BAD_FRAME (R296): no effect but ERR. -/
def execSpiBadFrame (s : State) : Host.Outcome State Fault Refusal :=
  if spiServes s then .next (spiEnd [spiStatus s] true s) else .next s

/-! ### PERST_N (R308) -/

/-- Host registers back at their kindle values; every ring disabled; every burst abandoned. -/
def perst (s : State) : State :=
  let t := (List.range 64).foldl (fun u r => (abandon r u).setFld (ringBase r) 31 1 0) s
  let back (a : Nat) (u : State) : State := { u with regs := setReg u.regs a (regRst a) }
  let w := (dbMask :: mbHmode :: (List.range 8).map fun k => bar0Base + 0x120 + 4 * k).foldl (fun u a => back a u) t
  logFault 0x50 13 [] (setHl (fun h => { h with pcieUp := false, pci := {}, msix := ({} : Hl).msix, pba := 0 }) w)

/-- PERST_ASSERT: in any mode other than Dark; the PCIe link is the one in use. -/
def execPerstAssert (s : State) : Host.Outcome State Fault Refusal :=
  if s.sys.mode = .dark ∨ spiSelected s = true then .next s else .next (perst s)

/-! ### DMA rings -/

/-- RING_CTRL_WRITE (R298): `off` is that of RING_CTRL, RING_BOB, RING_WBLO or RING_WBHI. -/
def execRingCtrlWrite (r : Fin 64) (off : Nat) (v : Word) (s : State) : Host.Outcome State Fault Refusal :=
  if pcieServes s && (off == 0 || off == 4 || off == 0x18 || off == 0x1C) then .next (unstall r.val (ringCfgWrite r.val off v s)) else .next s

/-- RING_TAIL_WRITE (R300, R311). -/
def execRingTailWrite (r : Fin 64) (v : Word) (s : State) : Host.Outcome State Fault Refusal :=
  if pcieServes s then .next (ringTailWrite r.val v s) else .next s

/-- TX_RING_OFFER (R303, R304, R464, R503). -/
def execTxRingOffer (r : Fin 64) (bytes : List Byte) (s : State) : Host.Outcome State Fault Refusal := .next (txOffer r.val bytes s)

/-- RX_BURST_START (R303, R304, R311, R477). -/
def execRxBurstStart (r : Fin 64) (s : State) : Host.Outcome State Fault Refusal := .next (rxStart r.val s)

/-- DMA_BURST_COMPLETE (R287, R288, R300 to R303, R771). -/
def execDmaBurstComplete (r : Fin 64) (s : State) : Host.Outcome State Fault Refusal := .next (burstDone r.val s)

/-- DMA_READ_FAULT (R310): a read of a TX burst in flight, whether or not its ring still runs, sets CTO or UR, which
stops the ring; the burst and its frames stay. -/
def execDmaReadFault (r : Fin 64) (cto : Bool) (s : State) : Host.Outcome State Fault Refusal :=
  if (burstsOf s r.val).any fun b => !b.rx then .next (ringErr r.val (if cto then eCto else eUr) s) else .next s

/-- STALL_REFUSAL_START (R769, R770, R773). -/
def execStallRefusalStart (b : BitVec 16) (s : State) : Host.Outcome State Fault Refusal := .next (refusalStart b.toNat s)

end Sys2Proof.Machine
end

