-- ==== Sys2Proof/Machine/Kindle.lean ====
section
/-!
DEFINITION. Kindle steps 4 to 7 (chapter 02): journal replay, the image, schedule load with the configuration applied, the
ports of step 7a, and the end of the kindle in its target mode.
-/

namespace Sys2Proof.Machine

/-- Step `n` of the kindle runs. -/
def inStep (s : State) (n : Nat) : Bool := s.sys.mode == .kindle && !s.sys.kfault && decide (s.sys.kstep = n)

/-- Step `n` ends after `us`, and step `n + 1` begins (R135). -/
def stepDone (n us : Nat) (s : State) : State :=
  setSys (fun y => { y with kstep := n + 1, ktime := Tab.set (fun _ => 0) y.ktime (n - 1) us }) (noteLate n us s)

/-- An outcome of the kindle is recorded. -/
def setKrec (f : KRec → KRec) (s : State) : State := setSys (fun y => { y with krec := f y.krec }) s

/-! ### Step 4 (R155 to R157, R174, R175, R200) -/

/-- A copy that is stale or bad is rewritten from the copy in use (R175). -/
def bootRepair (c : SlotCtl) (s : State) : State :=
  let bad (x : Option SlotCtl) : Bool := match x with
    | none => true
    | some y => y.bseq != c.bseq
  let t := if bad s.dst.copy1 then queueUnit (.boot false c true) s else s
  if bad s.dst.copy2 then queueUnit (.boot true c true) t else t

/-- The slot control of this kindle: repaired where it must be, and with KINDLES one higher; with no valid copy both copies
are written anew. -/
def slotControl (s : State) : State :=
  match bootCtl s.dst with
  | some c =>
    let t := setSys (fun y => { y with kindles := c.kindles + 1 }) s
    changeCtl (fun x => { x with kindles := c.kindles + 1 }) (bootRepair c (setDst (fun d => { d with ctl := c, bootLost := false }) t))
  | none =>
    let c : SlotCtl := { bseq := 1, kindles := 1 }
    queueUnit (.boot false c true) (setSys (fun y => { y with kindles := 1 }) (setDst (fun d => { d with ctl := c, bootLost := true }) s))

/-- The journal's outcome. -/
def replayed (r : Replay) (s : State) : State :=
  let t := setDst (fun d => { d with
    replayed := r.conf.map fun x => (x.1, x.2.1, x.2.2.1), seq := (r.conf.map fun x => x.2.1).getD 0
    hash := (r.conf.map fun x => x.2.2.2).getD [], ckptSeq := r.ckptSeq, ckptFirst := r.first
    maxSeq := highestSeq (ringGood d), chainOk := r.conf.isSome && r.loss.isNone && decide ((r.conf.map fun x => x.2.1) = some (highestSeq (ringGood d)))
    loaded := true }) s
  match r.loss with
  | some q => logFault 0x23 1 (leBytes 8 q) (setKrec (fun k => { k with loss := true }) t)
  | none => t

/-- JOURNAL_REPLAY: step 4 ends after `us`; it waits until no unit is in progress (R69). -/
def execJournalReplay (us : Nat) (s : State) : Host.Outcome State Fault Refusal :=
  if inStep s 4 && s.dst.running.isNone then .next (stepDone 4 us (replayed (replay s.dst) (slotControl s))) else .next s

/-! ### The end of the kindle (R84, R98, R140) -/

/-- The kindle ends in `target`, or in Brace to return to it; the kindle record is logged. -/
def kindleEnd (target : Mode) (s : State) : State :=
  let t := setSys (fun y => { y with kstep := 0 }) s
  let u := if t.pwr.senseWarn then enterBrace target t else setSys (fun y => { y with mode := target }) t
  let us := ((List.range 7).map fun i => Tab.get (fun _ => 0) u.sys.ktime i).sum
  let v := logFault 0x01 0 (leBytes 4 (krecBits u.sys.krec) ++ leBytes 4 (kfaultBits u.sys)
    ++ leBytes 4 (u.rd sysRstcause).toNat ++ leBytes 4 us) u
  { v with hl := { v.hl with ready := true } }

/-! ### Step 5 (R93, R94, R175, R177, R178) -/

/-- What step 5 finds is recorded, and the slot control changed where it must be. -/
def imagePicked (p : BootPick) (s : State) : State :=
  let t0 := setDst (fun d => { d with booted := p.boot }) s
  let t1 := if p.change then joinCtl (fun c => { p.ctl with bseq := c.bseq, kindles := c.kindles }) t0 else t0
  let t2 := match p.fallback with
    | some b => logFault 0x21 1 [BitVec.ofNat 8 (b2n b)] (setKrec (fun k => { k with fallback := true }) t1)
    | none => t1
  match p.rollback with
  | some b => logFault 0x22 1 [BitVec.ofNat 8 (b2n b)] (setKrec (fun k => { k with rollback := true }) t2)
  | none => t2

/-- IMAGE_AUTHENTICATION: step 5 ends after `us`. With no authentic image the kindle ends in Service, and the recovery
responder serves (R94, R95). -/
def execImageAuthentication (us : Nat) (s : State) : Host.Outcome State Fault Refusal :=
  if inStep s 5 then
    let p := pickSlot (fun b => authentic (slotMem s.dst b)) (!s.dst.bootLost) s.dst.ctl
    let t := stepDone 5 us (imagePicked p s)
    match p.boot with
    | some b => .next (setKrec (fun k => { k with slot := b }) t)
    | none => .next (kindleEnd .service (logFault 0x08 0 [] (setKrec (fun k => { k with imgNone := true }) t)))
  else .next s

/-! ### Step 6 (R92, R96, R155, R158, R252, R609) -/

/-- A block refuses a record of a configuration. -/
def confRefused (c : Conf) (s : State) : Bool := (fullRecs c).any (recRefused c (withConf c s))

/-- The configuration that step 6 applies: the one replayed, when the image accepts its schema and no block refuses it;
else the image default (section 5), unless a block refuses that too. The second part: CONF_DEFAULT is recorded. The third:
the image default is refused, and no module instance runs (Table 12.9). -/
def confChoice (img : Mem) (s : State) : Conf × Bool × Bool :=
  let dflt : Conf × Bool × Bool :=
    let r := recsOf (sectBytes img 5)
    let c := applyRecs [] r.1
    if r.2.isSome || confRefused c s then ([], true, true) else (c, true, false)
  match s.dst.replayed with
  | some (c, _, schema) => if imgAccepts img schema && !confRefused c s then (c, false, false) else dflt
  | none => dflt

/-- CONF_DEFAULT: logged with the SEQ and SCHEMA of the commit set aside, or 0; the next commit is a checkpoint. -/
def confDefaulted (s : State) : State :=
  let d := match s.dst.replayed with
    | some (_, q, schema) => leBytes 8 q ++ leBytes 4 schema
    | none => []
  let t := setKrec (fun k => { k with confDefault := true }) (setDst (fun d => { d with chainOk := false }) s)
  logFault 0x20 1 d (setTxns (fun x => { x with confDefault := true }) t)

/-- An extension's manifest keeps the limits of Table 4.12a. -/
def extOk (m : Nat × Nat × Nat) : Bool := decide (m.1 ≤ 65536 ∧ m.2.1 ≤ 64512 ∧ 1 ≤ m.2.2 ∧ m.2.2 ≤ 1000000)

/-- The extensions of section 2 are loaded, or none when one breaks a limit (R252); the budget is 20,000 instructions where the
manifest names none (Table 4.12a). -/
def loadExts (bs : List Byte) (s : State) : State :=
  let ms := (List.range 256).filterMap fun i => (Config.sect2Manifest bs i).map fun m => (i, m.1, m.2.1, m.2.2.getD 20000)
  if ms.all fun x => extOk x.2 then
    { s with stw := { s.stw with sect2 := bs, exts := ms.foldl (fun t x => Tab.set (fun _ => (0, 0, 0)) t x.1 x.2) [] } }
  else s

/-- What the certificate and section 6 are checked over at kindle. -/
def kindleCert (img : Mem) (c : Conf) : CertIn :=
  let cert := sectBytes img 4
  { cert := cert, sect3 := sectBytes img 3, sect6 := sectBytes img 6, sect8 := sectBytes img 8, leas := leasOf cert c }

/-- The whorl is loaded; what is refused is recorded (R96, R380). -/
def whorlLoaded (x : CertIn) (none_ : Bool) (s : State) : State :=
  let m := refusedMask x 0
  let t := loadWhorl { x with leas := if none_ then [] else x.leas } m s
  if m = 0 then t else logFault 0x30 2 (leBytes 8 m.toNat) (setKrec (fun k => { k with cert := true }) t)

/-- The blocks take the configuration (R155): CAN timing, steward settings, flyer banks. A flyer starts only when the target
mode is entered (R445). -/
def confLoaded (c : Conf) (s : State) : State :=
  let s1 := setPwr (fun p => { p with confApplied := true }) (setTxns (fun x => { x with conf := c }) s)
  let s2 := (List.range 8).foldl (fun t n =>
    if (confBytes c 0x0202 n).len = 0 then t else let w := canItem t n; canLoadTiming n w.1 w.2.1 w.2.2 t) s1
  let s3 := settingsApply (fullRecs c) s2
  let s4 := (List.range 6).foldl (fun t b =>
    if (confBytes c 3 b).len = 0 then t
    else (List.range 8).foldl (fun u i => flyLoadSettings (8 * b + i) u) (flyLoadPage b (t.fly.page.getLsbD b) (t.conf 3 b) t)) s3
  { s4 with fly := { s4.fly with fl := [] } }

/-! ### Step 7a (R97, R445, R732, R760, R780) -/

/-- A pin takes its function; one that a flyer owns takes its SAFE setting. -/
def pinStart (p : Nat) (s : State) : State :=
  if s.confLen 0x0201 p = 0 then s
  else
    let w : Word := BitVec.ofNat 32 ((s.conf 0x0201 p).num 0 4)
    let t := pinHandover p w s
    if bitsOf w 30 2 = 1 then pinSafe p t else t

/-- Step 7a begins. -/
def step7a (s : State) : State :=
  let s1 := (List.range 12).foldl (fun t p => portBring p t) s
  let s2 := (List.range 8).foldl (fun t n => if bitOf (t.rd (canBase n)) 31 && !(t.canOf n).enabled then canEnable n t else t) s1
  rovIdle ((List.range 144).foldl (fun t p => pinStart p t) s2)

/-- Steward 3.2, the image's section 1, is in SRAM (R267); from address 0 of the firmware area on, as the manual does not say
where (DESIGN CHOICE, log 38). -/
def stewardLoaded (img : Mem) (s : State) : State :=
  let bs := sectBytes img 1
  { s with stw := { s.stw with sram := s.stw.sram.write 0 (bs.take 0xE0000) } }

/-- SCHEDULE_LOAD: step 6 ends after `us`, and step 7a begins. -/
def execScheduleLoad (us : Nat) (s : State) : Host.Outcome State Fault Refusal :=
  match activeImage s with
  | none => .next s
  | some img =>
    if inStep s 6 then
      let ch := confChoice img s
      let t1 := if ch.2.1 then confDefaulted s else s
      let t2 := whorlLoaded (kindleCert img ch.1) ch.2.2 (confLoaded ch.1 t1)
      .next (step7a (stepDone 6 us (stewardLoaded img (loadExts (sectBytes img 2) t2))))
    else .next s

/-! ### The end of step 7 (R98 to R101, R140, R445) -/

/-- A condition that ends step 7 holds. -/
def step7Ends (s : State) : Step7Cond → Bool
  | .joined => s.pwr.settling == 0 && s.skn.joined
  | .noRing => s.pwr.settling == 0
  | .worstCase => true

/-- ASCII of the product's name. -/
def productName : List Byte := [0x4B, 0x77, 0x61, 0x68, 0x61, 0x62, 0x65, 0x6C, 0x20, 0x46, 0x52, 0x4C, 0x2D, 0x37, 0x31, 0x34, 0x30]

/-- The identity blocks of the nameplate (Table 15.3). -/
def identity (s : State) : List (Nat × List Byte) :=
  [(0, leBytes 2 0x7140 ++ leBytes 1 Config.stepping ++ leBytes 1 (b2n (s.dst.booted.getD false)) ++ leBytes 2 Config.fwver ++ leBytes 2 0
      ++ leBytes 8 Config.serial.toNat ++ leBytes 4 (schemaNow s) ++ leBytes 4 (s.skn.dev.toNat + 2 ^ 31 * b2n s.skn.assigned) ++ leBytes 8 0),
   (1, productName ++ List.replicate 15 0)]

/-- They are written when they have changed; acknowledgements held through the reset are written with them (R724). -/
def identityKept (s : State) : State :=
  let bs := if s.dst.nameplate.bytes 0 64 = (identity s).flatMap Prod.snd then [] else identity s
  if bs.isEmpty && s.tag.ackPend == 0 then s else queueUnit (.nameplate bs) s

/-- STEP7_END: the target mode is entered, and the flyers with EN start (R445), or Brace; the strands wait for their first boundaries (R101). -/
def execStep7End (us : Nat) (cond : Step7Cond) (s : State) : Host.Outcome State Fault Refusal :=
  if inStep s 7 && step7Ends s cond then
    let t1 := identityKept (stepDone 7 us s)
    let t2 := if t1.skn.joined then t1 else logFault 0x70 9 [] (setKrec (fun k => { k with cascLate := true }) t1)
    let target : Mode := if s.sys.straps.bootsel.getLsbD 1 then .service else .spin
    let k := kindleEnd target t2
    let t3 := if k.sys.mode = target then flyersStart k else { k with fly := { k.fly with wait := true } }
    .next (if t3.sys.mode = .spin then startStrands t3 else t3)
  else .next s

end Sys2Proof.Machine
end

