-- ==== Sys2Proof/Machine/RegAccess.lean ====
section
/-!
DEFINITION. The register accesses that have rows of their own (R8, R9, R10, R196, R275), over the steward's words, BAR0, BAR2
and the endpoint's configuration space.
-/

namespace Sys2Proof.Machine

/-! ### What the hardware sets in the same access (R9) -/

/-- The W1C bits of a register. -/
def w1cMask (a : Nat) : Word := (fieldsAt a).foldl (fun m f => if f.acc = .w1c then m ||| fieldMask f.lo f.w else m) 0

/-- W1C bits that the hardware sets in the access that wrote the register stay set (R9). What else the event does (an
interrupt line, a log entry) its own command brings. -/
def setAfter (a : Nat) (setNow : Word) (s : State) : State :=
  if setNow &&& w1cMask a = 0 then s else s.setBits a (setNow &&& w1cMask a)

/-- Word `i` of the bytes of an access. -/
def dataWord (bs : List Byte) (i : Nat) : Word := BitVec.ofNat 32 (ofLE ((bs.drop (4 * i)).take 4))
/-- What is set in word `i` of the access: two words at most can be written besides a mailbox window or BAR2. -/
def setWord (setNow : BitVec 64) (i : Nat) : Word := if i < 2 then (setNow >>> (32 * i)).setWidth 32 else 0

/-! ### BAR0 (R275) -/

/-- An aligned access of 4 or 8 bytes. -/
def bar0Plain (a n : Nat) : Bool := (n == 4 || n == 8) && decide (a % n = 0 ∧ a + n ≤ 0x4000)

/-- A write of up to 256 bytes that lies inside one mailbox window. -/
def bar0Burst (a n : Nat) : Bool := decide (0x2000 ≤ a ∧ a < 0x4000 ∧ 1 ≤ n ∧ a % 256 + n ≤ 256)

/-- One word of BAR0 written, with what the hardware sets in the same access (R9, R306). -/
def bar0Word (o : Nat) (v setNow : Word) (s : State) : State :=
  if o = 0x110 then doorbellClear v setNow s else setAfter (bar0Base + o) setNow (bar0Write o v s)

/-- The host writes BAR0: any access but those R275 names is completed and ignored. -/
def bar0Put (a : Nat) (bs : List Byte) (setNow : BitVec 64) (s : State) : State :=
  if bar0Burst a bs.length then devBytes ((a - 0x2000) / 256) (a % 256) bs s
  else if bar0Plain a bs.length then
    (List.range (bs.length / 4)).foldl (fun t i => bar0Word (a + 4 * i) (dataWord bs i) (setWord setNow i) t) s
  else s

/-- The host reads BAR0: both words of 8 bytes are read before the access has its effect, which is that a tail word's full
flag clears (R279). Any access but those R275 names returns 0. -/
def bar0Get (a n : Nat) (s : State) : State :=
  if bar0Plain a n then
    let hi := if n = 8 then bar0Value s (a + 4) else 0
    let t := { s with rdata := bar0Value s a, rdataHi := hi }
    match bar0Tail (a + n - 4) with
    | some m => hostTailRead m t
    | none => t
  else { s with rdata := 0, rdataHi := 0 }

/-! ### BAR2 -/

/-- The host writes words of BAR2, ascending. -/
def bar2Put (a : Nat) (bs : List Byte) (setNow : BitVec 64) (s : State) : State :=
  (List.range (bs.length / 4)).foldl (fun t i =>
    let o := (a / 4 * 4 + 4 * i) % 0x4000000
    setAfter (bar2Base + o) (setWord setNow i) (bar2Write o (dataWord bs i) t)) s

/-- The host reads one or two words of BAR2; nothing there is read away. -/
def bar2Get (a n : Nat) (s : State) : State :=
  let v (o : Nat) : Word := plainValue s (bar2Base + o / 4 * 4 % 0x4000000)
  { s with rdata := v a, rdataHi := if n = 8 then v (a + 4) else 0 }

/-! ### Configuration space (R272) -/

/-- A word of the configuration space (PRESUMED, PCI's layout; log 35): the IDs at 0, class code and revision at 8. -/
def cfgValue (a : Nat) : Word :=
  match a / 4 * 4 with
  | 0 => 0x71401D9A
  | 8 => 0x02800000#32 ||| Config.pciRevision.setWidth 32
  | _ => 0

/-! ### The rows -/

/-- A read of a register by whoever reaches it. -/
def registerRead (sp : Space) (a n : Nat) (event : Bool) (s : State) : State :=
  match sp with
  | .block =>
    if stewardRuns s then
      let r := busRead (a / 4 * 4) event s
      { r.2 with rdata := r.1 }
    else s
  | .bar0 => if hostServes s then bar0Get a n s else s
  | .bar2 => if pcieServes s then bar2Get a n s else s
  | .config => if pcieServes s then { s with rdata := cfgValue a, rdataHi := 0 } else s

/-- REGISTER_WRITE (R8 to R11, R275, R276): the steward writes a word of a block register, or the host writes BAR0 or BAR2.
What the host writes in the configuration space has its effect when the link comes up (PCIE_LINK_UP). -/
def execRegisterWrite (sp : Space) (addr : Nat) (data : WriteData) (s : State) : Host.Outcome State Fault Refusal :=
  match sp with
  | .block =>
    if stewardRuns s then
      .next (setAfter (addr / 4 * 4) (setWord data.setNow 0) (busWrite (addr / 4 * 4) (dataWord data.bytes 0) s))
    else .next s
  | .bar0 => if hostServes s then .next (bar0Put addr data.bytes data.setNow s) else .next s
  | .bar2 => if pcieServes s then .next (bar2Put addr data.bytes data.setNow s) else .next s
  | .config => .next s

/-- RC_FIELD_READ (R8, R10). -/
def execRcFieldRead (sp : Space) (span : Span) (event : Bool) (s : State) : Host.Outcome State Fault Refusal :=
  .next (registerRead sp span.addr span.size event s)

/-- LATCHED_PAIR_READ (R196): a read of a low word latches its high word; no register of BAR0 or BAR2 is such a pair. -/
def execLatchedPairRead (sp : Space) (span : Span) (s : State) : Host.Outcome State Fault Refusal :=
  .next (registerRead sp span.addr span.size false s)

end Sys2Proof.Machine
end

