-- ==== Sys2Proof/Machine/YukinOps.lean ====
section
/-!
DEFINITION. The Yukin core (chapter 04): the steward's memory, its store buffer, the one entry sequence of faults, traps and
interrupts and the return from it, and how one instruction runs on the steward or in the whorl's slot.
-/

namespace Sys2Proof.Machine

/-- The steward core changed. -/
def setStw (f : Stw → Stw) (s : State) : State := { s with stw := f s.stw }

/-! ### Physical memory (Table 4.1, R208, R209) -/

/-- An address is mapped for a kind and a size of access. -/
def mapped (pa size : Nat) (k : Access) : Bool :=
  if pa + size ≤ 0x100000 then true
  else if 0x40000000 ≤ pa ∧ pa < 0x400F0000 then decide (size = 4) && k != .fetch
  else decide (0xFFFF0000 ≤ pa ∧ pa + size ≤ 0x100000000) && k != .write

/-- One of the words that `size` bytes at `pa` touch is marked uncorrectable. -/
def eccHit (w : Stw) (pa size : Nat) : Bool :=
  decide (pa < 0x100000) && (List.range (ceilDiv (pa % 4 + size) 4)).any fun i => Tab.get (fun _ => false) w.eccBad (pa / 4 + i)

/-- SRAM words from `pa` on are read: a single-bit error of each is corrected and counted (R209, R269). Which words hold one,
or an uncorrectable one, is State: no command of the table makes an upset (DESIGN CHOICE, log 38). -/
def eccFix (pa size : Nat) (s : State) : State :=
  let ws := if pa < 0x100000 then (List.range (ceilDiv (pa % 4 + size) 4)).map (pa / 4 + ·) else []
  let soft := ws.filter fun i => Tab.get (fun _ => false) s.stw.eccSoft i
  { s with
    stw := { s.stw with eccSoft := soft.foldl (fun t i => Tab.set (fun _ => false) t i false) s.stw.eccSoft }
    sys := { s.sys with eccCorr := min 0xFFFF (s.sys.eccCorr + soft.length) } }

/-- `size` bytes of memory at `pa`, little-endian; a block register read has its effect. -/
def memRead (pa size : Nat) (s : State) : Nat × State :=
  if pa < 0x100000 then (s.stw.sram.num pa size, s)
  else if pa < 0xFFFF0000 then let r := busRead pa false s; (r.1.toNat, r.2)
  else (ofLE ((List.range size).map fun i => Config.bootRom (pa + i - 0xFFFF0000)), s)

/-- A store reaches memory; a whole word written to SRAM holds no error any more (R246). -/
def memWrite (e : SbEntry) (s : State) : State :=
  if e.pa < 0x100000 then
    setStw (fun w => { w with
      sram := w.sram.write e.pa (leBytes e.size e.val.toNat)
      eccBad := if e.size = 4 then w.eccBad.set (fun _ => false) (e.pa / 4) false else w.eccBad
      eccSoft := if e.size = 4 then w.eccSoft.set (fun _ => false) (e.pa / 4) false else w.eccSoft }) s
  else busWrite e.pa e.val s

/-! ### The store buffer (R240 to R245) -/

/-- The oldest entry drains. -/
def drainOne (s : State) : State :=
  match s.stw.sb with
  | [] => s
  | e :: rest => memWrite e (setStw (fun w => { w with sb := rest }) s)

/-- The `n` oldest entries drain. -/
def drainN : Nat → State → State
  | 0, s => s
  | n + 1, s => drainN n (drainOne s)

/-- The buffer drains. -/
def drainAll (s : State) : State := drainN s.stw.sb.length s

/-- A store enters the buffer; when it is full the store waits for the oldest entry (R241). -/
def sbPush (e : SbEntry) (s : State) : State :=
  let t := if 8 ≤ s.stw.sb.length then drainOne s else s
  setStw (fun w => { w with sb := w.sb ++ [e] }) t

/-- An entry overlaps `size` bytes at `pa`; it holds them all. -/
def sbOverlaps (pa size : Nat) (e : SbEntry) : Bool := decide (e.pa < pa + size ∧ pa < e.pa + e.size)
def sbHolds (pa size : Nat) (e : SbEntry) : Bool := decide (e.pa ≤ pa ∧ pa + size ≤ e.pa + e.size)

/-- How many of the oldest entries reach up to the youngest that overlaps. -/
def sbUpTo (pa size : Nat) (sb : List SbEntry) : Nat := (sb.reverse.dropWhile fun e => !sbOverlaps pa size e).length

/-! ### Faults, traps, interrupts (R233, R234, R254, R266) -/

/-- A fault or a trap: its cause, the segment and kind of the access, the SVC code, the offset. -/
structure Flt where
  cause : Nat
  seg : Nat := 0
  kind : Option Access := none
  svc : Nat := 0
  addr : Word := 0
  deriving DecidableEq, Repr

/-- YC_ECAUSE (Table 4.17). -/
def ecauseWord (f : Flt) : Word :=
  BitVec.ofNat 32 (fieldAt 16 10 f.svc + fieldAt 14 1 (b2n (f.kind == some .fetch)) + fieldAt 13 1 (b2n (f.kind == some .write))
    + fieldAt 12 1 (b2n (f.kind == some .read)) + fieldAt 8 4 f.seg + fieldAt 0 8 f.cause)

/-- Entry to a fault, a trap or an interrupt (R233): the cause, whether FH sets, the return offset. -/
def stwEnter (f : Flt) (fh : Bool) (epc : Word) (s : State) : State :=
  setStw (fun w => { w with
    epc := epc, pie := w.ie, pext := w.ext, ie := false, ext := false, fh := w.fh || fh
    ecause := ecauseWord f, eaddr := f.addr, pc := w.vbase + BitVec.ofNat 32 (16 * f.cause) }) s

/-- ERET (R234). -/
def stwReturn (s : State) : State := setStw (fun w => { w with pc := w.epc, ie := w.pie, ext := w.pext, fh := false }) s

/-- The boot ROM's answer to a double fault (R266): recorded, counted, and the WARM reset of command 0x0203. -/
def doubleFault (f : Flt) (s : State) : State :=
  let d := leBytes 4 (ecauseWord f).toNat ++ leBytes 4 s.stw.pc.toNat ++ leBytes 4 f.addr.toNat
  cmdReset (logFault 0x0B 0xFF d (setSys (fun y => { y with doubles := min 255 (y.doubles + 1) }) s))

/-- An extension's invocation ends: the firmware goes on from its invocation frame (Table 4.12a). -/
def extEnd (s : State) : State :=
  setStw (fun w => { w with
    extIdx := none, extSaved := ([], 0, false), g := w.extSaved.1, pc := w.extSaved.2.1, ie := w.extSaved.2.2
    ext := false, fh := false }) s

/-- A fault in extension mode, after its entry (R254): logged with cause and YC_EADDR, counted, the invocation ended. -/
def extFaulted (f : Flt) (s : State) : State :=
  let i := s.stw.extIdx.getD 0
  let t := logFault 0x0C 0 (leBytes 4 (ecauseWord f).toNat ++ leBytes 4 f.addr.toNat ++ [BitVec.ofNat 8 i])
    (setSys (fun y => { y with extFaults := min 255 (y.extFaults + 1) }) s)
  extEnd (setStw (fun w => { w with extFault := Tab.upd (fun _ => 0) w.extFault i (· + 1) }) t)

/-- A fault of the steward core: a double fault while FH is 1; while an extension runs Steward 3.2 ends its invocation. -/
def stwFault (f : Flt) (s : State) : State :=
  if s.stw.fh then doubleFault f s
  else
    let t := stwEnter f true s.stw.pc s
    if s.stw.ext && s.stw.extIdx.isSome then extFaulted f t else t

/-! ### Checked accesses of the steward (R214, R242 to R244) -/

/-- What an instruction answers: the next state, or a fault with the state in which it is raised. -/
abbrev Res (α : Type) := Except (Flt × State) α

/-- The check of R214: the physical address. -/
def stwCheck (s : State) (sg : Nat) (off : Word) (size : Nat) (k : Access) : Except Flt Nat :=
  let x := Tab.get (fun _ => {}) s.stw.seg sg
  let f (c : Nat) : Flt := { cause := c, seg := sg, kind := some k, addr := off }
  match segFault s.stw.ext sg x off.toNat size k with
  | some c => .error (f c)
  | none =>
    let pa := x.base.toNat + off.toNat
    if mapped pa size k then .ok pa else .error (f cBus)

/-- Segment `sg` is a device segment. -/
def segDv (s : State) (sg : Nat) : Bool := bitOf (Tab.get (fun _ => ({} : Seg)) s.stw.seg sg).rights 5

/-- A checked load of `size` bytes: forwarded, after the drains it waits for, or from memory. -/
def stwLoad (sg : Nat) (off : Word) (size : Nat) (s : State) : Res (Nat × State) :=
  match stwCheck s sg off size .read with
  | .error f => .error (f, s)
  | .ok pa =>
    let read (t : State) : Res (Nat × State) :=
      if eccHit t.stw pa size then .error ({ cause := cEcc, seg := sg, kind := some .read, addr := off }, t)
      else .ok (memRead pa size (eccFix pa size t))
    if segDv s sg then read (drainAll s)
    else match s.stw.sb.reverse.find? (sbOverlaps pa size) with
      | none => read s
      | some e =>
        if sbHolds pa size e then .ok (e.val.toNat / 2 ^ (8 * (pa - e.pa)) % 2 ^ (8 * size), s)
        else read (drainN (sbUpTo pa size s.stw.sb) s)

/-- A checked store of `size` bytes into the buffer. -/
def stwStore (sg : Nat) (off : Word) (size : Nat) (v : Word) (s : State) : Res State :=
  match stwCheck s sg off size .write with
  | .error f => .error (f, s)
  | .ok pa => .ok (sbPush { pa := pa, size := size, val := v } s)

/-! ### One instruction on the steward -/

/-- The segment instructions are fetched through (R213). -/
def fetchSeg (s : State) : Nat := if s.stw.ext then 8 else 0

/-- The fetch of the instruction at pc (R216, R209). -/
def stwFetch (s : State) : Option Flt :=
  match stwCheck s (fetchSeg s) s.stw.pc 4 .fetch with
  | .error f => some f
  | .ok pa => if eccHit s.stw pa 4 then some { cause := cEcc, seg := fetchSeg s, kind := some .fetch, addr := s.stw.pc } else none

/-- The word of the instruction is read from SRAM (R209). -/
def stwFetched (s : State) : State :=
  match stwCheck s (fetchSeg s) s.stw.pc 4 .fetch with
  | .error _ => s
  | .ok pa => eccFix pa 4 s

/-- The core executes instructions. -/
def stwGoes (s : State) : Bool := stewardRuns s && !s.stw.waiting

/-- An instruction retired in extension mode counts against YC_XBUDGET (R253). -/
def retire (ext : Bool) (s : State) : State := if ext then setStw (fun w => { w with xbudget := w.xbudget - 1 }) s else s

/-- One instruction: the fetch, the budget, then its effect, or the fault it raises. -/
def stwRun (body : State → Res State) (s : State) : State :=
  if !stwGoes s then s
  else match stwFetch s with
    | some f => stwFault f s
    | none =>
      let s1 := stwFetched s
      if s.stw.ext && s.stw.xbudget = 0 then stwFault { cause := cBudget } s1
      else match body s1 with
        | .ok t => retire s.stw.ext t
        | .error (f, t) => stwFault f t

/-! ### Yukin-W (R247 to R249) -/

/-- A forbidden Yukin-W instruction carries ILLEGAL (R249). -/
def whlForbidden (s : State) : State := whlRun (fun _ _ => .error cIllegal) s

/-! ### Instructions of general registers and pc alone -/

/-- What such an instruction does to the registers and pc, or its fault. -/
abbrev RegFn := Tab Word → Word → Except Flt (Tab Word × Word)

/-- It runs on either core. -/
def coreRun (c : Core) (f : RegFn) (s : State) : State :=
  match c with
  | .steward => stwRun (fun t => match f t.stw.g t.stw.pc with
    | .ok r => .ok (setStw (fun w => { w with g := r.1, pc := r.2 }) t)
    | .error e => .error (e, t)) s
  | .whorl => whlRun (fun t sl => match f sl.g sl.pc with
    | .ok r => .ok ({ sl with g := r.1, pc := r.2 }, t)
    | .error e => .error e.cause) s

/-- rd takes a value of the registers, and pc advances. -/
def aluFn (rd : GReg) (f : Tab Word → Word) : RegFn := fun g pc => .ok (gSet g rd.toNat (f g), pc + 4)

/-- The same on either core. -/
def alu (c : Core) (rd : GReg) (f : Tab Word → Word) (s : State) : State := coreRun c (aluFn rd f) s

/-- Two registers into one. -/
def alu2 (c : Core) (rd ra rb : GReg) (f : Word → Word → Word) (s : State) : State :=
  alu c rd (fun g => f (gGet g ra.toNat) (gGet g rb.toNat)) s
/-- One register into one. -/
def alu1 (c : Core) (rd ra : GReg) (f : Word → Word) (s : State) : State := alu c rd (fun g => f (gGet g ra.toNat)) s

/-- A division: forbidden in Yukin-W (Table 4.11). -/
def divOp (c : Core) (rd ra rb : GReg) (f : Word → Word → Word) (s : State) : State :=
  match c with
  | .steward => alu2 .steward rd ra rb f s
  | .whorl => whlForbidden s

/-- An instruction whose fields make it ILLEGAL (R222). -/
def illegalFn : RegFn := fun _ _ => .error { cause := cIllegal }

/-- Control goes to `target`, the registers being `g`: an offset that is not a multiple of 4 raises ALIGN (R216). -/
def goTo (target : Word) (g : Tab Word) : Except Flt (Tab Word × Word) :=
  if target.toNat % 4 = 0 then .ok (g, target) else .error { cause := cAlign, kind := some .fetch, addr := target }

/-- A conditional branch (Table 4.7). -/
def branch (c : Core) (ra rb : GReg) (d : BitVec 16) (cond : Word → Word → Bool) (s : State) : State :=
  coreRun c (fun g pc => if cond (gGet g ra.toNat) (gGet g rb.toNat) then goTo (pc + 4 + disp16 d) g else .ok (g, pc + 4)) s

/-! ### Loads and stores (Table 4.6) -/

/-- The offset of an access (R215). -/
def effOff (g : Tab Word) (rb : GReg) (imm : BitVec 12) : Word := gGet g rb.toNat + sext12 imm

/-- A checked load of a slot. -/
def whlLoad (s : State) (sl : Slot) (sg : Nat) (off : Word) (size : Nat) : Except Nat (Nat × Slot) :=
  let x := Tab.get (fun _ => ({} : Seg)) sl.seg sg
  match segFault false sg x off.toNat size .read with
  | some c => .error c
  | none => slotLoad s sl sg (x.base.toNat + off.toNat) size

/-- A checked store of a slot. -/
def whlStore (sg : Nat) (off : Word) (size : Nat) (v : Word) (s : State) (sl : Slot) : Except Nat (Slot × State) :=
  let x := Tab.get (fun _ => ({} : Seg)) sl.seg sg
  match segFault false sg x off.toNat size .write with
  | some c => .error c
  | none => slotStore sg (x.base.toNat + off.toNat) size v s sl

/-- A load into `r`. -/
def loadOp (c : Core) (r rb : GReg) (sg : BitVec 4) (imm : BitVec 12) (size : Nat) (signed : Bool) (s : State) : State :=
  match c with
  | .steward => stwRun (fun t => (stwLoad sg.toNat (effOff t.stw.g rb imm) size t).map fun x =>
      setStw (fun w => { w with g := gSet w.g r.toNat (extendLoad x.1 size signed), pc := w.pc + 4 }) x.2) s
  | .whorl => whlRun (fun t sl => (whlLoad t sl sg.toNat (effOff sl.g rb imm) size).map fun x =>
      ({ x.2 with g := gSet x.2.g r.toNat (extendLoad x.1 size signed), pc := x.2.pc + 4 }, t)) s

/-- A store of the low bytes of `r`. -/
def storeOp (c : Core) (r rb : GReg) (sg : BitVec 4) (imm : BitVec 12) (size : Nat) (s : State) : State :=
  match c with
  | .steward => stwRun (fun t => (stwStore sg.toNat (effOff t.stw.g rb imm) size (gGet t.stw.g r.toNat &&& fieldMask 0 (8 * size)) t).map fun u =>
      setStw (fun w => { w with pc := w.pc + 4 }) u) s
  | .whorl => whlRun (fun t sl => (whlStore sg.toNat (effOff sl.g rb imm) size (gGet sl.g r.toNat &&& fieldMask 0 (8 * size)) t sl).map fun u =>
      ({ u.1 with pc := u.1.pc + 4 }, u.2)) s

/-! ### Privileged and long instructions -/

/-- A privileged instruction on the steward: PRIV in extension mode (R231); forbidden in Yukin-W. -/
def privOp (c : Core) (body : State → Res State) (s : State) : State :=
  match c with
  | .steward => stwRun (fun t => if t.stw.ext then .error ({ cause := cPriv }, t) else body t) s
  | .whorl => whlForbidden s

/-- A long instruction on the steward (R225): nothing more when g3 is 0; else one element, after which pc advances when
none is left. -/
def longOp (used : List Nat) (elem : Nat → State → Res State) (s : State) : State :=
  stwRun (fun t =>
    let g3 := gGet t.stw.g 3
    if g3 = 0 then .ok (setStw (fun w => { w with pc := w.pc + 4 }) t)
    else
      let n := elemSize (used.map (gGet t.stw.g)) g3
      (elem n t).map fun u => setStw (fun w =>
        let g := gSet w.g 3 (g3 - BitVec.ofNat 32 n)
        { w with g := used.foldl (fun m r => gSet m r (gGet m r + BitVec.ofNat 32 n)) g, pc := if g3.toNat = n then w.pc + 4 else w.pc }) u) s

/-! ### Words that are no instruction (R217 to R219, R222, R223) -/

/-- A legal instruction word: it spells an instruction (Tables 4.3 to 4.9). -/
def yukinLegal (w : Word) : Bool := (yukinOf .steward w).isSome

end Sys2Proof.Machine
end

