-- ==== Sys2Proof/Machine/Yukin.lean ====
section
/-!
DEFINITION. The meanings of the Yukin instructions, on the steward and in the whorl's slot (chapter 04).
-/

namespace Sys2Proof.Machine

/-! ### The register group (Table 4.4) -/

/-- ADD (R218). -/
def execAddR (c : Core) (rd ra rb : GReg) (s : State) : Host.Outcome State Fault Refusal :=
  .next (alu2 c rd ra rb (fun a b => a + b) s)

/-- SUB (R218). -/
def execSubR (c : Core) (rd ra rb : GReg) (s : State) : Host.Outcome State Fault Refusal :=
  .next (alu2 c rd ra rb (fun a b => a - b) s)

/-- AND (R218). -/
def execAndR (c : Core) (rd ra rb : GReg) (s : State) : Host.Outcome State Fault Refusal :=
  .next (alu2 c rd ra rb (fun a b => a &&& b) s)

/-- OR (R218). -/
def execOrR (c : Core) (rd ra rb : GReg) (s : State) : Host.Outcome State Fault Refusal :=
  .next (alu2 c rd ra rb (fun a b => a ||| b) s)

/-- XOR (R218). -/
def execXorR (c : Core) (rd ra rb : GReg) (s : State) : Host.Outcome State Fault Refusal :=
  .next (alu2 c rd ra rb (fun a b => a ^^^ b) s)

/-- SLL (R218). -/
def execSll (c : Core) (rd ra rb : GReg) (s : State) : Host.Outcome State Fault Refusal :=
  .next (alu2 c rd ra rb (fun a b => a <<< shamt b) s)

/-- SRL (R218): zero fill. -/
def execSrl (c : Core) (rd ra rb : GReg) (s : State) : Host.Outcome State Fault Refusal :=
  .next (alu2 c rd ra rb (fun a b => a >>> shamt b) s)

/-- SRA (R218): sign fill. -/
def execSra (c : Core) (rd ra rb : GReg) (s : State) : Host.Outcome State Fault Refusal :=
  .next (alu2 c rd ra rb (fun a b => a.sshiftRight (shamt b)) s)

/-- SLT (R218). -/
def execSlt (c : Core) (rd ra rb : GReg) (s : State) : Host.Outcome State Fault Refusal :=
  .next (alu2 c rd ra rb (fun a b => boolWord (a.slt b)) s)

/-- SLTU (R218). -/
def execSltu (c : Core) (rd ra rb : GReg) (s : State) : Host.Outcome State Fault Refusal :=
  .next (alu2 c rd ra rb (fun a b => boolWord (a.ult b)) s)

/-- MUL (R218): the low 32 bits. -/
def execMul (c : Core) (rd ra rb : GReg) (s : State) : Host.Outcome State Fault Refusal :=
  .next (alu2 c rd ra rb (fun a b => a * b) s)

/-- MULH (R218). -/
def execMulh (c : Core) (rd ra rb : GReg) (s : State) : Host.Outcome State Fault Refusal :=
  .next (alu2 c rd ra rb mulhS s)

/-- MULHU (R218). -/
def execMulhu (c : Core) (rd ra rb : GReg) (s : State) : Host.Outcome State Fault Refusal :=
  .next (alu2 c rd ra rb mulhU s)

/-- DIV (R220), forbidden in Yukin-W (R247). -/
def execDivR (c : Core) (rd ra rb : GReg) (s : State) : Host.Outcome State Fault Refusal :=
  .next (divOp c rd ra rb divS s)

/-- DIVU (R220), forbidden in Yukin-W (R247). -/
def execDivu (c : Core) (rd ra rb : GReg) (s : State) : Host.Outcome State Fault Refusal :=
  .next (divOp c rd ra rb divU s)

/-- REM (R220), forbidden in Yukin-W (R247). -/
def execRemR (c : Core) (rd ra rb : GReg) (s : State) : Host.Outcome State Fault Refusal :=
  .next (divOp c rd ra rb remS s)

/-- REMU (R220), forbidden in Yukin-W (R247). -/
def execRemu (c : Core) (rd ra rb : GReg) (s : State) : Host.Outcome State Fault Refusal :=
  .next (divOp c rd ra rb remU s)

/-- CLZ (R218): 32 when ra is 0. -/
def execClz (c : Core) (rd ra : GReg) (s : State) : Host.Outcome State Fault Refusal :=
  .next (alu1 c rd ra clzW s)

/-- SLLI (R218). -/
def execSlli (c : Core) (rd ra : GReg) (sh : BitVec 5) (s : State) : Host.Outcome State Fault Refusal :=
  .next (alu1 c rd ra (fun a => a <<< sh.toNat) s)

/-- SRLI (R218). -/
def execSrli (c : Core) (rd ra : GReg) (sh : BitVec 5) (s : State) : Host.Outcome State Fault Refusal :=
  .next (alu1 c rd ra (fun a => a >>> sh.toNat) s)

/-- SRAI (R218). -/
def execSrai (c : Core) (rd ra : GReg) (sh : BitVec 5) (s : State) : Host.Outcome State Fault Refusal :=
  .next (alu1 c rd ra (fun a => a.sshiftRight sh.toNat) s)

/-! ### Immediates, fields, permute (Table 4.5) -/

/-- ADDI (R218). -/
def execAddi (c : Core) (rd ra : GReg) (imm : BitVec 16) (s : State) : Host.Outcome State Fault Refusal :=
  .next (alu1 c rd ra (fun a => a + sext16 imm) s)

/-- ANDI (R218). -/
def execAndi (c : Core) (rd ra : GReg) (imm : BitVec 16) (s : State) : Host.Outcome State Fault Refusal :=
  .next (alu1 c rd ra (fun a => a &&& zext16 imm) s)

/-- ORI (R218). -/
def execOri (c : Core) (rd ra : GReg) (imm : BitVec 16) (s : State) : Host.Outcome State Fault Refusal :=
  .next (alu1 c rd ra (fun a => a ||| zext16 imm) s)

/-- XORI (R218). -/
def execXori (c : Core) (rd ra : GReg) (imm : BitVec 16) (s : State) : Host.Outcome State Fault Refusal :=
  .next (alu1 c rd ra (fun a => a ^^^ zext16 imm) s)

/-- SLTI (R218). -/
def execSlti (c : Core) (rd ra : GReg) (imm : BitVec 16) (s : State) : Host.Outcome State Fault Refusal :=
  .next (alu1 c rd ra (fun a => boolWord (a.slt (sext16 imm))) s)

/-- SLTIU (R218). -/
def execSltiu (c : Core) (rd ra : GReg) (imm : BitVec 16) (s : State) : Host.Outcome State Fault Refusal :=
  .next (alu1 c rd ra (fun a => boolWord (a.ult (sext16 imm))) s)

/-- LUI (R218). -/
def execLui (c : Core) (rd : GReg) (imm : BitVec 16) (s : State) : Host.Outcome State Fault Refusal :=
  .next (alu c rd (fun _ => zext16 imm <<< 16) s)

/-- BFX (R221); a field past bit 31 is ILLEGAL (R222). -/
def execBfx (c : Core) (rd ra : GReg) (pos wm1 : BitVec 5) (sg : Bool) (s : State) : Host.Outcome State Fault Refusal :=
  .next (if 32 < pos.toNat + wm1.toNat + 1 then coreRun c illegalFn s
    else alu1 c rd ra (fun a => bfxW a pos.toNat (wm1.toNat + 1) sg) s)

/-- BFI (R221); a field past bit 31 is ILLEGAL (R222). -/
def execBfi (c : Core) (rd ra : GReg) (pos wm1 : BitVec 5) (s : State) : Host.Outcome State Fault Refusal :=
  .next (if 32 < pos.toNat + wm1.toNat + 1 then coreRun c illegalFn s
    else alu c rd (fun g => bfiW (gGet g rd.toNat) (gGet g ra.toNat) pos.toNat (wm1.toNat + 1)) s)

/-- PERM (R221); lane mode 11 is ILLEGAL (R222). -/
def execPerm (c : Core) (rd ra : GReg) (sel : BitVec 16) (s : State) : Host.Outcome State Fault Refusal :=
  .next (if permBad sel then coreRun c illegalFn s else alu1 c rd ra (fun a => permW a sel) s)

/-! ### Loads, stores, segment registers (Table 4.6) -/

/-- LB (R214, R215, R242 to R244, R248). -/
def execLb (c : Core) (r rb : GReg) (seg : BitVec 4) (imm : BitVec 12) (s : State) : Host.Outcome State Fault Refusal :=
  .next (loadOp c r rb seg imm 1 true s)

/-- LBU (R214, R215, R242 to R244, R248). -/
def execLbu (c : Core) (r rb : GReg) (seg : BitVec 4) (imm : BitVec 12) (s : State) : Host.Outcome State Fault Refusal :=
  .next (loadOp c r rb seg imm 1 false s)

/-- LH (R214, R215, R242 to R244, R248). -/
def execLh (c : Core) (r rb : GReg) (seg : BitVec 4) (imm : BitVec 12) (s : State) : Host.Outcome State Fault Refusal :=
  .next (loadOp c r rb seg imm 2 true s)

/-- LHU (R214, R215, R242 to R244, R248). -/
def execLhu (c : Core) (r rb : GReg) (seg : BitVec 4) (imm : BitVec 12) (s : State) : Host.Outcome State Fault Refusal :=
  .next (loadOp c r rb seg imm 2 false s)

/-- LW (R214, R215, R242 to R244, R248). -/
def execLw (c : Core) (r rb : GReg) (seg : BitVec 4) (imm : BitVec 12) (s : State) : Host.Outcome State Fault Refusal :=
  .next (loadOp c r rb seg imm 4 false s)

/-- SB (R214, R215, R240, R241). -/
def execSb (c : Core) (r rb : GReg) (seg : BitVec 4) (imm : BitVec 12) (s : State) : Host.Outcome State Fault Refusal :=
  .next (storeOp c r rb seg imm 1 s)

/-- SH (R214, R215, R240, R241). -/
def execSh (c : Core) (r rb : GReg) (seg : BitVec 4) (imm : BitVec 12) (s : State) : Host.Outcome State Fault Refusal :=
  .next (storeOp c r rb seg imm 2 s)

/-- SW (R214, R215, R240, R241). -/
def execSw (c : Core) (r rb : GReg) (seg : BitVec 4) (imm : BitVec 12) (s : State) : Host.Outcome State Fault Refusal :=
  .next (storeOp c r rb seg imm 4 s)

/-- The segment register that SEGLD and SEGST name: bit 4 of the field must be 0 (R223). -/
def segNum (r : GReg) : Nat := r.toNat % 16
def segIllegal (r : GReg) : Bool := decide (16 ≤ r.toNat)

/-- A descriptor into segment register `n` (R223, R224). -/
def segldBody (n sg : Nat) (off : Word) (s : State) : Res State :=
  match stwLoad sg off 16 s with
  | .error e => .error e
  | .ok (v, t) =>
    let x : Seg := { base := BitVec.ofNat 32 v, limit := BitVec.ofNat 32 (v / 2 ^ 32), rights := BitVec.ofNat 32 (v / 2 ^ 64) }
    if x.base.toNat % 4 ≠ 0 ∨ 64 ≤ x.rights.toNat then .error ({ cause := cSegInvalid, seg := sg, kind := some .read, addr := off }, t)
    else .ok (setStw (fun w => { w with seg := w.seg.set (fun _ => {}) n x, pc := w.pc + 4 }) t)

/-- A segment register as a descriptor: four words into the buffer, after one check of all sixteen bytes (R223, R240). -/
def segstBody (n sg : Nat) (off : Word) (s : State) : Res State :=
  match stwCheck s sg off 16 .write with
  | .error f => .error (f, s)
  | .ok pa =>
    let x := Tab.get (fun _ => ({} : Seg)) s.stw.seg n
    let t := ([x.base, x.limit, x.rights, 0].zipIdx).foldl (fun u y => sbPush { pa := pa + 4 * y.2, size := 4, val := y.1 } u) s
    .ok (setStw (fun w => { w with pc := w.pc + 4 }) t)

/-- SEGLD: privileged (R223, R224, R231, R259, R260). -/
def execSegld (c : Core) (r rb : GReg) (seg : BitVec 4) (imm : BitVec 12) (s : State) : Host.Outcome State Fault Refusal :=
  .next (if segIllegal r then coreRun c illegalFn s
    else privOp c (fun t => segldBody (segNum r) seg.toNat (effOff t.stw.g rb imm) t) s)

/-- SEGST: privileged (R223, R231). -/
def execSegst (c : Core) (r rb : GReg) (seg : BitVec 4) (imm : BitVec 12) (s : State) : Host.Outcome State Fault Refusal :=
  .next (if segIllegal r then coreRun c illegalFn s
    else privOp c (fun t => segstBody (segNum r) seg.toNat (effOff t.stw.g rb imm) t) s)

/-! ### Branches and jumps (Table 4.7) -/

/-- BEQ (R216). -/
def execBeq (c : Core) (ra rb : GReg) (disp : BitVec 16) (s : State) : Host.Outcome State Fault Refusal :=
  .next (branch c ra rb disp (fun a b => a == b) s)

/-- BNE (R216). -/
def execBne (c : Core) (ra rb : GReg) (disp : BitVec 16) (s : State) : Host.Outcome State Fault Refusal :=
  .next (branch c ra rb disp (fun a b => a != b) s)

/-- BLT (R216). -/
def execBlt (c : Core) (ra rb : GReg) (disp : BitVec 16) (s : State) : Host.Outcome State Fault Refusal :=
  .next (branch c ra rb disp (fun a b => a.slt b) s)

/-- BGE (R216). -/
def execBge (c : Core) (ra rb : GReg) (disp : BitVec 16) (s : State) : Host.Outcome State Fault Refusal :=
  .next (branch c ra rb disp (fun a b => !a.slt b) s)

/-- BLTU (R216). -/
def execBltu (c : Core) (ra rb : GReg) (disp : BitVec 16) (s : State) : Host.Outcome State Fault Refusal :=
  .next (branch c ra rb disp (fun a b => a.ult b) s)

/-- BGEU (R216). -/
def execBgeu (c : Core) (ra rb : GReg) (disp : BitVec 16) (s : State) : Host.Outcome State Fault Refusal :=
  .next (branch c ra rb disp (fun a b => !a.ult b) s)

/-- J (R216). -/
def execJ (c : Core) (disp : BitVec 26) (s : State) : Host.Outcome State Fault Refusal :=
  .next (coreRun c (fun g pc => goTo (pc + 4 + disp26 disp) g) s)

/-- JAL (R210, R216): the link goes to g31. -/
def execJal (c : Core) (disp : BitVec 26) (s : State) : Host.Outcome State Fault Refusal :=
  .next (coreRun c (fun g pc => goTo (pc + 4 + disp26 disp) (gSet g 31 (pc + 4))) s)

/-- JALR (R216): the target is formed before rd is written. -/
def execJalr (c : Core) (rd ra : GReg) (imm : BitVec 16) (s : State) : Host.Outcome State Fault Refusal :=
  .next (coreRun c (fun g pc => goTo (gGet g ra.toNat + sext16 imm) (gSet g rd.toNat (pc + 4))) s)

/-! ### Long instructions (Table 4.8) -/

/-- A byte or a word of fill: g4's low byte repeated `n` times. -/
def fillWord (g : Tab Word) (n : Nat) : Word :=
  let b := bitsOf (gGet g 4) 0 8
  BitVec.ofNat 32 (if n = 4 then b * 0x1010101 else b)

/-- An element of BMOVE: both accesses are checked before either has an effect (R225). -/
def bmoveElem (segd segs n : Nat) (s : State) : Res State :=
  match stwCheck s segd (gGet s.stw.g 2) n .write with
  | .error f => (match stwCheck s segs (gGet s.stw.g 1) n .read with
    | .error e => .error (e, s)
    | .ok _ => .error (f, s))
  | .ok pa => (stwLoad segs (gGet s.stw.g 1) n s).map fun r => sbPush { pa := pa, size := n, val := BitVec.ofNat 32 r.1 } r.2

/-- BMOVE (R225, R226, R228 to R230). -/
def execBmove (c : Core) (segd segs : BitVec 4) (s : State) : Host.Outcome State Fault Refusal :=
  .next (match c with
    | .steward => longOp [1, 2] (bmoveElem segd.toNat segs.toNat) s
    | .whorl => whlForbidden s)

/-- BFILL (R225, R228 to R230). -/
def execBfill (c : Core) (segd : BitVec 4) (s : State) : Host.Outcome State Fault Refusal :=
  .next (match c with
    | .steward => longOp [2] (fun n t => stwStore segd.toNat (gGet t.stw.g 2) n (fillWord t.stw.g n) t) s
    | .whorl => whlForbidden s)

/-- An element of CRC32 on the steward (R227). -/
def crcElem (segs n : Nat) (s : State) : Res State :=
  (stwLoad segs (gGet s.stw.g 1) n s).map fun r =>
    setStw (fun w => { w with g := gSet w.g 5 (crcFold (gGet w.g 5) r.1 n) }) r.2

/-- An element of CRC32 in a slot: g3 above 256 carries ILLEGAL (R787). -/
def whlCrc (segs : Nat) (s : State) (sl : Slot) : Except Nat (Slot × State) :=
  let g3 := gGet sl.g 3
  if 256 < g3.toNat then .error cIllegal
  else if g3 = 0 then .ok ({ sl with pc := sl.pc + 4 }, s)
  else
    let n := elemSize [gGet sl.g 1] g3
    (whlLoad s sl segs (gGet sl.g 1) n).map fun r =>
      let g := gSet r.2.g 5 (crcFold (gGet r.2.g 5) r.1 n)
      ({ r.2 with
        g := gSet (gSet g 1 (gGet g 1 + BitVec.ofNat 32 n)) 3 (g3 - BitVec.ofNat 32 n)
        pc := if g3.toNat = n then r.2.pc + 4 else r.2.pc }, s)

/-- CRC32 (R225, R227 to R230). -/
def execCrc32 (c : Core) (segs : BitVec 4) (s : State) : Host.Outcome State Fault Refusal :=
  .next (match c with
    | .steward => longOp [1] (crcElem segs.toNat) s
    | .whorl => whlRun (fun t sl => whlCrc segs.toNat t sl) s)

/-! ### The system group (Table 4.9) -/

/-- SYNC (R245): the store buffer empties; a slot's stores are staged, and SYNC only advances. -/
def execSync (c : Core) (s : State) : Host.Outcome State Fault Refusal :=
  .next (match c with
    | .steward => stwRun (fun t => .ok (setStw (fun w => { w with pc := w.pc + 4 }) (drainAll t))) s
    | .whorl => coreRun .whorl (fun g pc => .ok (g, pc + 4)) s)

/-- The extension services of Table 4.12b. -/
def svcKnown (code : Nat) : Bool := decide (1 ≤ code ∧ code ≤ 5)

/-- The trap of SVC (R233, R255); an extension's unknown code is answered 0xFFFF_FFFF at once. -/
def svcTrap (code : Nat) (s : State) : State :=
  let t := stwEnter { cause := cSvc, svc := code } true (s.stw.pc + 4) s
  if s.stw.ext && !svcKnown code then stwReturn (setStw (fun w => { w with g := gSet w.g 1 0xFFFFFFFF }) t) else t

/-- SVC (R233, R255). -/
def execSvc (c : Core) (code : BitVec 10) (s : State) : Host.Outcome State Fault Refusal :=
  .next (match c with
    | .steward => stwRun (fun t => .ok (svcTrap code.toNat t)) s
    | .whorl => whlForbidden s)

/-- BRK (R233). -/
def execBrk (c : Core) (s : State) : Host.Outcome State Fault Refusal :=
  .next (match c with
    | .steward => stwRun (fun t => .ok (stwEnter { cause := cBrk } true t.stw.pc t)) s
    | .whorl => whlForbidden s)

/-- ERET: privileged (R231, R234, R235). -/
def execEret (c : Core) (s : State) : Host.Outcome State Fault Refusal := .next (privOp c (fun t => .ok (stwReturn t)) s)

/-- YC_STATUS (Table 4.17). -/
def ycStatus (w : Stw) : Nat := b2n w.fh * 16 + b2n w.pext * 8 + b2n w.pie * 4 + b2n w.ext * 2 + b2n w.ie

/-- The control registers as MFC reads them (R268). -/
def ctlRead (w : Stw) (i : Nat) : Word :=
  match i with
  | 0 => BitVec.ofNat 32 (ycStatus w)
  | 1 => w.epc
  | 2 => w.ecause
  | 3 => w.eaddr
  | 4 => w.vbase
  | 5 => w.ipend
  | 6 => w.imask
  | 7 => BitVec.ofNat 32 w.xbudget
  | 8 => w.timer
  | 9 => w.scratch0
  | 10 => w.scratch1
  | _ => 0

/-- The control registers as MTC writes them (R261, R268). -/
def ctlWrite (i : Nat) (v : Word) (w : Stw) : Stw :=
  match i with
  | 0 => { w with fh := bitOf v 4, pext := bitOf v 3, pie := bitOf v 2, ext := bitOf v 1, ie := bitOf v 0 }
  | 1 => { w with epc := v }
  | 4 => { w with vbase := v &&& 0xFFFFFF00 }
  | 6 => { w with imask := v }
  | 7 => { w with xbudget := v.toNat % 1048576 }
  | 8 => { w with timer := v, ipend := w.ipend &&& ~~~ 0x8000 }
  | 9 => { w with scratch0 := v }
  | 10 => { w with scratch1 := v }
  | _ => w

/-- MFC: privileged (R231, R268). -/
def execMfc (c : Core) (rd : GReg) (idx : BitVec 5) (s : State) : Host.Outcome State Fault Refusal :=
  .next (privOp c (fun t => .ok (setStw (fun w => { w with g := gSet w.g rd.toNat (ctlRead w idx.toNat), pc := w.pc + 4 }) t)) s)

/-- MTC: privileged (R231, R261, R268). -/
def execMtc (c : Core) (idx : BitVec 5) (rb : GReg) (s : State) : Host.Outcome State Fault Refusal :=
  .next (privOp c (fun t => .ok (setStw (fun w => { ctlWrite idx.toNat (gGet w.g rb.toNat) w with pc := w.pc + 4 }) t)) s)

/-- An enabled line is pending. -/
def linePending (w : Stw) : Bool := decide (w.ipend &&& w.imask ≠ 0)

/-- WAIT: privileged (R231, R232). -/
def execWaitI (c : Core) (s : State) : Host.Outcome State Fault Refusal :=
  .next (privOp c (fun t => .ok (setStw (fun w => { w with pc := w.pc + 4, waiting := !linePending w }) t)) s)

/-- ILLEGAL_INSTRUCTION (R217 to R219, R249): the word fetched is no instruction. -/
def execIllegalInstruction (c : Core) (w : Word) (s : State) : Host.Outcome State Fault Refusal :=
  .next (if yukinLegal w then s else coreRun c illegalFn s)

/-! ### Between instructions -/

/-- INTERRUPT_ENTRY (R228, R229, R233, R235, R236, R264): the lowest pending enabled line is taken. Lines 14 and 15 follow
their sources; any other is cleared as it is taken. -/
def execInterruptEntry (s : State) : Host.Outcome State Fault Refusal :=
  if stewardRuns s && s.stw.ie && !s.stw.fh then
    match (List.range 32).find? fun n => bitOf (s.stw.ipend &&& s.stw.imask) n with
    | none => .next s
    | some n =>
      let t := stwEnter { cause := 0x40 + n } false s.stw.pc (setStw (fun w => { w with waiting := false }) s)
      .next (if n = 14 ∨ n = 15 then t else clearLine n t)
  else .next s

/-- WAIT_RESUME (R232): an enabled line is pending, and execution goes on. -/
def execWaitResume (s : State) : Host.Outcome State Fault Refusal :=
  if s.stw.waiting && linePending s.stw then .next (setStw (fun w => { w with waiting := false }) s) else .next s

/-- STORE_BUFFER_DRAIN (R240, R243, R244, R246). -/
def execStoreBufferDrain (s : State) : Host.Outcome State Fault Refusal := if stewardRuns s then .next (drainOne s) else .next s

/-- STEWARD_TIMER (R268): the Reel's low word reaches YC_TIMER, and line 15 asserts. -/
def execStewardTimer (s : State) : Host.Outcome State Fault Refusal :=
  if stewardRuns s && s.ply.running then
    let ahead := s.stw.timer - s.reel.setWidth 32
    .next (raiseLine 15 (reachTick (s.reel + ahead.setWidth 64) s))
  else .next s

/-! ### Extensions (R251 to R255, R320) -/

/-- Segments of an invocation (Table 4.12a). -/
def extSegs (codeLen dataLen : Nat) (t : Tab Seg) : Tab Seg :=
  let put (n base len rights : Nat) (m : Tab Seg) : Tab Seg :=
    m.set (fun _ => {}) n { base := BitVec.ofNat 32 base, limit := BitVec.ofNat 32 len, rights := BitVec.ofNat 32 rights }
  let u := put 11 0xFFE00 256 0x17 (put 10 0xFFC00 256 0x13 (put 9 0xF0000 dataLen 0x17 (put 8 0xE0000 codeLen 0x1B t)))
  [12, 13, 14, 15].foldl (fun m n => m.set (fun _ => {}) n {}) u

/-- General registers of which the manual states no value. -/
def freeRegs (k : Nat) : Tab Word := (List.range 31).foldl (fun g i => gSet g (i + 1) (Config.freeWord (k + i))) []

/-- EXTENSION_INVOKE (R251 to R254): Steward 3.2, in its own code and with no invocation open, starts an extension that is
loaded and not disabled. -/
def execExtensionInvoke (idx : Nat) (record : List Byte) (s : State) : Host.Outcome State Fault Refusal :=
  let x := Tab.get (fun _ => (0, 0, 0)) s.stw.exts idx
  if stwGoes s && !s.stw.ext && s.stw.extIdx.isNone && decide (0 < x.1) && decide (Tab.get (fun _ => 0) s.stw.extFault idx < 3) then
    let t := drainAll s
    .next { setStw (fun w => { w with
        sram := (w.sram.write 0xE0000 (Config.sect2Code w.sect2 idx)).write 0xFFC00 ((record ++ List.replicate 256 0).take 256)
        seg := extSegs x.1 x.2.1 w.seg, extIdx := some idx, extSaved := (w.g, w.pc, w.ie), g := freeRegs t.free
        pc := Config.extEntry w.sect2 idx, ext := true, ie := true, xbudget := x.2.2 }) t with free := t.free + 31 }
  else .next s

/-- The steward serves extension service `code`: its trap has been entered from extension mode. -/
def svcOpen (code : Nat) (s : State) : Bool :=
  stwGoes s && s.stw.extIdx.isSome && !s.stw.ext && s.stw.pext && s.stw.fh && decide (bitsOf s.stw.ecause 0 8 = cSvc)
    && decide (bitsOf s.stw.ecause 16 10 = code)

/-- The service's answer: general registers, then the return into the extension. -/
def svcDone (rs : List (Nat × Word)) (s : State) : State :=
  stwReturn (setStw (fun w => { w with g := rs.foldl (fun g r => gSet g r.1 r.2) w.g }) s)

/-- A word of a number. -/
def nw (n : Nat) : Word := BitVec.ofNat 32 n

/-- EXT_EXIT. -/
def execExtExit (s : State) : Host.Outcome State Fault Refusal := if svcOpen 1 s then .next (extEnd s) else .next s

/-- The codes of Table 6.13. -/
def logCodes : List Nat :=
  [0x0D, 0x01, 0x02, 0x03, 0x04, 0x05, 0x06, 0x07, 0x08, 0x09, 0x0A, 0x0B, 0x0C, 0x0E, 0x10, 0x11, 0x12, 0x20, 0x21, 0x22, 0x23, 0x24,
   0x25, 0x26, 0x27, 0x28, 0x30, 0x31, 0x32, 0x33, 0x34, 0x35, 0x36, 0x40, 0x50, 0x51, 0x60, 0x61, 0x62, 0x70, 0x71, 0x72, 0x73,
   0x80, 0x90, 0x91, 0xA0]
/-- CODE of an extension's event record: one of Table 6.13's (R356). -/
def extLogCode : Nat := logCodes.getD (Config.extLogPick % logCodes.length) 0x0D

/-- EXT_LOG: g1 to g4 are the record's DETAIL. -/
def execExtLog (s : State) : Host.Outcome State Fault Refusal :=
  if svcOpen 2 s then
    let d := [1, 2, 3, 4].flatMap fun r => leBytes 4 (gGet s.stw.g r).toNat
    .next (svcDone [(1, 0)] (logFault extLogCode 0 d s))
  else .next s

/-- EXT_REEL. -/
def execExtReel (s : State) : Host.Outcome State Fault Refusal :=
  if svcOpen 3 s then .next (svcDone [(2, nw s.reel.toNat), (3, nw (s.reel.toNat / 2 ^ 32)), (1, 0)] s) else .next s

/-- EXT_PLY. -/
def execExtPly (s : State) : Host.Outcome State Fault Refusal :=
  if svcOpen 4 s then
    let k := (gGet s.stw.g 2).toNat
    let v := plyValue s k
    .next (if k < 8 then svcDone [(2, nw v.1), (3, nw (v.1 / 2 ^ 32)), (4, nw v.2.1), (1, 0)] s else svcDone [(1, 1)] s)
  else .next s

/-- A reply is due in host-bound mailbox `n`. -/
def replyDue (s : State) (n : Nat) : Bool := s.hl.due.any fun d => d.mb == n

/-- EXT_POST (R320): busy while the mailbox is full or a reply is due in it. -/
def execExtPost (s : State) : Host.Outcome State Fault Refusal :=
  if svcOpen 5 s then
    let t := drainAll s
    let len := (gGet s.stw.g 2).toNat
    let n := (gGet s.stw.g 3).toNat
    .next (if len < 1 ∨ 244 < len ∨ 32 ≤ n then svcDone [(1, 1)] t
      else if bitOf s.hl.hfull n || replyDue s n then svcDone [(1, 2)] t
      else svcDone [(1, 0)] (hstMessage n 0xFFFF (replyMsg 0x0BF0 .ok (s.stw.extIdx.getD 0) (t.stw.sram.bytes 0xFFE00 len)) t))
  else .next s

end Sys2Proof.Machine
end

