-- ==== Sys2Proof/Machine/Dispatch.lean ====
section
/-!
DEFINITION. The dispatcher: one arm per constructor of Instr, each one direct call of the command's meaning.
-/

namespace Sys2Proof.Machine

/-- What one command does to everything but the queue. -/
def exec (i : Instr) (s : State) : Host.Outcome State Fault Refusal :=
  match i with
  | .registerWrite sp addr data => Sys2Proof.Machine.execRegisterWrite sp addr data s
  | .rcFieldRead sp span event => Sys2Proof.Machine.execRcFieldRead sp span event s
  | .latchedPairRead sp span => Sys2Proof.Machine.execLatchedPairRead sp span s
  | .validSupply => Sys2Proof.Machine.execValidSupply s
  | .coldReset lost byPg => Sys2Proof.Machine.execColdReset lost byPg s
  | .railPgMismatch rail => Sys2Proof.Machine.execRailPgMismatch rail s
  | .skeinBypassClose => Sys2Proof.Machine.execSkeinBypassClose s
  | .holdupTakeover => Sys2Proof.Machine.execHoldupTakeover s
  | .distaffDomainStop => Sys2Proof.Machine.execDistaffDomainStop s
  | .holdupCharged => Sys2Proof.Machine.execHoldupCharged s
  | .holdupSlow mv => Sys2Proof.Machine.execHoldupSlow mv s
  | .holdupLeak fallMv => Sys2Proof.Machine.execHoldupLeak fallMv s
  | .capMeasure us dvMv => Sys2Proof.Machine.execCapMeasure us dvMv s
  | .ledgerRecalibration w => Sys2Proof.Machine.execLedgerRecalibration w s
  | .pwrVidWrite v => Sys2Proof.Machine.execPwrVidWrite v s
  | .vidStep => Sys2Proof.Machine.execVidStep s
  | .bypeDriveSet n => Sys2Proof.Machine.execBypeDriveSet n s
  | .bypeDriveClear n => Sys2Proof.Machine.execBypeDriveClear n s
  | .bypeSettleDone n => Sys2Proof.Machine.execBypeSettleDone n s
  | .pwrsenseWarn => Sys2Proof.Machine.execPwrsenseWarn s
  | .pwrsenseRecover => Sys2Proof.Machine.execPwrsenseRecover s
  | .braceRecovered us => Sys2Proof.Machine.execBraceRecovered us s
  | .resetNLow => Sys2Proof.Machine.execResetNLow s
  | .resetNRise => Sys2Proof.Machine.execResetNRise s
  | .warmOffTimeEnd => Sys2Proof.Machine.execWarmOffTimeEnd s
  | .kindleStart straps us pg => Sys2Proof.Machine.execKindleStart straps us pg s
  | .crystalReady us pg => Sys2Proof.Machine.execCrystalReady us pg s
  | .crystalTimeout us pg => Sys2Proof.Machine.execCrystalTimeout us pg s
  | .xtalLate => Sys2Proof.Machine.execXtalLate s
  | .railReady us pg => Sys2Proof.Machine.execRailReady us pg s
  | .railTimeout => Sys2Proof.Machine.execRailTimeout s
  | .railRetry => Sys2Proof.Machine.execRailRetry s
  | .pllLock steps us => Sys2Proof.Machine.execPllLock steps us s
  | .pllLockTimeout => Sys2Proof.Machine.execPllLockTimeout s
  | .journalReplay us => Sys2Proof.Machine.execJournalReplay us s
  | .imageAuthentication us => Sys2Proof.Machine.execImageAuthentication us s
  | .scheduleLoad us => Sys2Proof.Machine.execScheduleLoad us s
  | .step7End us cond => Sys2Proof.Machine.execStep7End us cond s
  | .kindleLate step us => Sys2Proof.Machine.execKindleLate step us s
  | .drowseEntry => Sys2Proof.Machine.execDrowseEntry s
  | .wakeSourceFire src => Sys2Proof.Machine.execWakeSourceFire src s
  | .wakeHoldEnd => Sys2Proof.Machine.execWakeHoldEnd s
  | .gatedUnitStart l => Sys2Proof.Machine.execGatedUnitStart l s
  | .commitUnitEnd bad reads => Sys2Proof.Machine.execCommitUnitEnd bad reads s
  | .checkpointChunkEnd bad => Sys2Proof.Machine.execCheckpointChunkEnd bad s
  | .gateClosed staged => Sys2Proof.Machine.execGateClosed staged s
  | .bootCopyWriteEnd => Sys2Proof.Machine.execBootCopyWriteEnd s
  | .logCopyEnd => Sys2Proof.Machine.execLogCopyEnd s
  | .nameplateUpdateEnd => Sys2Proof.Machine.execNameplateUpdateEnd s
  | .imageChunkEnd => Sys2Proof.Machine.execImageChunkEnd s
  | .migrationEnd failed => Sys2Proof.Machine.execMigrationEnd failed s
  | .scrubPassStart => Sys2Proof.Machine.execScrubPassStart s
  | .scrubPageRead bits => Sys2Proof.Machine.execScrubPageRead bits s
  | .scrubRewriteEnd => Sys2Proof.Machine.execScrubRewriteEnd s
  | .addR c rd ra rb => Sys2Proof.Machine.execAddR c rd ra rb s
  | .subR c rd ra rb => Sys2Proof.Machine.execSubR c rd ra rb s
  | .andR c rd ra rb => Sys2Proof.Machine.execAndR c rd ra rb s
  | .orR c rd ra rb => Sys2Proof.Machine.execOrR c rd ra rb s
  | .xorR c rd ra rb => Sys2Proof.Machine.execXorR c rd ra rb s
  | .sll c rd ra rb => Sys2Proof.Machine.execSll c rd ra rb s
  | .srl c rd ra rb => Sys2Proof.Machine.execSrl c rd ra rb s
  | .sra c rd ra rb => Sys2Proof.Machine.execSra c rd ra rb s
  | .slt c rd ra rb => Sys2Proof.Machine.execSlt c rd ra rb s
  | .sltu c rd ra rb => Sys2Proof.Machine.execSltu c rd ra rb s
  | .mul c rd ra rb => Sys2Proof.Machine.execMul c rd ra rb s
  | .mulh c rd ra rb => Sys2Proof.Machine.execMulh c rd ra rb s
  | .mulhu c rd ra rb => Sys2Proof.Machine.execMulhu c rd ra rb s
  | .divR c rd ra rb => Sys2Proof.Machine.execDivR c rd ra rb s
  | .divu c rd ra rb => Sys2Proof.Machine.execDivu c rd ra rb s
  | .remR c rd ra rb => Sys2Proof.Machine.execRemR c rd ra rb s
  | .remu c rd ra rb => Sys2Proof.Machine.execRemu c rd ra rb s
  | .clz c rd ra => Sys2Proof.Machine.execClz c rd ra s
  | .slli c rd ra sh => Sys2Proof.Machine.execSlli c rd ra sh s
  | .srli c rd ra sh => Sys2Proof.Machine.execSrli c rd ra sh s
  | .srai c rd ra sh => Sys2Proof.Machine.execSrai c rd ra sh s
  | .addi c rd ra imm => Sys2Proof.Machine.execAddi c rd ra imm s
  | .andi c rd ra imm => Sys2Proof.Machine.execAndi c rd ra imm s
  | .ori c rd ra imm => Sys2Proof.Machine.execOri c rd ra imm s
  | .xori c rd ra imm => Sys2Proof.Machine.execXori c rd ra imm s
  | .slti c rd ra imm => Sys2Proof.Machine.execSlti c rd ra imm s
  | .sltiu c rd ra imm => Sys2Proof.Machine.execSltiu c rd ra imm s
  | .lui c rd imm => Sys2Proof.Machine.execLui c rd imm s
  | .bfx c rd ra pos wm1 sg => Sys2Proof.Machine.execBfx c rd ra pos wm1 sg s
  | .bfi c rd ra pos wm1 => Sys2Proof.Machine.execBfi c rd ra pos wm1 s
  | .perm c rd ra sel => Sys2Proof.Machine.execPerm c rd ra sel s
  | .lb c r rb seg imm => Sys2Proof.Machine.execLb c r rb seg imm s
  | .lbu c r rb seg imm => Sys2Proof.Machine.execLbu c r rb seg imm s
  | .lh c r rb seg imm => Sys2Proof.Machine.execLh c r rb seg imm s
  | .lhu c r rb seg imm => Sys2Proof.Machine.execLhu c r rb seg imm s
  | .lw c r rb seg imm => Sys2Proof.Machine.execLw c r rb seg imm s
  | .sb c r rb seg imm => Sys2Proof.Machine.execSb c r rb seg imm s
  | .sh c r rb seg imm => Sys2Proof.Machine.execSh c r rb seg imm s
  | .sw c r rb seg imm => Sys2Proof.Machine.execSw c r rb seg imm s
  | .segld c r rb seg imm => Sys2Proof.Machine.execSegld c r rb seg imm s
  | .segst c r rb seg imm => Sys2Proof.Machine.execSegst c r rb seg imm s
  | .beq c ra rb disp => Sys2Proof.Machine.execBeq c ra rb disp s
  | .bne c ra rb disp => Sys2Proof.Machine.execBne c ra rb disp s
  | .blt c ra rb disp => Sys2Proof.Machine.execBlt c ra rb disp s
  | .bge c ra rb disp => Sys2Proof.Machine.execBge c ra rb disp s
  | .bltu c ra rb disp => Sys2Proof.Machine.execBltu c ra rb disp s
  | .bgeu c ra rb disp => Sys2Proof.Machine.execBgeu c ra rb disp s
  | .j c disp => Sys2Proof.Machine.execJ c disp s
  | .jal c disp => Sys2Proof.Machine.execJal c disp s
  | .jalr c rd ra imm => Sys2Proof.Machine.execJalr c rd ra imm s
  | .bmove c segd segs => Sys2Proof.Machine.execBmove c segd segs s
  | .bfill c segd => Sys2Proof.Machine.execBfill c segd s
  | .crc32 c segs => Sys2Proof.Machine.execCrc32 c segs s
  | .sync c => Sys2Proof.Machine.execSync c s
  | .svc c code => Sys2Proof.Machine.execSvc c code s
  | .eret c => Sys2Proof.Machine.execEret c s
  | .mfc c rd idx => Sys2Proof.Machine.execMfc c rd idx s
  | .mtc c idx rb => Sys2Proof.Machine.execMtc c idx rb s
  | .waitI c => Sys2Proof.Machine.execWaitI c s
  | .brk c => Sys2Proof.Machine.execBrk c s
  | .illegalInstruction c w => Sys2Proof.Machine.execIllegalInstruction c w s
  | .interruptEntry => Sys2Proof.Machine.execInterruptEntry s
  | .waitResume => Sys2Proof.Machine.execWaitResume s
  | .storeBufferDrain => Sys2Proof.Machine.execStoreBufferDrain s
  | .stewardTimer => Sys2Proof.Machine.execStewardTimer s
  | .extensionInvoke idx record => Sys2Proof.Machine.execExtensionInvoke idx record s
  | .extExit => Sys2Proof.Machine.execExtExit s
  | .extLog => Sys2Proof.Machine.execExtLog s
  | .extReel => Sys2Proof.Machine.execExtReel s
  | .extPly => Sys2Proof.Machine.execExtPly s
  | .extPost => Sys2Proof.Machine.execExtPost s
  | .mailboxTailWrite n tail => Sys2Proof.Machine.execMailboxTailWrite n tail s
  | .mailboxTailRead n => Sys2Proof.Machine.execMailboxTailRead n s
  | .stewardCommandTake n => Sys2Proof.Machine.execStewardCommandTake n s
  | .stewardReplyWrite n => Sys2Proof.Machine.execStewardReplyWrite n s
  | .doorbellClear mask setNow => Sys2Proof.Machine.execDoorbellClear mask setNow s
  | .dbMaskWrite v => Sys2Proof.Machine.execDbMaskWrite v s
  | .hostResetWrite v => Sys2Proof.Machine.execHostResetWrite v s
  | .heartbeat => Sys2Proof.Machine.execHeartbeat s
  | .spiWriteFrame off data => Sys2Proof.Machine.execSpiWriteFrame off data s
  | .spiReadFrame off len => Sys2Proof.Machine.execSpiReadFrame off len s
  | .spiStatusFrame => Sys2Proof.Machine.execSpiStatusFrame s
  | .spiBadFrame => Sys2Proof.Machine.execSpiBadFrame s
  | .perstAssert => Sys2Proof.Machine.execPerstAssert s
  | .ringCtrlWrite r off v => Sys2Proof.Machine.execRingCtrlWrite r off v s
  | .ringTailWrite r v => Sys2Proof.Machine.execRingTailWrite r v s
  | .txRingOffer r bytes => Sys2Proof.Machine.execTxRingOffer r bytes s
  | .rxBurstStart r => Sys2Proof.Machine.execRxBurstStart r s
  | .dmaBurstComplete r => Sys2Proof.Machine.execDmaBurstComplete r s
  | .dmaReadFault r cto => Sys2Proof.Machine.execDmaReadFault r cto s
  | .unknownCmd src => Sys2Proof.Machine.execUnknownCmd src s
  | .idGet src => Sys2Proof.Machine.execIdGet src s
  | .kindleReport src => Sys2Proof.Machine.execKindleReport src s
  | .modeGet src => Sys2Proof.Machine.execModeGet src s
  | .modeSet src => Sys2Proof.Machine.execModeSet src s
  | .resetWarm src => Sys2Proof.Machine.execResetWarm src s
  | .wakeSet src => Sys2Proof.Machine.execWakeSet src s
  | .txnOpen src => Sys2Proof.Machine.execTxnOpen src s
  | .txnStage src => Sys2Proof.Machine.execTxnStage src s
  | .txnStageDma src data => Sys2Proof.Machine.execTxnStageDma src data s
  | .txnCommit src => Sys2Proof.Machine.execTxnCommit src s
  | .txnAbort src => Sys2Proof.Machine.execTxnAbort src s
  | .txnStatus src => Sys2Proof.Machine.execTxnStatus src s
  | .confGet src => Sys2Proof.Machine.execConfGet src s
  | .txnExpired h => Sys2Proof.Machine.execTxnExpired h s
  | .commitEpoch h => Sys2Proof.Machine.execCommitEpoch h s
  | .commitReply h => Sys2Proof.Machine.execCommitReply h s
  | .imgStatus src => Sys2Proof.Machine.execImgStatus src s
  | .imgBegin src => Sys2Proof.Machine.execImgBegin src s
  | .imgWrite src => Sys2Proof.Machine.execImgWrite src s
  | .imgWriteDma src data => Sys2Proof.Machine.execImgWriteDma src data s
  | .imgEnd src => Sys2Proof.Machine.execImgEnd src s
  | .imgConfirm src => Sys2Proof.Machine.execImgConfirm src s
  | .imgRefusals src => Sys2Proof.Machine.execImgRefusals src s
  | .portStatus src => Sys2Proof.Machine.execPortStatus src s
  | .portCounters src => Sys2Proof.Machine.execPortCounters src s
  | .bobStatus src => Sys2Proof.Machine.execBobStatus src s
  | .plyGet src => Sys2Proof.Machine.execPlyGet src s
  | .plyIncr src => Sys2Proof.Machine.execPlyIncr src s
  | .plyStep src => Sys2Proof.Machine.execPlyStep src s
  | .reelGet src => Sys2Proof.Machine.execReelGet src s
  | .tickToPly src => Sys2Proof.Machine.execTickToPly src s
  | .cascStatus src => Sys2Proof.Machine.execCascStatus src s
  | .cascMap src => Sys2Proof.Machine.execCascMap src s
  | .cascRelay src => Sys2Proof.Machine.execCascRelay src s
  | .pnlEvents src => Sys2Proof.Machine.execPnlEvents src s
  | .pnlStatus src => Sys2Proof.Machine.execPnlStatus src s
  | .tagStatus src => Sys2Proof.Machine.execTagStatus src s
  | .tagAuthSet src => Sys2Proof.Machine.execTagAuthSet src s
  | .readerScan src card => Sys2Proof.Machine.execReaderScan src card s
  | .rovHankWrite src data => Sys2Proof.Machine.execRovHankWrite src data s
  | .rovHankReady src => Sys2Proof.Machine.execRovHankReady src s
  | .rovStart src => Sys2Proof.Machine.execRovStart src s
  | .rovStop src => Sys2Proof.Machine.execRovStop src s
  | .rovStatus src => Sys2Proof.Machine.execRovStatus src s
  | .logRead src => Sys2Proof.Machine.execLogRead src s
  | .wearGet src => Sys2Proof.Machine.execWearGet src s
  | .gateGet src => Sys2Proof.Machine.execGateGet src s
  | .leaBoundary k => Sys2Proof.Machine.execLeaBoundary k s
  | .slotStart k => Sys2Proof.Machine.execSlotStart k s
  | .tinNextRead rd => Sys2Proof.Machine.execTinNextRead rd s
  | .slotComplete => Sys2Proof.Machine.execSlotComplete s
  | .overrun => Sys2Proof.Machine.execOverrun s
  | .slotRelease => Sys2Proof.Machine.execSlotRelease s
  | .taskInputEvent n k => Sys2Proof.Machine.execTaskInputEvent n k s
  | .paceUpdate meas => Sys2Proof.Machine.execPaceUpdate meas s
  | .vcoreTrim => Sys2Proof.Machine.execVcoreTrim s
  | .holdClear mask => Sys2Proof.Machine.execHoldClear mask s
  | .whlFlogRead => Sys2Proof.Machine.execWhlFlogRead s
  | .flyBra f => Sys2Proof.Machine.execFlyBra f s
  | .flyAwait f => Sys2Proof.Machine.execFlyAwait f s
  | .flyTake f => Sys2Proof.Machine.execFlyTake f s
  | .flyGive f => Sys2Proof.Machine.execFlyGive f s
  | .flyLoad f => Sys2Proof.Machine.execFlyLoad f s
  | .flyStore f => Sys2Proof.Machine.execFlyStore f s
  | .flyXfer f => Sys2Proof.Machine.execFlyXfer f s
  | .flyPut f => Sys2Proof.Machine.execFlyPut f s
  | .flyHunt f => Sys2Proof.Machine.execFlyHunt f s
  | .flyAt f => Sys2Proof.Machine.execFlyAt f s
  | .flyEvt f => Sys2Proof.Machine.execFlyEvt f s
  | .flyDly f => Sys2Proof.Machine.execFlyDly f s
  | .flyDlyExpiry f => Sys2Proof.Machine.execFlyDlyExpiry f s
  | .flyIllop f => Sys2Proof.Machine.execFlyIllop f s
  | .flyStallEnd f => Sys2Proof.Machine.execFlyStallEnd f s
  | .flyHuntLock f bits => Sys2Proof.Machine.execFlyHuntLock f bits s
  | .flySyncLoss f bits => Sys2Proof.Machine.execFlySyncLoss f bits s
  | .flyActPost f who w1 => Sys2Proof.Machine.execFlyActPost f who w1 s
  | .plyActionFix f => Sys2Proof.Machine.execPlyActionFix f s
  | .timedActionDue f => Sys2Proof.Machine.execTimedActionDue f s
  | .flyIfifoRead f who => Sys2Proof.Machine.execFlyIfifoRead f who s
  | .flyOfifoWrite f who v => Sys2Proof.Machine.execFlyOfifoWrite f who v s
  | .flyCtrlWrite f v => Sys2Proof.Machine.execFlyCtrlWrite f v s
  | .seamHandover => Sys2Proof.Machine.execSeamHandover s
  | .pinEdge b pin rising frac second => Sys2Proof.Machine.execPinEdge b pin rising frac second s
  | .frameRxStart p => Sys2Proof.Machine.execFrameRxStart p s
  | .laneDeal p bytes => Sys2Proof.Machine.execLaneDeal p bytes s
  | .laneDecision l => Sys2Proof.Machine.execLaneDecision l s
  | .frameRxEnd p bytes fcsOk symErr => Sys2Proof.Machine.execFrameRxEnd p bytes fcsOk symErr s
  | .frameAdmission p len => Sys2Proof.Machine.execFrameAdmission p len s
  | .frameEnd f => Sys2Proof.Machine.execFrameEnd f s
  | .cutThroughStart f => Sys2Proof.Machine.execCutThroughStart f s
  | .frameStomp f => Sys2Proof.Machine.execFrameStomp f s
  | .egressFrameStart p => Sys2Proof.Machine.execEgressFrameStart p s
  | .trainLaunch => Sys2Proof.Machine.execTrainLaunch s
  | .whorlBurstReq ring n => Sys2Proof.Machine.execWhorlBurstReq ring n s
  | .whorlEnqueue ring len => Sys2Proof.Machine.execWhorlEnqueue ring len s
  | .gateWrite p v => Sys2Proof.Machine.execGateWrite p v s
  | .linkUp p speed fullDup => Sys2Proof.Machine.execLinkUp p speed fullDup s
  | .linkDown p => Sys2Proof.Machine.execLinkDown p s
  | .anTimeout p => Sys2Proof.Machine.execAnTimeout p s
  | .lpiEntry p => Sys2Proof.Machine.execLpiEntry p s
  | .mdioAccess v => Sys2Proof.Machine.execMdioAccess v s
  | .mdioComplete resp => Sys2Proof.Machine.execMdioComplete resp s
  | .canTxreqWrite n who v => Sys2Proof.Machine.execCanTxreqWrite n who v s
  | .canTxcancel n who v => Sys2Proof.Machine.execCanTxcancel n who v s
  | .canPop n who v => Sys2Proof.Machine.execCanPop n who v s
  | .canTxStart n sofTick loopDelay => Sys2Proof.Machine.execCanTxStart n sofTick loopDelay s
  | .canTxDone n res ec => Sys2Proof.Machine.execCanTxDone n res ec s
  | .canFrameRx n f sofTick res ec => Sys2Proof.Machine.execCanFrameRx n f sofTick res ec s
  | .canBusoffRecovery n => Sys2Proof.Machine.execCanBusoffRecovery n s
  | .canIntegrate n => Sys2Proof.Machine.execCanIntegrate n s
  | .canCtrlApply n => Sys2Proof.Machine.execCanCtrlApply n s
  | .canTimingReload n forced => Sys2Proof.Machine.execCanTimingReload n forced s
  | .canWakeDominant n => Sys2Proof.Machine.execCanWakeDominant n s
  | .canWakeFrame n f => Sys2Proof.Machine.execCanWakeFrame n f s
  | .canWakeFec n errors good => Sys2Proof.Machine.execCanWakeFec n errors good s
  | .plyChangePost k v => Sys2Proof.Machine.execPlyChangePost k v s
  | .plyChangeApply k => Sys2Proof.Machine.execPlyChangeApply k s
  | .plySecloRead k => Sys2Proof.Machine.execPlySecloRead k s
  | .timeSync k y => Sys2Proof.Machine.execTimeSync k y s
  | .timeServiceSend k => Sys2Proof.Machine.execTimeServiceSend k s
  | .holdover k => Sys2Proof.Machine.execHoldover k s
  | .cascadeTimeBlock => Sys2Proof.Machine.execCascadeTimeBlock s
  | .cascadeTimeReceive l b arrival => Sys2Proof.Machine.execCascadeTimeReceive l b arrival s
  | .linkDelayExchange l delayNs => Sys2Proof.Machine.execLinkDelayExchange l delayNs s
  | .skeinLock l atSwift => Sys2Proof.Machine.execSkeinLock l atSwift s
  | .skeinLinkDown l lostFrames => Sys2Proof.Machine.execSkeinLinkDown l lostFrames s
  | .swiftFallback l => Sys2Proof.Machine.execSwiftFallback l s
  | .swiftonlyRetry l => Sys2Proof.Machine.execSwiftonlyRetry l s
  | .skeinRateFollow l toSwift => Sys2Proof.Machine.execSkeinRateFollow l toSwift s
  | .skeinFrameReceive l hdr payload good => Sys2Proof.Machine.execSkeinFrameReceive l hdr payload good s
  | .creditReturn l mgmt tc n => Sys2Proof.Machine.execCreditReturn l mgmt tc n s
  | .sknCredstall l => Sys2Proof.Machine.execSknCredstall l s
  | .beaconSend => Sys2Proof.Machine.execBeaconSend s
  | .beaconReceive l serial => Sys2Proof.Machine.execBeaconReceive l serial s
  | .masterTakeover => Sys2Proof.Machine.execMasterTakeover s
  | .joinReceive l j pos => Sys2Proof.Machine.execJoinReceive l j pos s
  | .assignReceive l a => Sys2Proof.Machine.execAssignReceive l a s
  | .topologyReceive l t => Sys2Proof.Machine.execTopologyReceive l t s
  | .kfaultSwiftCheck l sees10g => Sys2Proof.Machine.execKfaultSwiftCheck l sees10g s
  | .relayRequest l src seq req => Sys2Proof.Machine.execRelayRequest l src seq req s
  | .relayReply l seq rep => Sys2Proof.Machine.execRelayReply l seq rep s
  | .cascadeTimeout seq => Sys2Proof.Machine.execCascadeTimeout seq s
  | .skeinAgeout l => Sys2Proof.Machine.execSkeinAgeout l s
  | .panelRowScan row cols idle btns => Sys2Proof.Machine.execPanelRowScan row cols idle btns s
  | .keyRepeat k => Sys2Proof.Machine.execKeyRepeat k s
  | .keyStuck k => Sys2Proof.Machine.execKeyStuck k s
  | .encoderSample phases => Sys2Proof.Machine.execEncoderSample phases s
  | .pnlQpopRead => Sys2Proof.Machine.execPnlQpopRead s
  | .detunePing amp phase => Sys2Proof.Machine.execDetunePing amp phase s
  | .tagPowerUp => Sys2Proof.Machine.execTagPowerUp s
  | .tagFieldLoss => Sys2Proof.Machine.execTagFieldLoss s
  | .tagSecureExpiry => Sys2Proof.Machine.execTagSecureExpiry s
  | .tagBackoffEnd => Sys2Proof.Machine.execTagBackoffEnd s
  | .tagInventory => Sys2Proof.Machine.execTagInventory s
  | .tagStayQuiet => Sys2Proof.Machine.execTagStayQuiet s
  | .tagSelect uid => Sys2Proof.Machine.execTagSelect uid s
  | .tagResetToReady => Sys2Proof.Machine.execTagResetToReady s
  | .tagGetSystemInformation => Sys2Proof.Machine.execTagGetSystemInformation s
  | .tagReadSingleBlock n => Sys2Proof.Machine.execTagReadSingleBlock n s
  | .tagReadMultipleBlocks n count => Sys2Proof.Machine.execTagReadMultipleBlocks n count s
  | .tagWriteSingleBlock n data => Sys2Proof.Machine.execTagWriteSingleBlock n data s
  | .tagAuthenticate key => Sys2Proof.Machine.execTagAuthenticate key s
  | .securePwd mfr pwd => Sys2Proof.Machine.execSecurePwd mfr pwd s
  | .tagUnknownCommand code => Sys2Proof.Machine.execTagUnknownCommand code s
  | .rovHdataAccess w => Sys2Proof.Machine.execRovHdataAccess w s
  | .rovStartTick => Sys2Proof.Machine.execRovStartTick s
  | .vectorCycle => Sys2Proof.Machine.execVectorCycle s
  | .rovPlay => Sys2Proof.Machine.execRovPlay s
  | .rovJump => Sys2Proof.Machine.execRovJump s
  | .rovLoop => Sys2Proof.Machine.execRovLoop s
  | .rovEndl => Sys2Proof.Machine.execRovEndl s
  | .rovCall => Sys2Proof.Machine.execRovCall s
  | .rovRet => Sys2Proof.Machine.execRovRet s
  | .rovWaitr => Sys2Proof.Machine.execRovWaitr s
  | .rovWaitrExpiry => Sys2Proof.Machine.execRovWaitrExpiry s
  | .rovAstart => Sys2Proof.Machine.execRovAstart s
  | .rovAstop => Sys2Proof.Machine.execRovAstop s
  | .rovEvt => Sys2Proof.Machine.execRovEvt s
  | .rovHalt => Sys2Proof.Machine.execRovHalt s
  | .rovBadop => Sys2Proof.Machine.execRovBadop s
  | .ageoutStart p => Sys2Proof.Machine.execAgeoutStart p s
  | .ageoutDiscard p => Sys2Proof.Machine.execAgeoutDiscard p s
  | .stallRefusalStart b => Sys2Proof.Machine.execStallRefusalStart b s
  | .ledgerUntrusted l => Sys2Proof.Machine.execLedgerUntrusted l s
  | .egressFrameEnd p => Sys2Proof.Machine.execEgressFrameEnd p s
  | .pcieLinkUp => Sys2Proof.Machine.execPcieLinkUp s
  | .unwatchedBankLoss bank => Sys2Proof.Machine.execUnwatchedBankLoss bank s
  | .unwatchedBankReturn bank => Sys2Proof.Machine.execUnwatchedBankReturn bank s
  | .analogStreamEnd c => Sys2Proof.Machine.execAnalogStreamEnd c s

end Sys2Proof.Machine
end

