-- ==== Sys2Proof/Machine/Step.lean ====
section
/-!
DEFINITION. One step: the command at the front of the queue is taken and run with the rest of the queue; with no command
waiting the Reel counts on by 1 ns, or a reset announced is taken (R91, R351, R610; notes/assumptions/3.md).
-/

namespace Sys2Proof.Machine

/-- With no command waiting, 1 ns passes. -/
def idle (s : State) : State := tick s

/-- One step. -/
def step (s : State) : Host.Outcome State Fault Refusal :=
  match s.pending with
  | [] => .next (idle s)
  | c :: rest => exec c { s with pending := rest }

/-- The State with the command that a word spells at the front of its queue; unchanged where it spells none. -/
def State.withFetchWord (s : State) (nbits w : Nat) : State :=
  match decodeTableWord nbits w with
  | none => s
  | some c => { s with pending := c :: s.pending }

end Sys2Proof.Machine
end

