-- ==== Sys2Proof/Safety.lean ====
section
/-!
DEFINITION. What every step keeps: the bounds the spec sets to the records that must never be lost track of, and the
canonical form of the registers. When an instruction of a core runs, and what it
leaves. When the steward serves a request.
-/

namespace Sys2Proof.Machine

/-- The registers stand in their canonical form: addresses rise, and no entry equals the register's reset value. -/
def RegsWf (s : State) : Prop := Tab.wf regRst s.regs = true

/-- The fault recorder holds at most 8 entries (R110). -/
def RecorderOk (s : State) : Prop := s.sys.recorder.length ≤ 8

/-- The whorl's fault log holds at most 16 entries (R398). -/
def FlogOk (s : State) : Prop := s.whl.flog.length ≤ 16

/-- What every step keeps. -/
structure Inv (s : State) : Prop where
  regs : RegsWf s
  recorder : RecorderOk s
  flog : FlogOk s

/-! ### The Distaff -/

/-- What programming pages may change of the Distaff `d`, as it stands in `e`: wear, the segment map, the units that wait. -/
def wornAs (e d : Dst) : Dst :=
  { d with
    wear := e.wear, wearMax := e.wearMax, wearSum := e.wearSum, programs := e.programs, hotPrograms := e.hotPrograms
    segs := e.segs, retired := e.retired, spareLeft := e.spareLeft, waiting := e.waiting }

/-! ### CAN -/

/-- Controller `n` takes part in the traffic of its bus: enabled, and error-active or error-passive (R559, R580). -/
def CanOn (s : State) (n : Nat) : Prop := (s.canOf n).enabled = true ∧ ((s.canOf n).st = .active ∨ (s.canOf n).st = .passive)

/-! ### An instruction of a core -/

/-- The core executes the instruction at its program counter: it runs and does not wait, the fetch is allowed, and an
extension has budget left (R213, R216, R253, R359). -/
def coreReady : Core → State → Prop
  | .steward, s => stwGoes s = true ∧ stwFetch s = none ∧ (s.stw.ext = true → s.stw.xbudget ≠ 0)
  | .whorl, s => ∃ sl, s.whl.slot = some sl ∧ slotRuns sl = true ∧
      segFault false 0 (Tab.get (fun _ => {}) sl.seg 0) sl.pc.toNat 4 .fetch = none

/-- The general registers of the core. -/
def coreG : Core → State → Tab Word
  | .steward, s => s.stw.g
  | .whorl, s => (s.whl.slot.map Slot.g).getD []

/-- The program counter of the core. -/
def corePc : Core → State → Word
  | .steward, s => s.stw.pc
  | .whorl, s => (s.whl.slot.map Slot.pc).getD 0

/-- The general registers are `g`, the program counter is `pc`, and an instruction of an extension counts against its
budget (R253); nothing else changes. -/
def coreAfter : Core → Tab Word → Word → State → State
  | .steward, g, pc, s =>
    { s with stw := { s.stw with g := g, pc := pc, xbudget := if s.stw.ext then s.stw.xbudget - 1 else s.stw.xbudget } }
  | .whorl, g, pc, s => { s with whl := { s.whl with slot := s.whl.slot.map fun sl => { sl with g := g, pc := pc } } }

/-- The same once the instruction's word has been fetched: a single-bit error of it counts in SYS_STWERR (R209). -/
def coreDid : Core → Tab Word → Word → State → State
  | .steward, g, pc, s => coreAfter .steward g pc (stwFetched s)
  | .whorl, g, pc, s => coreAfter .whorl g pc s

/-- The core takes a fault: the steward's entry, or the slot's CONTRACT (R233, R249, R385). -/
def coreFaults : Core → Flt → State → State
  | .steward, f, s => stwFault f (stwFetched s)
  | .whorl, f, s => contract f.cause s

/-- rd takes the value `v`, and the program counter advances by 4. -/
def coreSets (c : Core) (rd : GReg) (v : Word) (s : State) : State := coreDid c (gSet (coreG c s) rd.toNat v) (corePc c s + 4) s

/-! ### A request that the steward serves -/

/-- The steward has taken request `q` of `src`; it has the command's code and all its layout's bytes, an image is loaded or
the recovery responder serves the command, the mode is one of the command's, and no command tail-written before it names the
same transaction (R95, R316, R317, R319). -/
def reqReady (code need : Nat) (modes : Mode → Bool) (src : ReqSrc) (q : Req) (s : State) : Prop :=
  takenOf s src = some q ∧ reqCode q = code ∧ (imageNone s = false ∨ code ∈ recoveryCodes) ∧ need ≤ q.msg.length ∧ modes s.sys.mode = true ∧
  txnAhead s q = false

/-- The steward serves the ready request `q` of `src`; `t` is the state with that request taken off. -/
def Served (code need : Nat) (modes : Mode → Bool) (src : ReqSrc) (q : Req) (s t : State) : Prop :=
  reqReady code need modes src q s ∧ t = dropTaken q s

/-- The transaction that `q` names is `x`: OPEN, not expired. -/
def NamesOpen (s : State) (q : Req) (x : Txn) : Prop := txn? s (par q 8 2) = some x ∧ x.expired = false ∧ x.st = .opened

/-- The commands of Tables 6.7 to 6.9 that no resource makes wait: code, bytes of the request layout, modes. -/
def commandRows (data : Option (List Byte)) : List ((ReqSrc → Instr) × Nat × Nat × (Mode → Bool)) :=
  [(.idGet, 0x0101, 8, anyMode), (.kindleReport, 0x0102, 8, anyMode), (.modeGet, 0x0201, 8, anyMode), (.modeSet, 0x0202, 9, spinOrService),
   (.wakeSet, 0x0204, 24, spinOrService), (.txnOpen, 0x0301, 8, workModes), (.txnStage, 0x0302, 12, workModes),
   (fun r => .txnStageDma r data, 0x0303, 24, workModes), (.txnCommit, 0x0304, 24, spinOrService), (.txnAbort, 0x0305, 10, workModes),
   (.txnStatus, 0x0306, 12, anyMode), (.confGet, 0x0307, 18, anyMode), (.imgStatus, 0x0401, 8, anyMode), (.imgBegin, 0x0402, 12, serviceOnly),
   (.imgWrite, 0x0403, 13, serviceOnly), (fun r => .imgWriteDma r data, 0x0404, 24, serviceOnly)] ++
  [(.imgConfirm, 0x0406, 8, workModes), (.imgRefusals, 0x0407, 8, anyMode), (.portStatus, 0x0501, 10, anyMode),
   (.portCounters, 0x0502, 10, anyMode), (.bobStatus, 0x0503, 10, anyMode), (.plyGet, 0x0601, 9, anyMode), (.plyIncr, 0x0602, 24, anyMode),
   (.plyStep, 0x0603, 40, anyMode), (.reelGet, 0x0604, 8, anyMode), (.tickToPly, 0x0605, 24, anyMode), (.cascStatus, 0x0701, 8, anyMode),
   (.cascMap, 0x0702, 10, anyMode), (.pnlEvents, 0x0801, 9, anyMode), (.pnlStatus, 0x0802, 8, anyMode), (.tagStatus, 0x0901, 8, anyMode)] ++
  [(.tagAuthSet, 0x0902, 28, serviceOnly), (fun r => .readerScan r data, 0x0903, 10, spinOrService),
   (fun r => .rovHankWrite r data, 0x0A01, 32, anyMode), (.rovHankReady, 0x0A02, 12, anyMode), (.rovStart, 0x0A03, 24, spinOrService),
   (.rovStop, 0x0A04, 8, anyMode), (.rovStatus, 0x0A05, 8, anyMode), (.logRead, 0x0B01, 12, anyMode), (.wearGet, 0x0B02, 8, anyMode),
   (.gateGet, 0x0B03, 8, anyMode)]

end Sys2Proof.Machine
end

