-- ==== Sys2Proof/WellFormed.lean ====
section
/-!
DEFINITION. Which terms of Instr are commands that can be given: the operands lie where the spec lets them. A meaning is
total, so a term that is not well formed still has one; it is the sender's error.
-/

namespace Sys2Proof

/-- A register access of `n` bytes lies in its space: a word of a block window (Table 0.6), bytes of BAR0 (R275), words of
BAR2 (R297) or of the configuration space. -/
def addrOk (sp : Space) (a n : Nat) : Bool :=
  decide (1 ≤ n) && match sp with
    | .block => decide (a % 4 = 0 ∧ n = 4 ∧ 0x40000000 ≤ a ∧ a < 0x400F0000)
    | .bar0 => decide (a + n ≤ 0x4000)
    | .bar2 => decide (a % 4 = 0 ∧ n % 4 = 0 ∧ a + n ≤ 0x4000000)
    | .config => decide (a % 4 = 0 ∧ n = 4 ∧ a < 0x1000)

/-- A CAN frame carries as many bytes as its DLC says, a remote frame none (Table 11.2). -/
def frameOk (f : CanFrame) : Bool := 
  decide (f.data.length = if f.idw.getLsbD 30 then 0 else Machine.dlcLen (f.ctlw.getLsbD 31) (Machine.dlcOf f.ctlw))

/-- The registers of a ring that keep their values while it runs (R298): RING_CTRL, RING_BOB, RING_WBLO, RING_WBHI. -/
def ringOff (o : Nat) : Bool := [0, 4, 0x18, 0x1C].contains o

/-- Whether a command's operands lie where the spec lets them. -/
def Instr.wellFormed : Instr → Bool
  | .registerWrite sp addr data => addrOk sp addr data.bytes.length
  | .rcFieldRead sp span _ => addrOk sp span.addr span.size
  | .latchedPairRead sp span => addrOk sp span.addr span.size
  | .kindleLate step _ => decide (1 ≤ step.val)
  | .bfx _ _ _ pos wm1 _ => decide (pos.toNat + wm1.toNat + 1 ≤ 32)
  | .bfi _ _ _ pos wm1 => decide (pos.toNat + wm1.toNat + 1 ≤ 32)
  | .perm _ _ _ sel => !Machine.permBad sel
  | .segld _ r _ _ _ => decide (r.toNat < 16)
  | .segst _ r _ _ _ => decide (r.toNat < 16)
  | .illegalInstruction _ w => !Machine.yukinLegal w
  | .extensionInvoke idx record => decide (idx < 256) && decide (record.length ≤ 256)
  | .spiWriteFrame off _ => decide (off < 16384)
  | .spiReadFrame off len => decide (off < 16384) && decide (1 ≤ len)
  | .ringCtrlWrite _ off _ => ringOff off
  | .txRingOffer _ bytes => decide (1 ≤ bytes.length ∧ bytes.length ≤ 9212)
  | .taskInputEvent _ k => decide (1 ≤ k)
  | .paceUpdate meas => decide (meas.length ≤ 16)
  | .whorlBurstReq _ n => decide (1 ≤ n)
  | .canFrameRx _ f .. =>
    frameOk f.frame && decide (f.before1.data.length = f.frame.data.length ∧ f.before2.data.length = f.frame.data.length)
  | .canWakeFrame _ f => frameOk f
  | .skeinFrameReceive _ hdr _ _ => decide (hdr.length = 16)
  | .creditReturn _ _ _ n => decide (1 ≤ n)
  | .joinReceive _ jn _ => decide (jn.mode.toNat ≤ 5)
  | .topologyReceive _ t => t.members.all fun m => decide (m.mode.toNat ≤ 5)
  | .relayRequest _ _ _ req => decide (req.length ≤ 240)
  | .tagReadMultipleBlocks _ count => decide (1 ≤ count.val)
  | .tagWriteSingleBlock _ data => decide (data.length = 32)
  | .validSupply | .coldReset .. | .railPgMismatch .. | .skeinBypassClose | .holdupTakeover | .distaffDomainStop | .pcieLinkUp
  | .holdupCharged | .holdupSlow .. | .holdupLeak .. | .capMeasure .. | .ledgerRecalibration .. | .pwrVidWrite ..
  | .vidStep | .bypeDriveSet .. | .bypeDriveClear .. | .bypeSettleDone .. | .pwrsenseWarn | .pwrsenseRecover
  | .braceRecovered .. | .resetNLow | .resetNRise | .warmOffTimeEnd | .kindleStart .. | .crystalReady ..
  | .crystalTimeout .. | .xtalLate | .railReady .. | .railTimeout | .railRetry | .pllLock .. | .pllLockTimeout
  | .journalReplay .. | .imageAuthentication .. | .scheduleLoad .. | .step7End .. | .drowseEntry | .wakeSourceFire ..
  | .wakeHoldEnd | .gatedUnitStart .. | .commitUnitEnd .. | .checkpointChunkEnd .. | .gateClosed .. | .bootCopyWriteEnd
  | .logCopyEnd | .nameplateUpdateEnd | .imageChunkEnd | .migrationEnd .. | .scrubPassStart | .scrubPageRead ..
  | .scrubRewriteEnd | .addR .. | .subR .. | .andR .. | .orR .. | .xorR .. | .sll .. | .srl .. | .sra .. | .slt ..
  | .sltu .. | .mul .. | .mulh .. | .mulhu .. | .divR .. | .divu .. | .remR .. | .remu .. | .clz .. | .slli ..
  | .srli .. | .srai .. | .addi .. | .andi .. | .ori .. | .xori .. | .slti .. | .sltiu .. | .lui .. | .lb .. | .lbu ..
  | .lh .. | .lhu .. | .lw .. | .sb .. | .sh .. | .sw .. | .beq .. | .bne .. | .blt .. | .bge .. | .bltu .. | .bgeu ..
  | .j .. | .jal .. | .jalr .. | .bmove .. | .bfill .. | .crc32 .. | .sync .. | .svc .. | .eret .. | .mfc .. | .mtc ..
  | .waitI .. | .brk .. | .interruptEntry | .waitResume | .storeBufferDrain | .stewardTimer | .extExit | .extLog
  | .extReel | .extPly | .extPost | .mailboxTailWrite .. | .mailboxTailRead .. | .stewardCommandTake ..
  | .stewardReplyWrite .. | .doorbellClear .. | .dbMaskWrite .. | .hostResetWrite .. | .heartbeat | .spiStatusFrame
  | .spiBadFrame | .perstAssert | .ringTailWrite .. | .rxBurstStart .. | .dmaBurstComplete .. | .dmaReadFault ..
  | .unknownCmd .. | .idGet .. | .kindleReport .. | .modeGet .. | .modeSet .. | .resetWarm .. | .wakeSet ..
  | .txnOpen .. | .txnStage .. | .txnStageDma .. | .txnCommit .. | .txnAbort .. | .txnStatus .. | .confGet ..
  | .txnExpired .. | .commitEpoch .. | .commitReply .. | .imgStatus .. | .imgBegin .. | .imgWrite .. | .imgWriteDma ..
  | .imgEnd .. | .imgConfirm .. | .imgRefusals .. | .portStatus .. | .portCounters .. | .bobStatus .. | .plyGet ..
  | .plyIncr .. | .plyStep .. | .reelGet .. | .tickToPly .. | .cascStatus .. | .cascMap .. | .cascRelay ..
  | .pnlEvents .. | .pnlStatus .. | .tagStatus .. | .tagAuthSet .. | .readerScan .. | .rovHankWrite ..
  | .rovHankReady .. | .rovStart .. | .rovStop .. | .rovStatus .. | .logRead .. | .wearGet .. | .gateGet ..
  | .leaBoundary .. | .slotStart .. | .tinNextRead .. | .slotComplete | .overrun | .slotRelease | .vcoreTrim
  | .holdClear .. | .whlFlogRead | .flyBra .. | .flyAwait .. | .flyTake .. | .flyGive .. | .flyLoad .. | .flyStore ..
  | .flyXfer .. | .flyPut .. | .flyHunt .. | .flyAt .. | .flyEvt .. | .flyDly .. | .flyDlyExpiry .. | .flyIllop ..
  | .flyStallEnd .. | .flyHuntLock .. | .flySyncLoss .. | .flyActPost .. | .plyActionFix .. | .timedActionDue ..
  | .flyIfifoRead .. | .flyOfifoWrite .. | .flyCtrlWrite .. | .seamHandover | .pinEdge .. | .frameRxStart ..
  | .laneDeal .. | .laneDecision .. | .frameRxEnd .. | .frameAdmission .. | .frameEnd .. | .cutThroughStart ..
  | .frameStomp .. | .egressFrameStart .. | .trainLaunch | .whorlEnqueue .. | .gateWrite .. | .linkUp .. | .linkDown ..
  | .anTimeout .. | .lpiEntry .. | .mdioAccess .. | .mdioComplete .. | .canTxreqWrite .. | .canTxcancel .. | .canPop ..
  | .canTxStart .. | .canTxDone .. | .canBusoffRecovery .. | .canIntegrate .. | .canCtrlApply .. | .canTimingReload ..
  | .canWakeDominant .. | .canWakeFec .. | .plyChangePost .. | .plyChangeApply .. | .plySecloRead .. | .timeSync ..
  | .timeServiceSend .. | .holdover .. | .cascadeTimeBlock | .cascadeTimeReceive .. | .linkDelayExchange ..
  | .skeinLock .. | .skeinLinkDown .. | .swiftFallback .. | .swiftonlyRetry .. | .skeinRateFollow .. | .sknCredstall ..
  | .beaconSend | .beaconReceive .. | .masterTakeover | .assignReceive .. | .kfaultSwiftCheck .. | .relayReply ..
  | .cascadeTimeout .. | .skeinAgeout .. | .panelRowScan .. | .keyRepeat .. | .keyStuck .. | .encoderSample ..
  | .pnlQpopRead | .detunePing .. | .tagPowerUp | .tagFieldLoss | .tagSecureExpiry | .tagBackoffEnd | .tagInventory
  | .tagStayQuiet | .tagSelect .. | .tagResetToReady | .tagGetSystemInformation | .tagReadSingleBlock ..
  | .tagAuthenticate .. | .securePwd .. | .tagUnknownCommand .. | .rovHdataAccess .. | .rovStartTick | .vectorCycle
  | .rovPlay | .rovJump | .rovLoop | .rovEndl | .rovCall | .rovRet | .rovWaitr | .rovWaitrExpiry | .rovAstart
  | .rovAstop | .rovEvt | .rovHalt | .rovBadop | .ageoutStart .. | .ageoutDiscard .. | .stallRefusalStart ..
  | .ledgerUntrusted .. | .egressFrameEnd .. | .unwatchedBankLoss .. | .unwatchedBankReturn ..
  | .analogStreamEnd .. => true

end Sys2Proof
end

