-- ==== Sys2Proof/Certificates/Slice0/Obligations.lean ====
section
/-!
DEFINITION. The statements for the provers. A clause about a command has as its conclusion the state in which `exec`
answers, for every state and operands that meet its premises; a field of the State that the record on the right does not
name is unchanged, which is the command's frame.
-/

open Sys2Proof Sys2Proof.Machine

/-! ### The step -/

/-- A step takes the command at the front of the queue and runs it with the rest of the queue (the model's own queue). -/
def Obligations.StepRunsFrontCommand : Prop :=
  ∀ (c : Instr) (rest : List Instr) (s : State), s.pending = c :: rest → step s = exec c { s with pending := rest }

/-- An idle step: 1 ns passes on a running Reel, or on its continuation; an announced reset is taken; nothing else changes
(DESIGN CHOICE, notes/assumptions/3.md). -/
def Obligations.IdleStepCountsTheReel : Prop :=
  (∀ s : State, s.pending = [] → s.sys.resetDue = false → s.ply.running = true →
    step s = .next { s with ply := { s.ply with reel := s.ply.reel + 1 } }) ∧
  (∀ s : State, s.pending = [] → s.sys.resetDue = false → s.ply.running = false → s.ply.cont = false → step s = .next s) ∧
  (∀ s : State, s.pending = [] → s.sys.resetDue = false → s.ply.running = false → s.ply.cont = true →
    step s = .next { s with ply := if s.ply.sub + 1 < 40 then { s.ply with sub := s.ply.sub + 1 }
      else { s.ply with sub := 0, reel := s.ply.reel + 40 } }) ∧
  (∀ s : State, s.pending = [] → s.sys.resetDue = true → ∃ t, step s = .next t ∧ t.pending = [] ∧ t.sys.mode = .kindle ∧
    t.sys.kstep = 1 ∧ t.sys.offTime = true ∧ t.sys.resetDue = false ∧ t.pwr.regEn = 0)

/-- No command faults or is refused, and none touches the queue. -/
def Obligations.EveryCommandAnswersAndKeepsTheQueue : Prop :=
  ∀ (c : Instr) (s : State), ∃ t, exec c s = .next t ∧ t.pending = s.pending

/-- Every queue drains: no command blocks those behind it. -/
def Obligations.EveryQueueDrains : Prop :=
  ∀ s : State, ∃ t : State, Sys2Proof.core.run s.pending.length s = .next t ∧ t.pending = []

/-- The invariant is kept by every step, from every state that meets it. -/
def Obligations.EveryStepKeepsTheInvariant : Prop :=
  ∀ s t : State, Inv s → step s = .next t → Inv t

/-- The invariant holds at reset. -/
def Obligations.ResetMeetsTheInvariant : Prop := Inv State.reset

/-! ### Registers and memories -/

/-- Read after write, of registers and of byte memories. -/
def Obligations.WrittenValuesReadBack : Prop :=
  (∀ (t : Tab Word) (a b : Nat) (v : Word), Tab.wf regRst t = true →
    Tab.wf regRst (setReg t a v) = true ∧ Tab.get regRst (setReg t a v) b = if b = a then v else Tab.get regRst t b) ∧
  (∀ (m : Mem) (a b : Nat) (v : Byte), m.wf = true →
    (m.setByte a v).wf = true ∧ (m.setByte a v).byte b = if b = a then v else m.byte b) ∧
  (∀ (m : Mem) (a b : Nat) (vs : List Byte), m.wf = true →
    (m.write a vs).wf = true ∧ (m.write a vs).byte b = if a ≤ b ∧ b < a + vs.length then vs.getD (b - a) 0 else m.byte b)

/-- Table 0.2: what a write and a read do to a field of each access code (R8, R10). -/
def Obligations.FieldsFollowTheirAccessCodes : Prop :=
  ∀ (f : Fld) (old v : Word), 0 < f.w → f.lo + f.w ≤ 32 →
    (∀ i, (i < f.lo ∨ f.lo + f.w ≤ i) → bitOf (writeFields [f] old v) i = bitOf old i) ∧
    (f.acc = .rw ∨ f.acc = .wo → f.lim = none → ∀ i < f.w, bitOf (writeFields [f] old v) (f.lo + i) = bitOf v (f.lo + i)) ∧
    (f.acc = .w1c → ∀ i < f.w, bitOf (writeFields [f] old v) (f.lo + i) = (bitOf old (f.lo + i) && !bitOf v (f.lo + i))) ∧
    (f.acc = .w1s → ∀ i < f.w, bitOf (writeFields [f] old v) (f.lo + i) = (bitOf old (f.lo + i) || bitOf v (f.lo + i))) ∧
    (f.acc = .rc → writeFields [f] old v = old) ∧
    (f.acc = .wo → ∀ i < f.w, bitOf (readFields [f] old) (f.lo + i) = false) ∧
    (f.acc ≠ .wo → readFields [f] old = old) ∧
    (f.acc = .rc → bitsOf (readClears [f] old false) f.lo f.w = 0 ∧ bitsOf (readClears [f] old true) f.lo f.w = 1)

/-- REGISTER_WRITE, RC_FIELD_READ, LATCHED_PAIR_READ (R8, R9, R10, R14, R196, R275). -/
def Obligations.RegisterAccessCommands : Prop :=
  (∀ (s : State) (a : Nat) (v : Word), stewardRuns s = true → a / 65536 ∈ [0x4000, 0x4001, 0x4004, 0x4006] → a % 4 = 0 →
    exec (.registerWrite .block a ⟨leBytes 4 v.toNat, 0⟩) s = .next { s with regs := setReg s.regs a (writeFields (fieldsAt a) (s.rd a) v) }) ∧
  (∀ (s : State) (a : Nat) (bs : List Byte), stewardRuns s = true → RegsWf s → a / 65536 ∈ [0x4000, 0x4001, 0x4004, 0x4006] → a % 4 = 0 →
    fieldsAt a = [] → exec (.registerWrite .block a ⟨bs, 0⟩) s = .next s) ∧
  (∀ (s : State) (a : Nat) (bs : List Byte) (n : BitVec 64), stewardRuns s = true → a % 4 = 0 → RegsWf s → ∃ t,
    exec (.registerWrite .block a ⟨bs, n⟩) s = .next t ∧ t.rd a &&& (setWord n 0 &&& w1cMask a) = setWord n 0 &&& w1cMask a) ∧
  (∀ (s : State) (v : Word), stewardRuns s = true →
    exec (.registerWrite .block 0x400E0008 ⟨leBytes 4 v.toNat, 0⟩) s = exec (.pwrVidWrite v) s) ∧
  (∀ (s : State) (a : Nat) (bs : List Byte) (n : BitVec 64), stewardRuns s = false → exec (.registerWrite .block a ⟨bs, n⟩) s = .next s) ∧
  (∀ (s : State) (v : Word), hostServes s = true → exec (.registerWrite .bar0 0x48 ⟨leBytes 4 v.toNat, 0⟩) s = exec (.hostResetWrite v) s) ∧
  (∀ (s : State) (a : Nat) (bs : List Byte) (n : BitVec 64), hostServes s = true → bar0Plain a bs.length = false → bar0Burst a bs.length = false →
    exec (.registerWrite .bar0 a ⟨bs, n⟩) s = .next s) ∧
  (∀ (s : State) (v : Word), pcieServes s = true →
    exec (.registerWrite .bar2 0x1000 ⟨leBytes 4 v.toNat, 0⟩) s = .next { s with hl := { s.hl with desc := s.hl.desc.write 0x1000 (leBytes 4 v.toNat) } }) ∧
  (∀ (s : State) (a : Nat) (e : Bool), stewardRuns s = true → a / 65536 ∈ [0x4000, 0x4001, 0x4002, 0x4004, 0x4006, 0x4009] → a % 4 = 0 →
    a ∉ pairLows → a ≠ 0x40020020 → exec (.rcFieldRead .block ⟨a, 4⟩ e) s = .next { s with
      rdata := plainValue s a
      regs := setReg s.regs a (readClears (fieldsAt a) (s.rd a) e) }) ∧
  (∀ (s : State) (e : Bool), stewardRuns s = true → exec (.rcFieldRead .block ⟨0x40020020, 4⟩ e) s = exec .whlFlogRead s) ∧
  (∀ (s : State) (e : Bool), stewardRuns s = true → exec (.rcFieldRead .block ⟨0x400A0054, 4⟩ e) s = exec .pnlQpopRead s) ∧
  (∀ (s : State) (e : Bool), stewardRuns s = true →
    exec (.rcFieldRead .block ⟨0x400A0050, 4⟩ e) s = .next { s with
      rdata := plainValue s 0x400A0050, pnl := { s.pnl with lost := if e then 1 else 0 } }) ∧
  (∀ (s : State) (a : Nat) (e : Bool), hostServes s = true → bar0Plain a 4 = true → bar0Tail a = none →
    exec (.rcFieldRead .bar0 ⟨a, 4⟩ e) s = .next { s with rdata := bar0Value s a, rdataHi := 0 }) ∧
  (∀ (s : State) (a n : Nat) (e : Bool), hostServes s = true → bar0Plain a n = false →
    exec (.rcFieldRead .bar0 ⟨a, n⟩ e) s = .next { s with rdata := 0, rdataHi := 0 }) ∧
  (∀ (s : State) (a : Nat) (e : Bool), pcieServes s = true →
    exec (.rcFieldRead .bar2 ⟨a, 4⟩ e) s = .next { s with rdata := plainValue s (0x200000000 + a / 4 * 4 % 0x4000000), rdataHi := 0 }) ∧
  (∀ (s : State) (a : Nat), stewardRuns s = true → a ∈ pairLows →
    exec (.latchedPairRead .block ⟨a, 4⟩) s = .next { s with
      rdata := plainValue s a, latch := Tab.set (fun _ => none) s.latch (a + 4) (some (roBits s (a + 4))) }) ∧
  (∀ (s : State) (a : Nat) (v : Word) (e : Bool), stewardRuns s = true → a ∈ pairLows → latched s (a + 4) = some v →
    ∃ t, exec (.rcFieldRead .block ⟨a + 4, 4⟩ e) s = .next t ∧ t.rdata = v ∧ t = { s with rdata := v, regs := t.regs }) ∧
  (∀ (s : State) (a : Nat), hostServes s = true → bar0Plain a 4 = true → bar0Tail a = none →
    exec (.latchedPairRead .bar0 ⟨a, 4⟩) s = .next { s with rdata := bar0Value s a, rdataHi := 0 }) ∧
  (∀ (s : State) (a : Nat), pcieServes s = true →
    exec (.latchedPairRead .bar2 ⟨a, 4⟩) s = .next { s with rdata := plainValue s (0x200000000 + a / 4 * 4 % 0x4000000), rdataHi := 0 })

/-! ### Supplies, resets, modes, kindle steps 1 to 3 (chapters 01 and 02) -/

/-- Supply commands (R24, R30, R62, R76, R115, R780, R782). The line that PWRSENSE_RECOVER raises in Brace is DEDUCED. -/
def Obligations.SupplyCommands : Prop :=
  (∀ s : State, s.sys.due.isSome = true → s.sys.timeZero = false →
    exec .validSupply s = .next { s with
      sys := if s.sys.resetNLow || s.sys.offTime then s.sys else { s.sys with mode := .kindle, kstep := 1, timeZero := true }
      pwr := { s.pwr with
        railOk := s.pwr.railOk ||| 0x40, banks := 0x1FFF, senseWarn := false, distaffUp := true, hucAct := false
        leakLogged := s.pwr.leakLogged && !(bitOf (s.rd 0x400E0010) 8 && s.sys.mode != .brace) } }) ∧
  (∀ (s : State) (v : Word), s.pwr.regEn.getLsbD 0 = true →
    exec (.pwrVidWrite v) s = .next { s with regs := setReg s.regs 0x400E0008 (putField (s.rd 0x400E0008) 0 6 (min 56 (bitsOf v 0 6))) }) ∧
  (∀ (s : State) (v : Word), RegsWf s → s.pwr.regEn.getLsbD 0 = false →
    exec (.pwrVidWrite v) s = .next { s with
      regs := setReg s.regs 0x400E0008 (putField (s.rd 0x400E0008) 0 6 (min 56 (bitsOf v 0 6)))
      pwr := { s.pwr with vidOut := min 56 (bitsOf v 0 6) } }) ∧
  (∀ s : State, s.pwr.regEn.getLsbD 0 = true →
    exec .vidStep s = .next { s with pwr := { s.pwr with vidOut := (
      if s.pwr.vidOut < s.fld 0x400E0008 0 6 then s.pwr.vidOut + 1
      else if s.fld 0x400E0008 0 6 < s.pwr.vidOut then s.pwr.vidOut - 1 else s.pwr.vidOut) } }) ∧
  (∀ (s : State) (n : Fin 4), bitOf (s.rd 0x400E000C) n = true → exec (.bypeDriveSet n) s = .next s) ∧
  (∀ (s : State) (n : Fin 4), bitOf (s.rd 0x400E000C) n = false → (s.eport n).enabled = false →
    exec (.bypeDriveSet n) s = .next { s with regs := setReg s.regs 0x400E000C (putField (s.rd 0x400E000C) n 1 1) }) ∧
  (∀ (s : State) (n : Fin 4), bitOf (s.rd 0x400E000C) n = false → (s.eport n).enabled = true →
    ∃ t u, exec (.bypeDriveSet n) s = .next t ∧ u = ethPhyOff n (s.setFld 0x400E000C n 1 1) ∧
      t = { u with pwr := { u.pwr with
        bypeLow := u.pwr.bypeLow ||| BitVec.ofNat 4 (2 ^ n.val), settling := u.pwr.settling ||| BitVec.ofNat 4 (2 ^ n.val) } }) ∧
  (∀ (s : State) (n : Fin 4), bitOf (s.rd 0x400E000C) n = true → (s.eport n).enabled = false → s.pwr.settling.getLsbD n = false →
    exec (.bypeDriveClear n) s = .next { s with regs := setReg s.regs 0x400E000C (putField (s.rd 0x400E000C) n 1 0) }) ∧
  (∀ (s : State) (n : Fin 4), bitOf (s.rd 0x400E000C) n = true → (s.eport n).enabled = true ∨ s.pwr.settling.getLsbD n = true →
    ∃ t u, exec (.bypeDriveClear n) s = .next t ∧ u = ethPhyOff n (s.setFld 0x400E000C n 1 0) ∧
      t = ethPhyOn n { u with pwr := { u.pwr with
        bypeLow := u.pwr.bypeLow &&& ~~~ BitVec.ofNat 4 (2 ^ n.val), settling := u.pwr.settling &&& ~~~ BitVec.ofNat 4 (2 ^ n.val) } }) ∧
  (∀ (s : State) (n : Fin 4), s.pwr.settling.getLsbD n = true → (s.conf 0x0203 n).num 0 1 ≠ 0 → s.sys.limp = false →
    exec (.bypeSettleDone n) s = .next (({ s with pwr := { s.pwr with settling := s.pwr.settling &&& ~~~ BitVec.ofNat 4 (2 ^ n.val) } } : State).setEport n
      fun e => { e with enabled := true, inTrans := true, mode := (s.conf 0x0203 n).num 0 1, speed := (s.conf 0x0204 n).num 0 1, changed := s.ply.reel })) ∧
  (∀ s : State, exec .pwrsenseRecover s = .next (if s.sys.mode = .brace then { s with
      pwr := { s.pwr with senseWarn := false }, sys := { s.sys with window := true }, stw := { s.stw with ipend := s.stw.ipend ||| 1 } }
    else { s with pwr := { s.pwr with senseWarn := false } }))

/-- Resets and Brace (R12, R54, R73, R74, R84, R85, R112, R115, R129, R136, R782). -/
def Obligations.ResetAndBraceCommands : Prop :=
  (∀ (s : State) (rails : BitVec 8) (banks : BitVec 13) (byPg : Bool), RegsWf s → watched s rails banks byPg ≠ 0 →
    ∃ t, exec (.coldReset ⟨rails, banks⟩ byPg) s = .next t ∧ t.sys.mode = .dark ∧ t.sys.due = some .cold ∧ t.sys.recorder = [] ∧
      t.pwr.regEn = 0 ∧ t.pwr.ready = 0 ∧ t.pwr.bypeLow = 0 ∧ t.pwr.senseWarn = true ∧ t.pwr.banks = s.pwr.banks &&& ~~~ banks ∧
      (∀ a, t.rd a = resetFields .cold (fieldsAt a) (s.rd a)) ∧ t.dst.waiting = [] ∧ t.dst.running = s.dst.running ∧
      t.dst.ring = s.dst.ring ∧ t.dst.log = s.dst.log ∧ t.dst.imgA = s.dst.imgA ∧ t.dst.imgB = s.dst.imgB ∧
      t.dst.nameplate = s.dst.nameplate ∧ t.dst.copy1 = s.dst.copy1 ∧ t.dst.copy2 = s.dst.copy2 ∧
      t.pending = s.pending ∧ t.rdata = s.rdata ∧ t.free = s.free ∧ t.tag.field = s.tag.field) ∧
  (∀ (s : State) (r : Fin 4), (s.pwr.ready &&& ~~~ s.pwr.pgTied).getLsbD r = true → s.sys.mode ≠ .dark →
    ∃ t, exec (.railPgMismatch r) s = .next t ∧ t.sys.mode = .dark ∧ t.sys.due = some .cold ∧
      t.sys.latch = some ⟨0x11 ||| (if s.sys.resetNLow then 2 else 0) ||| (if s.sys.mode = .brace then 0x20 else 0), r,
        if s.sys.mode = .kindle then s.sys.kstep else 0⟩ ∧ t.pwr.regEn = 0 ∧ t.dst.ring = s.dst.ring ∧
      t.dst.nameplate = s.dst.nameplate ∧ t.pending = s.pending ∧ t.rdata = s.rdata ∧ t.free = s.free) ∧
  (∀ s : State, RegsWf s → s.sys.resetNLow = false →
    ∃ t, exec .resetNLow s = .next t ∧ t.sys.mode = .dark ∧ t.sys.resetNLow = true ∧ t.pwr.regEn = 0 ∧
      t.sys.recorder = s.sys.recorder ∧ t.sys.lost = s.sys.lost ∧ (s.sys.due ≠ some .cold → t.sys.due = some .pin) ∧
      (∀ a, t.rd a = resetFields .warm (fieldsAt a) (s.rd a)) ∧ t.dst.ring = s.dst.ring ∧ t.dst.log = s.dst.log ∧
      t.dst.nameplate = s.dst.nameplate ∧ t.pending = s.pending ∧ t.rdata = s.rdata ∧ t.free = s.free) ∧
  (∀ s : State, s.sys.due.isSome = true → s.sys.timeZero = false → s.sys.offTime = false → exec .resetNRise s = .next { s with
    sys := if supplyValid s then { s.sys with resetNLow := false, mode := .kindle, kstep := 1, timeZero := true } else { s.sys with resetNLow := false } }) ∧
  (∀ s : State, s.sys.offTime = true → s.sys.due.isSome = true → s.sys.timeZero = false → s.sys.resetNLow = false →
    exec .warmOffTimeEnd s = .next { s with
      sys := if supplyValid s then { s.sys with offTime := false, mode := .kindle, kstep := 1, timeZero := true } else { s.sys with offTime := false } }) ∧
  (∀ s : State, s.sys.mode = .spin ∨ s.sys.mode = .service → (∀ x, s.sys.entering = true → s.sys.drowseReq = some x → s.ply.reel.toNat ≤ x.2.2.toNat + 5000) →
    (s.sys.entering = true → s.sys.drowseReq.isSome = true) →
    ∃ t, exec .pwrsenseWarn s = .next t ∧ t.sys.mode = .brace ∧ t.sys.retMode = s.sys.mode ∧ t.sys.entering = false ∧
      t.sys.braceEntries = min 0xFFFF (s.sys.braceEntries + 1) ∧ t.pwr.senseWarn = true ∧ t.stw.ipend.getLsbD 0 = true ∧
      t.pending = s.pending) ∧
  (∀ s : State, s.sys.mode = .brace → exec .pwrsenseWarn s = .next { s with
    pwr := { s.pwr with senseWarn := true }, sys := { s.sys with window := false } }) ∧
  (∀ s : State, s.sys.mode = .dark ∨ s.sys.mode = .kindle ∨ s.sys.mode = .drowse ∨ ((s.sys.mode = .spin ∨ s.sys.mode = .service) ∧
      s.sys.entering = true ∧ ∀ x, s.sys.drowseReq = some x → x.2.2.toNat + 5000 < s.ply.reel.toNat) →
    exec .pwrsenseWarn s = .next { s with pwr := { s.pwr with senseWarn := true } }) ∧
  (∀ (s : State) (us : Nat), s.sys.mode = .brace → s.sys.window = true → s.pwr.senseWarn = false →
    ∃ t, exec (.braceRecovered us) s = .next t ∧ t.sys.mode = s.sys.retMode ∧ t.sys.window = false ∧ t.fly.wait = false ∧
      t.sys.braceRecovered = min 0xFFFF (s.sys.braceRecovered + 1) ∧ t.stw.ipend.getLsbD 0 = true ∧
      (s.fly.wait = false → t = { s with sys := t.sys, stw := t.stw, whl := t.whl, pwr := { s.pwr with leakLogged := t.pwr.leakLogged } })) ∧
  (∀ s : State, exec .skeinBypassClose s = .next ((s.setLink 1 fun k => { k with
      pathClosed := true, locked := false, st := .monitoring, kfOpen := false, fellBack := false, cred := [], mcred := [] }).setLink 0 fun k => { k with
      pathClosed := true, locked := false, st := .monitoring, kfOpen := false, fellBack := false, cred := [], mcred := [] }))

/-- Kindle steps 1 and 2 (R25, R43, R89, R102, R103, R105, R125, R132, R134, R136, R140, R174, R782). -/
def Obligations.KindleStepCommands : Prop :=
  (∀ (s : State) (st : Straps) (us : Nat) (pg : Bool) (c : KCause), s.sys.due = some c → c ≠ .wake → s.sys.mode = .kindle →
    s.sys.timeZero = true → s.sys.kstep = 1 →
    ∃ t, exec (.kindleStart st us pg) s = .next t ∧ t.sys.kstep = 2 ∧ t.sys.straps = st ∧ t.sys.due = none ∧
      t.sys.latch = none ∧ t.sys.kcause = c ∧ t.sys.ktime = Tab.set (fun _ => 0) [] 0 us ∧ t.sys.kindles = kindlesOf s.dst ∧
      (us ≤ 2000 → t.sys.krec = {}) ∧ t.regs = setReg s.regs 0x40000024 ((if c = .cold then 0 else s.rd 0x40000024) |||
        ((s.sys.latch.map ResetLatch.mask).getD (if c = .cold then 1 else if c = .pin then 2 else 4)).setWidth 32) ∧
      t = { s with sys := t.sys, regs := t.regs, pwr := { s.pwr with eVolt := 0, confApplied := false } }) ∧
  (∀ (s : State) (st : Straps) (us : Nat) (pg : Bool), s.sys.due = some .wake → s.sys.mode = .kindle → s.sys.timeZero = true →
    s.sys.kstep = 1 → s.sys.wakeLimp = false → ∃ t, exec (.kindleStart st us pg) s = .next t ∧ t.sys.kstep = 2 ∧
      t.sys.straps = s.sys.straps ∧ t.sys.due = none ∧ t.sys.krec = { wake := true } ∧ t.sys.recorder = s.sys.recorder ∧
      t.pwr = { s.pwr with eVolt := 0, confApplied := false } ∧ t.dst = s.dst ∧ t.whl = {} ∧ t.stw = {} ∧ t.bob = {} ∧
      t.skn.dev = s.skn.dev ∧ t.skn.members = s.skn.members ∧ t.pending = s.pending ∧ t.rdata = s.rdata ∧ t.free = s.free) ∧
  (∀ (s : State) (us : Nat) (pg : Bool), s.sys.mode = .kindle → s.sys.kstep = 2 → s.pwr.ready.getLsbD 1 = false → us ≤ 15000 →
    exec (.crystalReady us pg) s = .next { s with
      sys := { s.sys with kstep := 3, ktime := Tab.set (fun _ => 0) s.sys.ktime 1 us, railPos := 0, railTries := 0, pllLocked := false, pllTries := 0, retryOff := false }
      pwr := { s.pwr with regEn := s.pwr.regEn ||| 2, pgTied := if pg then s.pwr.pgTied ||| 2 else s.pwr.pgTied &&& ~~~ 2 } }) ∧
  (∀ (s : State) (us : Nat) (pg : Bool), s.sys.mode = .kindle → s.sys.kstep = 2 → s.pwr.ready.getLsbD 1 = false →
    ∃ t, exec (.crystalTimeout us pg) s = .next t ∧ t.sys.kstep = 3 ∧ t.sys.limp = true ∧ t.sys.krec.limp = true ∧
      t.sys.kfStep = 2 ∧ t.sys.kfCode = 1 ∧ t.pwr.regEn = s.pwr.regEn ||| 2 ∧
      (t.sys.recorder.getLast?.map FaultRec.code) = some 0x02 ∧ t = { s with sys := t.sys, pwr := t.pwr }) ∧
  (∀ s : State, s.sys.limp = true → s.sys.xtalLate = false → s.sys.mode ≠ .kindle →
    exec .xtalLate s = .next { s with sys := (pushFault (faultRec s 0x03 0 (leBytes 8 s.ply.reel.toNat))
      { s.sys with xtalLate := true, kfStep := 0, kfCode := 6 }) }) ∧
  (∀ (s : State) (n : Fin 8) (us : Nat), s.sys.mode = .kindle → 1 ≤ n.val → n.val ≤ s.sys.kstep → timeoutMet s n = false →
    s.sys.lateSteps.getLsbD n = false →
    exec (.kindleLate n us) s = .next (if us ≤ worstUs s n then s else { s with
      sys := pushFault (faultRec s 0x07 0 ([BitVec.ofNat 8 n.val, 0, 0, 0] ++ leBytes 4 us))
        { s.sys with
          krec := { s.sys.krec with late := true, lateStep := if s.sys.krec.lateStep = 0 then n.val else s.sys.krec.lateStep }
          lateSteps := s.sys.lateSteps ||| BitVec.ofNat 8 (2 ^ n.val), kfStep := n.val, kfCode := 5 } })) ∧
  (∀ (s : State) (n : Fin 8) (us : Nat), s.sys.lateSteps.getLsbD n = true → exec (.kindleLate n us) s = .next s)

/-- Kindle step 3 (R25, R26, R28, R90, R91, R106 to R109, R639). -/
def Obligations.RailAndPllCommands : Prop :=
  (∀ (s : State) (us : Nat) (pg : Bool), s.sys.mode = .kindle → s.sys.kstep = 3 → s.sys.kfault = false → s.sys.railPos = 0 →
    s.sys.retryOff = false → s.pwr.regEn.getLsbD 1 = true → s.pwr.ready = 0 →
    exec (.railReady us pg) s = .next { s with
      sys := { s.sys with railPos := 1, railTries := 0, retryOff := false }
      pwr := { s.pwr with ready := 2, railOk := s.pwr.railOk ||| 2, regEn := s.pwr.regEn ||| 1
                          pgTied := if pg then s.pwr.pgTied ||| 1 else s.pwr.pgTied &&& ~~~ 1 } }) ∧
  (∀ (s : State) (us : Nat) (pg : Bool) (r : Nat), railNow s = some r → s.sys.mode = .kindle → s.sys.kstep = 3 → s.sys.kfault = false →
    s.sys.retryOff = false → s.pwr.regEn.getLsbD r = true →
    ∃ t, exec (.railReady us pg) s = .next t ∧ t.pwr.ready = s.pwr.ready ||| BitVec.ofNat 4 (2 ^ r) ∧
      t.pwr.railOk = s.pwr.railOk ||| BitVec.ofNat 8 (2 ^ r) ∧ t = { s with sys := t.sys, pwr := t.pwr }) ∧
  (∀ (s : State) (r : Nat), railNow s = some r → s.sys.mode = .kindle → s.sys.kstep = 3 → s.sys.kfault = false →
    s.sys.retryOff = false → s.pwr.regEn.getLsbD r = true → s.sys.railTries < 3 →
    ∃ t, exec .railTimeout s = .next t ∧ t.pwr = { s.pwr with regEn := s.pwr.regEn &&& ~~~ BitVec.ofNat 4 (2 ^ r) } ∧
      t.sys.railTries = s.sys.railTries + 1 ∧ t.sys.retries = min 255 (s.sys.retries + 1) ∧ t.sys.retryOff = true ∧
      (t.sys.recorder.getLast?.map FaultRec.code) = some 0x0E ∧ t = { s with sys := t.sys, pwr := t.pwr }) ∧
  (∀ (s : State) (r : Nat), railNow s = some r → s.sys.mode = .kindle → s.sys.kstep = 3 → s.sys.kfault = false →
    s.sys.retryOff = false → s.pwr.regEn.getLsbD r = true → 3 ≤ s.sys.railTries →
    ∃ t, exec .railTimeout s = .next t ∧ t.sys.kfault = true ∧ t.sys.mode = .kindle ∧ t.sys.kfCode = 2 ∧ t.sys.kfRail = r ∧
      t.pwr.regEn = s.pwr.ready &&& 8 ∧ t.pwr.bypeLow = 0 ∧ t.pwr.vidOut = 56 ∧ t.skn = (closePath 0 (closePath 1 s)).skn ∧
      (t.sys.recorder.getLast?.map FaultRec.code) = some 0x04 ∧
      t = { s with sys := t.sys, pwr := t.pwr, ply := { s.ply with running := false }, skn := t.skn }) ∧
  (∀ (s : State) (r : Nat), railNow s = some r → s.sys.mode = .kindle → s.sys.kstep = 3 → s.sys.kfault = false → s.sys.retryOff = true →
    exec .railRetry s = .next { s with
      pwr := { s.pwr with regEn := s.pwr.regEn ||| BitVec.ofNat 4 (2 ^ r) }, sys := { s.sys with retryOff := false } }) ∧
  (∀ (s : State) (steps us : Nat), s.sys.mode = .kindle → s.sys.kstep = 3 → s.sys.kfault = false → s.pwr.ready.getLsbD 1 = true →
    s.sys.pllLocked = false → ∃ t, exec (.pllLock steps us) s = .next t ∧ t.sys.pllLocked = true ∧ t.ply.running = true ∧ t.ply.cont = true ∧
      t.ply.reel = (if s.sys.kcause = .cold then 0 else s.ply.reel + BitVec.ofNat 64 (40 * steps)) ∧
      t.sys.kstep = (if s.sys.railPos = 4 then 4 else 3) ∧
      (∀ k < 8, (t.plyOf k).hist = [{ t := t.ply.reel, sec := 0, ns := 0, frac := 0, incr := 2 ^ 32 }]) ∧
      t = { s with sys := t.sys, ply := t.ply }) ∧
  (∀ s : State, s.sys.mode = .kindle → s.sys.kstep = 3 → s.sys.kfault = false → s.pwr.ready.getLsbD 1 = true →
    s.sys.pllLocked = false → s.sys.pllTries = 0 →
    exec .pllLockTimeout s = .next { s with sys := pushFault (faultRec s 0x06 0 []) { s.sys with pllTries := 1 } }) ∧
  (∀ s : State, s.sys.mode = .kindle → s.sys.kstep = 3 → s.sys.kfault = false → s.pwr.ready.getLsbD 1 = true →
    s.sys.pllLocked = false → s.sys.pllTries ≠ 0 →
    ∃ t, exec .pllLockTimeout s = .next t ∧ t.sys.kfault = true ∧ t.sys.kfCode = 3 ∧ t.pwr.regEn = s.pwr.ready &&& 8 ∧
      t.skn = (closePath 0 (closePath 1 s)).skn ∧ t.ply = { s.ply with running := false })

/-- Drowse and wake (R73, R86, R120, R122, R123, R130, R394, R782). -/
def Obligations.DrowseAndWakeCommands : Prop :=
  (∀ s : State, s.sys.entering = true → strandsStopped s = true → s.rov.running = false →
    ∃ t, exec .drowseEntry s = .next t ∧ t.sys.entering = false ∧ t.pwr.regEn = 8 ∧ t.pwr.bypeLow = 0 ∧ t.pwr.settling = 0 ∧
      t.pwr.vidOut = 56 ∧ t.txn = {} ∧ t.whl = {} ∧ t.bob = {} ∧ t.eth = {} ∧ t.ply.running = false ∧ t.dst.ring = s.dst.ring ∧
      ((t.sys.mode = .drowse ∧ t.sys.kstep = 0) ∨ (t.sys.mode = .kindle ∧ t.sys.due = some .wake ∧ t.sys.kstep = 1 ∧ supplyValid t = true)) ∧
      t.pending = s.pending) ∧
  (∀ s : State, s.sys.entering = false ∨ strandsStopped s = false ∨ s.rov.running = true → exec .drowseEntry s = .next s) ∧
  (∀ (s : State) (src : BitVec 6), src.getLsbD 5 = false → s.sys.mode = .drowse → src &&& BitVec.ofNat 6 (s.fld 0x40000058 0 6) ≠ 0 →
    exec (.wakeSourceFire src) s = .next { s with
      regs := setReg s.regs 0x4000005C (s.rd 0x4000005C ||| (src &&& BitVec.ofNat 6 (s.fld 0x40000058 0 6)).setWidth 32)
      sys := if s.sys.wakePending || !supplyValid s then { s.sys with
          wakePending := true
          wakeNLow := s.sys.wakeNLow || decide (src &&& BitVec.ofNat 6 (s.fld 0x40000058 0 6) &&& 0x2F ≠ 0) }
        else { s.sys with
          mode := .kindle, due := some .wake, timeZero := true, kstep := 1, wakePending := false
          wakeNLow := s.sys.wakeNLow || decide (src &&& BitVec.ofNat 6 (s.fld 0x40000058 0 6) &&& 0x2F ≠ 0) } }) ∧
  (∀ s : State, s.ply.reel ≤ wakeAlarm s → s.sys.mode = .drowse → bitOf (s.rd 0x40000058) 5 = true → s.sys.wakePending = false →
    supplyValid s = true → ∃ t, exec (.wakeSourceFire 0x20) s = .next t ∧ t.ply = { s.ply with reel := wakeAlarm s } ∧
      t.sys.mode = .kindle ∧ t.sys.due = some .wake ∧ t = { s with regs := t.regs, sys := t.sys, ply := t.ply }) ∧
  (∀ (s : State) (src : BitVec 6), src.getLsbD 5 = false → src &&& BitVec.ofNat 6 (s.fld 0x40000058 0 6) = 0 →
    exec (.wakeSourceFire src) s = .next s) ∧
  (∀ s : State, s.sys.mode = .drowse → s.sys.wakePending = true → supplyValid s = true →
    exec .wakeHoldEnd s = .next { s with
      sys := { s.sys with mode := .kindle, due := some .wake, timeZero := true, kstep := 1, wakePending := false } }) ∧
  (∀ (s : State) (b : Fin 13), s.sys.mode = .drowse → (banksWatched s).getLsbD b = false →
    exec (.unwatchedBankLoss b) s = .next { s with pwr := { s.pwr with banks := s.pwr.banks &&& ~~~ BitVec.ofNat 13 (2 ^ b.val) } }) ∧
  (∀ (s : State) (b : Fin 13), s.sys.mode = .drowse ∨ s.sys.mode = .dark →
    ∃ t, exec (.unwatchedBankReturn b) s = .next t ∧ t = { s with
      pwr := { s.pwr with banks := s.pwr.banks ||| BitVec.ofNat 13 (2 ^ b.val), leakLogged := t.pwr.leakLogged } } ∧
      (chargerRuns t = true → t.pwr.leakLogged = false)) ∧
  (∀ s : State, s.sys.straps.bootsel.getLsbD 0 = false → s.sys.mode = .spin ∨ s.sys.mode = .brace ∨ s.sys.mode = .service →
    exec .pcieLinkUp s = .next { s with hl := { s.hl with pcieUp := true, pci := pciOf (freeNow s) }, sys := { s.sys with wakeNLow := false }, free := s.free + 1 })

/-! ### The Distaff (chapter 03, and HOLDUP of chapter 01) -/

/-- HOLDUP, the charger and the ledger (R72, R75, R76, R134, R152, R166 to R169, R172, R193). The steward line that an event
raises is the model's choice (notes/assumptions/38.md). -/
def Obligations.DistaffSupplyCommands : Prop :=
  (∀ s : State, s.pwr.distaffUp = true → exec .holdupTakeover s = .next { s with
    dst := { s.dst with staged := none }, pwr := { s.pwr with railOk := s.pwr.railOk &&& 0xBF, hucAct := true } }) ∧
  (∀ s : State, s.pwr.hucAct = true → ∃ t, exec .distaffDomainStop s = .next t ∧
    t = { s with pwr := t.pwr, dst := t.dst, sys := t.sys, free := s.free + 1 } ∧ t.pwr.distaffUp = false ∧ t.pwr.hucAct = false ∧ t.pwr.trusted = false ∧
    t.pwr.q = 0 ∧ t.pwr.eLedger = 0 ∧ t.pwr.railOk = s.pwr.railOk &&& 0x3F ∧ t.dst.running = none ∧ t.dst.inflight = none ∧
    t.dst.staged = none ∧ t.dst.waiting = [] ∧ t.sys.latch = none ∧ t.dst.imgA = s.dst.imgA ∧ t.dst.imgB = s.dst.imgB ∧
    t.dst.nameplate = s.dst.nameplate ∧ t.dst.log = s.dst.log ∧ t.dst.copy1 = s.dst.copy1 ∧ t.dst.copy2 = s.dst.copy2 ∧
    (s.dst.inflight = none → t.dst.ring = s.dst.ring)) ∧
  (∀ s : State, exec .holdupCharged s = .next { s with
    pwr := { s.pwr with slowLogged := false, railOk := s.pwr.railOk ||| 0x80 } }) ∧
  (∀ (s : State) (mv : Nat), chargerRuns s = true → s.pwr.slowLogged = false → mv < 11000 →
    exec (.holdupSlow mv) s = .next { s with
      sys := pushFault (faultRec s 0x10 14 (leBytes 2 mv)) s.sys, pwr := { s.pwr with slowLogged := true }
      stw := { s.stw with ipend := s.stw.ipend ||| 2 } }) ∧
  (∀ (s : State) (mv : Nat), chargerRuns s = false → s.dst.running = none → s.pwr.railOk.getLsbD 6 = true →
    s.pwr.leakLogged = false → 500 < mv → exec (.holdupLeak mv) s = .next { s with
      sys := pushFault (faultRec s 0x11 14 (leBytes 2 mv)) s.sys, pwr := { s.pwr with leakLogged := true }
      stw := { s.stw with ipend := s.stw.ipend ||| 2 } }) ∧
  (∀ (s : State) (us dv : Nat), chargerRuns s = true → 500 ≤ dv → exec (.capMeasure us dv) s = .next { s with
    pwr := { s.pwr with capMeas := some (min 16383 (s.fld 0x400E0010 0 7 * us * 94 / (dv * 100))) } }) ∧
  (∀ (s u : State) (l : HoldupSample) (xs : List Int), s.dst.running = none → s.pwr.distaffUp = true → steady xs = true →
    u = holdSample l (reachTick (windowEnd s.pwr) s) →
    ∃ t, exec (.ledgerRecalibration ⟨l, xs⟩) s = .next t ∧ t.pwr = { u.pwr with
        q := cEff s * 99 * l.vMv / 100, eLedger := eLedgers (cEff s) (cEff s * 99 * l.vMv / 100), trusted := true
        recals := (s.pwr.recals + 1) % 512, lastRecal := some u.ply.reel } ∧
      (u.pwr.trusted = false ∨ ledgerSkewed u.pwr.eLedger u.pwr.eVolt = false → t = { u with pwr := t.pwr }) ∧
      (u.pwr.trusted = true → ledgerSkewed u.pwr.eLedger u.pwr.eVolt = true →
        t.regs = setReg s.regs 0x400E0024 (s.rd 0x400E0024 ||| 0x20000000) ∧ (t.sys.recorder.getLast?.map FaultRec.code) = some 0x12 ∧
        t = { u with pwr := t.pwr, regs := t.regs, sys := t.sys, stw := { s.stw with ipend := s.stw.ipend ||| 2 } })) ∧
  (∀ (s : State) (l : HoldupSample) (xs : List Int), s.dst.running = none → s.pwr.distaffUp = true → steady xs = false →
    exec (.ledgerRecalibration ⟨l, xs⟩) s = .next (holdSample l s)) ∧
  (∀ (s : State) (l : HoldupSample), ∃ t, exec (.ledgerUntrusted l) s = .next t ∧ t.pwr.vMv = l.vMv ∧ t.pwr.q = ledgerNext s l ∧
    t.pwr.eLedger = eLedgers (cEff s) (ledgerNext s l) ∧ t.pwr.eVolt = eVolts (cEff s) l.vMv ∧
    (t.pwr.eLedger = 0 → 0 < t.pwr.eVolt → t.pwr.trusted = false) ∧ t = { s with pwr := t.pwr }) ∧
  (∀ (s : State) (c : Commit), s.dst.staged = some c →
    ∃ t, exec (.gateClosed true) s = .next t ∧ t.dst = { s.dst with staged := none } ∧
      t = { s with dst := t.dst, txn := t.txn, hl := t.hl, skn := t.skn, stw := { s.stw with ipend := s.stw.ipend ||| 2 } } ∧
      ∀ x, txn? s c.txn = some x → txn? t c.txn = some { x with st := .opened, src := none }) ∧
  (∀ (s : State) (c : Commit), s.dst.inflight = some c → s.dst.running = none →
    ∃ t, exec (.gateClosed false) s = .next t ∧ t.dst = { s.dst with inflight := none, chainOk := s.dst.chainOk && decide (c.written = 0) } ∧
      t = { s with dst := t.dst, txn := t.txn, hl := t.hl, skn := t.skn, stw := { s.stw with ipend := s.stw.ipend ||| 2 } })

/-- The ends of gated units other than a commit's (R111, R165, R175, R176, R182, R190, R718). -/
def Obligations.GatedUnitCommands : Prop :=
  (∀ (s : State) (l : HoldupSample) (u : GUnit), gateOpens (holdSample l s) = true → firstUnit (holdSample l s) = some u →
    (∀ n b, u ≠ .commit n b) → exec (.gatedUnitStart l) s = .next { holdSample l s with
      dst := { s.dst with running := some u, waiting := s.dst.waiting.erase u } }) ∧
  (∀ (s : State) (l : HoldupSample) (n : Nat) (b : Bool), gateOpens (holdSample l s) = true →
    firstUnit (holdSample l s) = some (.commit n b) →
    (∃ c, commitNext (holdSample l s) = some c ∧ (c.written = 0 → ringBlocked s (commitMost s (recPages c.body.length)) = false)) →
    exec (.gatedUnitStart l) s = .next { holdSample l s with
      dst := { s.dst with running := some (.commit n b), inflight := commitNext (holdSample l s)
                          staged := if s.dst.inflight.isSome then s.dst.staged else none } }) ∧
  (∀ (s : State) (l : HoldupSample), gateOpens (holdSample l s) = false → exec (.gatedUnitStart l) s = .next (holdSample l s)) ∧
  (∀ (s : State) (c : SlotCtl) (rep : Bool), s.dst.running = some (.boot false c rep) → s.dst.copy2 ≠ some c →
    ∃ t, exec .bootCopyWriteEnd s = .next t ∧ GUnit.boot true c false ∈ t.dst.waiting ∧
      t = { s with dst := wornAs t.dst { s.dst with running := none, copy1 := some c }, sys := t.sys, pwr := t.pwr }) ∧
  (∀ (s : State) (c : SlotCtl) (rep : Bool), s.dst.running = some (.boot true c rep) →
    ∃ t, exec .bootCopyWriteEnd s = .next t ∧ (rep = true → ∃ e ∈ t.sys.recorder, e.code = 0x26) ∧
      t = { s with dst := wornAs t.dst { s.dst with running := none, copy2 := some c }, sys := t.sys, pwr := t.pwr }) ∧
  (∀ (s : State) (e : FaultRec) (rest : List FaultRec), s.dst.running = some .log → s.sys.recorder = e :: rest → s.dst.log.length < 96768 →
    ∃ t, exec .logCopyEnd s = .next t ∧ t = { s with sys := t.sys, pwr := t.pwr, dst := wornAs t.dst { s.dst with
      running := none, log := s.dst.log ++ [⟨s.dst.logNext, e⟩], logNext := s.dst.logNext + 1 } }) ∧
  (∀ (s : State) (bs : List (Nat × List Byte)), s.dst.running = some (.nameplate bs) →
    ∃ t, exec .nameplateUpdateEnd s = .next t ∧ t = { s with
      sys := t.sys, pwr := t.pwr, tag := { s.tag with ackPend := 0 }
      dst := wornAs t.dst { s.dst with running := none, nameplate := nameplateAfter s.tag.ackPend bs s.dst.nameplate } }) ∧
  (∀ (s : State) (off : Nat) (data : List Byte), s.dst.running = some (.image off data) →
    ∃ t, exec .imageChunkEnd s = .next t ∧ t = { s with
      sys := t.sys, pwr := t.pwr
      dst := wornAs t.dst (if s.dst.ctl.active then { s.dst with running := none, imgA := Mem.write s.dst.imgA off data }
        else { s.dst with running := none, imgB := Mem.write s.dst.imgB off data }) }) ∧
  (∀ (s : State) (a b : Nat), s.dst.running = some (.migration a b) →
    exec (.migrationEnd none) s = .next (programmed (unitPages s (.migration a b)) (spareWarn s.dst.spareLeft { s with
      dst := migrated a b { s.dst with running := none } }))) ∧
  (∀ (d : Dst) (a b : Nat), a ≠ b → segHdr (migrated a b d) b = { segHdr d a with gen := (segHdr d a).gen + 1 } ∧
    segHdr (migrated a b d) a = (if (segHdr d b).region = 5 then { segHdr d a with valid := false, retired := true }
      else { segHdr d b with gen := (segHdr d b).gen + 1 })) ∧
  (∀ (s : State) (ps : List Nat), ∃ t, programmed ps s = t ∧ t = { s with dst := wornAs t.dst s.dst, sys := t.sys, pwr := t.pwr } ∧
    (ps ≠ [] → t.pwr = { s.pwr with lastProg := s.ply.reel })) ∧
  (∀ (s : State) (a b : Nat) (i : Fin 64), s.dst.running = some (.migration a b) →
    ∃ t, exec (.migrationEnd (some i)) s = .next t ∧ t = { s with sys := t.sys, pwr := t.pwr, dst := wornAs t.dst { s.dst with
      running := none, fails := Tab.upd (fun _ => 0) s.dst.fails ((unitPages s (.migration a b)).getD i 0) (· + 1) } })

/-- Commit units and the scrub (R150, R151, R161, R184, R185, R188, R191, R202). The steward line that an event raises is the
model's choice (notes/assumptions/38.md). -/
def Obligations.CommitAndScrubCommands : Prop :=
  (∀ (s : State) (n : Nat) (bad : List Nat) (c : Commit), s.dst.running = some (.commit n false) → s.dst.inflight = some c →
    bad.length ≤ 3 →
    ∃ t, exec (.checkpointChunkEnd bad) s = .next t ∧ (bad = [] → t.dst.live = if c.asCkpt then s.dst.live else s.dst.live + n) ∧
      (c.dead = true → t.dst.inflight = none ∧ t.dst.chainOk = false) ∧
      (c.dead = false → t.dst.chainOk = s.dst.chainOk ∧ ∃ c', t.dst.inflight = some c' ∧
        c' = { c with written := c.written + n, pos := c'.pos, first := c'.first }) ∧
      t = { s with sys := t.sys, txn := t.txn, pwr := t.pwr, dst := wornAs t.dst { s.dst with
        running := none, inflight := t.dst.inflight, chainOk := t.dst.chainOk, ring := t.dst.ring, ringHead := t.dst.ringHead
        maxSeq := t.dst.maxSeq, live := t.dst.live, fails := t.dst.fails } }) ∧
  (∀ (s : State) (n : Nat) (bad reads : List Nat) (c : Commit), s.dst.running = some (.commit n true) → s.dst.inflight = some c →
    bad.length + (reads.filter fun r => 3 < r).length ≤ 3 →
    ∃ t, exec (.commitUnitEnd bad reads) s = .next t ∧ (∃ bs, GUnit.nameplate bs ∈ t.dst.waiting) ∧ t.txn.isVolatile = c.stale ∧
      t = { s with
        sys := t.sys, txn := t.txn, pwr := t.pwr, stw := { s.stw with ipend := s.stw.ipend ||| 4 }
        dst := wornAs t.dst { s.dst with
          running := none, inflight := none, seq := c.seq, hash := c.hash, commits := min 0xFFFFFFFF (s.dst.commits + 1)
          ckptSeq := c.base, maxSeq := max s.dst.maxSeq c.seq, ckptFirst := t.dst.ckptFirst, chainOk := t.dst.chainOk
          ring := t.dst.ring, ringHead := t.dst.ringHead, live := t.dst.live, fails := t.dst.fails } }) ∧
  (∀ (s : State) (n : Nat) (bad reads : List Nat) (c : Commit), s.dst.running = some (.commit n true) → s.dst.inflight = some c →
    (∀ i < 4, i ∈ bad) →
    ∃ t, exec (.commitUnitEnd bad reads) s = .next t ∧ t.dst.running = none ∧ t.dst.inflight = none ∧ t.dst.seq = s.dst.seq ∧
      t.dst.hash = s.dst.hash ∧ t.dst.chainOk = false ∧ (t.sys.recorder.getLast?.map FaultRec.code) = some 0x24) ∧
  (∀ s : State, s.sys.mode = .spin ∨ s.sys.mode = .drowse → s.dst.scrubbing = false →
    exec .scrubPassStart s = .next { s with dst := { s.dst with scrubbing := true, scrubPage := 0, scrubCount := 0 } }) ∧
  (∀ (s : State) (bits : Nat), s.sys.mode = .spin ∨ s.sys.mode = .drowse → s.dst.scrubbing = true → s.dst.scrubPage ≠ 131071 →
    bits ≤ 8 → beingProgrammed s s.dst.scrubPage = false → exec (.scrubPageRead bits) s = .next { s with dst := { s.dst with
      scrubPage := s.dst.scrubPage + 1, waiting := if bits < 4 then s.dst.waiting else s.dst.waiting ++ [.scrub s.dst.scrubPage] } }) ∧
  (∀ (s : State) (bits : Nat), s.sys.mode = .spin ∨ s.sys.mode = .drowse → s.dst.scrubbing = true → s.dst.scrubPage = 131071 → bits ≤ 3 →
    beingProgrammed s s.dst.scrubPage = false →
    exec (.scrubPageRead bits) s = .next { s with
      dst := { s.dst with scrubbing := false, scrubPage := 0, scrubRewritten := s.dst.scrubCount } }) ∧
  (∀ (s : State) (bits : Nat), s.sys.mode = .spin ∨ s.sys.mode = .drowse → s.dst.scrubbing = true → s.dst.scrubPage < 256 → 8 < bits →
    beingProgrammed s s.dst.scrubPage = false →
    ∃ t, exec (.scrubPageRead bits) s = .next t ∧ t.dst.scrubUncorr = min 0xFFFF (s.dst.scrubUncorr + 1) ∧
      t.dst.scrubPage = s.dst.scrubPage + 1 ∧ (s.dst.scrubPage = 0 → t.dst.copy1 = none) ∧ (s.dst.scrubPage = 128 → t.dst.copy2 = none) ∧
      (t.sys.recorder.getLast?.map FaultRec.code) = some 0x25 ∧ t = { s with dst := t.dst, sys := t.sys, stw := { s.stw with ipend := s.stw.ipend ||| 4 } }) ∧
  (∀ (s : State) (bits : Nat), beingProgrammed s s.dst.scrubPage = true → exec (.scrubPageRead bits) s = .next s) ∧
  (∀ (s : State) (p : Nat), s.dst.running = some (.scrub p) →
    ∃ t, exec .scrubRewriteEnd s = .next t ∧ (if s.dst.scrubbing then t.dst.scrubCount = s.dst.scrubCount + 1 ∧ t.dst.scrubRewritten = s.dst.scrubRewritten
        else t.dst.scrubCount = s.dst.scrubCount ∧ t.dst.scrubRewritten = min 0xFFFF (s.dst.scrubRewritten + 1)) ∧
      t = { s with sys := t.sys, pwr := t.pwr, dst := wornAs t.dst { s.dst with
        running := none, scrubCount := t.dst.scrubCount, scrubRewritten := t.dst.scrubRewritten } })

/-! ### Kindle steps 4 to 7 (chapter 02) -/

/-- Kindle steps 4 to 7 (R69, R84, R94, R96, R98, R155, R157). -/
def Obligations.KindleEndCommands : Prop :=
  (∀ (s : State) (us : Nat), s.sys.mode = .kindle → s.sys.kfault = false → s.sys.kstep = 4 → s.dst.running = none →
    ∃ t, exec (.journalReplay us) s = .next t ∧ t.sys.kstep = 5 ∧ t.sys.mode = .kindle ∧ t.dst.loaded = true ∧
      t.dst.replayed = (replay s.dst).conf.map (fun x => (x.1, x.2.1, x.2.2.1)) ∧
      t.dst.seq = ((replay s.dst).conf.map fun x => x.2.1).getD 0 ∧ t.dst.hash = ((replay s.dst).conf.map fun x => x.2.2.2).getD [] ∧
      t.dst.ctl.kindles = t.sys.kindles ∧ t.dst.ring = s.dst.ring ∧ t.dst.imgA = s.dst.imgA ∧ t.dst.imgB = s.dst.imgB ∧
      t.dst.log = s.dst.log ∧ t.dst.nameplate = s.dst.nameplate ∧ t = { s with sys := t.sys, dst := t.dst }) ∧
  (∀ (s : State) (us : Nat), s.dst.running.isSome = true → exec (.journalReplay us) s = .next s) ∧
  (∀ (s : State) (us : Nat), s.sys.mode = .kindle → s.sys.kfault = false → s.sys.kstep = 5 →
    ∃ t, exec (.imageAuthentication us) s = .next t ∧ t.dst.imgA = s.dst.imgA ∧ t.dst.imgB = s.dst.imgB ∧ t.dst.ring = s.dst.ring ∧
      t.dst.booted = (pickSlot (fun b => authentic (slotMem s.dst b)) (!s.dst.bootLost) s.dst.ctl).boot ∧
      (∀ b, t.dst.booted = some b → t.sys.kstep = 6 ∧ t.sys.mode = .kindle ∧ t.sys.krec.slot = b ∧ t = { s with sys := t.sys, dst := t.dst }) ∧
      (t.dst.booted = none → s.pwr.senseWarn = false → t.sys.mode = .service ∧ t.sys.kstep = 0 ∧ t.sys.krec.imgNone = true ∧
        t.hl = { s.hl with ready := true } ∧ (t.sys.recorder.getLast?.map FaultRec.code) = some 0x01 ∧
        t = { s with sys := t.sys, dst := t.dst, hl := t.hl })) ∧
  (∀ (s : State) (us : Nat) (img : Mem), activeImage s = some img → s.sys.mode = .kindle → s.sys.kfault = false → s.sys.kstep = 6 →
    ∃ t, exec (.scheduleLoad us) s = .next t ∧ t.sys.kstep = 7 ∧ t.txn.conf = (confChoice img s).1 ∧
      t.pwr.confApplied = true ∧ t.txn.confDefault = (s.txn.confDefault || (confChoice img s).2.1) ∧ t.pending = s.pending) ∧
  (∀ (s : State) (us : Nat) (c : Step7Cond), s.sys.mode = .kindle → s.sys.kfault = false → s.sys.kstep = 7 → step7Ends s c = true →
    s.pwr.senseWarn = false →
    ∃ t, exec (.step7End us c) s = .next t ∧ t.sys.mode = (if s.sys.straps.bootsel.getLsbD 1 then .service else .spin) ∧
      t.sys.kstep = 0 ∧ t.hl.ready = true ∧ t.pending = s.pending) ∧
  (∀ (s : State) (us : Nat) (c : Step7Cond), s.sys.mode = .kindle → s.sys.kfault = false → s.sys.kstep = 7 → step7Ends s c = true →
    s.pwr.senseWarn = true →
    ∃ t, exec (.step7End us c) s = .next t ∧ t.sys.mode = .brace ∧
      t.sys.retMode = (if s.sys.straps.bootsel.getLsbD 1 then .service else .spin) ∧ t.sys.kstep = 0 ∧ t.pending = s.pending)

/-! ### Host link and DMA rings (chapters 05, 09 and 17) -/

/-- Mailboxes and doorbells (R95, R276, R279, R282, R284, R287, R288, R290, R309, R316, R318 to R320, R679). -/
def Obligations.MailboxCommands : Prop :=
  (∀ (s : State) (n : Fin 32) (w : Word), hostServes s = true → bitOf s.hl.dfull n = false →
    exec (.mailboxTailWrite n w) s = .next { s with
      hl := { s.hl with dev := s.hl.dev.write (256 * n + 252) (leBytes 4 w.toNat), dfull := s.hl.dfull ||| bitW n, order := s.hl.order ++ [n.val] }
      stw := { s.stw with ipend := s.stw.ipend ||| 0x4000 } }) ∧
  (∀ (s : State) (n : Fin 32) (w : Word), hostServes s = true → bitOf s.hl.dfull n = true →
    exec (.mailboxTailWrite n w) s = .next { s with regs := setReg s.regs mbWdrop (s.rd mbWdrop ||| bitW n) }) ∧
  (∀ (s : State) (n : Fin 32), hostServes s = true → s.hl.ready = true →
    exec (.mailboxTailRead n) s = .next { s with
      hl := { s.hl with hfull := s.hl.hfull &&& ~~~ bitW n }, rdata := BitVec.ofNat 32 (s.hl.hst.num (256 * n + 252) 4) }) ∧
  (∀ (s : State) (n : Fin 32), s.hl.ready = true → imageNone s = false ∨ s.hl.taken = [] → takeNext s s.hl.order [] = some n.val →
    ∃ t, exec (.stewardCommandTake n) s = .next t ∧
      t.hl = { s.hl with
        taken := s.hl.taken ++ [{ src := .mailbox n, seq := s.hl.dev.num (256 * n + 252) 4 / 65536
                                  msg := s.hl.dev.bytes (256 * n) (s.hl.dev.num (256 * n + 252) 4 % 512) }]
        dfull := s.hl.dfull &&& ~~~ bitW n, order := s.hl.order.erase n.val } ∧
      t = { s with hl := t.hl, stw := { s.stw with ipend := if t.hl.dfull = 0 then s.stw.ipend &&& ~~~ 0x4000 else s.stw.ipend } }) ∧
  (∀ (s : State) (n : Nat) (ns : List Nat), mbBusy s n = false → takeNext s (n :: ns) [] = some n) ∧
  (∀ (s : State) (n m : Nat) (ns : List Nat), mbBusy s m = true → mbBusy s n = false → reqTxn (mbReq s (Fin.ofNat 32 n)) = none →
    takeNext s (m :: n :: ns) [] = some n) ∧
  (∀ (s : State) (n : Fin 32) (d : Due), s.hl.due.find? (fun d => d.mb == n.val) = some d → bitOf s.hl.hfull n = false →
    ∃ t, exec (.stewardReplyWrite n) s = .next t ∧ t.hl.due = s.hl.due.erase d ∧ t.hl.hfull = s.hl.hfull ||| bitW n ∧
      t.hl.hst = (s.hl.hst.write (256 * n) d.msg).write (256 * n + 252) (leBytes 2 (d.msg.length % 512) ++ leBytes 2 d.seq) ∧
      (d.txn = none → t.txn = s.txn) ∧
      t = { s with regs := t.regs, txn := t.txn, hl := { s.hl with due := t.hl.due, hfull := t.hl.hfull, hst := t.hl.hst, out := t.hl.out, pba := t.hl.pba } }) ∧
  (∀ (s : State) (n : Fin 32), bitOf s.hl.hfull n = true → exec (.stewardReplyWrite n) s = .next s) ∧
  (∀ (s : State) (mask new : Word), hostServes s = true →
    ∃ t, exec (.doorbellClear mask new) s = .next t ∧
      t.regs = setReg s.regs dbStatus ((s.rd dbStatus &&& ~~~ mask) ||| new) ∧
      t = { s with regs := t.regs, hl := { s.hl with out := t.hl.out, pba := t.hl.pba } }) ∧
  (∀ (s : State) (mask : Word), hostServes s = true →
    exec (.doorbellClear mask 0) s = .next { s with regs := setReg s.regs dbStatus (s.rd dbStatus &&& ~~~ mask) }) ∧
  (∀ (s : State) (v : Word), hostServes s = true →
    ∃ t, exec (.dbMaskWrite v) s = .next t ∧ t.regs = setReg s.regs dbMask (writeFields (fieldsAt dbMask) (s.rd dbMask) v) ∧
      t = { s with regs := t.regs, hl := { s.hl with out := t.hl.out, pba := t.hl.pba } }) ∧
  (∀ s : State, hostServes s = true → ∃ t, exec (.hostResetWrite 0x203) s = .next t ∧ t.sys.mode = .kindle ∧ t.sys.kstep = 1 ∧
    t.sys.offTime = true ∧ t.pwr.regEn = 0 ∧ t.sys.recorder = s.sys.recorder ∧ t.dst.ring = s.dst.ring ∧ t.dst.nameplate = s.dst.nameplate ∧
    t.pending = s.pending) ∧
  (∀ (s : State) (v : Word), hostServes s = true → v ≠ 0x203 → exec (.hostResetWrite v) s = .next s) ∧
  (∀ s : State, s.hl.ready = true → exec .heartbeat s = .next { s with hl := { s.hl with beat := s.hl.beat + 1 } }) ∧
  (∀ (s u : State) (l : Fin 2) (src : BitVec 10) (n : Nat) (req : List Byte), u = s.setLink l (fun k => { k with rxFrm := k.rxFrm + 1 }) →
    (s.skn.assigned = true → carries s l 1 = true → s.sys.mode ∈ [.spin, .brace, .service] → exec (.relayRequest l src n req) s = .next { u with
      hl := { u.hl with taken := s.hl.taken ++ [{ src := .relay src n, seq := n, msg := req }] } }) ∧
    (s.skn.assigned = false ∨ carries s l 1 = false → exec (.relayRequest l src n req) s = .next s))

/-- The SPI host port and PERST_N (R292 to R296, R308). -/
def Obligations.SpiAndPerstCommands : Prop :=
  (∀ (s : State) (off : Nat) (v : Word), spiServes s = true → off < 0x4000 → off % 4 = 0 →
    ∃ t, exec (.spiWriteFrame off (leBytes 4 v.toNat)) s = .next t ∧
      t = { bar0Write off v s with hl := { (bar0Write off v s).hl with spiOut := spiStatus s :: List.replicate 6 0, spiErr := false } }) ∧
  (∀ (s : State) (off : Nat) (data : List Byte), spiServes s = true → off < 0x4000 → off % 4 = 0 →
    ∃ t, exec (.spiWriteFrame off data) s = .next t ∧ t.hl.spiOut = spiStatus s :: List.replicate (2 + data.length) 0 ∧
      t.hl.spiErr = decide (data.length % 4 ≠ 0)) ∧
  (∀ (s : State) (off : Nat) (data : List Byte), spiServes s = true → 0x4000 ≤ off ∨ off % 4 ≠ 0 →
    exec (.spiWriteFrame off data) s = .next { s with hl := { s.hl with spiOut := [spiStatus s, 0, 0], spiErr := true } }) ∧
  (∀ (s : State) (off : Nat), spiServes s = true → off < 0x2000 → off % 4 = 0 →
    exec (.spiReadFrame off 4) s = .next { s with
      hl := { s.hl with spiOut := [spiStatus s, 0, 0, 0] ++ leBytes 4 (bar0Value s off).toNat, spiErr := false } }) ∧
  (∀ (s : State) (off len : Nat), spiServes s = true → off < 0x4000 → off % 4 = 0 →
    ∃ t, exec (.spiReadFrame off len) s = .next t ∧ t.hl.spiOut.length = 4 + len ∧ t.hl.spiErr = false ∧
      t = { s with hl := { s.hl with hfull := t.hl.hfull, spiOut := t.hl.spiOut, spiErr := false } }) ∧
  (∀ (s : State) (off len : Nat), spiServes s = true → 0x4000 ≤ off ∨ off % 4 ≠ 0 →
    exec (.spiReadFrame off len) s = .next { s with hl := { s.hl with spiOut := [spiStatus s, 0, 0], spiErr := true } }) ∧
  (∀ s : State, spiServes s = true →
    exec .spiStatusFrame s = .next { s with hl := { s.hl with spiOut := [spiStatus s], spiErr := false } }) ∧
  (∀ s : State, spiServes s = true →
    exec .spiBadFrame s = .next { s with hl := { s.hl with spiOut := [spiStatus s], spiErr := true } }) ∧
  (∀ s : State, s.sys.mode ≠ .dark → spiSelected s = false →
    ∃ t, exec .perstAssert s = .next t ∧ t.hl.pcieUp = false ∧ t.hl.msix = ({} : Hl).msix ∧ t.hl.pba = 0 ∧ (∀ b ∈ t.hl.bursts, 64 ≤ b.ring) ∧
      (t.sys.recorder.getLast?.map FaultRec.code) = some 0x50 ∧ t = { s with regs := t.regs, hl := t.hl, bob := t.bob, sys := t.sys })

/-- DMA rings (R298, R300 to R304, R310, R464, R477, R770). -/
def Obligations.DmaRingCommands : Prop :=
  (∀ (s : State) (r : Fin 64) (off : Nat) (v : Word), pcieServes s = true → off = 0 ∨ off = 4 ∨ off = 0x18 ∨ off = 0x1C →
    ringEnabled s r = false → ∃ t, exec (.ringCtrlWrite r off v) s = .next t ∧
      t.regs = setReg s.regs (ringBase r + off) (writeFields (fieldsAt (ringBase r + off)) (s.rd (ringBase r + off)) v) ∧
      t = { s with regs := t.regs, hl := { s.hl with rings := t.hl.rings } }) ∧
  (∀ (s : State) (r : Fin 64) (off : Nat) (v : Word), pcieServes s = true → off = 4 ∨ off = 0x18 ∨ off = 0x1C →
    ringEnabled s r = true → ∃ t, exec (.ringCtrlWrite r off v) s = .next t ∧
      t.regs = setReg s.regs (ringBase r + 0x20) (s.rd (ringBase r + 0x20) ||| 8) ∧
      t = { s with regs := t.regs, hl := { s.hl with rings := t.hl.rings } }) ∧
  (∀ (s : State) (r : Fin 64) (v : Word), pcieServes s = true → ringEnabled s r = true → RegsWf s → s.fld (ringBase r) 0 4 ≤ 8 →
    ∃ t, exec (.ringCtrlWrite r 0 v) s = .next t ∧ ringIsRx t r = ringIsRx s r ∧ ringSize' t r = ringSize' s r ∧
      t = { s with regs := t.regs, hl := { s.hl with rings := t.hl.rings } }) ∧
  (∀ (s : State) (r : Fin 64) (v : Word), pcieServes s = true → ringEnabled s r = false → RegsWf s →
    ∃ t, exec (.ringTailWrite r v) s = .next t ∧
      t.regs = setReg s.regs (ringBase r + 8) (writeFields (fieldsAt (ringBase r + 8)) (s.rd (ringBase r + 8)) v) ∧
      t = { s with regs := t.regs, hl := { s.hl with rings := t.hl.rings } }) ∧
  (∀ (s : State) (r : Fin 64) (bytes : List Byte) (d : Nat), ringGoes s r = true → ringIsRx s r = false → readsBusy s < 64 →
    badDesc s r = false → txDescs s r = some d →
    ∃ t, exec (.txRingOffer r bytes) s = .next t ∧ ((offerInner 15 (ringBob s r) bytes true s).2.1 = false →
        t = s.setRing r fun x => { x with txWaits := true }) ∧
      ((offerInner 15 (ringBob s r) bytes true s).2.1 = true → t.bob.nextId = s.bob.nextId + 1 ∧ t = { s with bob := t.bob, hl := t.hl } ∧
        t.hl = { (s.setRing r fun x => { x with txWaits := false }).hl with bursts := s.hl.bursts ++ [{
          ring := r, rx := false, frames := [s.bob.nextId], descs := d, reads := min 64 (readsFor s r d (descsBusy s r) bytes.length) }] })) ∧
  (∀ (s : State) (r : Fin 64) (p : List Nat × Nat), ringGoes s r = true → ringIsRx s r = true → (s.hl.bursts.filter Burst.rx).length < 16 →
    badDesc s r = false → takeFrames s r ((headRun s (ringBob s r)).filter fun f => !(framesBusy s r).contains f.id)
      (descsBusy s r) (descsGiven s r - descsBusy s r) 32 65536 = p → p.1 ≠ [] →
    exec (.rxBurstStart r) s = .next { s with hl := { s.hl with bursts := s.hl.bursts ++ [{
      ring := r, rx := true, frames := p.1, descs := p.2 }] } }) ∧
  (∀ (s : State) (r : Fin 64) (b : Burst), (burstsOf s r).head? = some b → b.rx = true → b.frames = [] →
    ∃ t, exec (.dmaBurstComplete r) s = .next t ∧ t.hl.bursts = s.hl.bursts.erase b ∧
      t.hl.rings = ((s.setRing r fun x => { x with head := (x.head + b.descs) % ringSize' s r }).setRing r
        fun x => { x with stallSince := none }).hl.rings ∧
      t = { s with regs := t.regs, hl := t.hl, bob := (s.setBobbin (ringBob s r) fun x => { x with refusing := false }).bob }) ∧
  (∀ (s : State) (r : Fin 64) (b : Burst), (burstsOf s r).head? = some b → b.rx = true ∨ readFaulted s r = false →
    ∃ t, exec (.dmaBurstComplete r) s = .next t ∧ t.hl.bursts = s.hl.bursts.erase b ∧
      t = { s with regs := t.regs, hl := t.hl, bob := t.bob }) ∧
  (∀ (s : State) (r : Fin 64), burstsOf s r = [] → exec (.dmaBurstComplete r) s = .next s) ∧
  (∀ (s : State) (r : Fin 64) (cto : Bool) (b : Burst), b ∈ burstsOf s r → b.rx = false →
    exec (.dmaReadFault r cto) s = .next { s with
      regs := setReg s.regs (ringBase r + 0x20) (s.rd (ringBase r + 0x20) ||| (if cto then 4 else 2)) }) ∧
  (∀ (s : State) (b : BitVec 16), bobStalled s b.toNat = true →
    ∃ t, exec (.stallRefusalStart b) s = .next t ∧ t.bob = (s.setBobbin b.toNat fun x => { x with refusing := true }).bob ∧
      t = { s with bob := t.bob, hl := { s.hl with rings := t.hl.rings } }) ∧
  (∀ (s : State) (b : BitVec 16), bobStalled s b.toNat = false → exec (.stallRefusalStart b) s = .next s)

/-! ### Ethernet ports, carding, the fabric (chapters 09, 10 and 17) -/

/-- Reception and carding (R459, R473, R496, R497, R501, R504, R508, R512, R515, R516, R521, R523). -/
def Obligations.EthernetReceiveCommands : Prop :=
  (∀ (s : State) (p : Fin 12), (s.eport p).link = true → arriving s p = none →
    ((s.eport p).rx.length < 128 → rxHeld (s.eport p) < 16384 → 4 ≤ thruOut s p → exec (.frameRxStart p) s = .next (({ s with
      bob := { s.bob with
        nextId := s.bob.nextId + 1, frames := s.bob.frames ++ [{ id := s.bob.nextId, bytes := [], ingress := p, ledger := s.ply.reel }] } } : State).setEport p
      fun e => { e with rx := e.rx ++ [{ frame := s.bob.nextId, depth := cardDepth s p }], high := max e.high (e.rx.length + 1) })) ∧
    (128 ≤ (s.eport p).rx.length ∨ 16384 ≤ rxHeld (s.eport p) →
      exec (.frameRxStart p) s = .next (s.setEport p fun e => { e with rxOvf := e.rxOvf + 1 })) ∧
    ((s.eport p).rx.length < 128 → rxHeld (s.eport p) < 16384 → thruOut s p < 4 → ∃ t, exec (.frameRxStart p) s = .next t ∧
      t.bob.nextId = s.bob.nextId + 1 ∧ t = { s with
        eth := { s.eth with port := t.eth.port }, bob := { s.bob with nextId := t.bob.nextId, frames := t.bob.frames }
        whl := t.whl, regs := t.regs, stw := t.stw, sys := t.sys })) ∧
  (∀ (s : State) (p : Fin 12) (bytes : List Byte) (r : RxFrame), (s.eport p).rx.find? (fun r => !r.dealt) = some r →
    ∃ t, exec (.laneDeal p bytes) s = .next t ∧
      (r.ended = false ∧ bytes.length < r.depth ∨ freeLane s = none → t.eth.lanes = s.eth.lanes ∧ t.eth.nextLane = s.eth.nextLane) ∧
      (∀ l, r.ended = true ∨ r.depth ≤ bytes.length → freeLane s = some l → t.eth.nextLane = (l + 1) % 16 ∧
        t.eth.lanes = Tab.upd (fun _ => []) s.eth.lanes l fun q => q ++ [(p.val, r.frame)]) ∧
      t = { s with eth := { s.eth with port := t.eth.port, nextLane := t.eth.nextLane, lanes := t.eth.lanes }, bob := { s.bob with frames := t.bob.frames } }) ∧
  (∀ (s : State) (l : Fin 16) (p id : Nat) (rest : List (Nat × Nat)) (r : RxFrame), Tab.get (fun _ => []) s.eth.lanes l = (p, id) :: rest →
    (s.eport p).rx.find? (fun r => r.frame == id) = some r →
    exec (.laneDecision l) s = .next { s with eth := { s.eth with
      lanes := Tab.set (fun _ => []) s.eth.lanes l rest
      hits := r.rule.elim s.eth.hits fun n => Tab.upd (fun _ => 0) s.eth.hits n fun c => (c + 1) % 2 ^ 48
      port := Tab.upd (fun _ => {}) s.eth.port p fun e => { e with
        rx := e.rx.map (fun x => if x.frame = id then { x with decided := true } else x)
        miss := if r.rule.isNone then e.miss + 1 else e.miss } } }) ∧
  (∀ (s : State) (p : Fin 12) (bytes : List Byte) (ok sym : Bool) (f : Frame), arriving s p = some f → bytes.length < 64 → 4 ≤ (s.eport p).thruTo →
    ∃ t, exec (.frameRxEnd p bytes ok sym) s = .next t ∧ t.bob = { s.bob with frames := s.bob.frames.filter fun g => g.id != f.id } ∧
      t.eth = (s.setEport p fun e => { e with rxRunt := e.rxRunt + 1, rx := e.rx.filter fun r => r.frame != f.id }).eth ∧
      t = { s with eth := t.eth, bob := t.bob }) ∧
  (∀ (s : State) (p : Fin 12) (bytes : List Byte) (ok sym long : Bool) (f : Frame), arriving s p = some f → 64 ≤ bytes.length →
    4 ≤ (s.eport p).thruTo → long = decide (maxFrame s p < bytes.length) →
    ∃ t, exec (.frameRxEnd p bytes ok sym) s = .next t ∧
      t.eth = (s.setEport p fun e => { rxEnded f.id (bytes.take (maxFrame s p)) e with
        rxFcs := e.rxFcs + (if ok then 0 else 1), rxSym := e.rxSym + (if sym then 1 else 0), rxTrunc := e.rxTrunc + (if long then 1 else 0) }).eth ∧
      t.bob = ((endArriving f (bytes.take (maxFrame s p)) (!ok || sym) long s).setEgress p fun g => { g with
        framesIn := g.framesIn + 1, errors := g.errors + b2n (!ok || sym), truncs := g.truncs + b2n long }).bob ∧
      t = { s with eth := t.eth, bob := t.bob }) ∧
  (∀ (s : State) (p : Fin 12) (n : Nat) (r : RxFrame) (rest : List RxFrame) (d : Decision), (s.eport p).rx = r :: rest → r.decided = true →
    r.decision = some d →
    (d.action = 0 → exec (.frameAdmission p n) s = .next (turnAway r.frame (s.setEport p fun e => { e with rx := rest }))) ∧
    (d.action ≠ 0 → (s.frame? r.frame).any Frame.thru = true → r.ended = false → exec (.frameAdmission p n) s = .next s) ∧
    (d.action ≠ 0 → (s.frame? r.frame).any Frame.thru = false ∨ r.ended = true →
      ∃ t, exec (.frameAdmission p n) s = .next t ∧ t.eth = (s.setEport p fun e => { e with rx := rest }).eth ∧ t.bob.egress = s.bob.egress ∧
        t.bob.nextId = s.bob.nextId ∧ (bobEn s d.bobbin = false → t.bob.queue = s.bob.queue) ∧ t = { s with eth := t.eth, bob := t.bob }))

/-- Port state, MDIO, gates, age-out (R466, R494, R531, R532, R537, R766, R767). The steward line that a link's change raises is
the model's choice (notes/assumptions/38.md). -/
def Obligations.EthernetPortCommands : Prop :=
  (∀ (s : State) (p : Fin 12) (v : Fin 5) (d : Bool) (x : Nat × Bool), (s.eport p).enabled = true → linkFound s p v d = some x →
    exec (.linkUp p v d) s = .next (({ s with stw := { s.stw with ipend := s.stw.ipend ||| 0x40 } } : State).setEport p fun e => { e with
      link := true, anDone := phyFlag s p 0, speed := x.1, fullDup := x.2, inTrans := false, aging := false, changed := s.ply.reel })) ∧
  (∀ (s : State) (p : Fin 12) (v : Fin 5) (d : Bool), (s.eport p).enabled = false ∨ linkFound s p v d = none → exec (.linkUp p v d) s = .next s) ∧
  (∀ (s : State) (p : Fin 12), (s.eport p).link = true → ∃ t u, exec (.linkDown p) s = .next t ∧ u = linkDrop p s ∧
    t = { u.setEport p (fun e => { e with linkDown := e.linkDown + 1 }) with stw := { s.stw with ipend := s.stw.ipend ||| 0x40 } } ∧
    u = { s with eth := u.eth, bob := u.bob, ply := u.ply } ∧ (arriving s p = none → u = s.setEport p fun e => { e with
      link := false, anDone := false, lpiRx := false, lpiTx := false, changed := s.ply.reel })) ∧
  (∀ (s : State) (p : Fin 12), (s.eport p).enabled = true → (s.eport p).link = false → phyFlag s p 0 = true →
    exec (.anTimeout p) s = .next (s.setEport p fun e => { e with anDone := false, linkDown := e.linkDown + 1 })) ∧
  (∀ (s : State) (p : Fin 12), (s.eport p).link = true → hasEee p (phyMode s p) = true → phyFlag s p 1 = true →
    (s.eport p).lpiTx = false → (s.egress p).cur = none → (selectNext s p).1 = none →
    exec (.lpiEntry p) s = .next (s.setEport p fun e => { e with lpiTx := true, lpiEnt := e.lpiEnt + 1 })) ∧
  (∀ (s : State) (v : Word), s.eth.mdioBusy = false →
    exec (.mdioAccess v) s = .next { s with
      regs := setReg s.regs 0x40051000 (writeFields (fieldsAt 0x40051000) (s.rd 0x40051000) v), eth := { s.eth with mdioBusy := bitOf v 31 } }) ∧
  (∀ (s : State) (v : Word), s.eth.mdioBusy = true → bitOf v 31 = true → exec (.mdioAccess v) s = .next s) ∧
  (∀ (s : State) (d : BitVec 16), s.eth.mdioBusy = true → s.fld 0x40051000 26 2 = 2 →
    exec (.mdioComplete (some d)) s = .next { s with
      regs := setReg s.regs 0x40051000 (putField (s.rd 0x40051000) 0 16 d.toNat), eth := { s.eth with mdioBusy := false } }) ∧
  (∀ (s : State) (d : BitVec 16), s.eth.mdioBusy = true → s.fld 0x40051000 26 2 ≠ 2 →
    exec (.mdioComplete (some d)) s = .next { s with eth := { s.eth with mdioBusy := false } }) ∧
  (∀ s : State, s.eth.mdioBusy = true → s.fld 0x40051000 26 2 ≠ 2 →
    exec (.mdioComplete none) s = .next { s with
      regs := setReg s.regs 0x40051000 (s.rd 0x40051000 ||| 0x20000000), eth := { s.eth with mdioBusy := false } }) ∧
  (∀ s : State, s.eth.mdioBusy = true → s.fld 0x40051000 26 2 = 2 → RegsWf s →
    exec (.mdioComplete none) s = .next { s with
      regs := setReg (setReg s.regs 0x40051000 (putField (s.rd 0x40051000) 0 16 0xFFFF)) 0x40051000
        (putField (s.rd 0x40051000) 0 16 0xFFFF ||| 0x20000000)
      eth := { s.eth with mdioBusy := false } }) ∧
  (∀ (s : State) (p : Fin 17) (v : Word), exec (.gateWrite p v) s = .next { s with
    regs := setReg s.regs (0x40040104 + 0x20 * p) (writeFields (fieldsAt (0x40040104 + 0x20 * p)) (s.rd (0x40040104 + 0x20 * p)) v) }) ∧
  (∀ (s : State) (p : Fin 12), (s.eport p).link = false →
    exec (.ageoutStart p) s = .next (s.setEport p fun e => { e with aging := true })) ∧
  (∀ (s : State) (p : Fin 12), (s.eport p).aging = true → (s.eport p).link = false → (selectNext s p).1 = none →
    exec (.ageoutDiscard p) s = .next s) ∧
  (∀ (s : State) (p : Fin 12) (c : Nat × Nat), (s.eport p).aging = true → (s.eport p).link = false → (selectNext s p).1 = some c →
    ∃ t, exec (.ageoutDiscard p) s = .next t ∧ t.bob.nextId = s.bob.nextId ∧ t.bob.queue.length ≤ s.bob.queue.length ∧
      t = { s with bob := t.bob, hl := { s.hl with rings := t.hl.rings } })

/-- The fabric (R453, R458, R465, R466, R469, R470, R472, R473, R475, R476, R484, R506, R651, R654). -/
def Obligations.FabricCommands : Prop :=
  (∀ (s : State) (n : Nat) (f : Frame), s.frame? n = some f → f.whole = true → f.eligible = false → f.stage = .held → f.bad = false → f.trunc = false →
    exec (.frameEnd n) s = .next { s with bob := { s.bob with
      frames := s.bob.frames.map fun g => if g.id = n then { g with
        eligible := true, cells := cellsOf f.bytes.length, bytes := if g.csumIns then insertCsums g.bytes else g.bytes
        rewritten := g.rewritten || g.csumIns } else g
      queue := s.bob.queue.map fun e => if e.frame = n then { e with cells := cellsOf f.bytes.length } else e } }) ∧
  (∀ (s : State) (n : Nat) (f : Frame), s.frame? n = some f → f.whole = true → f.eligible = false → f.stage = .held → f.bad = true → onWire s n = false →
    ∃ t, exec (.frameEnd n) s = .next t ∧ t.bob.queue = s.bob.queue.filter (fun e => e.frame != n) ∧
      t = { s with bob := t.bob, hl := { s.hl with rings := t.hl.rings } }) ∧
  (∀ (s : State) (n : Nat) (f : Frame), s.frame? n = some f → mayCut s f = true → (s.egress ((directWire s f).getD 0)).cur.isSome = true →
    exec (.cutThroughStart n) s = .next (s.setFrame n fun f => { f with cut := true })) ∧
  (∀ (s : State) (n : Nat) (f : Frame), s.frame? n = some f → f.bad = true → onWire s n = true →
    ∃ t, exec (.frameStomp n) s = .next t ∧ t.bob.queue = s.bob.queue.filter (fun e => e.frame != n) ∧
      t = { s with bob := t.bob, hl := { s.hl with rings := t.hl.rings }, skn := { s.skn with out := t.skn.out } }) ∧
  (∀ (s : State) (p : Fin 14) (c : Nat × Nat) (g : Egress), p.val < 12 → (s.egress p).cur = none → portUp s p = true → throughEgress s p = false →
    selectNext s p = (some c, g) →
    ∃ t, exec (.egressFrameStart p) s = .next t ∧ t.eth = (s.setEport p fun e => { e with lpiTx := false }).eth ∧
      ((s.frame? c.2).all (fun f => f.flips == 0 && !f.uncorr) = true → t.regs = s.regs ∧
        t.bob = (s.setEgress p fun _ => { g with cur := some c.2, stomped := false }).bob) ∧
      t = { s with bob := t.bob, eth := t.eth, ply := t.ply, regs := t.regs }) ∧
  (∀ (s : State) (p : Fin 14), p.val < 12 → (selectNext s p).1 = none → exec (.egressFrameStart p) s = .next s) ∧
  (∀ (s : State) (p : Fin 14) (b n d rb : Nat) (f : Frame), 12 ≤ p.val → skeinNext s p = some (b, n) → s.frame? n = some f →
    remoteOf s f.bobbin = some (d, rb) →
    ∃ t pay, exec (.egressFrameStart p) s = .next t ∧ (t.egress p).cur = some n ∧ t.skn.txSeq = (s.skn.txSeq + 1) % 65536 ∧
      t.skn.out = s.skn.out ++ [.frame (p.val - 12) (mkHdr 0 f.tc f.colour ((hopsTo s (p.val - 12) d).getD 0) (d * 65536 + rb)
        s.skn.dev.toNat pay.length s.skn.txSeq) pay] ∧ t = { s with bob := t.bob, skn := t.skn, regs := t.regs }) ∧
  (∀ (s : State) (p : Fin 14), 12 ≤ p.val → skeinNext s p = none → exec (.egressFrameStart p) s = .next s) ∧
  (∀ (s : State) (p : Fin 14) (n : Nat) (f : Frame), p.val < 12 → (s.egress p).cur = some n → s.frame? n = some f → f.whole = true →
    ∃ t, exec (.egressFrameEnd p) s = .next t ∧
      t.bob.egress = (s.setEgress p fun g => { g with
        cur := none, stomped := false, framesOut := g.framesOut + 1
        sent := if (s.egress p).stomped then stompFcs f.bytes else if f.rewritten then reFcs f.bytes else f.bytes
        copyBuf := if g.copyBuf.head? = some n then g.copyBuf.tail else g.copyBuf }).bob.egress ∧
      t = { s with bob := t.bob, hl := { s.hl with rings := t.hl.rings } }) ∧
  (∀ s : State, nextTrain s = none → exec .trainLaunch s = .next s) ∧
  (∀ (s : State) (e : QEntry) (f : Frame), nextTrain s = some e → s.frame? e.frame = some f →
    ∃ t, exec .trainLaunch s = .next t ∧ t.bob.nextId = s.bob.nextId ∧
      (f.uncorr = false → t.bob.rrTrain = Tab.set (fun _ => 0) s.bob.rrTrain (bobTc s e.bobbin) e.bobbin) ∧
      (f.uncorr = true → t.bob.queue = s.bob.queue.filter fun x => x.frame != e.frame) ∧
      t = { s with bob := t.bob, regs := t.regs, hl := { s.hl with rings := t.hl.rings } })

/-! ### CAN controllers (chapter 11) -/

/-- CAN control (R550, R555, R560, R571 to R573, R580). -/
def Obligations.CanControlCommands : Prop :=
  (∀ (s : State) (n : Fin 8) (who : Owner) (v : Word), canOwner s n = who →
    exec (.canTxreqWrite n who v) s = .next (s.setCan n fun c => { c with txreq := c.txreq ||| v })) ∧
  (∀ (s : State) (n : Fin 8) (who : Owner) (v : Word), canOwner s n ≠ who →
    exec (.canTxreqWrite n who v) s = .next s ∧ exec (.canTxcancel n who v) s = .next s ∧ exec (.canPop n who v) s = .next s) ∧
  (∀ (s : State) (n : Fin 8) (who : Owner) (v : Word), canOwner s n = who → (s.canOf n).onBus = none →
    exec (.canTxcancel n who v) s = .next (s.setCan n fun c => { c with txreq := c.txreq &&& ~~~ v })) ∧
  (∀ (s : State) (n : Fin 8) (who : Owner) (v : Word) (b : Nat), canOwner s n = who → (s.canOf n).onBus = some b →
    exec (.canTxcancel n who v) s = .next (s.setCan n fun c => { c with
      txreq := c.txreq &&& ~~~ (v &&& ~~~ BitVec.ofNat 32 (2 ^ b)), cancelWait := c.cancelWait ||| (v &&& BitVec.ofNat 32 (2 ^ b) &&& c.txreq) })) ∧
  (∀ (s : State) (n : Fin 8) (who : Owner) (v : Word), canOwner s n = who →
    exec (.canPop n who v) s = .next (s.setCan n fun c => { c with
      rxf0 := if bitOf v 0 then c.rxf0.drop 1 else c.rxf0, rxf1 := if bitOf v 1 then c.rxf1.drop 1 else c.rxf1
      tef := if bitOf v 2 then c.tef.drop 1 else c.tef })) ∧
  (∀ (s : State) (n : Fin 8) (t : Tick) (b : Nat), CanOn s n → (s.canOf n).listen = false → (s.canOf n).onBus = none →
    canBest (s.canOf n) = some b →
    exec (.canTxStart n t none) s = .next (s.setCan n fun c => { c with onBus := some b, onBusTick := t })) ∧
  (∀ (s : State) (n : Fin 8) (t : Tick) (d b : Nat), CanOn s n → (s.canOf n).listen = false → (s.canOf n).onBus = none →
    canBest (s.canOf n) = some b →
    ∃ u, exec (.canTxStart n t (some d)) s = .next u ∧ u = canMeasure n b d (s.setCan n fun c => { c with onBus := some b, onBusTick := t }) ∧
      u = { s with can := u.can, regs := u.regs, stw := u.stw }) ∧
  (∀ (s : State) (n : Fin 8) (t : Tick) (d : Option Nat), canBest (s.canOf n) = none → exec (.canTxStart n t d) s = .next s) ∧
  (∀ (s : State) (n : Fin 8), (s.canOf n).enabled = true → (s.canOf n).st = .integrating →
    exec (.canIntegrate n) s = .next (s.setCan n fun c => { c with
      st := if 256 ≤ c.tec then .busOff else if 128 ≤ c.tec ∨ 128 ≤ c.recv then .passive else .active, changed := s.ply.reel })) ∧
  (∀ (s : State) (n : Fin 8), (s.canOf n).enabled = true → (s.canOf n).st = .busOff →
    ∃ t, exec (.canBusoffRecovery n) s = .next t ∧
      t.can = (s.setCan n fun c => { c with st := .active, tec := 0, recv := 0, busOffs := c.busOffs + 1, changed := s.ply.reel }).can ∧
      t = { s with can := t.can, whl := t.whl, regs := t.regs, stw := t.stw, sys := t.sys }) ∧
  (∀ (s : State) (n : Fin 8), (s.canOf n).enabled = true → (s.canOf n).onBus = none →
    exec (.canCtrlApply n) s = .next (s.setCan n fun c => { c with
      listen := bitOf (s.rd (canBase n)) 30, noMatch := bitsOf (s.rd (canBase n)) 4 2, fden := bitOf c.dbt 31 })) ∧
  (∀ (s : State) (n : Fin 8) (nbt dbt tdc : Word) (h : Nat), (s.canOf n).pend = some (nbt, dbt, tdc, h) → txn? s h = none →
    exec (.canTimingReload n true) s = .next (s.setCan n fun c => { c with
      nbt := nbt &&& 0xFFFFFFFE, dbt := dbt &&& 0x9F1F1F1F, tdc := tdc &&& 0x807F0000, fden := bitOf dbt 31, pend := none
      st := if c.st = .busOff then .busOff else .integrating, onBus := none, changed := s.ply.reel })) ∧
  (∀ (s : State) (n : Fin 8) (nbt dbt tdc : Word) (h : Nat) (forced : Bool), (s.canOf n).pend = some (nbt, dbt, tdc, h) →
    forced = true ∨ (s.canOf n).onBus = none → exec (.canTimingReload n forced) s = .next (txnAdvance h (setTxn h (fun x => { x with
      canLeft := x.canLeft &&& ~~~ BitVec.ofNat 8 (2 ^ n.val), canMask := x.canMask ||| BitVec.ofNat 8 (2 ^ n.val) })
        (noteApplied h 0x0202 n true (canLoadTiming n nbt dbt tdc s))))) ∧
  (∀ (s : State) (n : Fin 8) (forced : Bool), (s.canOf n).pend = none → exec (.canTimingReload n forced) s = .next s)

/-- CAN traffic and wake (R546, R551 to R554, R562, R564, R566, R568, R569). -/
def Obligations.CanTrafficCommands : Prop :=
  (∀ (s : State) (n : Fin 8) (ec : CanErr) (b : Nat), (s.canOf n).onBus = some b →
    exec (.canTxDone n .sent ec) s = .next (canCounters n ec (canTxEvent n { buf := b, result := 0, tick := (s.canOf n).onBusTick }
      (s.setCan n fun c => { c with
        onBus := none, txreq := c.txreq &&& ~~~ BitVec.ofNat 32 (2 ^ b), cancelWait := c.cancelWait &&& ~~~ BitVec.ofNat 32 (2 ^ b)
        framesTx := c.framesTx + 1 })))) ∧
  (∀ (s : State) (n : Fin 8) (ec : CanErr) (b : Nat), (s.canOf n).onBus = some b → bitOf (txbCtlw (s.canOf n) b) 28 = false →
    (s.canOf n).cancelWait &&& BitVec.ofNat 32 (2 ^ b) = 0 →
    exec (.canTxDone n .lostArbitration ec) s = .next (canCounters n ec (s.setCan n fun c => { c with
      onBus := none, cancelWait := c.cancelWait &&& ~~~ BitVec.ofNat 32 (2 ^ b) }))) ∧
  (∀ (s : State) (n : Nat) (e : CanEvent), (s.canOf n).tef.length < 16 →
    canTxEvent n e s = canEvent n 2 (s.setCan n fun c => { c with tef := c.tef ++ [e] })) ∧
  (∀ (s : State) (n : Fin 8) (res : CanTxResult) (ec : CanErr) (b : Nat), (s.canOf n).onBus = some b →
    ∃ t, exec (.canTxDone n res ec) s = .next t ∧ t = { s with can := t.can, whl := t.whl, regs := t.regs, stw := t.stw, sys := t.sys }) ∧
  (∀ (s : State) (n : Fin 8) (res : CanTxResult) (ec : CanErr), (s.canOf n).onBus = none → exec (.canTxDone n res ec) s = .next s) ∧
  (∀ (s : State) (n : Fin 8) (x : CanSamples) (g : CanFrame) (t : Tick) (ec : CanErr) (i : Nat), CanOn s n → g = canSampled (bitOf (s.canOf n).nbt 31) x →
    (bitOf g.ctlw 31 = true → (s.canOf n).fden = true) → canRoute s n g.idw = (1, some i) → (s.canOf n).rxf0.length < 32 →
    ∃ u, exec (.canFrameRx n x t .good ec) s = .next u ∧
      u = canCounters n ec (canEvent n 0 (s.setCan n fun c => { c with
        rxf0 := c.rxf0 ++ [{ ledger := t, f := { g with
          ctlw := (g.ctlw &&& 0xE00F0000) ||| BitVec.ofNat 32 i
          data := g.data.take (if bitOf g.idw 30 then 0 else dlcLen (bitOf g.ctlw 31) (dlcOf g.ctlw)) } }]
        framesRx := c.framesRx + 1 })) ∧
      u = { s with can := u.can, whl := u.whl, regs := u.regs, stw := u.stw, sys := u.sys }) ∧
  (∀ f f1 f2 : CanFrame, canSampled false ⟨f, f1, f2⟩ = f ∧ ∀ i, bitOf (canSampled true ⟨f, f1, f2⟩).idw i =
    ((bitOf f.idw i && bitOf f1.idw i) || (bitOf f.idw i && bitOf f2.idw i) || (bitOf f1.idw i && bitOf f2.idw i))) ∧
  (∀ (s : State) (n : Fin 8) (x : CanSamples) (g : CanFrame) (t : Tick) (ec : CanErr) (i : Nat), CanOn s n → g = canSampled (bitOf (s.canOf n).nbt 31) x →
    (bitOf g.ctlw 31 = true → (s.canOf n).fden = true) → canRoute s n g.idw = (2, some i) → 32 ≤ (s.canOf n).rxf1.length →
    exec (.canFrameRx n x t .good ec) s = .next (canCounters n ec (canFlag n 2 (s.setCan n fun c => { c with rxLost := c.rxLost + 1 })))) ∧
  (∀ (s : State) (n : Fin 8) (x : CanSamples) (t : Tick) (ec : CanErr) (res : CanRxResult), CanOn s n → res = .error ∨
      (s.canOf n).fden = false ∧ (res = .resRecessive ∨ bitOf (canSampled (bitOf (s.canOf n).nbt 31) x).ctlw 31 = true) →
    exec (.canFrameRx n x t res ec) s = .next (canCounters n ec (s.setCan n fun c => { c with errs := c.errs + 1 }))) ∧
  (∀ (s : State) (n : Fin 8) (x : CanSamples) (t : Tick) (ec : CanErr), CanOn s n → (s.canOf n).fden = true →
    exec (.canFrameRx n x t .resRecessive ec) s = .next (s.setCan n fun c => { c with pexc := c.pexc + 1, st := .integrating, onBus := none, changed := s.reel })) ∧
  (∀ (s : State) (n : Nat) (ec : CanErr), (s.canOf n).listen = true → canCounters n ec s = s) ∧
  (∀ (s : State) (n : Fin 8), exec (.canWakeDominant n) s = .next (if s.fld (canBase n + 0x40) 30 2 = 1 then wakeFire 4 s else s) ∧
    exec (.wakeSourceFire 4) s = .next (wakeFire 4 s)) ∧
  (∀ (s u : State) (n : Fin 8) (f : CanFrame), s.fld (canBase n + 0x40) 30 2 = 2 → s.sys.mode = .drowse →
    u = s.setCan n (fun c => { c with fec := if bitOf f.ctlw 31 then c.fec else c.fec - 1 }) →
    exec (.canWakeFrame n f) s = .next (if wakeMatch s n f then wakeFire 4 u else u)) ∧
  (∀ (s : State) (n : Fin 8) (e g : Nat), s.fld (canBase n + 0x40) 30 2 = 2 → s.sys.mode = .drowse →
    exec (.canWakeFec n e g) s = .next (if (s.canOf n).fec - g + e < 32 then s.setCan n fun x => { x with fec := (s.canOf n).fec - g + e }
      else wakeFire 4 (s.setCan n fun x => { x with fec := 32, fecFired := true })))

/-! ### Plies and time services (chapter 13) -/

/-- Plies (R614 to R617, R625, R627, R630, R631, R636). -/
def Obligations.TimeCommands : Prop :=
  (∀ (s : State) (k : Fin 8) (v : Word), bitOf v 0 = true ∨ bitOf v 1 = true → (s.plyOf k).chg = none →
    exec (.plyChangePost k v) s = .next (s.setPly k fun p => { p with chg := some (chgOf s k v) }) ∧
    (∀ i, (chgOf s k v).incr = some i → 4209067950 ≤ i ∧ i ≤ 4380866641)) ∧
  (∀ (s : State) (k : Fin 8) (v : Word), (bitOf v 0 = false ∧ bitOf v 1 = false) ∨ (s.plyOf k).chg.isSome = true →
    exec (.plyChangePost k v) s = .next s) ∧
  (∀ (s : State) (k : Fin 8) (c : PlyChange) (e : Hist), (s.plyOf k).chg = some c → c.step = none → c.at' ≤ s.ply.reel →
    histFor (s.plyOf k).hist c.at' = some e → exec (.plyChangeApply k) s = .next (s.setPly k fun p => { pushHist {
      t := c.at', sec := (plySplit (histAt e c.at' 0)).1, ns := (plySplit (histAt e c.at' 0)).2.1, frac := (plySplit (histAt e c.at' 0)).2.2
      incr := c.incr.getD (plyIncrement s k) } p with chg := none })) ∧
  (∀ (s : State) (k : Fin 8) (c : PlyChange) (e : Hist) (a b : Nat), (s.plyOf k).chg = some c → c.step = some (true, a, b) → c.at' ≤ s.ply.reel →
    histFor (s.plyOf k).hist c.at' = some e → histAt e c.at' 0 < plyTotal a b 0 →
    ∃ t, exec (.plyChangeApply k) s = .next t ∧ t.regs = setReg s.regs (0x40080100 + 0x40 * k) (s.rd (0x40080100 + 0x40 * k) ||| 4) ∧
      t.ply = (s.setPly k fun p => { pushHist { t := c.at', sec := 0, ns := 0, frac := 0, incr := c.incr.getD (plyIncrement s k) } p with chg := none }).ply ∧
      (t.sys.recorder.getLast?.map FaultRec.code) = some 0x62 ∧ t.stw = { s.stw with ipend := s.stw.ipend ||| 0x200 } ∧
      t = { s with ply := t.ply, regs := t.regs, stw := t.stw, sys := t.sys }) ∧
  (∀ (s : State) (k : Fin 8), (s.plyOf k).chg = none → exec (.plyChangeApply k) s = .next s) ∧
  (∀ (s : State) (k : Fin 8), exec (.plySecloRead k) s = .next { s with
    rdata := BitVec.ofNat 32 (plyValue s k).1
    latch := Tab.set (fun _ => none) (Tab.set (fun _ => none) s.latch (0x40080100 + 0x40 * k + 8) (some (BitVec.ofNat 32 ((plyValue s k).1 / 2 ^ 32))))
      (0x40080100 + 0x40 * k + 12) (some (BitVec.ofNat 32 (plyValue s k).2.1)) }) ∧
  (∀ (s : State) (k : Fin 8) (y : SyncSample), 1 ≤ tsService s k → tsService s k ≤ 4 → s.sys.limp = false →
    ∃ t, exec (.timeSync k y) s = .next t ∧ t = servo k y (reachTick y.tick s) ∧ t = { s with ply := t.ply, sys := t.sys }) ∧
  (∀ (s : State) (k : Fin 8) (y : SyncSample), tsService s k = 0 ∨ s.sys.limp = true → exec (.timeSync k y) s = .next s) ∧
  (∀ (s : State) (k : Fin 8), tsService s k = 2 ∨ tsService s k = 3 → s.sys.limp = false → tsPort s k < 12 → (s.eport (tsPort s k)).link = true →
    ∃ t b g, exec (.timeServiceSend k) s = .next t ∧ t.free = s.free + 1 ∧
      t.bob = (s.setEgress (tsPort s k) fun g => { g with framesOut := g.framesOut + 1 }).bob ∧
      t.ply = (ledgerTx (tsPort s k) s.ply.reel b g s).ply ∧ t = { s with free := t.free, bob := t.bob, ply := t.ply }) ∧
  (∀ (s : State) (k : Fin 8), 1 ≤ tsService s k → tsService s k ≤ 4 → (s.plyOf k).holdover = false →
    exec (.holdover k) s = .next { s.setPly k fun p => { p with holdover := true } with
      stw := { s.stw with ipend := s.stw.ipend ||| 0x200 }, sys := pushFault (faultRec s 0x61 8 [BitVec.ofNat 8 k]) s.sys }) ∧
  (∀ s : State, (s.skn.master = false ∨ s.sys.mode = .drowse → exec .cascadeTimeBlock s = .next s) ∧
    (s.skn.master = true → s.sys.mode ≠ .drowse → ∃ b u, exec .cascadeTimeBlock s = .next (timeTx 1 b (timeTx 0 b u)) ∧
      b.originNs = plyNow s 7 / 2 ^ 32 ∧ b.corrNs = 0 ∧ (tsSrc s 7 = 7 → u = s) ∧ u = { s with ply := u.ply })) ∧
  (∀ (s u : State) (l : Fin 2) (b : TimeBlock) (a : Tick), u = ledgerSkein l 2 a (reachTick a (sknRx l s)) →
    (carries s l 2 = false → exec (.cascadeTimeReceive l b a) s = .next s) ∧
    (carries s l 2 = true → s.skn.master = true ∨ s.skn.assigned = false ∨ l.val ≠ (if s.skn.hopsE ≤ s.skn.hopsW then 0 else 1) →
      exec (.cascadeTimeReceive l b a) s = .next u) ∧
    (carries s l 2 = true → s.skn.master = false → s.skn.assigned = true → l.val = (if s.skn.hopsE ≤ s.skn.hopsW then 0 else 1) →
      ∃ v c, exec (.cascadeTimeReceive l b a) s = .next (timeTx (1 - l : Fin 2) { b with corrNs := c }
          { v with skn := { v.skn with lastOrigin := some b.originNs } }) ∧
        b.corrNs + (s.linkOf l).delayNs ≤ c ∧ (s.sys.limp = true → v = u) ∧ v = { u with ply := v.ply, sys := v.sys })) ∧
  (∀ (s : State) (l : Fin 2) (n : Nat), exec (.linkDelayExchange l n) s = .next (if canSend s l 3 then ledgerSkein l 4 s.ply.reel
    (ledgerSkein l 3 s.ply.reel (s.setLink l fun k => { k with delayNs := n, txFrm := k.txFrm + 1, rxFrm := k.rxFrm + 1 })) else s))

/-! ### The operator panel (chapter 15) -/

/-- The panel (R693, R696, R699, R700, R702, R705, R733). -/
def Obligations.PanelCommands : Prop :=
  (∀ (s : State) (r : Fin 8) (cols idle : BitVec 16) (btns : BitVec 8), pnlRuns s = false →
    exec (.panelRowScan r cols idle btns) s = .next s ∧ exec (.encoderSample btns) s = .next s) ∧
  (∀ (s : State) (r : Fin 8) (cols idle : BitVec 16) (btns : BitVec 8), pnlRuns s = true → s.sys.mode ≠ .drowse → s.sys.entering = false →
    ∃ t, exec (.panelRowScan r cols idle btns) s = .next t ∧ t.sys.mode = s.sys.mode ∧
      t = { s with pnl := t.pnl, regs := t.regs, stw := t.stw, sys := t.sys }) ∧
  (∀ (s : State) (ph : BitVec 8), pnlRuns s = true → s.sys.mode ≠ .drowse → s.sys.entering = false →
    ∃ t, exec (.encoderSample ph) s = .next t ∧ t = { s with pnl := t.pnl, regs := t.regs, stw := t.stw }) ∧
  (∀ (s : State) (k ms : Nat) (closed : Bool), closed = (s.key k).pressed → keySample k closed ms s = s.setKey k fun q => { q with run := 0 }) ∧
  (∀ (s : State) (k ms : Nat), (s.key k).pressed = false → (s.key k).run + 1 < s.fld pnlCfg 0 8 →
    keySample k true ms s = s.setKey k fun q => { q with run := q.run + 1, since := if (s.key k).run = 0 then ms else (s.key k).since }) ∧
  (∀ (s : State) (k : Fin 136), pnlRuns s = true → (s.key k).pressed = true → (s.key k).masked = false → (s.key k).noRep = false →
    keyMode s k = 2 → ∃ t, exec (.keyRepeat k) s = .next t ∧
      t = pnlEnter k 0 (repeatMs s k) ((reachMs (repeatMs s k) s).setKey k fun q => { q with reps := q.reps + 1 }) ∧
      t = { s with pnl := t.pnl, ply := { s.ply with reel := t.ply.reel } }) ∧
  (∀ (s : State) (k : Fin 136), pnlRuns s = true → (s.key k).pressed = true → (s.key k).masked = false → s.fld pnlCfg 16 8 ≠ 0 →
    ∃ t, exec (.keyStuck k) s = .next t ∧
      t = pnlEnter k 4 (stuckMs s k) ((reachMs (stuckMs s k) s).setKey k fun q => { q with masked := true }) ∧
      t = { s with pnl := t.pnl, ply := { s.ply with reel := t.ply.reel } }) ∧
  (∀ (s : State) (k kind ms : Nat), s.sys.mode ≠ .drowse → s.pnl.queue.length < 64 →
    pnlEnter k kind ms s = { s with pnl := { s.pnl with queue := s.pnl.queue ++ [⟨k, kind, ms⟩] } }) ∧
  (∀ (s : State) (k kind ms : Nat), 64 ≤ s.pnl.queue.length → pnlEnter k kind ms s = { s with pnl := { s.pnl with lost := min 255 (s.pnl.lost + 1) } }) ∧
  (∀ (s : State) (e : PEntry) (q : List PEntry), s.pnl.queue = e :: q → exec .pnlQpopRead s = .next { s with
    rdata := BitVec.ofNat 32 (e.kind * 256 + e.key), pnl := { s.pnl with queue := q, popMs := e.ms } }) ∧
  (∀ s : State, s.pnl.queue = [] → exec .pnlQpopRead s = .next { s with rdata := 0xFF }) ∧
  (∀ (src : ReqSrc) (q : Req) (s t : State) (n : Nat), Served 0x0801 9 anyMode src q s t → n = par q 8 1 →
    (n = 0 ∨ 30 < n → exec (.pnlEvents src) s = .next (answer q .badParam 8 [] t)) ∧
    (1 ≤ n → n ≤ 30 → exec (.pnlEvents src) s = .next (answer q .ok 0 (leBytes 1 (s.pnl.queue.take n).length ++ leBytes 1 s.pnl.lost ++ leBytes 2 0 ++
      (s.pnl.queue.take n).flatMap fun e => leBytes 1 e.key ++ leBytes 1 e.kind ++ leBytes 2 0 ++ leBytes 4 e.ms)
      { t with pnl := { t.pnl with queue := s.pnl.queue.drop n, lost := 0 } }))) ∧
  (∀ (src : ReqSrc) (q : Req) (s t : State), Served 0x0902 28 serviceOnly src q s t →
    exec (.tagAuthSet src) s = .next (answer q .ok 0 [] { t with dst := { t.dst with
      waiting := t.dst.waiting ++ [.nameplate [(248, q.msg.extract 8 28 ++ List.replicate 12 0)]] } })) ∧
  (∀ (src : ReqSrc) (card : Option (List Byte)) (q : Req) (s t : State), Served 0x0903 10 spinOrService src q s t →
    (2 < par q 8 1 → exec (.readerScan src card) s = .next (answer q .badParam 8 [] t)) ∧
    (par q 8 1 ≤ 1 → 3 < par q 9 1 → exec (.readerScan src card) s = .next (answer q .badParam 9 [] t)) ∧
    (par q 8 1 = 2 → 0 < par q 9 1 → exec (.readerScan src card) s = .next (answer q .badParam 9 [] t)) ∧
    (par q 8 1 ≤ 1 ∧ par q 9 1 ≤ 3 ∨ par q 8 1 = 2 ∧ par q 9 1 = 0 → exec (.readerScan src card) s = .next
      (if s.tag.field then answer q .busy 0 [] t else answer q .ok 0 (uidBytes card) t)))

/-! ### Flyers and pins (chapter 08). `flySideSet f w s` is the state after the word's side-set, which changes pins alone. An instruction reads pins as they were before it. -/

/-- Flyer instructions, first part (R404, R407, R408, R411 to R413, R415, R416, R428). -/
def Obligations.FlyerDataInstructions : Prop :=
  (∀ (s : State) (f : Nat) (w : Word), flySideSet f w s = { s with fly := { s.fly with pins := (flySideSet f w s).fly.pins } } ∧
    (bitOf w 5 = false → flySideSet f w s = s)) ∧
  (∀ (s : State) (f : Fin 48), ((s.flyer f).halted || (s.flyer f).stalled || (s.flyer f).delaying) = true →
    exec (.flyBra f) s = .next s ∧ exec (.flyAwait f) s = .next s ∧ exec (.flyTake f) s = .next s ∧ exec (.flyGive f) s = .next s ∧
    exec (.flyLoad f) s = .next s ∧ exec (.flyStore f) s = .next s) ∧
  (∀ (s : State) (f : Fin 48) (w : Word), flyReady s f 0x0 = true → flyWord s f = w →
    (bitsOf w 16 4 = 0 → exec (.flyBra f) s = .next ((flySideSet f w s).setFlyer f fun x => { x with pc := bitsOf w 6 9 })) ∧
    (bitsOf w 16 4 = 5 → exec (.flyBra f) s = .next ((flySideSet f w s).setFlyer f fun x => { x with
      x := if x.x = 0 then x.x else x.x - 1, pc := if x.x = 0 ∨ x.x = 1 then (x.pc + 1) % 512 else bitsOf w 6 9 })) ∧
    (∃ t, exec (.flyBra f) s = .next t ∧ t = (flySideSet f w s).setFlyer f fun _ => { (braTaken s f (bitsOf w 16 4)).2 with
      pc := if (braTaken s f (bitsOf w 16 4)).1 then bitsOf w 6 9 else ((s.flyer f).pc + 1) % 512 })) ∧
  (∀ (s : State) (f : Fin 48) (w : Word), flyReady s f 0x1 = true → flyWord s f = w →
    (awaitHolds s f w = true → bitsOf w 17 2 ≠ 2 → exec (.flyAwait f) s = .next (flyNext f (flySideSet f w s))) ∧
    ((s.flyer f).go = true → bitsOf w 17 2 = 2 →
      exec (.flyAwait f) s = .next (flyNext f ((flySideSet f w s).setFlyer f fun x => { x with go := false }))) ∧
    (awaitHolds s f w = false → exec (.flyAwait f) s = .next ((flySideSet f w s).setFlyer f fun x => { x with stalled := true }))) ∧
  (∀ (s : State) (f : Fin 48) (w : Word), flyReady s f 0x2 = true → flyWord s f = w →
    exec (.flyTake f) s = .next (flyNext f ((flySideSet f w s).setFlyer f fun x => (takeBits s f (bitsOf w 17 3) (flyCnt w)).foldl
      (shTake1 (flyMsb s f)) (if bitsOf w 17 3 = 0 then { x with hunt := huntStep x.hunt } else x)))) ∧
  (∀ (s : State) (f : Fin 48) (w : Word), flyReady s f 0x3 = true → flyWord s f = w →
    (bitsOf w 17 3 = 1 → exec (.flyGive f) s = .next (flyNext f ((flySideSet f w s).setFlyer f fun x =>
      { (shGive (flyMsb s f) (flyIdle s f) (flyCnt w) x).2 with
        x := giveNum (flyMsb s f) (shGive (flyMsb s f) (flyIdle s f) (flyCnt w) x).1 }))) ∧
    (bitsOf w 17 3 = 3 → exec (.flyGive f) s = .next (flyNext f ((flySideSet f w s).setFlyer f fun x =>
      (shGive (flyMsb s f) (flyIdle s f) (flyCnt w) x).2))) ∧
    (∃ t, exec (.flyGive f) s = .next t ∧ t = { s with fly := { s.fly with fl := t.fly.fl, pins := t.fly.pins } })) ∧
  (∀ (s : State) (f : Fin 48) (w : Word), flyReady s f 0x4 = true → flyWord s f = w →
    (∀ v r, (s.flyer f).outF = v :: r →
      exec (.flyLoad f) s = .next (flyNext f ((flySideSet f w s).setFlyer f fun x => { x with sh := v, fill := 32, outF := r }))) ∧
    ((s.flyer f).outF = [] → bitOf w 19 = true →
      exec (.flyLoad f) s = .next ((flySideSet f w s).setFlyer f fun x => { x with stalled := true })) ∧
    ((s.flyer f).outF = [] → bitOf w 19 = false → exec (.flyLoad f) s = .next (flyNext f (flyFlag f 0 (flySideSet f w s))))) ∧
  (∀ (s : State) (f : Fin 48) (w : Word), flyReady s f 0x5 = true → flyWord s f = w →
    ((s.flyer f).inF.length < 8 →
      exec (.flyStore f) s = .next (flyNext f ((flySideSet f w s).setFlyer f fun x => { x with inF := x.inF ++ [x.sh], sh := 0, fill := 0 }))) ∧
    (8 ≤ (s.flyer f).inF.length → bitOf w 19 = true →
      exec (.flyStore f) s = .next ((flyFlag f 1 (flySideSet f w s)).setFlyer f fun x => { x with stalled := true })) ∧
    (8 ≤ (s.flyer f).inF.length → bitOf w 19 = false →
      exec (.flyStore f) s = .next (flyNext f ((flyFlag f 1 (flySideSet f w s)).setFlyer f fun x => { x with sh := 0, fill := 0 }))))

/-- Flyer instructions, second part (R407, R419, R422, R428, R431, R436). -/
def Obligations.FlyerControlInstructions : Prop :=
  (∀ (s : State) (f : Fin 48), ((s.flyer f).halted || (s.flyer f).stalled || (s.flyer f).delaying) = true →
    exec (.flyXfer f) s = .next s ∧ exec (.flyPut f) s = .next s ∧ exec (.flyHunt f) s = .next s ∧ exec (.flyAt f) s = .next s ∧
    exec (.flyEvt f) s = .next s ∧ exec (.flyDly f) s = .next s) ∧
  (∀ (s : State) (f : Fin 48) (w : Word), flyReady s f 0x6 = true → flyWord s f = w →
    (bitsOf w 17 3 = 1 → bitsOf w 15 2 = 0 → bitsOf w 12 3 = 2 →
      exec (.flyXfer f) s = .next (flyNext f ((flySideSet f w s).setFlyer f fun x => { x with x := x.y }))) ∧
    (bitsOf w 17 3 = 3 → bitsOf w 15 2 = 1 → bitsOf w 12 3 = 4 → exec (.flyXfer f) s =
      .next (flyNext f ((flySideSet f w s).setFlyer f fun x => { x with sh := ~~~ s.ply.reel.setWidth 32, fill := 32 }))) ∧
    (bitsOf w 17 3 = 2 → bitsOf w 15 2 = 2 → bitsOf w 12 3 = 0 → exec (.flyXfer f) s =
      .next (flyNext f ((flySideSet f w s).setFlyer f fun x => { x with y := bitRev (BitVec.ofNat 32 (ofBits (flyInBits s f 32))) }))) ∧
    (∃ t, exec (.flyXfer f) s = .next t ∧ t = { s with fly := { s.fly with fl := t.fly.fl, pins := t.fly.pins } })) ∧
  (∀ (s : State) (f : Fin 48) (w : Word), flyReady s f 0x7 = true → flyWord s f = w →
    (bitsOf w 17 3 = 2 → exec (.flyPut f) s =
      .next (flyNext f ((flySideSet f w s).setFlyer f fun x => { x with y := BitVec.ofNat 32 (bitsOf w 6 11) }))) ∧
    (bitsOf w 17 3 = 0 → exec (.flyPut f) s =
      .next (flyNext f (flyToPins f false (toBits 32 (BitVec.ofNat 32 (bitsOf w 6 11))) (flySideSet f w s))))) ∧
  (∀ (s : State) (f : Fin 48) (w : Word), flyReady s f 0x8 = true → flyWord s f = w →
    exec (.flyHunt f) s = .next ((flySideSet f w s).setFlyer f fun x => { x with
      stalled := true, hunt := { x.hunt with on := true, start := max x.hunt.start x.hunt.base, rd := none } })) ∧
  (∀ (s : State) (f : Fin 48) (w : Word), flyReady s f 0x9 = true → flyWord s f = w →
    (actBad (s.flyer f).x (s.flyer f).y = true → exec (.flyAt f) s = .next (flyNext f (flyFlag f 5 (flySideSet f w s)))) ∧
    (actBad (s.flyer f).x (s.flyer f).y = false → 16 ≤ (s.flyer f).aq.length →
      exec (.flyAt f) s = .next ((flySideSet f w s).setFlyer f fun x => { x with stalled := true })) ∧
    (actBad (s.flyer f).x (s.flyer f).y = false → (s.flyer f).aq.length < 16 →
      exec (.flyAt f) s = .next (flyNext f (actEnter f (s.flyer f).x (s.flyer f).y (flySideSet f w s))))) ∧
  (∀ (s : State) (f : Fin 48) (w : Word), flyReady s f 0xA = true → flyWord s f = w →
    (bitOf (s.rd (flyBase f + 0x24)) (bitsOf w 6 2) = false → exec (.flyEvt f) s = .next (flyNext f (flySideSet f w s))) ∧
    (bitOf (s.rd (flyBase f + 0x24)) (bitsOf w 6 2) = true →
      exec (.flyEvt f) s = .next (flyNext f (tinEvents (s.fld (flyBase f + 0x20) (8 * bitsOf w 6 2) 8) 1 (flySideSet f w s))))) ∧
  (∀ (s : State) (f : Fin 48) (w : Word), flyReady s f 0xB = true → flyWord s f = w →
    exec (.flyDly f) s = .next ((flySideSet f w s).setFlyer f fun x => { x with delaying := true })) ∧
  (∀ (s : State) (f : Fin 48), (s.flyer f).delaying = true →
    exec (.flyDlyExpiry f) s = .next (s.setFlyer f fun x => { x with delaying := false, pc := (x.pc + 1) % 512 })) ∧
  (∀ (s : State) (f : Fin 48), (s.flyer f).delaying = false → exec (.flyDlyExpiry f) s = .next s) ∧
  (∀ (s : State) (f : Fin 48), (s.flyer f).halted = false → (s.flyer f).stalled = false → (s.flyer f).delaying = false →
    flyLegal (flyWord s f) = false → exec (.flyIllop f) s = .next (flyHalt f (flyFlag f 9 s))) ∧
  (∀ (s : State) (f : Fin 48), flyLegal (flyWord s f) = true → exec (.flyIllop f) s = .next s) ∧
  (∀ (s : State) (f : Nat), bitOf (s.rd (flyBase f + 0x18)) 9 = false → ∃ t, t = flyFlag f 9 s ∧
    t.regs = setReg s.regs (flyBase f + 0x18) (s.rd (flyBase f + 0x18) ||| 0x200) ∧
    (t.sys.recorder.getLast?.map FaultRec.code) = some 0x40 ∧ t = { s with regs := t.regs, sys := t.sys, stw := t.stw })

/-- Flyer events (R411, R414, R418, R428 to R430, R432, R436, R437, R440, R445, R618, R619). -/
def Obligations.FlyerEventCommands : Prop :=
  (∀ (s : State) (f : Fin 48) (w : Word), flyWord s f = w →
    ((s.flyer f).stalled = false → exec (.flyStallEnd f) s = .next s) ∧
    ((s.flyer f).stalled = true → flyOp w = 4 → (s.flyer f).outF = [] → exec (.flyStallEnd f) s = .next s) ∧
    (∀ v r, (s.flyer f).stalled = true → flyOp w = 4 → (s.flyer f).outF = v :: r →
      exec (.flyStallEnd f) s = .next (flyUnstall f (s.setFlyer f fun x => { x with sh := v, fill := 32, outF := r }))) ∧
    ((s.flyer f).stalled = true → flyOp w = 1 → awaitHolds s f w = true → bitsOf w 17 2 ≠ 2 → exec (.flyStallEnd f) s = .next (flyUnstall f s)) ∧
    ((s.flyer f).stalled = true → flyOp w = 5 → (s.flyer f).inF.length < 8 →
      exec (.flyStallEnd f) s = .next (flyUnstall f (s.setFlyer f fun x => { x with inF := x.inF ++ [x.sh], sh := 0, fill := 0 }))) ∧
    ((s.flyer f).stalled = true → flyOp w = 9 → (s.flyer f).aq.length < 16 →
      exec (.flyStallEnd f) s = .next (flyUnstall f (actEnter f (s.flyer f).x (s.flyer f).y s)))) ∧
  (∀ (s : State) (f : Fin 48) (bs : List Bool) (h : Hunt) (c : Nat), (s.flyer f).hunt.on = true → h = huntTake (s.flyer f).hunt bs →
    (∀ p, huntSearch s f h (huntPeriod s f) 4096 (max h.start h.base) = (some p, c) →
      exec (.flyHuntLock f bs) s = .next (flyUnstall f (s.setFlyer f fun x => { x with hunt := { h with
        on := false, locked := true, anchor := p, start := p + 1, misses := 0, rd := huntResume h (s.fld (flyBase f + 0xC) 0 6) p } }))) ∧
    (huntSearch s f h (huntPeriod s f) 4096 (max h.start h.base) = (none, c) →
      exec (.flyHuntLock f bs) s = .next (s.setFlyer f fun x => { x with hunt := { h with start := c } }))) ∧
  (∀ (s : State) (f : Fin 48) (bs : List Bool), ((s.flyer f).hunt.locked = false → exec (.flySyncLoss f bs) s = .next s) ∧
    ∃ t, exec (.flySyncLoss f bs) s = .next t ∧ t = { s with fly := { s.fly with fl := t.fly.fl }, regs := t.regs, sys := t.sys, stw := t.stw }) ∧
  (∀ (s : State) (f : Fin 48) (who : Owner) (w : Word), flyOwner s f = who →
    exec (.flyIfifoRead f who) s = .next { s.setFlyer f fun x => { x with inF := x.inF.drop 1 } with rdata := ((s.flyer f).inF.head?).getD 0 } ∧
    (islandsUp s = true → exec (.flyActPost f who w) s = .next (actPost f (s.rd (flyBase f + 0x30)) w s) ∧
      exec (.flyOfifoWrite f who w) s = .next (if (s.flyer f).outF.length < 8 then s.setFlyer f fun x => { x with outF := x.outF ++ [w] }
        else flyFlag f 2 s))) ∧
  (∀ (s : State) (f : Fin 48) (who : Owner) (w : Word), flyOwner s f ≠ who →
    exec (.flyActPost f who w) s = .next s ∧ exec (.flyIfifoRead f who) s = .next { s with rdata := 0 } ∧ exec (.flyOfifoWrite f who w) s = .next s) ∧
  (∀ (s : State) (f : Fin 48), ∃ t u, exec (.plyActionFix f) s = .next t ∧ exec (.timedActionDue f) s = .next u ∧
    (∀ v, v = t ∨ v = u → v = { s with
      fly := { s.fly with fl := v.fly.fl, pins := v.fly.pins }, ply := { s.ply with reel := v.ply.reel }, regs := v.regs, sys := v.sys, stw := v.stw }) ∧
    t.fly.pins = s.fly.pins ∧
    ((s.flyer f).aq = [] → t = s ∧ u = s)) ∧
  (∀ (s : State) (f : Fin 48) (a : Action) (d : Nat), (s.flyer f).aq = [a] → a.at16 = some d → BitVec.ofNat 64 (d / 16) ≤ s.ply.reel →
    haltAt s f d = true ∨ flySsCount s f = 0 → exec (.timedActionDue f) s = .next (s.setFlyer f fun x => { x with
      aq := [], go := x.go || (!haltAt s f d && bitOf a.w1 13) })) ∧
  (∀ (s t : State) (f : Fin 48) (v : Word), islandsUp s = true → t = s.regWrite (flyBase f) v →
    exec (.flyCtrlWrite f v) s = .next (if bitOf (s.rd (flyBase f)) 31 = bitOf v 31 then t else if bitOf v 31 then flyStart f t else flyHalt f t)) ∧
  (∀ s : State, (s.txn.seamPins = [] → exec .seamHandover s = .next s) ∧
    ∀ p : SeamPin, s.txn.seamPins = [p] → s.txn.txns = [] → exec .seamHandover s =
      .next (pinHandover p.pin p.cfg (reachTick (p.tick + 4) { s with txn := { s.txn with seamPins := [] } }))) ∧
  (∀ (s t : State) (b : Fin 6) (pin : Fin 24) (up second : Bool) (frac : BitVec 4), t = s.setPin (24 * b + pin) (fun x => { x with ball := up }) →
    (s.fld (pinCfg (24 * b + pin)) 16 2 = 0 ∨ islandsUp s = false → exec (.pinEdge b pin up frac second) s = .next t) ∧
    (s.fld (pinCfg (24 * b + pin)) 16 2 = 3 → bitOf (s.rd (pinCfg (24 * b + pin))) 7 = false → islandsUp s = true →
      exec (.pinEdge b pin up frac second) s = .next (if second then { t with
        ply := { t.ply with pinRing := Tab.upd (fun _ => {}) t.ply.pinRing b fun r => { r with missed := r.missed + 1 } } }
      else ledgerPin b pin up frac.toNat s.ply.reel t)))

/-! ### The Yukin cores (chapter 04). `coreSets c rd v s` is the state with rd at `v` and pc advanced, nothing else changed but what a
single-bit error of the fetched word counts (R209). -/

/-- General registers (R210). -/
def Obligations.GeneralRegisterAccess : Prop :=
  (∀ g : Tab Word, gGet g 0 = 0) ∧ (∀ (g : Tab Word) (v : Word), gSet g 0 v = g) ∧
  (∀ (g : Tab Word) (r q : Nat) (v : Word), Tab.wf (fun _ => 0) g = true → r ≠ 0 →
    gGet (gSet g r v) q = (if q = r then v else gGet g q) ∧ Tab.wf (fun _ => 0) (gSet g r v) = true)

/-- The register group (R213, R218, Table 4.4). -/
def Obligations.YukinRegisterGroup : Prop :=
  (∀ (c : Core) (rd ra rb : GReg) (s : State) (a b : Word), coreReady c s → a = gGet (coreG c s) ra.toNat → b = gGet (coreG c s) rb.toNat →
    exec (.addR c rd ra rb) s = .next (coreSets c rd (a + b) s) ∧ exec (.subR c rd ra rb) s = .next (coreSets c rd (a - b) s) ∧
    exec (.andR c rd ra rb) s = .next (coreSets c rd (a &&& b) s) ∧ exec (.orR c rd ra rb) s = .next (coreSets c rd (a ||| b) s) ∧
    exec (.xorR c rd ra rb) s = .next (coreSets c rd (a ^^^ b) s) ∧
    exec (.sll c rd ra rb) s = .next (coreSets c rd (a <<< (b.toNat % 32)) s) ∧
    exec (.srl c rd ra rb) s = .next (coreSets c rd (a >>> (b.toNat % 32)) s) ∧
    exec (.sra c rd ra rb) s = .next (coreSets c rd (a.sshiftRight (b.toNat % 32)) s) ∧
    exec (.slt c rd ra rb) s = .next (coreSets c rd (if a.toInt < b.toInt then 1 else 0) s) ∧
    exec (.sltu c rd ra rb) s = .next (coreSets c rd (if a.toNat < b.toNat then 1 else 0) s) ∧
    exec (.mul c rd ra rb) s = .next (coreSets c rd (a * b) s) ∧
    exec (.mulh c rd ra rb) s = .next (coreSets c rd (BitVec.ofInt 32 (a.toInt * b.toInt / 2 ^ 32)) s) ∧
    exec (.mulhu c rd ra rb) s = .next (coreSets c rd (BitVec.ofNat 32 (a.toNat * b.toNat / 2 ^ 32)) s)) ∧
  (∀ (c : Core) (rd ra : GReg) (sh : BitVec 5) (s : State) (a : Word), coreReady c s → a = gGet (coreG c s) ra.toNat →
    exec (.slli c rd ra sh) s = .next (coreSets c rd (a <<< sh.toNat) s) ∧ exec (.srli c rd ra sh) s = .next (coreSets c rd (a >>> sh.toNat) s) ∧
    exec (.srai c rd ra sh) s = .next (coreSets c rd (a.sshiftRight sh.toNat) s) ∧
    exec (.clz c rd ra) s = .next (coreSets c rd (clzW a) s)) ∧
  (clzW 0 = 32) ∧
  (∀ a : Word, a ≠ 0 → (clzW a).toNat < 32 ∧ bitOf a (31 - (clzW a).toNat) = true ∧ ∀ i < (clzW a).toNat, bitOf a (31 - i) = false) ∧
  (∀ (rd ra rb : GReg) (s : State), stwGoes s = false → exec (.addR .steward rd ra rb) s = .next s) ∧
  (∀ (rd ra rb : GReg) (s : State), s.whl.slot = none → exec (.addR .whorl rd ra rb) s = .next s) ∧
  (∀ (rd ra rb : GReg) (s : State) (f : Flt), stwGoes s = true → stwFetch s = some f → exec (.addR .steward rd ra rb) s = .next (stwFault f s)) ∧
  (∀ (rd ra rb : GReg) (s : State), stwGoes s = true → stwFetch s = none → s.stw.ext = true → s.stw.xbudget = 0 →
    exec (.addR .steward rd ra rb) s = .next (stwFault { cause := 0x0A } (stwFetched s)))

/-- Division (R220, Table 4.4; forbidden in Yukin-W by R247). -/
def Obligations.YukinDivision : Prop :=
  (∀ (rd ra rb : GReg) (s : State) (a : Word), coreReady .steward s → a = gGet s.stw.g ra.toNat → gGet s.stw.g rb.toNat = 0 →
    exec (.divR .steward rd ra rb) s = .next (coreSets .steward rd 0xFFFFFFFF s) ∧
    exec (.divu .steward rd ra rb) s = .next (coreSets .steward rd 0xFFFFFFFF s) ∧
    exec (.remR .steward rd ra rb) s = .next (coreSets .steward rd a s) ∧ exec (.remu .steward rd ra rb) s = .next (coreSets .steward rd a s)) ∧
  (∀ (rd ra rb : GReg) (s : State), coreReady .steward s → gGet s.stw.g ra.toNat = 0x80000000 → gGet s.stw.g rb.toNat = 0xFFFFFFFF →
    exec (.divR .steward rd ra rb) s = .next (coreSets .steward rd 0x80000000 s) ∧
    exec (.remR .steward rd ra rb) s = .next (coreSets .steward rd 0 s)) ∧
  (∀ (rd ra rb : GReg) (s : State) (a b : Word), coreReady .steward s → a = gGet s.stw.g ra.toNat → b = gGet s.stw.g rb.toNat → b ≠ 0 →
    (∃ q : Word, exec (.divR .steward rd ra rb) s = .next (coreSets .steward rd q s) ∧
      (a = 0x80000000 ∧ b = 0xFFFFFFFF ∨ q.toInt = a.toInt.tdiv b.toInt)) ∧
    (∃ r : Word, exec (.remR .steward rd ra rb) s = .next (coreSets .steward rd r s) ∧ r.toInt = a.toInt.tmod b.toInt) ∧
    (∃ q : Word, exec (.divu .steward rd ra rb) s = .next (coreSets .steward rd q s) ∧ q.toNat = a.toNat / b.toNat) ∧
    (∃ r : Word, exec (.remu .steward rd ra rb) s = .next (coreSets .steward rd r s) ∧ r.toNat = a.toNat % b.toNat)) ∧
  (∀ (rd ra rb : GReg) (s : State), coreReady .whorl s →
    exec (.divR .whorl rd ra rb) s = .next (contract 1 s) ∧ exec (.divu .whorl rd ra rb) s = .next (contract 1 s) ∧
    exec (.remR .whorl rd ra rb) s = .next (contract 1 s) ∧ exec (.remu .whorl rd ra rb) s = .next (contract 1 s))

/-- Immediates, fields, permute (R221, R222, Table 4.5). -/
def Obligations.YukinImmediateGroup : Prop :=
  (∀ (c : Core) (rd ra : GReg) (imm : BitVec 16) (s : State) (a : Word), coreReady c s → a = gGet (coreG c s) ra.toNat →
    exec (.addi c rd ra imm) s = .next (coreSets c rd (a + imm.signExtend 32) s) ∧
    exec (.andi c rd ra imm) s = .next (coreSets c rd (a &&& imm.setWidth 32) s) ∧
    exec (.ori c rd ra imm) s = .next (coreSets c rd (a ||| imm.setWidth 32) s) ∧
    exec (.xori c rd ra imm) s = .next (coreSets c rd (a ^^^ imm.setWidth 32) s) ∧
    exec (.slti c rd ra imm) s = .next (coreSets c rd (if a.toInt < imm.toInt then 1 else 0) s) ∧
    exec (.sltiu c rd ra imm) s = .next (coreSets c rd (if a.toNat < (imm.signExtend 32).toNat then 1 else 0) s) ∧
    exec (.lui c rd imm) s = .next (coreSets c rd (imm.setWidth 32 <<< 16) s)) ∧
  (∀ (c : Core) (rd ra : GReg) (pos wm1 : BitVec 5) (sg : Bool) (s : State) (a : Word), coreReady c s → a = gGet (coreG c s) ra.toNat →
    pos.toNat + wm1.toNat + 1 ≤ 32 → ∃ v : Word, exec (.bfx c rd ra pos wm1 sg) s = .next (coreSets c rd v s) ∧
      (∀ i < 32, i ≤ wm1.toNat → bitOf v i = bitOf a (pos.toNat + i)) ∧
      (∀ i < 32, wm1.toNat < i → bitOf v i = (sg && bitOf a (pos.toNat + wm1.toNat)))) ∧
  (∀ (c : Core) (rd ra : GReg) (pos wm1 : BitVec 5) (s : State) (a d : Word), coreReady c s → a = gGet (coreG c s) ra.toNat →
    d = gGet (coreG c s) rd.toNat → pos.toNat + wm1.toNat + 1 ≤ 32 → ∃ v : Word, exec (.bfi c rd ra pos wm1) s = .next (coreSets c rd v s) ∧
      (∀ i ≤ wm1.toNat, bitOf v (pos.toNat + i) = bitOf a i) ∧
      (∀ i, i < pos.toNat ∨ pos.toNat + wm1.toNat < i → bitOf v i = bitOf d i)) ∧
  (∀ (c : Core) (rd ra : GReg) (sel : BitVec 16) (s : State) (a : Word), coreReady c s → a = gGet (coreG c s) ra.toNat →
    (∀ i < 4, sel.toNat / 16 ^ i % 16 / 4 ≠ 3) → ∃ v : Word, exec (.perm c rd ra sel) s = .next (coreSets c rd v s) ∧
      ∀ i < 4, ∀ b : Nat, b = bitsOf a (8 * (sel.toNat / 16 ^ i % 4)) 8 →
        (sel.toNat / 16 ^ i % 16 / 4 = 0 → bitsOf v (8 * i) 8 = b) ∧
        (sel.toNat / 16 ^ i % 16 / 4 = 1 → bitsOf v (8 * i) 8 = if 128 ≤ b then 255 else 0) ∧
        (sel.toNat / 16 ^ i % 16 / 4 = 2 → bitsOf v (8 * i) 8 = 0)) ∧
  (∀ (c : Core) (rd ra : GReg) (pos wm1 : BitVec 5) (sg : Bool) (s : State), coreReady c s → 32 < pos.toNat + wm1.toNat + 1 →
    exec (.bfx c rd ra pos wm1 sg) s = .next (coreFaults c { cause := 1 } s) ∧ exec (.bfi c rd ra pos wm1) s = .next (coreFaults c { cause := 1 } s)) ∧
  (∀ (c : Core) (rd ra : GReg) (sel : BitVec 16) (s : State) (i : Nat), coreReady c s → i < 4 → sel.toNat / 16 ^ i % 16 / 4 = 3 →
    exec (.perm c rd ra sel) s = .next (coreFaults c { cause := 1 } s))

/-- Branches and jumps (R210, R216, Table 4.7). -/
def Obligations.YukinBranches : Prop :=
  (∀ (c : Core) (ra rb : GReg) (d : BitVec 16) (s : State) (a b goal : Word), coreReady c s → a = gGet (coreG c s) ra.toNat →
    b = gGet (coreG c s) rb.toNat → goal = corePc c s + 4 + (d.signExtend 32) * 4 → (corePc c s).toNat % 4 = 0 →
    exec (.beq c ra rb d) s = .next (coreDid c (coreG c s) (if a = b then goal else corePc c s + 4) s) ∧
    exec (.bne c ra rb d) s = .next (coreDid c (coreG c s) (if a = b then corePc c s + 4 else goal) s) ∧
    exec (.blt c ra rb d) s = .next (coreDid c (coreG c s) (if a.toInt < b.toInt then goal else corePc c s + 4) s) ∧
    exec (.bge c ra rb d) s = .next (coreDid c (coreG c s) (if b.toInt ≤ a.toInt then goal else corePc c s + 4) s) ∧
    exec (.bltu c ra rb d) s = .next (coreDid c (coreG c s) (if a.toNat < b.toNat then goal else corePc c s + 4) s) ∧
    exec (.bgeu c ra rb d) s = .next (coreDid c (coreG c s) (if b.toNat ≤ a.toNat then goal else corePc c s + 4) s)) ∧
  (∀ (c : Core) (d : BitVec 26) (s : State) (goal : Word), coreReady c s → goal = corePc c s + 4 + (d.signExtend 32) * 4 →
    (corePc c s).toNat % 4 = 0 →
    exec (.j c d) s = .next (coreDid c (coreG c s) goal s) ∧
    exec (.jal c d) s = .next (coreDid c (gSet (coreG c s) 31 (corePc c s + 4)) goal s)) ∧
  (∀ (c : Core) (rd ra : GReg) (imm : BitVec 16) (s : State) (goal : Word), coreReady c s → goal = gGet (coreG c s) ra.toNat + imm.signExtend 32 →
    goal.toNat % 4 = 0 → exec (.jalr c rd ra imm) s = .next (coreDid c (gSet (coreG c s) rd.toNat (corePc c s + 4)) goal s)) ∧
  (∀ (c : Core) (rd ra : GReg) (imm : BitVec 16) (s : State) (goal : Word), coreReady c s → goal = gGet (coreG c s) ra.toNat + imm.signExtend 32 →
    goal.toNat % 4 ≠ 0 → exec (.jalr c rd ra imm) s = .next (coreFaults c { cause := 6, kind := some .fetch, addr := goal } s))

/-- Loads (R209, R214, R215, R242 to R244, R248, R375, Table 4.6). -/
def Obligations.YukinLoads : Prop :=
  (∀ (s : State) (sg : Nat) (off : Word) (size pa : Nat) (k : Access) (x : Seg), x = Tab.get (fun _ => {}) s.stw.seg sg →
    (stwCheck s sg off size k = .ok pa ↔
      (s.stw.ext = true → 8 ≤ sg ∧ bitOf x.rights 4 = true) ∧ bitOf x.rights 0 = true ∧
      bitOf x.rights (match k with | .read => 1 | .write => 2 | .fetch => 3) = true ∧ off.toNat % size = 0 ∧
      off.toNat + size ≤ x.limit.toNat ∧ x.base.toNat + off.toNat < 2 ^ 32 ∧ mapped pa size k = true ∧ pa = x.base.toNat + off.toNat)) ∧
  (∀ op ∈ ([(.lb, 1, true), (.lbu, 1, false), (.lh, 2, true), (.lhu, 2, false), (.lw, 4, false)] :
      List ((Core → GReg → GReg → BitVec 4 → BitVec 12 → Instr) × Nat × Bool)),
    ∀ (r rb : GReg) (sg : BitVec 4) (imm : BitVec 12) (s t : State) (off : Word), coreReady .steward s → off = gGet s.stw.g rb.toNat + imm.signExtend 32 →
    t = stwFetched s →
    (∀ f, stwCheck s sg.toNat off op.2.1 .read = .error f → exec (op.1 .steward r rb sg imm) s = .next (stwFault f t)) ∧
    (∀ pa, stwCheck s sg.toNat off op.2.1 .read = .ok pa → segDv s sg.toNat = false →
      (pa < 0x100000 → s.stw.sb.reverse.find? (fun e => decide (e.pa < pa + op.2.1 ∧ pa < e.pa + e.size)) = none → eccHit s.stw pa op.2.1 = false →
        exec (op.1 .steward r rb sg imm) s = .next (coreAfter .steward
          (gSet s.stw.g r.toNat (extendLoad (s.stw.sram.num pa op.2.1) op.2.1 op.2.2)) (s.stw.pc + 4) (eccFix pa op.2.1 t))) ∧
      (∀ e, s.stw.sb.reverse.find? (fun e => decide (e.pa < pa + op.2.1 ∧ pa < e.pa + e.size)) = some e →
        (e.pa ≤ pa → pa + op.2.1 ≤ e.pa + e.size → exec (op.1 .steward r rb sg imm) s = .next (coreSets .steward r
          (extendLoad (e.val.toNat / 2 ^ (8 * (pa - e.pa)) % 2 ^ (8 * op.2.1)) op.2.1 op.2.2) s)) ∧
        (∀ u, ¬ (e.pa ≤ pa ∧ pa + op.2.1 ≤ e.pa + e.size) → u = drainN (sbUpTo pa op.2.1 s.stw.sb) t → pa < 0x100000 → eccHit u.stw pa op.2.1 = false →
          exec (op.1 .steward r rb sg imm) s = .next (retire s.stw.ext (setStw (fun w => { w with
            g := gSet w.g r.toNat (extendLoad (w.sram.num pa op.2.1) op.2.1 op.2.2), pc := w.pc + 4 }) (eccFix pa op.2.1 u))))) ∧
      (s.stw.sb = [] → eccHit s.stw pa op.2.1 = true →
        exec (op.1 .steward r rb sg imm) s = .next (stwFault { cause := 9, seg := sg.toNat, kind := some .read, addr := off } t))) ∧
    (∀ pa u, stwCheck s sg.toNat off op.2.1 .read = .ok pa → segDv s sg.toNat = true → u = drainAll t → 0x40000000 ≤ pa → pa < 0xFFFF0000 →
      exec (op.1 .steward r rb sg imm) s = .next (retire s.stw.ext (setStw (fun w => { w with
        g := gSet w.g r.toNat (extendLoad (busRead pa false u).1.toNat op.2.1 op.2.2), pc := w.pc + 4 }) (busRead pa false u).2)))) ∧
  (∀ op ∈ ([(.lb, 1, true), (.lbu, 1, false), (.lh, 2, true), (.lhu, 2, false), (.lw, 4, false)] :
      List ((Core → GReg → GReg → BitVec 4 → BitVec 12 → Instr) × Nat × Bool)),
    ∀ (r rb : GReg) (sg : BitVec 4) (imm : BitVec 12) (s : State) (sl : Slot), coreReady .whorl s → s.whl.slot = some sl →
    (∀ v u, whlLoad s sl sg.toNat (gGet sl.g rb.toNat + imm.signExtend 32) op.2.1 = .ok (v, u) →
      exec (op.1 .whorl r rb sg imm) s = .next { s with whl := { s.whl with
        slot := some { u with g := gSet u.g r.toNat (extendLoad v op.2.1 op.2.2), pc := u.pc + 4 } } }) ∧
    (∀ c, whlLoad s sl sg.toNat (gGet sl.g rb.toNat + imm.signExtend 32) op.2.1 = .error c →
      exec (op.1 .whorl r rb sg imm) s = .next (contract c s))) ∧
  (∀ (s : State) (rd : GReg) (sl : Slot), coreReady .whorl s → s.whl.slot = some sl →
    ((∀ n < 256, (sl.profile.getD 12 0).testBit n = true → tinTested s sl n = 0) → exec (.tinNextRead rd) s = .next (coreSets .whorl rd 0 s)) ∧
    (∀ n < 256, (sl.profile.getD 12 0).testBit n = true → tinTested s sl n ≠ 0 →
      (∀ m < n, (sl.profile.getD 12 0).testBit m = true → tinTested s sl m = 0) → sl.count < 512 →
      exec (.tinNextRead rd) s = .next { s with whl := { s.whl with slot := some { sl with
        staged := sl.staged ++ [.tin n], count := sl.count + 1, g := gSet sl.g rd.toNat (BitVec.ofNat 32 (2 ^ 31 + n)), pc := sl.pc + 4 } } }))

/-- Stores, the store buffer, SEGLD and SEGST (R209, R214, R215, R223, R224, R231, R240, R241, R246, Table 4.6). -/
def Obligations.YukinStores : Prop :=
  (∀ op ∈ ([(.sb, 1, 0xFF), (.sh, 2, 0xFFFF), (.sw, 4, 0xFFFFFFFF)] : List ((Core → GReg → GReg → BitVec 4 → BitVec 12 → Instr) × Nat × Word)),
    ∀ (r rb : GReg) (sg : BitVec 4) (imm : BitVec 12) (s : State) (off v : Word), coreReady .steward s → off = gGet s.stw.g rb.toNat + imm.signExtend 32 →
    v = gGet s.stw.g r.toNat &&& op.2.2 →
    (∀ pa t, stwCheck s sg.toNat off op.2.1 .write = .ok pa → s.stw.sb.length < 8 → t = coreDid .steward s.stw.g (s.stw.pc + 4) s →
      exec (op.1 .steward r rb sg imm) s = .next { t with stw := { t.stw with sb := s.stw.sb ++ [⟨pa, op.2.1, v⟩] } }) ∧
    (∀ pa u, stwCheck s sg.toNat off op.2.1 .write = .ok pa → 8 ≤ s.stw.sb.length → u = drainOne (stwFetched s) →
      exec (op.1 .steward r rb sg imm) s = .next (retire s.stw.ext { u with stw := { u.stw with
        sb := u.stw.sb ++ [⟨pa, op.2.1, v⟩], pc := u.stw.pc + 4 } })) ∧
    (∀ f, stwCheck s sg.toNat off op.2.1 .write = .error f → exec (op.1 .steward r rb sg imm) s = .next (stwFault f (stwFetched s)))) ∧
  (∀ op ∈ ([(.sb, 1, 0xFF), (.sh, 2, 0xFFFF), (.sw, 4, 0xFFFFFFFF)] : List ((Core → GReg → GReg → BitVec 4 → BitVec 12 → Instr) × Nat × Word)),
    ∀ (r rb : GReg) (sg : BitVec 4) (imm : BitVec 12) (s : State) (sl : Slot) (off v : Word), coreReady .whorl s → s.whl.slot = some sl →
    off = gGet sl.g rb.toNat + imm.signExtend 32 → v = gGet sl.g r.toNat &&& op.2.2 →
    (∀ u t, whlStore sg.toNat off op.2.1 v s sl = .ok (u, t) →
      exec (op.1 .whorl r rb sg imm) s = .next { t with whl := { t.whl with slot := some { u with pc := u.pc + 4 } } }) ∧
    (∀ c, whlStore sg.toNat off op.2.1 v s sl = .error c → exec (op.1 .whorl r rb sg imm) s = .next (contract c s))) ∧
  (∀ (s : State) (e : SbEntry) (rest : List SbEntry), stewardRuns s = true → s.stw.sb = e :: rest →
    (e.pa < 0x100000 → s.stw.sram.wf = true → ∃ m, exec .storeBufferDrain s = .next { s with stw := { s.stw with
        sb := rest, sram := m
        eccBad := if e.size = 4 then Tab.set (fun _ => false) s.stw.eccBad (e.pa / 4) false else s.stw.eccBad
        eccSoft := if e.size = 4 then Tab.set (fun _ => false) s.stw.eccSoft (e.pa / 4) false else s.stw.eccSoft } } ∧
      (∀ i < e.size, m.byte (e.pa + i) = BitVec.ofNat 8 (e.val.toNat / 256 ^ i)) ∧
      ∀ a, a < e.pa ∨ e.pa + e.size ≤ a → m.byte a = s.stw.sram.byte a) ∧
    (0x100000 ≤ e.pa → exec .storeBufferDrain s = .next (busWrite e.pa e.val { s with stw := { s.stw with sb := rest } }))) ∧
  (∀ s : State, s.stw.sb = [] → exec .storeBufferDrain s = .next s) ∧
  (∀ (r rb : GReg) (sg : BitVec 4) (imm : BitVec 12) (s t : State) (off : Word), coreReady .steward s → r.toNat < 16 →
    off = gGet s.stw.g rb.toNat + imm.signExtend 32 → t = stwFetched s →
    (∀ pa b l k u, s.stw.ext = false → stwCheck s sg.toNat off 16 .read = .ok pa → segDv s sg.toNat = false → s.stw.sb = [] →
      pa < 0x100000 → eccHit s.stw pa 16 = false → b = s.stw.sram.num pa 4 → l = s.stw.sram.num (pa + 4) 4 → k = s.stw.sram.num (pa + 8) 4 →
      u = eccFix pa 16 t → exec (.segld .steward r rb sg imm) s = .next (if b % 4 = 0 ∧ k < 64 then { u with stw := { u.stw with
          seg := Tab.set (fun _ => {}) s.stw.seg r.toNat { base := BitVec.ofNat 32 b, limit := BitVec.ofNat 32 l, rights := BitVec.ofNat 32 k }
          pc := s.stw.pc + 4 } }
        else stwFault { cause := 4, seg := sg.toNat, kind := some .read, addr := off } u)) ∧
    (∀ pa x, s.stw.ext = false → stwCheck s sg.toNat off 16 .write = .ok pa → s.stw.sb.length ≤ 4 → x = Tab.get (fun _ => {}) s.stw.seg r.toNat →
      exec (.segst .steward r rb sg imm) s = .next { t with stw := { t.stw with
        sb := s.stw.sb ++ [⟨pa, 4, x.base⟩, ⟨pa + 4, 4, x.limit⟩, ⟨pa + 8, 4, x.rights⟩, ⟨pa + 12, 4, 0⟩], pc := s.stw.pc + 4 } }) ∧
    (∀ f, s.stw.ext = false → stwCheck s sg.toNat off 16 .write = .error f → exec (.segst .steward r rb sg imm) s = .next (stwFault f t)) ∧
    (s.stw.ext = true → exec (.segld .steward r rb sg imm) s = .next (stwFault { cause := 2 } t) ∧
      exec (.segst .steward r rb sg imm) s = .next (stwFault { cause := 2 } t))) ∧
  (∀ (c : Core) (r rb : GReg) (sg : BitVec 4) (imm : BitVec 12) (s : State), coreReady c s → 16 ≤ r.toNat ∨ c = .whorl →
    exec (.segld c r rb sg imm) s = .next (coreFaults c { cause := 1 } s) ∧ exec (.segst c r rb sg imm) s = .next (coreFaults c { cause := 1 } s))

/-- Long instructions (R225 to R230, R787, Table 4.8). -/
def Obligations.YukinLongInstructions : Prop :=
  (∀ (sd ss : BitVec 4) (s : State), coreReady .steward s → gGet s.stw.g 3 = 0 →
    exec (.bmove .steward sd ss) s = .next (coreDid .steward s.stw.g (s.stw.pc + 4) s) ∧
    exec (.bfill .steward sd) s = .next (coreDid .steward s.stw.g (s.stw.pc + 4) s) ∧
    exec (.crc32 .steward ss) s = .next (coreDid .steward s.stw.g (s.stw.pc + 4) s)) ∧
  (∀ (sd ss : BitVec 4) (s t : State) (n : Nat), coreReady .steward s → t = stwFetched s → gGet s.stw.g 3 ≠ 0 →
    n = (if (gGet s.stw.g 1).toNat % 4 = 0 ∧ (gGet s.stw.g 2).toNat % 4 = 0 ∧ 4 ≤ (gGet s.stw.g 3).toNat then 4 else 1) →
    (∀ u g pw v, stwCheck s sd.toNat (gGet s.stw.g 2) n .write = .ok pw → stwLoad ss.toNat (gGet s.stw.g 1) n t = .ok (v, u) →
      u.stw.sb.length < 8 → u.stw.g = s.stw.g → u.stw.pc = s.stw.pc → g = gSet s.stw.g 3 (gGet s.stw.g 3 - BitVec.ofNat 32 n) →
      exec (.bmove .steward sd ss) s = .next (retire s.stw.ext { u with stw := { u.stw with
        sb := u.stw.sb ++ [{ pa := pw, size := n, val := BitVec.ofNat 32 v }]
        g := gSet (gSet g 1 (gGet g 1 + BitVec.ofNat 32 n)) 2 (gGet (gSet g 1 (gGet g 1 + BitVec.ofNat 32 n)) 2 + BitVec.ofNat 32 n)
        pc := if (gGet s.stw.g 3).toNat = n then s.stw.pc + 4 else s.stw.pc } })) ∧
    (∀ f, stwCheck s ss.toNat (gGet s.stw.g 1) n .read = .error f → exec (.bmove .steward sd ss) s = .next (stwFault f t))) ∧
  (∀ (sd : BitVec 4) (s : State) (n : Nat), coreReady .steward s → gGet s.stw.g 3 ≠ 0 →
    n = (if (gGet s.stw.g 2).toNat % 4 = 0 ∧ 4 ≤ (gGet s.stw.g 3).toNat then 4 else 1) →
    (∀ pa, stwCheck s sd.toNat (gGet s.stw.g 2) n .write = .ok pa → s.stw.sb.length < 8 → ∃ t g,
      exec (.bfill .steward sd) s = .next { t with stw := { t.stw with
        sb := s.stw.sb ++ [{ pa := pa, size := n, val := BitVec.ofNat 32 (bitsOf (gGet s.stw.g 4) 0 8 * if n = 4 then 0x1010101 else 1) }] } } ∧
      t = coreDid .steward g (if (gGet s.stw.g 3).toNat = n then s.stw.pc + 4 else s.stw.pc) s ∧
      (Tab.wf (fun _ => 0) s.stw.g = true → gGet g 2 = gGet s.stw.g 2 + BitVec.ofNat 32 n ∧ gGet g 3 = gGet s.stw.g 3 - BitVec.ofNat 32 n ∧
        ∀ r, r ≠ 2 → r ≠ 3 → gGet g r = gGet s.stw.g r)) ∧
    (∀ f, stwCheck s sd.toNat (gGet s.stw.g 2) n .write = .error f → exec (.bfill .steward sd) s = .next (stwFault f (stwFetched s)))) ∧
  (∀ (ss : BitVec 4) (s u : State) (n v : Nat), coreReady .steward s → gGet s.stw.g 3 ≠ 0 →
    n = (if (gGet s.stw.g 1).toNat % 4 = 0 ∧ 4 ≤ (gGet s.stw.g 3).toNat then 4 else 1) →
    stwLoad ss.toNat (gGet s.stw.g 1) n (stwFetched s) = .ok (v, u) → u.stw.g = s.stw.g → u.stw.pc = s.stw.pc → u.stw.ext = s.stw.ext →
    ∃ g, exec (.crc32 .steward ss) s = .next (coreAfter .steward g (if (gGet s.stw.g 3).toNat = n then s.stw.pc + 4 else s.stw.pc) u) ∧
      (Tab.wf (fun _ => 0) s.stw.g = true → gGet g 1 = gGet s.stw.g 1 + BitVec.ofNat 32 n ∧ gGet g 3 = gGet s.stw.g 3 - BitVec.ofNat 32 n ∧
        gGet g 5 = crcFold (gGet s.stw.g 5) v n ∧ ∀ r, r ≠ 1 → r ≠ 3 → r ≠ 5 → gGet g r = gGet s.stw.g r)) ∧
  (∀ (c : Word) (v : Nat), crcFold c v 4 = crcFold (crcFold (crcFold (crcFold c v 1) (v / 256) 1) (v / 65536) 1) (v / 16777216) 1) ∧
  (∀ (sd ss : BitVec 4) (s : State), coreReady .whorl s →
    exec (.bmove .whorl sd ss) s = .next (contract 1 s) ∧ exec (.bfill .whorl sd) s = .next (contract 1 s) ∧
    (256 < (gGet (coreG .whorl s) 3).toNat → exec (.crc32 .whorl ss) s = .next (contract 1 s)) ∧
    (gGet (coreG .whorl s) 3 = 0 → exec (.crc32 .whorl ss) s = .next (coreDid .whorl (coreG .whorl s) (corePc .whorl s + 4) s))) ∧
  (∀ (ss : BitVec 4) (s : State) (sl u : Slot) (n v : Nat), coreReady .whorl s → s.whl.slot = some sl → gGet sl.g 3 ≠ 0 → (gGet sl.g 3).toNat ≤ 256 →
    n = (if (gGet sl.g 1).toNat % 4 = 0 ∧ 4 ≤ (gGet sl.g 3).toNat then 4 else 1) → whlLoad s sl ss.toNat (gGet sl.g 1) n = .ok (v, u) →
    ∃ g, exec (.crc32 .whorl ss) s = .next { s with whl := { s.whl with slot := some { u with
      g := g, pc := if (gGet sl.g 3).toNat = n then u.pc + 4 else u.pc } } })

/-- The system group (R217 to R219, R231 to R234, R245, R249, R255, R261, R268, Table 4.9). -/
def Obligations.YukinSystemGroup : Prop :=
  (∀ s t : State, coreReady .steward s → t = stwFetched s →
    exec (.sync .steward) s = .next (retire s.stw.ext (setStw (fun w => { w with pc := w.pc + 4 }) (drainAll t))) ∧
    (s.stw.sb = [] → exec (.sync .steward) s = .next (coreDid .steward s.stw.g (s.stw.pc + 4) s)) ∧
    exec (.brk .steward) s = .next { t with stw := { t.stw with
      epc := s.stw.pc, pie := s.stw.ie, pext := s.stw.ext, ie := false, ext := false, fh := true, ecause := 0x11, eaddr := 0
      pc := s.stw.vbase + 0x110, xbudget := if s.stw.ext then s.stw.xbudget - 1 else s.stw.xbudget } } ∧
    (s.stw.ext = false → exec (.eret .steward) s = .next { t with stw := { t.stw with
      pc := s.stw.epc, ie := s.stw.pie, ext := s.stw.pext, fh := false } }) ∧
    (s.stw.ext = false → exec (.waitI .steward) s = .next { t with stw := { t.stw with
      pc := s.stw.pc + 4, waiting := decide (s.stw.ipend &&& s.stw.imask = 0) } })) ∧
  (∀ (code : BitVec 10) (s t : State), coreReady .steward s → t = stwFetched s →
    (s.stw.ext = false ∨ 1 ≤ code.toNat ∧ code.toNat ≤ 5 → exec (.svc .steward code) s = .next { t with stw := { t.stw with
      epc := s.stw.pc + 4, pie := s.stw.ie, pext := s.stw.ext, ie := false, ext := false, fh := true
      ecause := ecauseWord { cause := 0x10, svc := code.toNat }, eaddr := 0, pc := s.stw.vbase + 0x100
      xbudget := if s.stw.ext then s.stw.xbudget - 1 else s.stw.xbudget } }) ∧
    (s.stw.ext = true → code.toNat = 0 ∨ 5 < code.toNat → exec (.svc .steward code) s = .next { t with stw := { t.stw with
      g := gSet s.stw.g 1 0xFFFFFFFF, epc := s.stw.pc + 4, pie := s.stw.ie, pext := true, fh := false
      ecause := ecauseWord { cause := 0x10, svc := code.toNat }, eaddr := 0, pc := s.stw.pc + 4, xbudget := s.stw.xbudget - 1 } })) ∧
  (∀ (rd : GReg) (i : BitVec 5) (s : State) (w : Stw), coreReady .steward s → s.stw.ext = false → w = s.stw →
    ∃ v, exec (.mfc .steward rd i) s = .next (coreSets .steward rd v s) ∧
      (i = 1 → v = w.epc) ∧ (i = 2 → v = w.ecause) ∧ (i = 3 → v = w.eaddr) ∧ (i = 4 → v = w.vbase) ∧ (i = 5 → v = w.ipend) ∧
      (i = 6 → v = w.imask) ∧ (i = 7 → v = BitVec.ofNat 32 w.xbudget) ∧ (i = 8 → v = w.timer) ∧ (i = 9 → v = w.scratch0) ∧
      (i = 10 → v = w.scratch1) ∧ (10 < i.toNat → v = 0) ∧
      (i = 0 → bitOf v 4 = w.fh ∧ bitOf v 3 = w.pext ∧ bitOf v 2 = w.pie ∧ bitOf v 1 = w.ext ∧ bitOf v 0 = w.ie ∧ v.toNat < 32)) ∧
  (∀ (i : BitVec 5) (rb : GReg) (s t : State) (v : Word), coreReady .steward s → s.stw.ext = false → v = gGet s.stw.g rb.toNat → t = stwFetched s →
    ∃ w, exec (.mtc .steward i rb) s = .next { t with stw := { w with pc := s.stw.pc + 4 } } ∧
      (i = 0 → w = { t.stw with fh := bitOf v 4, pext := bitOf v 3, pie := bitOf v 2, ext := bitOf v 1, ie := bitOf v 0 }) ∧
      (i = 1 → w = { t.stw with epc := v }) ∧ (i = 4 → w = { t.stw with vbase := v &&& 0xFFFFFF00 }) ∧ (i = 6 → w = { t.stw with imask := v }) ∧
      (i = 7 → w = { t.stw with xbudget := v.toNat % 2 ^ 20 }) ∧
      (i = 8 → w = { t.stw with timer := v, ipend := t.stw.ipend &&& 0xFFFF7FFF }) ∧
      (i = 9 → w = { t.stw with scratch0 := v }) ∧ (i = 10 → w = { t.stw with scratch1 := v }) ∧
      (i = 2 ∨ i = 3 ∨ i = 5 ∨ 10 < i.toNat → w = t.stw)) ∧
  (∀ (i : BitVec 5) (r : GReg) (s t : State), coreReady .steward s → s.stw.ext = true → t = stwFault { cause := 2 } (stwFetched s) →
    exec (.eret .steward) s = .next t ∧ exec (.mfc .steward r i) s = .next t ∧ exec (.mtc .steward i r) s = .next t ∧ exec (.waitI .steward) s = .next t) ∧
  (∀ (i : BitVec 5) (r : GReg) (code : BitVec 10) (s t : State), coreReady .whorl s → t = contract 1 s →
    exec (.sync .whorl) s = .next (coreDid .whorl (coreG .whorl s) (corePc .whorl s + 4) s) ∧
    exec (.eret .whorl) s = .next t ∧ exec (.mfc .whorl r i) s = .next t ∧ exec (.mtc .whorl i r) s = .next t ∧
    exec (.waitI .whorl) s = .next t ∧ exec (.svc .whorl code) s = .next t ∧ exec (.brk .whorl) s = .next t) ∧
  (∀ (c : Core) (w : Word) (s : State), (coreReady c s → yukinLegal w = false → exec (.illegalInstruction c w) s = .next (coreFaults c { cause := 1 } s)) ∧
    (yukinLegal w = true → exec (.illegalInstruction c w) s = .next s)) ∧
  (∀ w : Word, yukinLegal w = (yukinOf .steward w).isSome)

/-- Faults, interrupts, the timer (R232, R233, R236, R264, R266, R268). -/
def Obligations.StewardInterruptCommands : Prop :=
  (∀ (f : Flt) (s : State), s.stw.fh = false → s.stw.ext = false → stwFault f s = { s with stw := { s.stw with
    epc := s.stw.pc, pie := s.stw.ie, pext := false, ie := false, fh := true, ecause := ecauseWord f, eaddr := f.addr
    pc := s.stw.vbase + BitVec.ofNat 32 (16 * f.cause) } }) ∧
  (∀ (f : Flt) (s : State), s.stw.fh = true → stwFault f s = cmdReset (logFault 0x0B 0xFF
    (leBytes 4 (ecauseWord f).toNat ++ leBytes 4 s.stw.pc.toNat ++ leBytes 4 f.addr.toNat)
    { s with sys := { s.sys with doubles := min 255 (s.sys.doubles + 1) } })) ∧
  (∀ (s : State) (n : Nat), stewardRuns s = true → s.stw.ie = true → s.stw.fh = false → n < 32 → bitOf (s.stw.ipend &&& s.stw.imask) n = true →
    (∀ m < n, bitOf (s.stw.ipend &&& s.stw.imask) m = false) →
    exec .interruptEntry s = .next { s with stw := { s.stw with
      waiting := false, epc := s.stw.pc, pie := true, pext := s.stw.ext, ie := false, ext := false
      ecause := BitVec.ofNat 32 (0x40 + n), eaddr := 0, pc := s.stw.vbase + BitVec.ofNat 32 (16 * (0x40 + n))
      ipend := if n = 14 ∨ n = 15 then s.stw.ipend else s.stw.ipend &&& ~~~ BitVec.ofNat 32 (2 ^ n) } }) ∧
  (∀ s : State, stewardRuns s = false ∨ s.stw.ie = false ∨ s.stw.fh = true ∨ s.stw.ipend &&& s.stw.imask = 0 → exec .interruptEntry s = .next s) ∧
  (∀ s : State, s.stw.waiting = true → s.stw.ipend &&& s.stw.imask ≠ 0 →
    exec .waitResume s = .next { s with stw := { s.stw with waiting := false } }) ∧
  (∀ s : State, s.stw.waiting = false ∨ s.stw.ipend &&& s.stw.imask = 0 → exec .waitResume s = .next s) ∧
  (∀ s : State, stewardRuns s = true → s.ply.running = true → s.ply.reel.toNat + 2 ^ 32 ≤ 2 ^ 64 → ∃ t, exec .stewardTimer s = .next t ∧
    bitOf t.stw.ipend 15 = true ∧ t.ply.reel.setWidth 32 = s.stw.timer ∧ (t.ply.reel - s.ply.reel).toNat < 2 ^ 32 ∧
    t = { s with stw := { s.stw with ipend := s.stw.ipend ||| 0x8000 }, ply := { s.ply with reel := t.ply.reel } }) ∧
  (∀ s : State, stewardRuns s = false ∨ s.ply.running = false → exec .stewardTimer s = .next s)

/-- Extensions (R251 to R255, R320, Tables 4.12a and 4.12b). -/
def Obligations.ExtensionCommands : Prop :=
  (∀ (s t : State) (idx code data budget : Nat) (rec : List Byte), stwGoes s = true → s.stw.ext = false → s.stw.extIdx = none →
    Tab.get (fun _ => (0, 0, 0)) s.stw.exts idx = (code, data, budget) → 0 < code → Tab.get (fun _ => 0) s.stw.extFault idx < 3 → t = drainAll s →
    ∃ u, exec (.extensionInvoke idx rec) s = .next { t with stw := u, free := t.free + 31 } ∧
      u = { t.stw with sram := u.sram, seg := u.seg, extIdx := some idx, extSaved := (t.stw.g, t.stw.pc, t.stw.ie), g := u.g
                       pc := Config.extEntry t.stw.sect2 idx, ext := true, ie := true, xbudget := budget } ∧
      u.seg = extSegs code data t.stw.seg ∧ u.g = freeRegs t.free ∧
      u.sram = (t.stw.sram.write 0xE0000 (Config.sect2Code t.stw.sect2 idx)).write 0xFFC00 ((rec ++ List.replicate 256 0).take 256)) ∧
  (∀ (s : State) (idx : Nat) (rec : List Byte), stwGoes s = false ∨ s.stw.ext = true ∨ s.stw.extIdx.isSome = true ∨
    (Tab.get (fun _ => (0, 0, 0)) s.stw.exts idx).1 = 0 ∨ 3 ≤ Tab.get (fun _ => 0) s.stw.extFault idx →
    exec (.extensionInvoke idx rec) s = .next s) ∧
  (∀ (s : State) (g : Tab Word) (pc : Word) (ie : Bool), svcOpen 1 s = true → s.stw.extSaved = (g, pc, ie) →
    exec .extExit s = .next { s with stw := { s.stw with
      extIdx := none, extSaved := ([], 0, false), g := g, pc := pc, ie := ie, ext := false, fh := false } }) ∧
  (∀ s : State, svcOpen 2 s = true → ∃ c ∈ logCodes, exec .extLog s = .next (svcDone [(1, 0)] (logFault c 0
    (leBytes 4 (gGet s.stw.g 1).toNat ++ leBytes 4 (gGet s.stw.g 2).toNat ++ leBytes 4 (gGet s.stw.g 3).toNat ++ leBytes 4 (gGet s.stw.g 4).toNat) s))) ∧
  (∀ s : State, svcOpen 3 s = true → exec .extReel s = .next { s with stw := { s.stw with
    g := gSet (gSet (gSet s.stw.g 2 (BitVec.ofNat 32 s.ply.reel.toNat)) 3 (BitVec.ofNat 32 (s.ply.reel.toNat / 2 ^ 32))) 1 0
    pc := s.stw.epc, ie := s.stw.pie, ext := s.stw.pext, fh := false } }) ∧
  (∀ (s : State) (k : Nat), svcOpen 4 s = true → k = (gGet s.stw.g 2).toNat → k < 8 → exec .extPly s = .next { s with stw := { s.stw with
    g := gSet (gSet (gSet (gSet s.stw.g 2 (BitVec.ofNat 32 (plyValue s k).1)) 3 (BitVec.ofNat 32 ((plyValue s k).1 / 2 ^ 32))) 4
      (BitVec.ofNat 32 (plyValue s k).2.1)) 1 0
    pc := s.stw.epc, ie := s.stw.pie, ext := s.stw.pext, fh := false } }) ∧
  (∀ s : State, svcOpen 4 s = true → 8 ≤ (gGet s.stw.g 2).toNat → exec .extPly s = .next { s with stw := { s.stw with
    g := gSet s.stw.g 1 1, pc := s.stw.epc, ie := s.stw.pie, ext := s.stw.pext, fh := false } }) ∧
  (∀ (s : State) (len n : Nat), svcOpen 5 s = true → s.stw.sb = [] → len = (gGet s.stw.g 2).toNat → n = (gGet s.stw.g 3).toNat →
    (len < 1 ∨ 244 < len ∨ 32 ≤ n → exec .extPost s = .next { s with stw := { s.stw with
      g := gSet s.stw.g 1 1, pc := s.stw.epc, ie := s.stw.pie, ext := s.stw.pext, fh := false } }) ∧
    (1 ≤ len → len ≤ 244 → n < 32 → bitOf s.hl.hfull n = true ∨ replyDue s n = true → exec .extPost s = .next { s with stw := { s.stw with
      g := gSet s.stw.g 1 2, pc := s.stw.epc, ie := s.stw.pie, ext := s.stw.pext, fh := false } }) ∧
    (1 ≤ len → len ≤ 244 → n < 32 → bitOf s.hl.hfull n = false → replyDue s n = false → exec .extPost s = .next (svcDone [(1, 0)]
      (hstMessage n 0xFFFF (replyMsg 0x0BF0 .ok (s.stw.extIdx.getD 0) (s.stw.sram.bytes 0xFFE00 len)) s)))) ∧
  (∀ (s : State) (f : Flt) (i : Nat), s.stw.fh = false → s.stw.ext = true → s.stw.extIdx = some i → ∃ t, stwFault f s = t ∧ t.sys.extFaults = min 255 (s.sys.extFaults + 1) ∧
    t.stw.extIdx = none ∧ t.stw.ext = false ∧ t.stw.fh = false ∧ (t.stw.g, t.stw.pc, t.stw.ie) = s.stw.extSaved ∧
    t.stw.extFault = Tab.upd (fun _ => 0) s.stw.extFault i (· + 1) ∧ t = { s with stw := t.stw, sys := t.sys }) ∧
  (∀ s : State, s.stw.ext = true ∨ s.stw.extIdx = none → exec .extExit s = .next s ∧ exec .extLog s = .next s ∧ exec .extReel s = .next s ∧
    exec .extPly s = .next s ∧ exec .extPost s = .next s)

/-! ### Steward commands (chapter 06). `answer q st d pay t` is t with the reply to q due; `Served … q s t` says that the request
q is ready and that t is s without it. -/

/-- The checks of R317 in their order, and the course of a commit (R95, R280, R315 to R317, R319, R327, R329, R334, R679). -/
def Obligations.CommandChecks : Prop :=
  (∀ (q : Req) (st : Status) (d : Nat) (pay msg : List Byte) (s : State),
    msg = leBytes 2 (reqCode q) ++ leBytes 2 st.code ++ leBytes 2 d ++ leBytes 2 0 ++ pay →
    (∀ n : Fin 32, q.src = .mailbox n → answer q st d pay s =
      { s with hl := { s.hl with due := s.hl.due ++ [{ mb := n.val, seq := q.seq, msg := msg }] } }) ∧
    (∀ (dev : BitVec 10) (n : Nat) (u : State), q.src = .relay dev n →
      u = s.setLink (sideTo s dev.toNat) (fun k => { k with txFrm := k.txFrm + 1 }) →
      answer q st d pay s = { u with skn := { u.skn with out := s.skn.out ++ [.reply dev n msg] } })) ∧
  (recoveryCodes = [0x0101, 0x0102, 0x0201, 0x0203, 0x0401, 0x0402, 0x0403, 0x0404, 0x0405, 0x0B01, 0x0B02]) ∧
  (∀ (q : Req) (s : State), dropTaken q s = { s with hl := { s.hl with taken := s.hl.taken.erase q } }) ∧
  (∀ (src : ReqSrc) (s : State), (∀ q, takenOf s src = some q → reqCode q ∉ knownCodes →
      exec (.unknownCmd src) s = .next (answer q .unknownCmd 0 [] (dropTaken q s))) ∧
    (takenOf s src = none ∨ (∃ q, takenOf s src = some q ∧ reqCode q ∈ knownCodes) → exec (.unknownCmd src) s = .next s)) ∧
  (∀ data, ∀ row ∈ commandRows data ++ [(.resetWarm, 0x0203, 8, anyMode), (.imgEnd, 0x0405, 8, serviceOnly), (.cascRelay, 0x0703, 20, anyMode)],
    ∀ (src : ReqSrc) (s : State),
    (takenOf s src = none ∨ (∃ q, takenOf s src = some q ∧ (reqCode q ≠ row.2.1 ∨ txnAhead s q = true)) → exec (row.1 src) s = .next s) ∧
    ∀ q t, takenOf s src = some q → t = dropTaken q s → reqCode q = row.2.1 → txnAhead s q = false → (row.2.1 = 0x0203 → warmWaits src s = false) →
      (row.2.1 = 0x0405 → imageUnitsLeft s = false) → (row.2.1 = 0x0703 → relayFull src s = false) →
      (imageNone s = true → row.2.1 ∉ recoveryCodes →
        exec (row.1 src) s = .next (answer q .imageNone 0 [] t)) ∧
      (imageNone s = false ∨ row.2.1 ∈ recoveryCodes →
        (q.msg.length < row.2.2.1 → exec (row.1 src) s = .next (answer q .badLength row.2.2.1 [] t)) ∧
        (row.2.2.1 ≤ q.msg.length → row.2.2.2 s.sys.mode = false →
          exec (row.1 src) s = .next (answer q .modeDenied (modeNum s.sys.mode) [] t)))) ∧
  (∀ (src : ReqSrc) (s : State), (imageUnitsLeft s = true → exec (.imgEnd src) s = .next s) ∧
    ∀ n : Fin 32, bitOf s.hl.hfull n.val = true → exec (.resetWarm (.mailbox n)) s = .next s) ∧
  (∀ (src : ReqSrc) (s : State) (q : Req) (m : Member), takenOf s src = some q → m ∈ s.skn.members → m.dev.toNat = par q 8 2 →
    512 ≤ (s.skn.relays.filter fun r => r.side == sideTo s (par q 8 2)).length → exec (.cascRelay src) s = .next s) ∧
  (∀ (s : State) (h : Nat) (x : Txn), txn? s h = some x → x.st = .waiting → x.reelEpoch = false → (s.strand x.strand).run = false →
    plyFirst x.strand s = s → x.src = none → exec (.commitEpoch h) s = .next (pagesStaged (txnEnd h .aborted s))) ∧
  (∀ (s : State) (h : Nat) (x : Txn), txn? s h = some x → x.h = h → x.st = .waiting → x.reelEpoch = true → s.txn.txns = [x] → x.recs = [] → x.persist = false →
    s.ply.running = true → s.ply.reel < x.tick → ∃ t y, exec (.commitEpoch h) s = .next t ∧ t.ply.reel = x.tick ∧ txn? t h = some y ∧ y.st = .applying ∧
      y.epochReel = x.tick ∧ y.portsDone = true ∧ t.txn.isVolatile = true ∧
      t = { s with ply := { s.ply with reel := x.tick }, txn := t.txn, dst := { s.dst with inflight := s.dst.inflight.map fun c => { c with stale := true } } }) ∧
  (∀ (s : State) (h : Nat) (x : Txn) (n : Fin 32), txn? s h = some x → x.st = .applying → x.portsDone = true → x.src = some (.mailbox n) →
    exec (.commitReply h) s = .next { s with
      txn := { s.txn with txns := s.txn.txns.map fun y => if y.h = h then { y with src := none } else y }
      hl := { s.hl with due := s.hl.due ++ [{ mb := n.val, seq := x.tailSeq, msg := replyMsg 0x0304 .ok 0 (commitReply x), txn := some h }] } }) ∧
  (∀ (s : State) (d : Due) (h : Nat), d.txn = some h → replyWritten d s = txnEnd h .done s) ∧
  (∀ (s : State) (h : Nat), ((∀ x, txn? s h = some x → x.st ≠ .applying ∨ x.portsDone = false) → exec (.commitReply h) s = .next s) ∧
    ((∀ x, txn? s h = some x → x.st ≠ .waiting) → exec (.commitEpoch h) s = .next s) ∧
    ((∀ x, txn? s h = some x → x.st ≠ .opened) → exec (.txnExpired h) s = .next s)) ∧
  (∀ (s : State) (h : Nat) (x : Txn), txn? s h = some x → x.st = .opened → ∃ t, exec (.txnExpired h) s = .next t ∧
    t.txn = (txnEnd h .aborted { s with txn := { s.txn with txns := s.txn.txns.map fun y => if y.h = h then { y with expired := true } else y } }).txn ∧
    t = logFault 0x51 13 (leBytes 2 h) { s with txn := t.txn })

/-- Inquiries (Tables 6.7 to 6.9). -/
def Obligations.InquiryCommands : Prop :=
  (∀ row ∈ ([(.idGet, 0x0101, 8, fun _ t => idBytes t), (.kindleReport, 0x0102, 8, fun _ t => kindleBytes t),
      (.modeGet, 0x0201, 8, fun _ t => regBytes t 0x40000020 ++ regBytes t 0x4000005C), (.imgStatus, 0x0401, 8, fun _ t => imgStatusBytes t),
      (.imgRefusals, 0x0407, 8, fun _ t => leBytes 8 t.whl.refused.toNat), (.cascStatus, 0x0701, 8, fun _ t => cascBytes t),
      (.pnlStatus, 0x0802, 8, fun _ t => pnlStatusBytes t), (.tagStatus, 0x0901, 8, fun _ t => tagBytes t),
      (.rovStatus, 0x0A05, 8, fun _ t => rovStatusBytes t), (.logRead, 0x0B01, 12, fun q t => logReadBytes t.dst (par q 8 4)),
      (.bobStatus, 0x0503, 10, fun q t => bobBytes t (par q 8 2)),
      (.wearGet, 0x0B02, 8, fun _ t => (List.range 11).flatMap fun i => regBytes t (0x40010008 + 4 * i)),
      (.gateGet, 0x0B03, 8, fun _ t => (List.range 4).flatMap fun i => regBytes t (0x400E001C + 4 * i))] :
      List ((ReqSrc → Instr) × Nat × Nat × (Req → State → List Byte))),
    ∀ (src : ReqSrc) (q : Req) (s t : State), Served row.2.1 row.2.2.1 anyMode src q s t → exec (row.1 src) s = .next (answer q .ok 0 (row.2.2.2 q t) t)) ∧
  (∀ (src : ReqSrc) (q : Req) (s t : State), Served 0x0604 8 anyMode src q s t →
    exec (.reelGet src) s = .next (answer q .ok 0 (leBytes 8 s.ply.reel.toNat ++ leBytes 1 0 ++ leBytes 1 (b2n s.sys.limp)) t)) ∧
  (∀ op ∈ ([(.portStatus, 0x0501), (.portCounters, 0x0502)] : List ((ReqSrc → Instr) × Nat)),
    ∀ (src : ReqSrc) (q : Req) (s t : State), Served op.2 10 anyMode src q s t →
    (2 < par q 8 1 → exec (op.1 src) s = .next (answer q .badParam 8 [] t)) ∧
    (par q 8 1 ≤ 2 → [12, 8, 2].getD (par q 8 1) 0 ≤ par q 9 1 → exec (op.1 src) s = .next (answer q .badParam 9 [] t))) ∧
  (∀ (src : ReqSrc) (q : Req) (s t : State) (i : Nat) (m : Nat → Nat → Tick → List Byte), Served 0x0501 10 anyMode src q s t → i = par q 9 1 →
    (∀ st sp at_, m st sp at_ = leBytes 1 st ++ leBytes 1 sp ++ leBytes 2 0 ++ leBytes 4 0 ++ leBytes 8 at_.toNat) →
    (par q 8 1 = 0 → i < 12 →
      exec (.portStatus src) s = .next (answer q .ok 0 (m (ethPortState t i) (t.eport i).speed (t.eport i).changed) t)) ∧
    (par q 8 1 = 1 → i < 8 →
      exec (.portStatus src) s = .next (answer q .ok 0 (m (canPortState (t.canOf i)) (canSpeed (t.canOf i)) (t.canOf i).changed) t)) ∧
    (par q 8 1 = 2 → i < 2 → exec (.portStatus src) s = .next (answer q .ok 0
      (m (skeinPortState (t.linkOf i)) (Config.freeWord s.free).toNat (t.linkOf i).changed) { t with free := s.free + 1 }))) ∧
  (∀ (src : ReqSrc) (q : Req) (s t : State), Served 0x0502 10 anyMode src q s t → par q 8 1 ≤ 2 → par q 9 1 < [12, 8, 2].getD (par q 8 1) 0 →
    exec (.portCounters src) s = .next (answer q .ok 0 ((portCounters t (par q 8 1) (par q 9 1)).flatMap (leBytes 8)) t)) ∧
  (∀ (src : ReqSrc) (q : Req) (s t : State) (k : Nat), Served 0x0601 9 anyMode src q s t → k = par q 8 1 →
    exec (.plyGet src) s = .next (if 7 < k then answer q .badParam 8 [] t else answer q .ok 0 (leBytes 8 (plyValue t k).1 ++
      leBytes 4 (plyValue t k).2.1 ++ leBytes 4 0 ++ leBytes 8 (plyIncrement t k) ++ leBytes 8 s.ply.reel.toNat) t)) ∧
  (∀ (src : ReqSrc) (q : Req) (s t : State) (r : Option (Nat × Nat)), Served 0x0605 24 anyMode src q s t →
    r = tickToPly t (par q 8 1) (BitVec.ofNat 64 (par q 16 8)) 0 →
    exec (.tickToPly src) s = .next (if 7 < par q 8 1 then answer q .badParam 8 [] t
      else r.elim (answer q .badParam 16 [] t) fun v => answer q .ok 0 (leBytes 8 v.1 ++ leBytes 4 v.2) t)) ∧
  (∀ (src : ReqSrc) (q : Req) (s t : State), Served 0x0702 10 anyMode src q s t →
    exec (.cascMap src) s = .next (if s.skn.assigned then answer q .ok 0 (mapBytes t (par q 8 2)) t else answer q .cascadeUnreachable 0 [] t)) ∧
  (∀ (src : ReqSrc) (q : Req) (s t : State), Served 0x0306 12 anyMode src q s t → exec (.txnStatus src) s =
    .next ((txn? s (par q 8 2)).elim (answer q .txnUnknown 0 [] t) fun x => answer q .ok 0 (statusBytes x (par q 10 2)) t)) ∧
  (∀ src q s t item inst off len, Served 0x0307 18 anyMode src q s t → item = par q 8 2 → inst = par q 10 2 → off = par q 12 4 → len = par q 16 2 →
    (itemKnown item inst = false → ∃ d, exec (.confGet src) s = .next (answer q .badParam d [] t) ∧ (d = 8 ∨ d = 10)) ∧
    (itemKnown item inst = true → exec (.confGet src) s = .next (
      if itemSpan t item inst ≤ off then answer q .badParam 12 [] t else if len = 0 ∨ 228 < len then answer q .badParam 16 [] t
      else if itemSpan t item inst < off + len then answer q .badParam 12 [] t
      else answer q .ok 0 (leBytes 2 len ++ leBytes 2 0 ++ (s.conf item inst).bytes off len) t)))

/-- Mode commands (R84, R119, R138, R139, R344, R351, R703, R783). -/
def Obligations.ModeSetCommands : Prop :=
  (∀ (src : ReqSrc) (q : Req) (s t : State), Served 0x0202 9 spinOrService src q s t →
    (par q 8 1 ∉ [2, 4, 5] → exec (.modeSet src) s = .next (answer q .badParam 8 [] t)) ∧
    (par q 8 1 = modeNum s.sys.mode → exec (.modeSet src) s = .next (answer q .ok 0 [] t)) ∧
    (s.sys.mode = .spin → s.sys.entering = true → par q 8 1 = 5 → exec (.modeSet src) s = .next (answer q .modeDenied 2 [] t)) ∧
    (s.sys.mode = .spin → s.sys.entering = true → par q 8 1 = 4 → exec (.modeSet src) s = .next (answer q .ok 0 [] t)) ∧
    (s.sys.mode = .spin → s.sys.entering = false → par q 8 1 = 5 → commitsRun s = true → exec (.modeSet src) s = .next (answer q .busy 0 [] t)) ∧
    (s.sys.mode = .spin → s.sys.entering = false → par q 8 1 = 5 → commitsRun s = false →
      exec (.modeSet src) s = .next (answer q .ok 0 [] (stopStrands { t with sys := { t.sys with mode := .service } }))) ∧
    (s.sys.mode = .service → s.sys.entering = false → par q 8 1 = 2 → s.sys.imgUpdated = false →
      exec (.modeSet src) s = .next (answer q .ok 0 [] (startStrands { t with sys := { t.sys with mode := .spin } }))) ∧
    (s.sys.mode = .service → s.sys.entering = false → par q 8 1 = 2 → s.sys.imgUpdated = true →
      exec (.modeSet src) s = .next (answer q .modeDenied 5 [] t)) ∧
    (s.sys.mode = .service → s.sys.entering = false → par q 8 1 = 4 → exec (.modeSet src) s = .next (answer q .modeDenied 5 [] t)) ∧
    (s.sys.mode = .spin → s.sys.entering = false → par q 8 1 = 4 →
      (txnOpen s = true ∨ s.pwr.senseWarn = true → exec (.modeSet src) s = .next (answer q .modeDenied 2 [] t)) ∧
      (txnOpen s = false → s.pwr.senseWarn = false →
        (commitsRun s = true ∨ dstBusy s = true ∨ panelBusy t = true → exec (.modeSet src) s = .next (answer q .busy 0 [] t)) ∧
        (commitsRun s = false → dstBusy s = false → panelBusy t = false → exec (.modeSet src) s = .next (answer q .ok 0 [] (rovStopAt true
          (stopStrands { t with sys := { t.sys with entering := true, drowseReq := some (q.src, q.seq, t.ply.reel) } }))))))) ∧
  (∀ (n : Fin 32) (q : Req) (s t : State), Served 0x0203 8 anyMode (.mailbox n) q s t → q.src = .mailbox n → bitOf s.hl.hfull n.val = false →
    exec (.resetWarm (.mailbox n)) s =
      .next (hstMessage n.val q.seq (replyMsg 0x0203 .ok 0 []) { t with sys := { t.sys with resetDue := true } })) ∧
  (∀ (dev : BitVec 10) (m : Nat) (q : Req) (s t : State), Served 0x0203 8 anyMode (.relay dev m) q s t → q.src = .relay dev m →
    exec (.resetWarm (.relay dev m)) s = .next (answer q .ok 0 [] { t with sys := { t.sys with resetDue := true } })) ∧
  (∀ s : State, (cmdReset s).sys.mode = .kindle ∧ (cmdReset s).sys.offTime = true ∧ (cmdReset s).sys.kstep = 1) ∧
  (∀ (src : ReqSrc) (q : Req) (s t : State), Served 0x0204 24 spinOrService src q s t →
    exec (.wakeSet src) s = .next (answer q .ok 0 [] (((t.regWrite 0x40000058 (BitVec.ofNat 32 (par q 8 1))).regWrite 0x40000060
      (BitVec.ofNat 32 (par q 16 4))).regWrite 0x40000064 (BitVec.ofNat 32 (par q 20 4)))))

/-- Transactions (R317, R323 to R350, R434, Tables 6.5 to 6.7). -/
def Obligations.TransactionCommands : Prop :=
  (∀ (src : ReqSrc) (q : Req) (s t : State), Served 0x0301 8 workModes src q s t →
    (4 ≤ (s.txn.txns.filter txnLive).length → exec (.txnOpen src) s = .next (answer q .txnLimit 0 [] t)) ∧
    ((s.txn.txns.filter txnLive).length < 4 → ∃ h, exec (.txnOpen src) s = .next (answer q .ok 0 (leBytes 2 h) { t with txn := { t.txn with
        txns := t.txn.txns ++ [{ h := h }], nextH := h % 65535 + 1 } }) ∧
      (1 ≤ s.txn.nextH → s.txn.nextH ≤ 65535 → s.txn.txns.length < 64 → 1 ≤ h ∧ h ≤ 65535 ∧ txn? s h = none))) ∧
  (∀ (x : Txn) (rs : List Rec) (t : State), stageRecs x.h rs t = { t with txn := { t.txn with
    txns := t.txn.txns.map fun y => if y.h = x.h then { y with recs := y.recs ++ rs, staged := y.staged + stageBytes rs } else y } }) ∧
  (∀ (src : ReqSrc) (q : Req) (s t : State) (x : Txn), Served 0x0302 12 workModes src q s t → NamesOpen s q x →
    (∀ rs, stageCheck t x (q.msg.drop 12) = .ok rs →
      exec (.txnStage src) s = .next (answer q .ok 0 (leBytes 4 (x.staged + stageBytes rs)) (stageRecs x.h rs t))) ∧
    (∀ e d, stageCheck t x (q.msg.drop 12) = .error (e, d) → exec (.txnStage src) s = .next (answer q e d [] t))) ∧
  (∀ (src : ReqSrc) (q : Req) (s t : State), Served 0x0303 24 workModes src q s t →
    (∀ data, spiSelected s = true → exec (.txnStageDma src data) s = .next (answer q .linkDenied 0 [] t)) ∧
    (∀ data, spiSelected s = false → par q 12 4 = 0 ∨ 984000 < par q 12 4 → exec (.txnStageDma src data) s = .next (answer q .badParam 12 [] t)) ∧
    (∀ x, spiSelected s = false → 1 ≤ par q 12 4 → par q 12 4 ≤ 984000 → NamesOpen s q x →
      exec (.txnStageDma src none) s = .next (answer q .dmaFault 0 [] t) ∧
      ∀ bs rs, stageCheck t x (bs.take (par q 12 4)) = .ok rs →
        exec (.txnStageDma src (some bs)) s = .next (answer q .ok 0 (leBytes 4 (x.staged + stageBytes rs)) (stageRecs x.h rs t)))) ∧
  (∀ (src : ReqSrc) (q : Req) (s t : State) (r : CommitReq), Served 0x0304 24 spinOrService src q s t →
    r = { persist := (par q 10 2).testBit 0, nonatomicOk := (par q 10 2).testBit 1, ekind := par q 12 1, strand := par q 13 1
          tick := BitVec.ofNat 64 (par q 16 8) } →
    (1 < r.ekind → exec (.txnCommit src) s = .next (answer q .badParam 12 [] t)) ∧
    (r.ekind = 0 → 3 < r.strand → exec (.txnCommit src) s = .next (answer q .badParam 13 [] t)) ∧
    (r.ekind = 1 → epochFar t 1 r.tick = true → exec (.txnCommit src) s = .next (answer q .badParam 16 [] t)) ∧
    (∀ x, r.ekind = 0 ∧ r.strand ≤ 3 ∨ r.ekind = 1 ∧ epochFar t 1 r.tick = false → NamesOpen s q x →
      (∀ e d, commitRefused t x r = some (e, d) → exec (.txnCommit src) s = .next (answer q e d [] t)) ∧
      (commitRefused t x r = none → ∃ u y, exec (.txnCommit src) s = .next u ∧
        u = { t with txn := { t.txn with txns := u.txn.txns }, fly := { t.fly with prog := u.fly.prog }
                     dst := if r.persist then { t.dst with staged := some { txn := x.h, recs := x.recs, schema := schemaNow t, full := s.txn.isVolatile } } else t.dst } ∧
        u.txn.txns.map Txn.h = (t.txn.txns.filter fun y => y.h != x.h).map Txn.h ++ [x.h] ∧ u.txn.txns.getLast? = some y ∧
        y.recs = x.recs ∧ y.st = (if r.persist then .journaling else .waiting) ∧ y.src = some q.src ∧ y.persist = r.persist ∧
        y.tick = (if r.ekind = 1 then r.tick else s.ply.reel + 50000)))) ∧
  (∀ (src : ReqSrc) (q : Req) (s t : State), Served 0x0305 10 workModes src q s t →
    (∀ x, NamesOpen s q x → x.src = none → s.dst.staged = none → s.dst.inflight = none →
      exec (.txnAbort src) s = .next (answer q .ok 0 [] (pagesStaged (txnEnd x.h .aborted t)))) ∧
    (∀ x, txn? s (par q 8 2) = some x → x.expired = false → x.st = .applying ∨ x.st = .done ∨ x.st = .aborted →
      exec (.txnAbort src) s = .next (answer q .txnState (txnNum x.st) [] t))) ∧
  (∀ op ∈ ([(.txnStage, 0x0302, 12), (.txnAbort, 0x0305, 10)] : List ((ReqSrc → Instr) × Nat × Nat)),
    ∀ (src : ReqSrc) (q : Req) (s t : State), Served op.2.1 op.2.2 workModes src q s t →
    (txn? s (par q 8 2) = none → exec (op.1 src) s = .next (answer q .txnUnknown 0 [] t)) ∧
    (∀ x, txn? s (par q 8 2) = some x → x.expired = true → exec (op.1 src) s = .next (answer q .txnExpired 0 [] t)) ∧
    (∀ x, txn? s (par q 8 2) = some x → x.expired = false → x.st = .done → exec (op.1 src) s = .next (answer q .txnState 5 [] t)))

/-- Image commands (R176, R179, R317, R349, R586). -/
def Obligations.ImageCommands : Prop :=
  (∀ (src : ReqSrc) (q : Req) (s t : State) (b : Bool), Served 0x0402 12 serviceOnly src q s t → b = (!s.dst.ctl.active) →
    (16515072 < par q 8 4 → exec (.imgBegin src) s = .next (answer q .badParam 8 [] t)) ∧
    (par q 8 4 ≤ 16515072 → ∃ c, exec (.imgBegin src) s = .next (answer q .ok 0 [if b then 1 else 0] { t with dst := { t.dst with
        imgWrite := some { slotB := b, size := par q 8 4, ranges := [] }, ctl := c, waiting := t.dst.waiting ++ [.boot false c false] } }) ∧
      c = { setSlot b .writing s.dst.ctl with bseq := s.dst.ctl.bseq + 1 })) ∧
  (∀ (src : ReqSrc) (q : Req) (s t : State) (bs : List Byte), Served 0x0403 13 serviceOnly src q s t → bs = (q.msg.drop 12).take 240 →
    (∀ w, s.dst.imgWrite = some w → par q 8 4 + bs.length ≤ w.size → ∃ r, exec (.imgWrite src) s = .next (answer q .ok 0
        (leBytes 4 ((r.map Prod.snd).sum)) { t with dst := { t.dst with
          imgWrite := some { w with ranges := r }, waiting := t.dst.waiting ++ imageUnits (bs.length / 32768 + 2) (par q 8 4) bs } }) ∧
      r = addRange (par q 8 4) bs.length w.ranges) ∧
    (∀ w, s.dst.imgWrite = some w → w.size < par q 8 4 + bs.length → exec (.imgWrite src) s = .next (answer q .badParam 8 [] t)) ∧
    (s.dst.imgWrite = none → ∃ d, exec (.imgWrite src) s = .next (answer q .slotState d [] t))) ∧
  (∀ (src : ReqSrc) (q : Req) (s t : State) (n : Nat), Served 0x0404 24 serviceOnly src q s t → n = par q 12 4 →
    (∀ data, spiSelected s = true → exec (.imgWriteDma src data) s = .next (answer q .linkDenied 0 [] t)) ∧
    (∀ data w, spiSelected s = false → s.dst.imgWrite = some w → w.size < par q 8 4 + n →
      exec (.imgWriteDma src data) s = .next (answer q .badParam 8 [] t)) ∧
    (∀ data, spiSelected s = false → imgPast q n s = false → n = 0 ∨ 65536 < n →
      exec (.imgWriteDma src data) s = .next (answer q .badParam 12 [] t)) ∧
    (spiSelected s = false → imgPast q n s = false → 1 ≤ n → n ≤ 65536 →
      exec (.imgWriteDma src none) s = .next (answer q .dmaFault 0 [] t)) ∧
    (∀ w bs, spiSelected s = false → 1 ≤ n → n ≤ 65536 → bs.length = n → s.dst.imgWrite = some w →
      par q 8 4 + n ≤ w.size → ∃ r, exec (.imgWriteDma src (some bs)) s = .next (answer q .ok 0 (leBytes 4 ((r.map Prod.snd).sum))
        { t with dst := { t.dst with
          imgWrite := some { w with ranges := r }, waiting := t.dst.waiting ++ imageUnits (n / 32768 + 2) (par q 8 4) bs } }) ∧
        r = addRange (par q 8 4) n w.ranges)) ∧
  (∀ (src : ReqSrc) (q : Req) (s t : State), Served 0x0405 8 serviceOnly src q s t → imageUnitsLeft s = false →
    (∀ w, s.dst.imgWrite = some w → bytesWritten w = w.size →
      ∃ c, exec (.imgEnd src) s = .next (if authentic (slotMem s.dst w.slotB) then answer q .ok 0 [] { t with
          sys := { t.sys with imgUpdated := true }
          dst := { t.dst with imgWrite := none, ctl := c, waiting := t.dst.waiting ++ [.boot false c false] } }
        else answer q .authFail 0 [] { t with
          dst := { t.dst with imgWrite := none, ctl := c, waiting := t.dst.waiting ++ [.boot false c false] } }) ∧
        c = if authentic (slotMem s.dst w.slotB) then { setSlot w.slotB .trial s.dst.ctl with tries := 0, bseq := s.dst.ctl.bseq + 1 }
          else { setSlot w.slotB .bad s.dst.ctl with bseq := s.dst.ctl.bseq + 1 }) ∧
    (s.dst.imgWrite.any (fun w => bytesWritten w == w.size) = false → ∃ d, exec (.imgEnd src) s = .next (answer q .slotState d [] t))) ∧
  (∀ (src : ReqSrc) (q : Req) (s t : State) (b : Bool), Served 0x0406 8 workModes src q s t → s.dst.booted = some b →
    (slotState s.dst.ctl b = .trial → ∃ c, exec (.imgConfirm src) s = .next (answer q .ok 0 [] { t with dst := { t.dst with
        ctl := c, waiting := t.dst.waiting ++ [.boot false c false] } }) ∧
      c = { setSlot b .good s.dst.ctl with active := b, tries := 0, bseq := s.dst.ctl.bseq + 1 }) ∧
    (slotState s.dst.ctl b ≠ .trial → ∃ d, exec (.imgConfirm src) s = .next (answer q .slotState d [] t)))

/-- Ply and roving commands (R349, R614, R615, R626, R736 to R738, R752, R753). -/
def Obligations.DeviceCommands : Prop :=
  (∀ (src : ReqSrc) (q : Req) (s t : State) (k i : Nat), Served 0x0602 24 anyMode src q s t → k = par q 8 1 → i = par q 16 8 →
    (7 < k → exec (.plyIncr src) s = .next (answer q .badParam 8 [] t)) ∧
    (k ≤ 7 → i < 4209067950 ∨ 4380866641 < i → exec (.plyIncr src) s = .next (answer q .badParam 16 [] t)) ∧
    (k ≤ 7 → 4209067950 ≤ i → i ≤ 4380866641 → exec (.plyIncr src) s = .next (if plyFree s k then answer q .ok 0 []
      (t.setPly k fun p => { p with chg := some { at' := s.ply.reel + 1, step := none, incr := some i } }) else answer q .busy 0 [] t))) ∧
  (∀ (src : ReqSrc) (q : Req) (s t : State) (k sec ns at_ : Nat), Served 0x0603 40 anyMode src q s t → k = par q 8 1 →
    sec = par q 16 8 → ns = par q 24 4 → at_ = par q 32 8 →
    (7 < k → exec (.plyStep src) s = .next (answer q .badParam 8 [] t)) ∧
    (k ≤ 7 → 1 < par q 9 1 → exec (.plyStep src) s = .next (answer q .badParam 9 [] t)) ∧
    (k ≤ 7 → par q 9 1 ≤ 1 → 2 ^ 48 ≤ sec → exec (.plyStep src) s = .next (answer q .badParam 16 [] t)) ∧
    (k ≤ 7 → par q 9 1 ≤ 1 → sec < 2 ^ 48 → 999999999 < ns → exec (.plyStep src) s = .next (answer q .badParam 24 [] t)) ∧
    (k ≤ 7 → par q 9 1 ≤ 1 → sec < 2 ^ 48 → ns ≤ 999999999 →
      (at_ ≠ 0 → at_ < s.ply.reel.toNat + 1000 → exec (.plyStep src) s = .next (answer q .epochPast 0 [] t)) ∧
      (s.ply.reel.toNat + 10000000000 < at_ → exec (.plyStep src) s = .next (answer q .badParam 32 [] t)) ∧
      (at_ = 0 ∨ s.ply.reel.toNat + 1000 ≤ at_ ∧ at_ ≤ s.ply.reel.toNat + 10000000000 → exec (.plyStep src) s = .next (
        if plyFree s k then answer q .ok 0 [] (t.setPly k fun p => { p with chg := some {
          at' := if at_ = 0 then s.ply.reel + 1 else BitVec.ofNat 64 at_, step := some (par q 9 1 == 1, sec, ns), incr := none } })
        else answer q .busy 0 [] t)))) ∧
  (∀ (src : ReqSrc) (q : Req) (s t : State) (h off len : Nat), Served 0x0A01 32 anyMode src q s t → h = par q 8 1 → off = par q 12 4 → len = par q 16 4 →
    (∀ data, spiSelected s = true → exec (.rovHankWrite src data) s = .next (answer q .linkDenied 0 [] t)) ∧
    (∀ data, spiSelected s = false → 31 < h → exec (.rovHankWrite src data) s = .next (answer q .badParam 8 [] t)) ∧
    (∀ data, spiSelected s = false → h ≤ 31 → off % 4 ≠ 0 ∨ 131072 ≤ off → exec (.rovHankWrite src data) s = .next (answer q .badParam 12 [] t)) ∧
    (spiSelected s = false → h ≤ 31 → off % 4 = 0 → len % 4 = 0 → 4 ≤ len → off + len ≤ 131072 →
      (∀ data, s.rov.ready.getLsbD h = true → exec (.rovHankWrite src data) s = .next (answer q .busy 0 [] t)) ∧
      (∀ bs, s.rov.ready.getLsbD h = false → bs.length = len → exec (.rovHankWrite src (some bs)) s = .next (answer q .ok 0 []
        { t with rov := { t.rov with mem := Mem.write s.rov.mem (131072 * h + off) bs } })))) ∧
  (∀ (src : ReqSrc) (q : Req) (s t : State) (m : BitVec 32), Served 0x0A02 12 anyMode src q s t → m = BitVec.ofNat 32 (par q 8 4) →
    (rovInUse s &&& ~~~ m ≠ 0 → exec (.rovHankReady src) s = .next (answer q .busy 0 [] t)) ∧
    (rovInUse s &&& ~~~ m = 0 → ∃ u, exec (.rovHankReady src) s = .next (answer q .ok 0 [] { t with rov := u }) ∧
      u = { s.rov with ready := m, readyAt := u.readyAt })) ∧
  (∀ (src : ReqSrc) (q : Req) (s t : State) (entry at_ : Nat), Served 0x0A03 24 spinOrService src q s t → entry = par q 8 4 → at_ = par q 16 8 →
    (4194304 ≤ entry ∨ entry % 8 ≠ 0 ∨ s.rov.ready.getLsbD (entry / 131072) = false → exec (.rovStart src) s = .next (answer q .badParam 8 [] t)) ∧
    (entry < 4194304 → entry % 8 = 0 → s.rov.ready.getLsbD (entry / 131072) = true →
      (at_ ≠ 0 → at_ < s.ply.reel.toNat + 10000 → exec (.rovStart src) s = .next (answer q .epochPast 0 [] t)) ∧
      (at_ = 0 → s.rov.running = true → exec (.rovStart src) s = .next (answer q .busy 0 [] t)) ∧
      (at_ = 0 → s.rov.running = false → s.rov.startAt = none → exec (.rovStart src) s = .next (answer q .ok 0 [] (rovBegin entry t))) ∧
      (s.ply.reel.toNat + 10000 ≤ at_ → at_ ≤ s.ply.reel.toNat + 10000000000 → s.rov.running = false → s.rov.startAt = none →
        exec (.rovStart src) s = .next (answer q .ok 0 [] { t with rov := { t.rov with startAt := some (BitVec.ofNat 64 at_), pc := entry } })))) ∧
  (∀ (src : ReqSrc) (q : Req) (s t : State), Served 0x0A04 8 anyMode src q s t → exec (.rovStop src) s = .next (answer q .ok 0 [] (rovStopAt true t)))

/-! ### The whorl (chapter 07) -/

/-- The schedule (R120, R358, R359, R362, R368, R371, R376, R385, R388, R389, R391, R392, R397, R398, R606). -/
def Obligations.WhorlScheduleCommands : Prop :=
  (∀ (s t : State) (k : Fin 4), t = plyFirst k s →
    ((t.strand k).run = false ∨ nextBoundary t k = none → exec (.leaBoundary k) s = .next t) ∧
    (∀ b, (t.strand k).run = true → nextBoundary t k = some b →
      ((t.strand k).stopping = true → exec (.leaBoundary k) s = .next (strandStop k (reachTick (BitVec.ofNat 64 b) t))) ∧
      (k = 0 → (t.strand k).stopping = false → (t.strand k).pend = none → t.sys.mode = .brace →
        exec (.leaBoundary k) s = .next ((reachTick (BitVec.ofNat 64 b) t).setStrand k fun st => { st with
          on := true, boundary := BitVec.ofNat 64 b, next := 0, collided := false })) ∧
      ((t.strand k).stopping = false → (t.strand k).pend = none → ∃ u, exec (.leaBoundary k) s = .next u ∧
        u.ply = (reachTick (BitVec.ofNat 64 b) t).ply ∧ u.whl.slot = t.whl.slot ∧ u.whl.releases = t.whl.releases ∧
        u = { t with whl := u.whl, ply := u.ply, regs := u.regs, stw := u.stw, sys := u.sys }))) ∧
  (∀ (s : State) (k : Fin 4), dueSlot s k = none ∨ (∃ d, dueSlot s k = some d ∧ lowerFirst s k d.2.2 = true) → exec (.slotStart k) s = .next s) ∧
  (∀ (s t u : State) (k : Fin 4) (i at_ : Nat) (d : SlotDef), dueSlot s k = some (i, d, at_) → lowerFirst s k at_ = false →
    t = reachTick (BitVec.ofNat 64 at_) s → u = (clearHold d.spindle t).setStrand k (fun st => { st with next := i + 1, collided := false }) →
    (s.whl.slot.isSome = true → exec (.slotStart k) s = .next (if (s.strand k).collided then t
      else (t.count 0x4002000C 1).setStrand k fun st => { st with collided := true })) ∧
    (s.whl.slot = none → (u.spindle d.spindle).st ≠ .idle → exec (.slotStart k) s = .next u) ∧
    (s.whl.slot = none → (u.spindle d.spindle).st = .idle → ∃ sl, exec (.slotStart k) s = .next
        (({ u with whl := { u.whl with slot := some sl } } : State).setSpindle d.spindle fun p => { p with st := .running }) ∧
      sl.strand = k ∧ sl.index = i ∧ sl.spindle = d.spindle ∧ sl.start = BitVec.ofNat 64 at_ ∧ sl.stop = BitVec.ofNat 64 (at_ + d.len) ∧
      sl.g = gSet (u.spindle d.spindle).ctx 31 0xFFFFFFF0 ∧ sl.pc = BitVec.ofNat 32 d.entry ∧ sl.staged = [] ∧ sl.count = 0 ∧ sl.granted = [])) ∧
  (∀ (s : State) (n : Nat), (bitOf (s.rd (holdClrReg n)) (n % 32) = false ∨ (s.spindle n).braceHeld = true → clearHold n s = s) ∧
    (bitOf (s.rd (holdClrReg n)) (n % 32) = true → (s.spindle n).braceHeld = false → (s.spindle n).st = .hold →
      clearHold n s = (s.setFld (holdClrReg n) (n % 32) 1 0).setSpindle n fun p => { p with st := .idle })) ∧
  (∀ (s : State) (sl : Slot), s.whl.slot = some sl → sl.pc = 0xFFFFFFF0 → s.ply.reel ≤ sl.stop - 8 →
    exec .overrun s = .next s ∧
    ((s.spindle sl.spindle).braceHeld = false →
      ∃ t, exec .slotComplete s = .next t ∧ t = { s with whl := t.whl } ∧ t.whl.slot = none ∧ t.whl.enqBuf = sl.enq ∧ t.whl.data = s.whl.data ∧
        t.whl.spindles = Tab.upd (fun _ => {}) s.whl.spindles sl.spindle (fun p => { p with ctx := Tab.erase sl.g 31, st := .idle }) ∧
        t.whl.releases = s.whl.releases ++ [{ tick := sl.stop + 16, spindle := sl.spindle, entries := (sl.granted.map (fun g => Staged.grant g.1 g.2) ++
          sl.staged.filter (fun e => match e with | .tin _ => false | .grant _ _ => false | _ => true)) }])) ∧
  (∀ (s : State) (sl : Slot), s.whl.slot = some sl → sl.pc ≠ 0xFFFFFFF0 ∨ sl.stop - 8 < s.ply.reel → exec .slotComplete s = .next s ∧
    exec .overrun s = .next (slotFail 1 0 sl (reachTick (sl.stop - 8) s))) ∧
  (∀ (s : State) (sl : Slot) (kind sub : Nat), sl.staged = [] → ∃ t, slotFail kind sub sl s = t ∧ t = { s with whl := t.whl, sys := t.sys } ∧
    t.whl.slot = none ∧ t.whl.data = s.whl.data ∧ t.whl.tin = s.whl.tin ∧
    t.whl.spindles = Tab.upd (fun _ => {}) s.whl.spindles sl.spindle (fun p => { p with
      st := .hold, braceHeld := false, overruns := min 65535 (p.overruns + 1) }) ∧
    t.whl.flog = (pushFlog ⟨kind, sl.spindle, sl.index, if kind = 1 then sl.stop - 8 else s.ply.reel⟩ s.whl).flog ∧
    ∃ es, t.whl.releases = s.whl.releases ++ [⟨sl.stop + 16, sl.spindle, es⟩]) ∧
  (∀ s : State, s.whl.slot = none → exec .slotComplete s = .next s ∧ exec .overrun s = .next s) ∧
  (∀ s : State, s.whl.releases = [] → exec .slotRelease s = .next s) ∧
  (∀ (s : State) (r : Release) (pa n : Nat) (v : Word), nextRelease s = some r → r.entries = [.store pa n v] → pa < 0x100000 →
    exec .slotRelease s = .next (reachTick r.tick { s with whl := { s.whl with
      releases := s.whl.releases.erase r, data := s.whl.data.write pa (leBytes n v.toNat) } }))

/-- Task inputs, pace, HOLD, fault log, frame window (R373, R374, R381, R383, R384, R389, R396, R398, R400, R478, R479). -/
def Obligations.WhorlMonitorCommands : Prop :=
  (∀ (s : State) (n : Fin 256) (k c a : Nat), islandsUp s = true → c = Tab.get (fun _ => 0) s.whl.tin n → a = 0x40021000 + 4 * n →
    (c + k ≤ 255 ∨ bitOf (s.rd a) 31 = true →
      exec (.taskInputEvent n k) s = .next { s with whl := { s.whl with tin := Tab.set (fun _ => 0) s.whl.tin n (min 255 (c + k)) } }) ∧
    (255 < c + k → bitOf (s.rd a) 31 = false →
      ∃ t, exec (.taskInputEvent n k) s = .next t ∧ t.whl.tin = Tab.set (fun _ => 0) s.whl.tin n 255 ∧ bitOf t.stw.ipend 3 = true ∧
        t.whl.flog = (pushFlog ⟨5, 0, 0, s.ply.reel⟩ s.whl).flog ∧ t.regs = setReg s.regs a (s.rd a ||| 0x80000000) ∧
        t = { s with whl := t.whl, regs := t.regs, stw := { s.stw with ipend := t.stw.ipend }, sys := t.sys })) ∧
  (∀ (s : State) (n : Fin 256) (k : Nat), islandsUp s = false → exec (.taskInputEvent n k) s = .next s) ∧
  (∀ (s0 s : State) (meas : List Nat) (m thr : Int), s = overrunFirst s0 → m = paceM meas → thr = s.fld 0x40020008 0 16 →
    (islandsUp s = false → exec (.paceUpdate meas) s0 = .next s) ∧
    (islandsUp s = true → thr ≤ m → ∃ p, exec (.paceUpdate meas) s0 = .next { s with
      whl := { s.whl with margin := m, above20 := if 2000 ≤ m then s.whl.above20 + 1 else 0 }, sys := { s.sys with pace := p } }) ∧
    (islandsUp s = true → m < thr → thr ≤ s.whl.margin → ∃ t, exec (.paceUpdate meas) s0 = .next t ∧ t.whl.margin = m ∧
      bitOf t.stw.ipend 3 = true ∧ t.whl.flog = (pushFlog ⟨3, 0, 0, s.ply.reel⟩ s.whl).flog ∧
      t = { s with whl := t.whl, regs := t.regs, stw := { s.stw with ipend := t.stw.ipend }, sys := t.sys })) ∧
  (∀ (s : State) (c : Nat), stewardRuns s = true → c = s.fld 0x400E0008 0 6 →
    (s.whl.margin < 1500 → c < 56 → exec .vcoreTrim s = .next (s.setFld 0x400E0008 0 6 (c + 1))) ∧
    (s.whl.margin < 1500 → 56 ≤ c → exec .vcoreTrim s = .next (if bitOf (s.rd 0x40020004) 30 then s else
      logFault 0x34 2 (leBytes 2 (BitVec.ofInt 16 s.whl.margin).toNat) (s.setBits 0x40020004 0x40000000))) ∧
    (1500 ≤ s.whl.margin →
      exec .vcoreTrim s = .next (if 1000 < s.whl.above20 ∧ 0 < c then s.setFld 0x400E0008 0 6 (c - 1) else s))) ∧
  (∀ s : State, stewardRuns s = false → exec .vcoreTrim s = .next s) ∧
  (∀ (s : State) (m : BitVec 64), exec (.holdClear m) s = .next ((s.setBits 0x40020018 (m.setWidth 32)).setBits 0x4002001C ((m >>> 32).setWidth 32))) ∧
  (∀ s : State, (∀ e r, s.whl.flog = e :: r → exec .whlFlogRead s = .next { s with
      rdata := BitVec.ofNat 32 (e.kind * 2 ^ 28 + e.spindle % 64 * 2 ^ 22 + e.slot % 8192), whl := { s.whl with flog := r, flogTick := e.tick } }) ∧
    (s.whl.flog = [] → exec .whlFlogRead s = .next { s with rdata := 0 })) ∧
  (∀ (s : State) (i : Fin 8) (n b : Nat) (sl : Slot), coreReady .whorl s → s.whl.slot = some sl → b = sl.profile.getD (2 + i) 0 →
    (65536 ≤ b → exec (.whorlBurstReq i n) s = .next (coreDid .whorl sl.g (sl.pc + 4) s) ∧
      exec (.whorlEnqueue i n) s = .next (coreDid .whorl sl.g (sl.pc + 4) s)) ∧
    (b < 65536 → 512 ≤ sl.count → exec (.whorlBurstReq i n) s = .next (contract 0x20 s) ∧
      (n ≤ 9216 → exec (.whorlEnqueue i n) s = .next (contract 0x20 s))) ∧
    (∀ fs, b < 65536 → sl.count < 512 → fs = (readyFrames s sl b).take (min (min n 16) (16 - sl.granted.length)) →
      exec (.whorlBurstReq i n) s = .next { s with whl := { s.whl with slot := some { sl with
        staged := sl.staged ++ [.grant b fs.length], count := sl.count + 1, granted := sl.granted ++ fs.map (fun f => (b, f.id))
        got := Tab.set (fun _ => 0) sl.got i fs.length, pc := sl.pc + 4 } } }) ∧
    (b < 65536 → sl.count < 512 → ∃ id ok u, (if n ≤ 9216 then (id, ok, u) = offerInner 16 b (sl.enq.bytes 0 n) false s else ok = false ∧ u = s) ∧
      exec (.whorlEnqueue i n) s = .next { u with whl := { u.whl with slot := some { sl with
        staged := sl.staged ++ [if ok then .enqueue id else .grant b 0], count := sl.count + 1
        txres := Tab.set (fun _ => 0) sl.txres i (if ok then 1 else 0), pc := sl.pc + 4 } } }))

/-! ### The skein (chapter 14) and cascade time (chapter 13). `sknRx l s` is s with one more frame received on link l. -/

/-- Skein links (R108, R647 to R650, R671, R673, R674, R677). -/
def Obligations.SkeinLinkCommands : Prop :=
  (∀ (s : State) (l k : Nat) (o : SkOut) (u : State), u = s.setLink l (fun x => { x with txFrm := x.txFrm + 1 }) →
    sknTxOn l k o s = if canSend s l k then { u with skn := { u.skn with out := u.skn.out ++ [o] } } else s) ∧
  (∀ (s u : State) (l : Fin 2) (sw : Bool), linkAllowed s l = true → (s.linkOf l).st = .training ∨ (s.linkOf l).st = .monitoring →
    (if s.sys.kfault then (s.linkOf l).kfOpen = true ∧ sw = true else s.sys.mode ∈ [.spin, .brace, .service, .drowse] ∨ s.sys.kstep = 7) →
    u = ({ s with stw := { s.stw with ipend := s.stw.ipend ||| 0x400 } } : State).setLink l (fun k => { k with
      st := if sw then (if k.fellBack then .swiftOnly else .upSwift) else .up10g
      locked := true, pathClosed := false, cred := [], mcred := [], changed := s.ply.reel }) →
    exec (.skeinLock l sw) s = .next (joinOn l (linkBack l u))) ∧
  (∀ (s : State) (l : Nat), ∃ b, linkBack l s = { s with skn := { s.skn with
    broken := b, closed := linkLive s l && linkLive s (1 - l) } }) ∧
  (∀ (s : State) (l : Nat), s.sys.kfault = false →
    (s.skn.master = true → joinOn l s = sendTopology { s with skn := { s.skn with joined := true } }) ∧
    (s.skn.master = false → joinOn l s = if s.skn.masterSerial.isSome then sendJoin l s else s)) ∧
  (∀ (s : State) (l o : Nat), s.sys.kfault = true → o = (if txOn s l then l else 1 - l) →
    joinOn l s = sknTx o (.fault o s.sys.kfCode s.sys.kfRail) s) ∧
  (∀ (s : State) (l : Fin 2) (sw : Bool), linkAllowed s l = false ∨ (s.linkOf l).st ≠ .training ∧ (s.linkOf l).st ≠ .monitoring →
    exec (.skeinLock l sw) s = .next s) ∧
  (∀ (s : State) (l : Fin 2) (n : Nat),
    (linkLive s l = true → exec (.skeinLinkDown l n) s = .next (linkLost l (s.setLink l fun k => { k with
        lost := k.lost + BitVec.ofNat 32 n, lockLoss := k.lockLoss + 1, fellBack := false })) ∧
      exec (.sknCredstall l) s = .next (linkLost l (s.setLink l fun k => { k with credStall := k.credStall + 1, fellBack := false }))) ∧
    (linkLive s l = false → exec (.skeinLinkDown l n) s = .next s ∧ exec (.sknCredstall l) s = .next s)) ∧
  (∀ (s u : State) (l : Nat), u = ({ s with stw := { s.stw with ipend := s.stw.ipend ||| 0x400 } } : State).setLink l (fun k => { k with
      locked := false, st := .training, cred := [], mcred := [], changed := s.ply.reel }) →
    (s.sys.kfault = true → linkLost l s = s.setLink l fun k => { k with
      pathClosed := true, locked := false, st := .monitoring, kfOpen := false, fellBack := false, cred := [], mcred := [] }) ∧
    (s.sys.kfault = false → s.skn.master = false → linkLost l s = sknTxOn (1 - l) 1 (.linkDown l) u) ∧
    (s.sys.kfault = false → s.skn.master = true → ∃ b, linkLost l s = sendTopology { u with skn := { u.skn with closed := false, broken := b } })) ∧
  (∀ (s : State) (l : Fin 2), linkAllowed s l = true → (s.linkOf l).st = .training ∨ (s.linkOf l).st = .monitoring →
    exec (.swiftFallback l) s = .next (s.setLink l fun k => { k with st := .training, fellBack := true })) ∧
  (∀ (s : State) (l : Fin 2), exec (.swiftonlyRetry l) s = .next (if (s.linkOf l).st = .swiftOnly then s.setLink l fun k => { k with
    st := .training, locked := false, fellBack := false, changed := s.ply.reel } else s)) ∧
  (∀ (s : State) (l : Fin 2),
    ((s.linkOf l).st = .up10g → exec (.skeinRateFollow l true) s = .next (s.setLink l fun k => { k with st := .upSwift, changed := s.ply.reel })) ∧
    ((s.linkOf l).st = .upSwift ∨ (s.linkOf l).st = .swiftOnly → exec (.skeinRateFollow l false) s = .next (s.setLink l fun k => { k with
      st := .training, locked := false, fellBack := false, changed := s.ply.reel }))) ∧
  (∀ (s : State) (l : Fin 2) (b : Bool),
    (s.sys.kfault = true → linkAllowed s l = true → s.pwr.ready.getLsbD 3 = true → linkLive s l = false →
      exec (.kfaultSwiftCheck l b) s = .next (if b then s else s.setLink l fun k => { k with pathClosed := false, st := .training, kfOpen := true })) ∧
    (s.sys.kfault = false ∨ linkAllowed s l = false → exec (.kfaultSwiftCheck l b) s = .next s))

/-- Skein frames and relays (R354, R651 to R653, R657 to R660, R678 to R680, R768). -/
def Obligations.SkeinFrameCommands : Prop :=
  (∀ (s : State) (l : Fin 2) (h pay : List Byte) (g : Bool), carries s l (hKind h) = false → exec (.skeinFrameReceive l h pay g) s = .next s) ∧
  (∀ (s u : State) (l : Fin 2) (h h' pay : List Byte) (mine onward : Bool) (c : SkOut), carries s l (hKind h) = true →
    h' = hSetHops h (hHops h - 1) → c = .credit l (hKind h != 0) (hTc h) →
    u = s.setLink l (fun k => { k with rxFrm := k.rxFrm + 1 }) → mine = (s.skn.assigned && decide (hDev h = s.skn.dev.toNat)) →
    onward = ((!mine || hAll h) && decide (1 < hHops h)) →
    (∀ g, hGood h = false → exec (.skeinFrameReceive l h pay g) s = .next (u.setLink l fun k => { k with crcErr := k.crcErr + 1 })) ∧
    (∀ v, hGood h = true → v = u.setLink l (fun k => { k with aborts := k.aborts + 1 }) → exec (.skeinFrameReceive l h pay false) s =
      .next (sknSend c (if onward then abortOn (1 - l : Fin 2) h' pay v else v))) ∧
    (hGood h = true → hKind h = 0 → pay.drop (pay.length - 4) = fcsOf (pay.take (pay.length - 4)) → hAll h = false →
      (mine = true → exec (.skeinFrameReceive l h pay true) s =
        .next (sknSend c (deliver l h' pay u))) ∧
      (mine = false → hHops h ≤ 1 → exec (.skeinFrameReceive l h pay true) s =
        .next (sknSend c (u.setLink l fun k => { k with hopDrop := k.hopDrop + 1 }))) ∧
      (mine = false → 1 < hHops h → exec (.skeinFrameReceive l h pay true) s =
        .next (forward (1 - l : Fin 2) h' pay u)))) ∧
  (∀ (s : State) (l : Nat) (h pay : List Byte),
    (transitMay s l h = true → (s.linkOf l).transit = [] → forward l h pay s = transitGo l h pay s) ∧
    (transitMay s l h = false → forward l h pay s = s.setLink l fun k => { k with transit := k.transit ++ [(h, pay)] })) ∧
  (∀ (s : State) (l : Fin 2) (tc : Fin 8) (n : Nat), (s.linkOf l).transit = [] → Tab.wf (fun _ => ({} : Link)) s.skn.link = true →
    exec (.creditReturn l false tc n) s = .next (s.setLink l fun k => { k with
      cred := Tab.set (fun _ => 3) k.cred tc (min 3 (credits k tc + n)) }) ∧
    exec (.creditReturn l true tc n) s = .next (s.setLink l fun k => { k with
      mcred := Tab.set (fun _ => 1) k.mcred tc (min 1 (mcredits k tc + n)) })) ∧
  (∀ (s : State) (l : Fin 2), s.bob.queue = [] → (s.egress (12 + l)).copyBuf = [] → exec (.skeinAgeout l) s = .next s) ∧
  (∀ (s : State) (l : Fin 2) (e : QEntry) (rest : List QEntry) (d rb : Nat), s.bob.queue = e :: rest → bobEgress s e.bobbin = 12 + l.val →
    bobMcast s e.bobbin = false → remoteOf s e.bobbin = some (d, rb) → reachable s 0 d = false → reachable s 1 d = false → onWire s e.frame = false →
    exec (.skeinAgeout l) s = .next (dropEntry e.bobbin e.frame ((s.setLink l fun k => { k with noRoute := k.noRoute + 1 }).setBobbin e.bobbin
      fun x => { x with dropped := x.dropped + 1 }))) ∧
  (∀ (src : ReqSrc) (q : Req) (s t : State) (inner : List Byte) (d : Nat), Served 0x0703 20 anyMode src q s t → relayFull src s = false → inner = q.msg.drop 12 →
    d = par q 8 2 →
    (leAt inner 0 2 = 0x0703 → exec (.cascRelay src) s = .next (answer q .badParam 12 [] t)) ∧
    (leAt inner 0 2 ≠ 0x0703 → s.skn.assigned = false ∨ s.skn.master = false ∨ (s.skn.members.find? fun m => m.dev.toNat == d) = none →
      exec (.cascRelay src) s = .next (answer q .cascadeUnreachable d [] t)) ∧
    (∀ m, leAt inner 0 2 ≠ 0x0703 → s.skn.assigned = true → s.skn.master = true → (s.skn.members.find? fun m => m.dev.toNat == d) = some m →
      (m.mode.toNat ∈ [0, 1] → exec (.cascRelay src) s = .next (answer q .cascadeUnreachable d [] t)) ∧
      (∀ l u, m.mode.toNat ∉ [0, 1, 4] → l = sideTo s d → u = t.setLink l (fun k => { k with txFrm := k.txFrm + 1 }) →
        exec (.cascRelay src) s = .next { u with skn := { u.skn with
          nextSeq := s.skn.nextSeq + 1, out := s.skn.out ++ [.relay m.dev s.skn.nextSeq inner]
          relays := s.skn.relays ++ [⟨s.skn.nextSeq, q.src, q.seq, m.dev, false, l⟩] } }))) ∧
  (∀ (s : State) (l : Fin 2) (n : Nat) (rep : List Byte),
    (carries s l 1 = false → exec (.relayReply l n rep) s = .next s) ∧
    (∀ r u, carries s l 1 = true → relayOf s n = some r → r.wake = false → rep.length ≤ 244 → u = s.setLink l (fun k => { k with rxFrm := k.rxFrm + 1 }) →
      exec (.relayReply l n rep) s = .next (pushDue r.src r.tailSeq (replyMsg 0x0703 .ok 0 rep) { u with skn := { u.skn with
        relays := s.skn.relays.erase r } })) ∧
    (∀ r, relayOf s n = some r → exec (.cascadeTimeout n) s = .next (pushDue r.src r.tailSeq (replyMsg 0x0703 .cascadeTimeout r.target.toNat [])
      { s with skn := { s.skn with relays := s.skn.relays.erase r } })) ∧
    (relayOf s n = none → exec (.cascadeTimeout n) s = .next s))

/-- The cascade (R628, R653, R664, R665, R667 to R669, R684). -/
def Obligations.CascadeCommands : Prop :=
  (∀ (s t : State) (b : Nat → SkOut), t = becomeMaster s → (∀ l, b l = .beacon l Config.serial) →
    (s.skn.master = true → s.skn.masterSerial.isSome = true → exec .beaconSend s = .next (sknTxOn 1 10 (b 1) (sknTxOn 0 10 (b 0) s))) ∧
    (s.skn.masterSerial = none → s.sys.straps.master = true → s.skn.standby = false → carries s 0 10 = true →
      exec .beaconSend s = .next (sknTxOn 1 10 (b 1) (sknTxOn 0 10 (b 0) t))) ∧
    (s.skn.master = false → s.sys.straps.master = false → exec .beaconSend s = .next s)) ∧
  (∀ (s u : State) (l : Fin 2) (n : Tick), (carries s l 10 = false → exec (.beaconReceive l n) s = .next s) ∧
    (carries s l 10 = true → n = Config.serial → exec (.beaconReceive l n) s = .next (sknRx l s)) ∧
    (carries s l 10 = true → n ≠ Config.serial → u = sknTxOn (1 - l : Fin 2) 10 (.beacon (1 - l : Fin 2) n) (sknRx l s) →
      (∀ v, s.sys.straps.master = false → v = joinNew l n u →
        exec (.beaconReceive l n) s = .next { v with skn := { v.skn with masterSerial := some n } }) ∧
      (s.sys.straps.master = true → s.skn.master = true → s.sys.mode ≠ .kindle ∨ Config.serial < n → exec (.beaconReceive l n) s = .next u) ∧
      (∀ v w, s.sys.straps.master = true → s.skn.master = false ∨ s.sys.mode = .kindle ∧ n < Config.serial →
        v = joinNew l n { u with skn := { u.skn with master := false, standby := true, conflict := true
                                                     assigned := s.skn.assigned && !s.skn.master, joined := s.skn.joined && !s.skn.master } } →
        w = { v with skn := { v.skn with masterSerial := some n } } →
        exec (.beaconReceive l n) s = .next (if s.skn.conflict then w else logFault 0x71 9 (leBytes 8 n.toNat) w)))) ∧
  (∀ (s : State) (l : Nat) (n : Tick), joinNew l n s = if s.skn.assigned = false ∧ s.skn.masterSerial ≠ some n then sendJoin l s else s) ∧
  (∀ s : State, (s.skn.standby = true → s.skn.master = false → ∃ t, exec .masterTakeover s = .next t ∧ t.skn.master = true ∧ t.skn.standby = false ∧
      t.skn.assigned = true ∧ (s.skn.assigned = true → t.skn.dev = s.skn.dev ∧ t.skn.masterId = s.skn.dev) ∧
      t = { s with skn := t.skn, sys := t.sys, regs := t.regs }) ∧
    (s.skn.standby = false ∨ s.skn.master = true → exec .masterTakeover s = .next s)) ∧
  (∀ (s u : State) (l : Fin 2) (j : Join) (pos : Nat) (d : BitVec 10), d = assignId s pos j →
    u = sknTxOn l 7 (.assign l { serial := j.serial, dev := d, master := s.skn.dev }) (sknRx l s) →
    (s.skn.master = false ∨ carries s l 6 = false → exec (.joinReceive l j pos) s = .next s) ∧
    (s.skn.master = true → carries s l 6 = true → ∃ kn, exec (.joinReceive l j pos) s = .next (sendTopology { u with skn := { u.skn with
      known := kn, members := (s.skn.members.filter fun m => m.dev != d && m.pos != pos) ++ [{ dev := d, mode := j.mode, pos := pos }] } })) ∧
    (∀ e, s.skn.known.find? (fun x => x.1 == j.serial) = some (j.serial, e) → d = e) ∧
    ((∀ x ∈ s.skn.known, x.1 ≠ j.serial ∧ x.2 ≠ j.hint) → (∀ m ∈ s.skn.members, m.dev ≠ j.hint ∨ m.pos = pos) → d = j.hint)) ∧
  (∀ (s u : State) (l : Fin 2) (a : Assign), u = sknRx l s →
    (a.serial = Config.serial → s.skn.master = false → carries s l 7 = true → exec (.assignReceive l a) s = .next (({ u with skn := { u.skn with
      assigned := true, joined := true, dev := a.dev, masterId := a.master } } : State).setFld 0x40080470 28 4 4)) ∧
    (a.serial ≠ Config.serial ∨ s.skn.master = true ∨ carries s l 7 = false → exec (.assignReceive l a) s = .next s)) ∧
  (∀ (s u : State) (l : Fin 2) (y : Topology), u = sknRx l s →
    (s.skn.master = false → carries s l 8 = true → exec (.topologyReceive l y) s = .next (topologyOn l y ((setHops { u with skn := { u.skn with
      closed := y.closed, masterId := y.master, members := y.members, broken := y.broken } }).count 0x40090008 1))) ∧
    (s.skn.master = true ∨ carries s l 8 = false → exec (.topologyReceive l y) s = .next s))

/-! ### Contactless port (chapter 15) -/

/-- Pings and tag states (R711 to R716, R720 to R722). -/
def Obligations.TagStateCommands : Prop :=
  (∀ (s : State) (a : Nat) (p : Int), pingsOn s = false → exec (.detunePing a p) s = .next s) ∧
  (∀ (s : State) (a : Nat) (p : Int), pingsOn s = true → s.tag.field = true ∨ bankOk s 0 = false →
    exec (.detunePing a p) s = .next { s with tag := { s.tag with pingSkip := s.tag.pingSkip + 1 } }) ∧
  (∀ (s : State) (a : Nat) (p : Int), pingsOn s = true → s.tag.field = false → bankOk s 0 = true → s.tag.pings < 7 →
    exec (.detunePing a p) s = .next { s with tag := { s.tag with
      lastAmp := a, lastPhase := p, pings := s.tag.pings + 1, sumAmp := s.tag.sumAmp + a, sumPhase := s.tag.sumPhase + p } }) ∧
  (∀ (s : State) (a : Nat) (p : Int), pingsOn s = true → s.tag.field = false → bankOk s 0 = true → s.tag.pings = 7 →
    exec (.detunePing a p) s = .next { s with tag := { s.tag with
      lastAmp := a, lastPhase := p, pings := 8, sumAmp := s.tag.sumAmp + a, sumPhase := s.tag.sumPhase + p
      baseAmp := (s.tag.sumAmp + a) / 8, basePhase := (s.tag.sumPhase + p).tdiv 8, kindleAmp := (s.tag.sumAmp + a) / 8 } }) ∧
  (∀ (s : State) (a : Nat) (p : Int), pingsOn s = true → s.tag.field = false → bankOk s 0 = true → 8 ≤ s.tag.pings →
    2 * a < s.tag.kindleAmp ∨ 3 * s.tag.kindleAmp < 2 * a →
    exec (.detunePing a p) s = .next (logFault 0x91 11 (leBytes 2 a) { s with tag := { s.tag with lastAmp := a, lastPhase := p, antFault := true } })) ∧
  (∀ (s : State) (a : Nat) (p : Int), pingsOn s = true → s.tag.field = false → bankOk s 0 = true → 8 ≤ s.tag.pings →
    s.tag.kindleAmp ≤ 2 * a → 2 * a ≤ 3 * s.tag.kindleAmp → pingDetects s a p = true →
    exec (.detunePing a p) s = .next (wakeFire 8 (raiseLine 12 (({ s with tag := { s.tag with lastAmp := a, lastPhase := p } } : State).setBits
      0x400B0000 0x10000000)))) ∧
  (∀ (s : State) (a : Nat) (p : Int), pingsOn s = true → s.tag.field = false → bankOk s 0 = true → 8 ≤ s.tag.pings →
    s.tag.kindleAmp ≤ 2 * a → 2 * a ≤ 3 * s.tag.kindleAmp → pingDetects s a p = false →
    exec (.detunePing a p) s = .next { s with tag := { s.tag with
      lastAmp := a, lastPhase := p, baseAmp := ((s.tag.baseAmp : Int) + ((a : Int) - s.tag.baseAmp).tdiv 16).toNat
      basePhase := s.tag.basePhase + (p - s.tag.basePhase).tdiv 16 } }) ∧
  (∀ s : State, s.tag.field = false → exec .tagPowerUp s = .next { s with tag := { s.tag with
    field := true, secured := false, quiet := false, selected := false, backoff := true } }) ∧
  (∀ s : State, s.tag.field = true → exec .tagPowerUp s = .next s) ∧
  (∀ s : State, exec .tagFieldLoss s = .next { s with tag := { s.tag with
    field := false, secured := false, quiet := false, selected := false, backoff := false } }) ∧
  (∀ s : State, exec .tagSecureExpiry s = .next { s with tag := { s.tag with secured := false } }) ∧
  (∀ s : State, exec .tagBackoffEnd s = .next { s with tag := { s.tag with backoff := false } }) ∧
  (∀ s : State, s.tag.field = true → exec .tagInventory s = .next (if s.tag.quiet then s else { s with tag := { s.tag with
    answer := some (none, leBytes 8 tagUid.toNat) } })) ∧
  (∀ s : State, s.tag.field = true → exec .tagStayQuiet s = .next { s with tag := { s.tag with quiet := true, selected := false } }) ∧
  (∀ s : State, s.tag.field = true → exec (.tagSelect tagUid) s = .next { s with tag := { s.tag with
    selected := true, quiet := false, answer := some (none, []) } }) ∧
  (∀ (s : State) (u : Tick), s.tag.field = true → u ≠ tagUid → exec (.tagSelect u) s = .next { s with tag := { s.tag with selected := false } }) ∧
  (∀ s : State, s.tag.field = true → exec .tagResetToReady s = .next { s with tag := { s.tag with
    quiet := false, selected := false, secured := false, answer := some (none, []) } }) ∧
  (∀ s : State, s.tag.field = true → exec .tagGetSystemInformation s = .next { s with tag := { s.tag with
    answer := some (none, leBytes 8 tagUid.toNat ++ [255, 31] ++ Config.tagSystemInfo) } }) ∧
  (∀ (s : State) (u : Tick) (n : Fin 256) (k : Fin 9) (d : List Byte) (key : BitVec 128) (m : Byte) (w : Word), s.tag.field = false →
    exec .tagInventory s = .next s ∧ exec .tagStayQuiet s = .next s ∧ exec (.tagSelect u) s = .next s ∧ exec .tagResetToReady s = .next s ∧
    exec .tagGetSystemInformation s = .next s ∧ exec (.tagReadSingleBlock n) s = .next s ∧ exec (.tagReadMultipleBlocks n k) s = .next s ∧
    exec (.tagWriteSingleBlock n d) s = .next s ∧ exec (.tagAuthenticate key) s = .next s ∧ exec (.securePwd m w) s = .next s ∧
    exec (.tagUnknownCommand m) s = .next s)

/-- Tag access (R192, R715 to R717, R720, R721, R724). -/
def Obligations.TagAccessCommands : Prop :=
  (∀ (s : State) (n : Fin 256), s.tag.field = true → n.val < 40 ∨ n.val = 72 ∨ (s.tag.secured = true ∧ n.val < 72) →
    exec (.tagReadSingleBlock n) s = .next { s with tag := { s.tag with
      answer := some (none, blockBytes s n), reads := if stewardRuns s then s.tag.reads + 1 else s.tag.reads } }) ∧
  (∀ (s : State) (n : Fin 256), s.tag.field = true → 40 ≤ n.val → n.val ≠ 72 → s.tag.secured = false ∨ 72 < n.val →
    exec (.tagReadSingleBlock n) s = .next { s with tag := { s.tag with answer := some (some 0x10, []) } }) ∧
  (∀ (s : State) (blocks : List (Nat × List Byte)) (n : Nat), s.dst.running = some (.nameplate blocks) → n ≠ 72 →
    blockBytes s n = Mem.bytes (nameplateAfter s.tag.ackPend blocks s.dst.nameplate) (n * 32) 32) ∧
  (∀ (s : State) (n : Fin 256) (k : Fin 9), s.tag.field = true →
    (∀ i < k.val, n.val + i < 40 ∨ n.val + i = 72 ∨ (s.tag.secured = true ∧ n.val + i < 72)) →
    exec (.tagReadMultipleBlocks n k) s = .next { s with tag := { s.tag with
      answer := some (none, ((List.range k).map (n.val + ·)).flatMap (blockBytes s))
      reads := if stewardRuns s then s.tag.reads + 1 else s.tag.reads } }) ∧
  (∀ (s : State) (n : Fin 256) (k : Fin 9) (i : Nat), s.tag.field = true → i < k.val → 40 ≤ n.val + i → n.val + i ≠ 72 →
    s.tag.secured = false ∨ 72 < n.val + i →
    exec (.tagReadMultipleBlocks n k) s = .next { s with tag := { s.tag with answer := some (some 0x10, []) } }) ∧
  (∀ (s : State) (d : List Byte), s.tag.field = true → s.tag.secured = true → s.pwr.railOk.getLsbD 6 = true →
    exec (.tagWriteSingleBlock 72 d) s = .next { s with
      tag := { s.tag with ackPend := s.tag.ackPend ||| BitVec.ofNat 16 (ofLE (d.take 2)), answer := some (none, []) }
      dst := { s.dst with waiting := s.dst.waiting ++ [.nameplate []] } }) ∧
  (∀ (s : State) (d : List Byte), s.tag.field = true → s.tag.secured = false →
    exec (.tagWriteSingleBlock 72 d) s = .next { s with tag := { s.tag with answer := some (some 0x12, []) } }) ∧
  (∀ (s : State) (d : List Byte), s.tag.field = true → s.tag.secured = true → s.pwr.railOk.getLsbD 6 = false →
    exec (.tagWriteSingleBlock 72 d) s = .next { s with tag := { s.tag with answer := some (some 0x13, []) } }) ∧
  (∀ (s : State) (n : Fin 256) (d : List Byte), s.tag.field = true → n.val ≠ 72 →
    exec (.tagWriteSingleBlock n d) s = .next { s with tag := { s.tag with answer := some (some 0x01, []) } }) ∧
  (∀ (s : State) (key : BitVec 128), s.tag.field = true → s.tag.backoff = false → key.toNat = s.dst.nameplate.num 7940 16 → key.toNat ≠ 0 →
    exec (.tagAuthenticate key) s = .next { s with tag := { s.tag with secured := true, answer := some (none, []) } }) ∧
  (∀ (s : State) (pwd : Word), s.tag.field = true → s.tag.backoff = false → pwd.toNat = s.dst.nameplate.num 7936 4 → pwd.toNat ≠ 0 →
    exec (.securePwd Config.mfr pwd) s = .next { s with tag := { s.tag with secured := true, answer := some (none, []) } }) ∧
  (∀ (s : State) (key : BitVec 128) (pwd : Word), s.tag.field = true → stewardRuns s = true →
    (s.tag.backoff = true ∨ key.toNat ≠ s.dst.nameplate.num 7940 16 ∨ key.toNat = 0 → exec (.tagAuthenticate key) s = .next
      (logFault 0x90 11 (leBytes 2 (min 65535 (s.tag.authFail + 1))) { s with tag := { s.tag with
        backoff := true, secured := false, authFail := min 65535 (s.tag.authFail + 1), answer := some (some 0x0F, []) } })) ∧
    (s.tag.backoff = true ∨ pwd.toNat ≠ s.dst.nameplate.num 7936 4 ∨ pwd.toNat = 0 → exec (.securePwd Config.mfr pwd) s = .next
      (logFault 0x90 11 (leBytes 2 (min 65535 (s.tag.authFail + 1))) { s with tag := { s.tag with
        backoff := true, secured := false, authFail := min 65535 (s.tag.authFail + 1), answer := some (some 0x0F, []) } }))) ∧
  (∀ (s : State) (key : BitVec 128), s.tag.field = true → stewardRuns s = false →
    s.tag.backoff = true ∨ key.toNat ≠ s.dst.nameplate.num 7940 16 ∨ key.toNat = 0 → exec (.tagAuthenticate key) s = .next
      { s with tag := { s.tag with backoff := true, secured := false, answer := some (some 0x0F, []) } }) ∧
  (∀ (s : State) (m : Byte) (pwd : Word), m ≠ Config.mfr → exec (.securePwd m pwd) s = .next s) ∧
  (∀ (s : State) (c : Byte), s.tag.field = true → c.toNat ∉ [0x01, 0x02, 0x20, 0x21, 0x23, 0x25, 0x26, 0x2B, 0x35, 0xB2] →
    exec (.tagUnknownCommand c) s = .next { s with tag := { s.tag with answer := some (some 0x01, []) } }) ∧
  (∀ (s : State) (c : Byte), c.toNat ∈ [0x01, 0x02, 0x20, 0x21, 0x23, 0x25, 0x26, 0x2B, 0x35, 0xB2] → exec (.tagUnknownCommand c) s = .next s)

/-! ### Roving (chapter 16) -/

/-- The sequence program (R745, R746, R753, R757, R759). -/
def Obligations.RovingProgramCommands : Prop :=
  (∀ s : State, rovFetches s = false → exec .rovPlay s = .next s ∧ exec .rovJump s = .next s ∧ exec .rovLoop s = .next s ∧ exec .rovEndl s = .next s ∧
    exec .rovCall s = .next s ∧ exec .rovRet s = .next s ∧ exec .rovWaitr s = .next s ∧ exec .rovAstart s = .next s ∧ exec .rovAstop s = .next s ∧
    exec .rovEvt s = .next s ∧ exec .rovHalt s = .next s ∧ exec .rovBadop s = .next s) ∧
  (∀ (s : State) (w0 w1 : Word) (n : Nat), rovFetches s = true → w0 = rovW0 s → w1 = rovW1 s → rovLegal w0 w1 = true →
    n = (s.rov.pc + 8) % 2 ^ 22 →
    (bitsOf w0 26 6 = 1 → exec .rovPlay s = .next { s with rov := { s.rov with
      play := some { next := bitsOf w0 0 22, left := bitsOf w1 0 20 + 1, release := bitOf w0 25 }, pc := n } }) ∧
    (bitsOf w0 26 6 = 2 → exec .rovJump s = .next { s with rov := { s.rov with pc := bitsOf w0 0 22 } }) ∧
    (bitsOf w0 26 6 = 3 → s.rov.loops.length < 8 → exec .rovLoop s = .next { s with rov := { s.rov with
      loops := { body := n, left := bitsOf w1 0 20 } :: s.rov.loops, pc := n } }) ∧
    (bitsOf w0 26 6 = 3 → 8 ≤ s.rov.loops.length → exec .rovLoop s = .next (rovFail 3 s)) ∧
    (bitsOf w0 26 6 = 4 → s.rov.loops = [] → exec .rovEndl s = .next (rovFail 3 s)) ∧
    (∀ l rest, bitsOf w0 26 6 = 4 → s.rov.loops = l :: rest → exec .rovEndl s = .next { s with rov := { s.rov with
      loops := if l.left = 0 then rest else { l with left := l.left - 1 } :: rest, pc := if l.left = 0 then n else l.body % 2 ^ 22 } }) ∧
    (bitsOf w0 26 6 = 5 → s.rov.stack.length < 8 → exec .rovCall s = .next { s with rov := { s.rov with
      stack := n :: s.rov.stack, pc := bitsOf w0 0 22 } }) ∧
    (bitsOf w0 26 6 = 5 → 8 ≤ s.rov.stack.length → exec .rovCall s = .next (rovFail 4 s)) ∧
    (bitsOf w0 26 6 = 6 → s.rov.stack = [] → exec .rovRet s = .next (rovFail 4 s)) ∧
    (∀ a rest, bitsOf w0 26 6 = 6 → s.rov.stack = a :: rest → exec .rovRet s = .next { s with rov := { s.rov with
      stack := rest, pc := a % 2 ^ 22 } }) ∧
    (bitsOf w0 26 6 = 7 → exec .rovWaitr s = .next { s with rov := { s.rov with
      pc := n, waitr := if (w1 - s.ply.reel.setWidth 32).toNat = 0 ∨ 2 ^ 31 < (w1 - s.ply.reel.setWidth 32).toNat then none else some w1 } }) ∧
    (bitsOf w0 26 6 = 10 → exec .rovEvt s = .next { (tinEvents (bitsOf w1 0 8) 1 s) with rov := { s.rov with pc := n } }) ∧
    (bitsOf w0 26 6 = 11 → exec .rovHalt s = .next { s with rov := { s.rov with stopping := some false } })) ∧
  (∀ s : State, rovFetches s = true → rovLegal (rovW0 s) (rovW1 s) = false → exec .rovBadop s = .next (rovFail 1 s)) ∧
  (∀ s : State, rovLegal (rovW0 s) (rovW1 s) = true → exec .rovBadop s = .next s) ∧
  (∀ (s : State) (b : Nat), b < 7 → ∃ t : State, rovFlag b s = { t with stw := { s.stw with ipend := s.stw.ipend ||| 0x2000 } } ∧
    t.regs = setReg s.regs 0x400C0000 (s.rd 0x400C0000 ||| BitVec.ofNat 32 (2 ^ b)) ∧ t = { s with regs := t.regs, sys := t.sys }) ∧
  (∀ (s : State) (b : Nat), (s.rov.lastVec = none → rovFail b s = rovFlag b (rovHold s)) ∧
    (∀ v, s.rov.lastVec = some v → rovFail b s = rovFlag b { s with rov := { s.rov with failed := true } })) ∧
  (∀ s : State, rovHold s = { s with rov := { s.rov with
    running := false, stopping := none, failed := false, startAt := none, play := none, waitr := none, stream := [], strmNext := [] } }) ∧
  (∀ s : State, ∃ r, rovStopIdle s = { s with rov := r } ∧ r = { (rovHold s).rov with
      lane := r.lane, laneOe := r.laneOe, ao := r.ao, edges := [], oeEdges := [] } ∧
    ∀ l < 8, r.lane.getLsbD l = decide (s.fld 0x400C0020 (4 * l) 2 = 1) ∧ r.laneOe.getLsbD l = decide (s.fld 0x400C0020 (4 * l) 2 < 2)) ∧
  (∀ (s : State) (b : Word), s.rov.running = true → s.rov.waitr = some b → exec .rovWaitrExpiry s = .next
    { (reachTick (s.ply.reel + BitVec.ofNat 64 (b - s.ply.reel.setWidth 32).toNat) s) with rov := { s.rov with waitr := none } }) ∧
  (∀ s : State, s.rov.running = false ∨ s.rov.waitr = none → exec .rovWaitrExpiry s = .next s)

/-- Vectors, streams, start, pattern port (R739 to R742, R744, R748, R750, R752 to R754, R757). -/
def Obligations.RovingVectorCommands : Prop :=
  (∀ s : State, s.rov.running = false → exec .vectorCycle s = .next s) ∧
  (∀ (s u : State) (now : Nat), s.rov.running = true → u = reachTick (BitVec.ofNat 64 (s.rov.next / 16)) s →
    now = max s.rov.next (s.ply.reel.toNat * 16) →
    (s.rov.failed = true → exec .vectorCycle s = .next (rovHold u)) ∧
    (s.rov.failed = false → (s.rov.stopping = some false → exec .vectorCycle s = .next (rovStopIdle u)) ∧
      (s.rov.stopping = some true → exec .vectorCycle s = .next
        (if (boundary now u).rov.running then rovStopIdle u else boundary now u)) ∧
      (s.rov.stopping = none → exec .vectorCycle s = .next (boundary now u)))) ∧
  (∀ (s : State) (p : RPlay) (v : Word) (now : Nat), s.rov.running = true → s.rov.failed = false → s.rov.stopping = none → s.rov.play = some p →
    s.rov.stream = [] → s.rov.strmNext = [] → s.rov.lastVec = none → s.rov.ready.getLsbD (p.next / 131072 % 32) = true → v = patWord s p.next →
    now = max s.rov.next (s.ply.reel.toNat * 16) → v &&& 0x0F00FF00 = 0 → ∃ r : Rov, exec .vectorCycle s = .next
      { (reachTick (BitVec.ofNat 64 (s.rov.next / 16)) s) with rov := { s.rov with
        vcount := s.rov.vcount + 1, lastVec := some v, laneOe := BitVec.ofNat 8 (bitsOf v 16 8), edges := (List.range 8).flatMap (laneEdges s v)
        oeEdges := driveEdges s v, began := now, next := now + tsPeriod s (bitsOf v 28 4), lane := r.lane, ready := r.ready
        play := if p.left ≤ 1 then none else some { p with next := (p.next + 4) % 2 ^ 22, left := p.left - 1 } } } ∧
      (p.release = false → r.ready = s.rov.ready)) ∧
  (∀ (s : State) (p : RPlay) (now : Nat), s.rov.play = some p →
    (s.rov.ready.getLsbD (p.next / 131072 % 32) = false → boundary now s = rovError 0 s) ∧
    (readyInTime s p.next now = true → s.rov.stream = [] → s.rov.strmNext = [] → patWord s p.next &&& 0x0F00FF00 ≠ 0 →
      boundary now s = rovError 2 s)) ∧
  (∀ (s : State) (b v : Word) (now : Nat), s.rov.play = none → s.rov.waitr = some b → s.rov.lastVec = some v → boundary now s =
    { s with rov := { s.rov with edges := [], oeEdges := [], began := now, next := now + tsPeriod s (bitsOf v 28 4) } }) ∧
  (∀ (s : State) (b : Nat), rovError b s = rovFlag b (rovHold s)) ∧
  (∀ (s : State) (w0 w1 : Word) (n c : Nat), rovFetches s = true → w0 = rovW0 s → w1 = rovW1 s → rovLegal w0 w1 = true →
    n = (s.rov.pc + 8) % 2 ^ 22 → c = bitsOf w0 25 1 →
    (bitsOf w0 26 6 = 8 → exec .rovAstart s = .next { s with rov := { s.rov with
      strmNext := Tab.set (fun _ => none) s.rov.strmNext c (some { addr := bitsOf w0 0 22, count := bitsOf w1 0 24 + 1, loop := bitOf w0 24 })
      pc := n } }) ∧
    (bitsOf w0 26 6 = 9 → streamOf s c = none → exec .rovAstop s = .next { s with rov := { s.rov with
      strmNext := Tab.set (fun _ => none) s.rov.strmNext c none, pc := n } })) ∧
  (∀ (s : State) (c : Fin 2) (x : RStream) (h : List Nat), streamOf s c = some x → s.rov.running = true → x.loop = false →
    h = streamTaps s c x (x.count - 1) → exec (.analogStreamEnd c) s = .next { s with rov := { s.rov with
      stream := Tab.set (fun _ => none) s.rov.stream c none, aoHist := Tab.set (fun _ => []) s.rov.aoHist c h
      ao := Tab.set (fun _ => none) s.rov.ao c (some (Config.resampled h 0)) } }) ∧
  (∀ (s : State) (c : Fin 2), streamOf s c = none → exec (.analogStreamEnd c) s = .next s) ∧
  (∀ (s u : State) (a : Tick), s.rov.startAt = some a → u = reachTick a s → exec .rovStartTick s = .next { (u.setFld 0x400C0000 0 7 0) with
    rov := { s.rov with
      running := true, startAt := none, failed := false, pc := s.rov.pc % 2 ^ 22, loops := [], stack := [], play := none, waitr := none
      lastVec := none, vcount := 0, stream := [], strmNext := [], began := u.ply.reel.toNat * 16, next := u.ply.reel.toNat * 16 } }) ∧
  (∀ s : State, s.rov.startAt = none → exec .rovStartTick s = .next s) ∧
  (∀ (s u : State) (a : Nat) (v : Word), a = s.fld 0x400C0030 0 22 → u = s.setFld 0x400C0030 0 22 (a + 4) →
    exec (.rovHdataAccess none) s = .next { u with rdata := patWord s (a / 4 * 4) } ∧
    exec (.rovHdataAccess (some v)) s = .next (if s.rov.ready.getLsbD (a / 131072 % 32) then rovFlag 5 u else { u with rov := { s.rov with
      mem := Mem.write s.rov.mem (a / 4 * 4) (leBytes 4 v.toNat) } }))

/-! ### Reset; two rules stated whole -/

/-- What reset leaves (R24, R30, R78, R133, R138, R139, R212, R268), where the spec gives a value. -/
def Obligations.ResetLeavesTheSpecsValues : Prop :=
  State.reset.pending = [] ∧ State.reset.sys.mode = .dark ∧ State.reset.sys.limp = false ∧ State.reset.sys.kfault = false ∧
  State.reset.sys.kstep = 0 ∧ State.reset.sys.due = some .cold ∧ State.reset.sys.timeZero = false ∧ State.reset.sys.recorder = [] ∧
  State.reset.pwr.senseWarn = true ∧ State.reset.pwr.regEn = 0 ∧ State.reset.pwr.ready = 0 ∧ State.reset.pwr.vidOut = 56 ∧
  supplyValid State.reset = false ∧ stewardRuns State.reset = false ∧ State.reset.ply.reel = 0 ∧ State.reset.ply.running = false ∧
  State.reset.whl.flog = [] ∧ State.reset.whl.slot = none ∧ State.reset.txn.txns = [] ∧ State.reset.bob.frames = [] ∧
  State.reset.hl.dfull = 0 ∧ State.reset.hl.hfull = 0 ∧ State.reset.hl.ready = false ∧
  State.reset.rd 0x40000058 = 0x3F ∧ State.reset.rd 0x40000060 = 0xFFFFFFFF ∧ State.reset.rd 0x40000064 = 0xFFFFFFFF ∧
  State.reset.rd 0x400E0008 = 56 ∧ State.reset.rd 0x400E0018 = 100 ∧ State.reset.rd 0x40020008 = 500 ∧
  plainValue State.reset 0x40000020 = 0 ∧ plainValue State.reset 0x400E0000 = 0x100 ∧
  State.reset.stw.vbase = 0xF800 ∧ State.reset.stw.ie = false ∧ State.reset.stw.ext = false ∧ State.reset.stw.fh = false ∧
  (Tab.get (fun _ => {}) State.reset.stw.seg 0).base = 0xFFFF0000 ∧
  (∀ f : Fin 48, (State.reset.flyer f).halted = true) ∧ (∀ k : Fin 8, (State.reset.strand k).run = false) ∧
  (∀ n : Fin 64, (State.reset.spindle n).st = .idle) ∧ (∀ l : Fin 2, (State.reset.linkOf l).pathClosed = true) ∧
  State.reset.dst.imgA.wf = true ∧ State.reset.dst.imgB.wf = true ∧ State.reset.dst.nameplate.wf = true ∧ State.reset.stw.sram.wf = true ∧
  State.reset.hl.dev.wf = true ∧ State.reset.hl.hst.wf = true ∧ State.reset.hl.desc.wf = true ∧ State.reset.hl.msix.wf = true ∧
  State.reset.whl.code.wf = true ∧ State.reset.whl.data.wf = true ∧ State.reset.whl.enqBuf.wf = true ∧
  exec .validSupply State.reset = .next { State.reset with
    sys := { State.reset.sys with mode := .kindle, kstep := 1, timeZero := true }
    pwr := { State.reset.pwr with railOk := 0x40, banks := 0x1FFF, senseWarn := false } }

/-- R612: the two words of the Reel read one after the other belong to one instant. -/
def Obligations.ReelLowReadLatchesTheHighWord : Prop :=
  (∀ s : State, stewardRuns s = true → ∃ t, exec (.latchedPairRead .block ⟨0x40080000, 4⟩) s = .next t ∧
    t.rdata = BitVec.ofNat 32 (s.ply.reel.toNat % 2 ^ 32) ∧
    ∀ (u : State) (e : Bool), u.latch = t.latch → stewardRuns u = true →
      ∃ v, exec (.rcFieldRead .block ⟨0x40080004, 4⟩ e) u = .next v ∧ v.rdata = BitVec.ofNat 32 (s.ply.reel.toNat / 2 ^ 32)) ∧
  (∀ (s : State) (e : Bool), (busRead 0x40080000 e s).1 = BitVec.ofNat 32 (s.ply.reel.toNat % 2 ^ 32) ∧
    ∀ (u : State) (e' : Bool), u.latch = (busRead 0x40080000 e s).2.latch →
      (busRead 0x40080004 e' u).1 = BitVec.ofNat 32 (s.ply.reel.toNat / 2 ^ 32))

/-- R234: the return from a fault or interrupt. The fetch of its word may count a corrected bit (R209). -/
def Obligations.EretReturns : Prop :=
  ∀ s u : State, coreReady .steward s → s.stw.ext = false → u = stwFetched s → ∃ t, exec (.eret .steward) s = .next t ∧
    t = { u with stw := { u.stw with pc := s.stw.epc, ie := s.stw.pie, ext := s.stw.pext, fh := false } } ∧
    (t.stw.ext = true → fetchSeg t = 8) ∧ (t.stw.ext = false → fetchSeg t = 0)
end

