-- ==== Sys2Proof/Laws/State.lean ====
section
/-!
SUPPORT. What each update of the State changes and what it leaves: one equation per field per update, so that no proof
unfolds an update.
-/

namespace Sys2Proof.Machine

/-! ### setEport -/

@[simp] theorem setEport_pending (s : State) (p : Nat) (f : EPort → EPort) : (s.setEport p f).pending = s.pending := rfl
@[simp] theorem setEport_regs (s : State) (p : Nat) (f : EPort → EPort) : (s.setEport p f).regs = s.regs := rfl
@[simp] theorem setEport_latch (s : State) (p : Nat) (f : EPort → EPort) : (s.setEport p f).latch = s.latch := rfl
@[simp] theorem setEport_rdata (s : State) (p : Nat) (f : EPort → EPort) : (s.setEport p f).rdata = s.rdata := rfl
@[simp] theorem setEport_rdataHi (s : State) (p : Nat) (f : EPort → EPort) : (s.setEport p f).rdataHi = s.rdataHi := rfl
@[simp] theorem setEport_free (s : State) (p : Nat) (f : EPort → EPort) : (s.setEport p f).free = s.free := rfl
@[simp] theorem setEport_sys (s : State) (p : Nat) (f : EPort → EPort) : (s.setEport p f).sys = s.sys := rfl
@[simp] theorem setEport_pwr (s : State) (p : Nat) (f : EPort → EPort) : (s.setEport p f).pwr = s.pwr := rfl
@[simp] theorem setEport_txn (s : State) (p : Nat) (f : EPort → EPort) : (s.setEport p f).txn = s.txn := rfl
@[simp] theorem setEport_dst (s : State) (p : Nat) (f : EPort → EPort) : (s.setEport p f).dst = s.dst := rfl
@[simp] theorem setEport_stw (s : State) (p : Nat) (f : EPort → EPort) : (s.setEport p f).stw = s.stw := rfl
@[simp] theorem setEport_hl (s : State) (p : Nat) (f : EPort → EPort) : (s.setEport p f).hl = s.hl := rfl
@[simp] theorem setEport_whl (s : State) (p : Nat) (f : EPort → EPort) : (s.setEport p f).whl = s.whl := rfl
@[simp] theorem setEport_fly (s : State) (p : Nat) (f : EPort → EPort) : (s.setEport p f).fly = s.fly := rfl
@[simp] theorem setEport_bob (s : State) (p : Nat) (f : EPort → EPort) : (s.setEport p f).bob = s.bob := rfl
@[simp] theorem setEport_eth (s : State) (p : Nat) (f : EPort → EPort) : (s.setEport p f).eth = { s.eth with port := Tab.upd (fun _ => {}) s.eth.port p f } := rfl
@[simp] theorem setEport_can (s : State) (p : Nat) (f : EPort → EPort) : (s.setEport p f).can = s.can := rfl
@[simp] theorem setEport_ply (s : State) (p : Nat) (f : EPort → EPort) : (s.setEport p f).ply = s.ply := rfl
@[simp] theorem setEport_skn (s : State) (p : Nat) (f : EPort → EPort) : (s.setEport p f).skn = s.skn := rfl
@[simp] theorem setEport_pnl (s : State) (p : Nat) (f : EPort → EPort) : (s.setEport p f).pnl = s.pnl := rfl
@[simp] theorem setEport_tag (s : State) (p : Nat) (f : EPort → EPort) : (s.setEport p f).tag = s.tag := rfl
@[simp] theorem setEport_rov (s : State) (p : Nat) (f : EPort → EPort) : (s.setEport p f).rov = s.rov := rfl

/-! ### setCan -/

@[simp] theorem setCan_pending (s : State) (n : Nat) (f : Can → Can) : (s.setCan n f).pending = s.pending := rfl
@[simp] theorem setCan_regs (s : State) (n : Nat) (f : Can → Can) : (s.setCan n f).regs = s.regs := rfl
@[simp] theorem setCan_latch (s : State) (n : Nat) (f : Can → Can) : (s.setCan n f).latch = s.latch := rfl
@[simp] theorem setCan_rdata (s : State) (n : Nat) (f : Can → Can) : (s.setCan n f).rdata = s.rdata := rfl
@[simp] theorem setCan_rdataHi (s : State) (n : Nat) (f : Can → Can) : (s.setCan n f).rdataHi = s.rdataHi := rfl
@[simp] theorem setCan_free (s : State) (n : Nat) (f : Can → Can) : (s.setCan n f).free = s.free := rfl
@[simp] theorem setCan_sys (s : State) (n : Nat) (f : Can → Can) : (s.setCan n f).sys = s.sys := rfl
@[simp] theorem setCan_pwr (s : State) (n : Nat) (f : Can → Can) : (s.setCan n f).pwr = s.pwr := rfl
@[simp] theorem setCan_txn (s : State) (n : Nat) (f : Can → Can) : (s.setCan n f).txn = s.txn := rfl
@[simp] theorem setCan_dst (s : State) (n : Nat) (f : Can → Can) : (s.setCan n f).dst = s.dst := rfl
@[simp] theorem setCan_stw (s : State) (n : Nat) (f : Can → Can) : (s.setCan n f).stw = s.stw := rfl
@[simp] theorem setCan_hl (s : State) (n : Nat) (f : Can → Can) : (s.setCan n f).hl = s.hl := rfl
@[simp] theorem setCan_whl (s : State) (n : Nat) (f : Can → Can) : (s.setCan n f).whl = s.whl := rfl
@[simp] theorem setCan_fly (s : State) (n : Nat) (f : Can → Can) : (s.setCan n f).fly = s.fly := rfl
@[simp] theorem setCan_bob (s : State) (n : Nat) (f : Can → Can) : (s.setCan n f).bob = s.bob := rfl
@[simp] theorem setCan_eth (s : State) (n : Nat) (f : Can → Can) : (s.setCan n f).eth = s.eth := rfl
@[simp] theorem setCan_can (s : State) (n : Nat) (f : Can → Can) : (s.setCan n f).can = Tab.upd (fun _ => {}) s.can n f := rfl
@[simp] theorem setCan_ply (s : State) (n : Nat) (f : Can → Can) : (s.setCan n f).ply = s.ply := rfl
@[simp] theorem setCan_skn (s : State) (n : Nat) (f : Can → Can) : (s.setCan n f).skn = s.skn := rfl
@[simp] theorem setCan_pnl (s : State) (n : Nat) (f : Can → Can) : (s.setCan n f).pnl = s.pnl := rfl
@[simp] theorem setCan_tag (s : State) (n : Nat) (f : Can → Can) : (s.setCan n f).tag = s.tag := rfl
@[simp] theorem setCan_rov (s : State) (n : Nat) (f : Can → Can) : (s.setCan n f).rov = s.rov := rfl

/-! ### setFlyer -/

@[simp] theorem setFlyer_pending (s : State) (n : Nat) (f : Flyer → Flyer) : (s.setFlyer n f).pending = s.pending := rfl
@[simp] theorem setFlyer_regs (s : State) (n : Nat) (f : Flyer → Flyer) : (s.setFlyer n f).regs = s.regs := rfl
@[simp] theorem setFlyer_latch (s : State) (n : Nat) (f : Flyer → Flyer) : (s.setFlyer n f).latch = s.latch := rfl
@[simp] theorem setFlyer_rdata (s : State) (n : Nat) (f : Flyer → Flyer) : (s.setFlyer n f).rdata = s.rdata := rfl
@[simp] theorem setFlyer_rdataHi (s : State) (n : Nat) (f : Flyer → Flyer) : (s.setFlyer n f).rdataHi = s.rdataHi := rfl
@[simp] theorem setFlyer_free (s : State) (n : Nat) (f : Flyer → Flyer) : (s.setFlyer n f).free = s.free := rfl
@[simp] theorem setFlyer_sys (s : State) (n : Nat) (f : Flyer → Flyer) : (s.setFlyer n f).sys = s.sys := rfl
@[simp] theorem setFlyer_pwr (s : State) (n : Nat) (f : Flyer → Flyer) : (s.setFlyer n f).pwr = s.pwr := rfl
@[simp] theorem setFlyer_txn (s : State) (n : Nat) (f : Flyer → Flyer) : (s.setFlyer n f).txn = s.txn := rfl
@[simp] theorem setFlyer_dst (s : State) (n : Nat) (f : Flyer → Flyer) : (s.setFlyer n f).dst = s.dst := rfl
@[simp] theorem setFlyer_stw (s : State) (n : Nat) (f : Flyer → Flyer) : (s.setFlyer n f).stw = s.stw := rfl
@[simp] theorem setFlyer_hl (s : State) (n : Nat) (f : Flyer → Flyer) : (s.setFlyer n f).hl = s.hl := rfl
@[simp] theorem setFlyer_whl (s : State) (n : Nat) (f : Flyer → Flyer) : (s.setFlyer n f).whl = s.whl := rfl
@[simp] theorem setFlyer_fly (s : State) (n : Nat) (f : Flyer → Flyer) : (s.setFlyer n f).fly = { s.fly with fl := Tab.upd (fun _ => {}) s.fly.fl n f } := rfl
@[simp] theorem setFlyer_bob (s : State) (n : Nat) (f : Flyer → Flyer) : (s.setFlyer n f).bob = s.bob := rfl
@[simp] theorem setFlyer_eth (s : State) (n : Nat) (f : Flyer → Flyer) : (s.setFlyer n f).eth = s.eth := rfl
@[simp] theorem setFlyer_can (s : State) (n : Nat) (f : Flyer → Flyer) : (s.setFlyer n f).can = s.can := rfl
@[simp] theorem setFlyer_ply (s : State) (n : Nat) (f : Flyer → Flyer) : (s.setFlyer n f).ply = s.ply := rfl
@[simp] theorem setFlyer_skn (s : State) (n : Nat) (f : Flyer → Flyer) : (s.setFlyer n f).skn = s.skn := rfl
@[simp] theorem setFlyer_pnl (s : State) (n : Nat) (f : Flyer → Flyer) : (s.setFlyer n f).pnl = s.pnl := rfl
@[simp] theorem setFlyer_tag (s : State) (n : Nat) (f : Flyer → Flyer) : (s.setFlyer n f).tag = s.tag := rfl
@[simp] theorem setFlyer_rov (s : State) (n : Nat) (f : Flyer → Flyer) : (s.setFlyer n f).rov = s.rov := rfl

/-! ### setPin -/

@[simp] theorem setPin_pending (s : State) (p : Nat) (f : Pin → Pin) : (s.setPin p f).pending = s.pending := rfl
@[simp] theorem setPin_regs (s : State) (p : Nat) (f : Pin → Pin) : (s.setPin p f).regs = s.regs := rfl
@[simp] theorem setPin_latch (s : State) (p : Nat) (f : Pin → Pin) : (s.setPin p f).latch = s.latch := rfl
@[simp] theorem setPin_rdata (s : State) (p : Nat) (f : Pin → Pin) : (s.setPin p f).rdata = s.rdata := rfl
@[simp] theorem setPin_rdataHi (s : State) (p : Nat) (f : Pin → Pin) : (s.setPin p f).rdataHi = s.rdataHi := rfl
@[simp] theorem setPin_free (s : State) (p : Nat) (f : Pin → Pin) : (s.setPin p f).free = s.free := rfl
@[simp] theorem setPin_sys (s : State) (p : Nat) (f : Pin → Pin) : (s.setPin p f).sys = s.sys := rfl
@[simp] theorem setPin_pwr (s : State) (p : Nat) (f : Pin → Pin) : (s.setPin p f).pwr = s.pwr := rfl
@[simp] theorem setPin_txn (s : State) (p : Nat) (f : Pin → Pin) : (s.setPin p f).txn = s.txn := rfl
@[simp] theorem setPin_dst (s : State) (p : Nat) (f : Pin → Pin) : (s.setPin p f).dst = s.dst := rfl
@[simp] theorem setPin_stw (s : State) (p : Nat) (f : Pin → Pin) : (s.setPin p f).stw = s.stw := rfl
@[simp] theorem setPin_hl (s : State) (p : Nat) (f : Pin → Pin) : (s.setPin p f).hl = s.hl := rfl
@[simp] theorem setPin_whl (s : State) (p : Nat) (f : Pin → Pin) : (s.setPin p f).whl = s.whl := rfl
@[simp] theorem setPin_fly (s : State) (p : Nat) (f : Pin → Pin) : (s.setPin p f).fly = { s.fly with pins := Tab.upd (fun _ => {}) s.fly.pins p f } := rfl
@[simp] theorem setPin_bob (s : State) (p : Nat) (f : Pin → Pin) : (s.setPin p f).bob = s.bob := rfl
@[simp] theorem setPin_eth (s : State) (p : Nat) (f : Pin → Pin) : (s.setPin p f).eth = s.eth := rfl
@[simp] theorem setPin_can (s : State) (p : Nat) (f : Pin → Pin) : (s.setPin p f).can = s.can := rfl
@[simp] theorem setPin_ply (s : State) (p : Nat) (f : Pin → Pin) : (s.setPin p f).ply = s.ply := rfl
@[simp] theorem setPin_skn (s : State) (p : Nat) (f : Pin → Pin) : (s.setPin p f).skn = s.skn := rfl
@[simp] theorem setPin_pnl (s : State) (p : Nat) (f : Pin → Pin) : (s.setPin p f).pnl = s.pnl := rfl
@[simp] theorem setPin_tag (s : State) (p : Nat) (f : Pin → Pin) : (s.setPin p f).tag = s.tag := rfl
@[simp] theorem setPin_rov (s : State) (p : Nat) (f : Pin → Pin) : (s.setPin p f).rov = s.rov := rfl

/-! ### setPly -/

@[simp] theorem setPly_pending (s : State) (k : Nat) (f : Ply → Ply) : (s.setPly k f).pending = s.pending := rfl
@[simp] theorem setPly_regs (s : State) (k : Nat) (f : Ply → Ply) : (s.setPly k f).regs = s.regs := rfl
@[simp] theorem setPly_latch (s : State) (k : Nat) (f : Ply → Ply) : (s.setPly k f).latch = s.latch := rfl
@[simp] theorem setPly_rdata (s : State) (k : Nat) (f : Ply → Ply) : (s.setPly k f).rdata = s.rdata := rfl
@[simp] theorem setPly_rdataHi (s : State) (k : Nat) (f : Ply → Ply) : (s.setPly k f).rdataHi = s.rdataHi := rfl
@[simp] theorem setPly_free (s : State) (k : Nat) (f : Ply → Ply) : (s.setPly k f).free = s.free := rfl
@[simp] theorem setPly_sys (s : State) (k : Nat) (f : Ply → Ply) : (s.setPly k f).sys = s.sys := rfl
@[simp] theorem setPly_pwr (s : State) (k : Nat) (f : Ply → Ply) : (s.setPly k f).pwr = s.pwr := rfl
@[simp] theorem setPly_txn (s : State) (k : Nat) (f : Ply → Ply) : (s.setPly k f).txn = s.txn := rfl
@[simp] theorem setPly_dst (s : State) (k : Nat) (f : Ply → Ply) : (s.setPly k f).dst = s.dst := rfl
@[simp] theorem setPly_stw (s : State) (k : Nat) (f : Ply → Ply) : (s.setPly k f).stw = s.stw := rfl
@[simp] theorem setPly_hl (s : State) (k : Nat) (f : Ply → Ply) : (s.setPly k f).hl = s.hl := rfl
@[simp] theorem setPly_whl (s : State) (k : Nat) (f : Ply → Ply) : (s.setPly k f).whl = s.whl := rfl
@[simp] theorem setPly_fly (s : State) (k : Nat) (f : Ply → Ply) : (s.setPly k f).fly = s.fly := rfl
@[simp] theorem setPly_bob (s : State) (k : Nat) (f : Ply → Ply) : (s.setPly k f).bob = s.bob := rfl
@[simp] theorem setPly_eth (s : State) (k : Nat) (f : Ply → Ply) : (s.setPly k f).eth = s.eth := rfl
@[simp] theorem setPly_can (s : State) (k : Nat) (f : Ply → Ply) : (s.setPly k f).can = s.can := rfl
@[simp] theorem setPly_ply (s : State) (k : Nat) (f : Ply → Ply) : (s.setPly k f).ply = { s.ply with ply := Tab.upd (fun _ => {}) s.ply.ply k f } := rfl
@[simp] theorem setPly_skn (s : State) (k : Nat) (f : Ply → Ply) : (s.setPly k f).skn = s.skn := rfl
@[simp] theorem setPly_pnl (s : State) (k : Nat) (f : Ply → Ply) : (s.setPly k f).pnl = s.pnl := rfl
@[simp] theorem setPly_tag (s : State) (k : Nat) (f : Ply → Ply) : (s.setPly k f).tag = s.tag := rfl
@[simp] theorem setPly_rov (s : State) (k : Nat) (f : Ply → Ply) : (s.setPly k f).rov = s.rov := rfl

/-! ### setLink -/

@[simp] theorem setLink_pending (s : State) (l : Nat) (f : Link → Link) : (s.setLink l f).pending = s.pending := rfl
@[simp] theorem setLink_regs (s : State) (l : Nat) (f : Link → Link) : (s.setLink l f).regs = s.regs := rfl
@[simp] theorem setLink_latch (s : State) (l : Nat) (f : Link → Link) : (s.setLink l f).latch = s.latch := rfl
@[simp] theorem setLink_rdata (s : State) (l : Nat) (f : Link → Link) : (s.setLink l f).rdata = s.rdata := rfl
@[simp] theorem setLink_rdataHi (s : State) (l : Nat) (f : Link → Link) : (s.setLink l f).rdataHi = s.rdataHi := rfl
@[simp] theorem setLink_free (s : State) (l : Nat) (f : Link → Link) : (s.setLink l f).free = s.free := rfl
@[simp] theorem setLink_sys (s : State) (l : Nat) (f : Link → Link) : (s.setLink l f).sys = s.sys := rfl
@[simp] theorem setLink_pwr (s : State) (l : Nat) (f : Link → Link) : (s.setLink l f).pwr = s.pwr := rfl
@[simp] theorem setLink_txn (s : State) (l : Nat) (f : Link → Link) : (s.setLink l f).txn = s.txn := rfl
@[simp] theorem setLink_dst (s : State) (l : Nat) (f : Link → Link) : (s.setLink l f).dst = s.dst := rfl
@[simp] theorem setLink_stw (s : State) (l : Nat) (f : Link → Link) : (s.setLink l f).stw = s.stw := rfl
@[simp] theorem setLink_hl (s : State) (l : Nat) (f : Link → Link) : (s.setLink l f).hl = s.hl := rfl
@[simp] theorem setLink_whl (s : State) (l : Nat) (f : Link → Link) : (s.setLink l f).whl = s.whl := rfl
@[simp] theorem setLink_fly (s : State) (l : Nat) (f : Link → Link) : (s.setLink l f).fly = s.fly := rfl
@[simp] theorem setLink_bob (s : State) (l : Nat) (f : Link → Link) : (s.setLink l f).bob = s.bob := rfl
@[simp] theorem setLink_eth (s : State) (l : Nat) (f : Link → Link) : (s.setLink l f).eth = s.eth := rfl
@[simp] theorem setLink_can (s : State) (l : Nat) (f : Link → Link) : (s.setLink l f).can = s.can := rfl
@[simp] theorem setLink_ply (s : State) (l : Nat) (f : Link → Link) : (s.setLink l f).ply = s.ply := rfl
@[simp] theorem setLink_skn (s : State) (l : Nat) (f : Link → Link) : (s.setLink l f).skn = { s.skn with link := Tab.upd (fun _ => {}) s.skn.link l f } := rfl
@[simp] theorem setLink_pnl (s : State) (l : Nat) (f : Link → Link) : (s.setLink l f).pnl = s.pnl := rfl
@[simp] theorem setLink_tag (s : State) (l : Nat) (f : Link → Link) : (s.setLink l f).tag = s.tag := rfl
@[simp] theorem setLink_rov (s : State) (l : Nat) (f : Link → Link) : (s.setLink l f).rov = s.rov := rfl

/-! ### setRing -/

@[simp] theorem setRing_pending (s : State) (r : Nat) (f : Ring → Ring) : (s.setRing r f).pending = s.pending := rfl
@[simp] theorem setRing_regs (s : State) (r : Nat) (f : Ring → Ring) : (s.setRing r f).regs = s.regs := rfl
@[simp] theorem setRing_latch (s : State) (r : Nat) (f : Ring → Ring) : (s.setRing r f).latch = s.latch := rfl
@[simp] theorem setRing_rdata (s : State) (r : Nat) (f : Ring → Ring) : (s.setRing r f).rdata = s.rdata := rfl
@[simp] theorem setRing_rdataHi (s : State) (r : Nat) (f : Ring → Ring) : (s.setRing r f).rdataHi = s.rdataHi := rfl
@[simp] theorem setRing_free (s : State) (r : Nat) (f : Ring → Ring) : (s.setRing r f).free = s.free := rfl
@[simp] theorem setRing_sys (s : State) (r : Nat) (f : Ring → Ring) : (s.setRing r f).sys = s.sys := rfl
@[simp] theorem setRing_pwr (s : State) (r : Nat) (f : Ring → Ring) : (s.setRing r f).pwr = s.pwr := rfl
@[simp] theorem setRing_txn (s : State) (r : Nat) (f : Ring → Ring) : (s.setRing r f).txn = s.txn := rfl
@[simp] theorem setRing_dst (s : State) (r : Nat) (f : Ring → Ring) : (s.setRing r f).dst = s.dst := rfl
@[simp] theorem setRing_stw (s : State) (r : Nat) (f : Ring → Ring) : (s.setRing r f).stw = s.stw := rfl
@[simp] theorem setRing_hl (s : State) (r : Nat) (f : Ring → Ring) : (s.setRing r f).hl = { s.hl with rings := Tab.upd (fun _ => {}) s.hl.rings r f } := rfl
@[simp] theorem setRing_whl (s : State) (r : Nat) (f : Ring → Ring) : (s.setRing r f).whl = s.whl := rfl
@[simp] theorem setRing_fly (s : State) (r : Nat) (f : Ring → Ring) : (s.setRing r f).fly = s.fly := rfl
@[simp] theorem setRing_bob (s : State) (r : Nat) (f : Ring → Ring) : (s.setRing r f).bob = s.bob := rfl
@[simp] theorem setRing_eth (s : State) (r : Nat) (f : Ring → Ring) : (s.setRing r f).eth = s.eth := rfl
@[simp] theorem setRing_can (s : State) (r : Nat) (f : Ring → Ring) : (s.setRing r f).can = s.can := rfl
@[simp] theorem setRing_ply (s : State) (r : Nat) (f : Ring → Ring) : (s.setRing r f).ply = s.ply := rfl
@[simp] theorem setRing_skn (s : State) (r : Nat) (f : Ring → Ring) : (s.setRing r f).skn = s.skn := rfl
@[simp] theorem setRing_pnl (s : State) (r : Nat) (f : Ring → Ring) : (s.setRing r f).pnl = s.pnl := rfl
@[simp] theorem setRing_tag (s : State) (r : Nat) (f : Ring → Ring) : (s.setRing r f).tag = s.tag := rfl
@[simp] theorem setRing_rov (s : State) (r : Nat) (f : Ring → Ring) : (s.setRing r f).rov = s.rov := rfl

/-! ### setStrand -/

@[simp] theorem setStrand_pending (s : State) (k : Nat) (f : Strand → Strand) : (s.setStrand k f).pending = s.pending := rfl
@[simp] theorem setStrand_regs (s : State) (k : Nat) (f : Strand → Strand) : (s.setStrand k f).regs = s.regs := rfl
@[simp] theorem setStrand_latch (s : State) (k : Nat) (f : Strand → Strand) : (s.setStrand k f).latch = s.latch := rfl
@[simp] theorem setStrand_rdata (s : State) (k : Nat) (f : Strand → Strand) : (s.setStrand k f).rdata = s.rdata := rfl
@[simp] theorem setStrand_rdataHi (s : State) (k : Nat) (f : Strand → Strand) : (s.setStrand k f).rdataHi = s.rdataHi := rfl
@[simp] theorem setStrand_free (s : State) (k : Nat) (f : Strand → Strand) : (s.setStrand k f).free = s.free := rfl
@[simp] theorem setStrand_sys (s : State) (k : Nat) (f : Strand → Strand) : (s.setStrand k f).sys = s.sys := rfl
@[simp] theorem setStrand_pwr (s : State) (k : Nat) (f : Strand → Strand) : (s.setStrand k f).pwr = s.pwr := rfl
@[simp] theorem setStrand_txn (s : State) (k : Nat) (f : Strand → Strand) : (s.setStrand k f).txn = s.txn := rfl
@[simp] theorem setStrand_dst (s : State) (k : Nat) (f : Strand → Strand) : (s.setStrand k f).dst = s.dst := rfl
@[simp] theorem setStrand_stw (s : State) (k : Nat) (f : Strand → Strand) : (s.setStrand k f).stw = s.stw := rfl
@[simp] theorem setStrand_hl (s : State) (k : Nat) (f : Strand → Strand) : (s.setStrand k f).hl = s.hl := rfl
@[simp] theorem setStrand_whl (s : State) (k : Nat) (f : Strand → Strand) : (s.setStrand k f).whl = { s.whl with strands := Tab.upd (fun _ => {}) s.whl.strands k f } := rfl
@[simp] theorem setStrand_fly (s : State) (k : Nat) (f : Strand → Strand) : (s.setStrand k f).fly = s.fly := rfl
@[simp] theorem setStrand_bob (s : State) (k : Nat) (f : Strand → Strand) : (s.setStrand k f).bob = s.bob := rfl
@[simp] theorem setStrand_eth (s : State) (k : Nat) (f : Strand → Strand) : (s.setStrand k f).eth = s.eth := rfl
@[simp] theorem setStrand_can (s : State) (k : Nat) (f : Strand → Strand) : (s.setStrand k f).can = s.can := rfl
@[simp] theorem setStrand_ply (s : State) (k : Nat) (f : Strand → Strand) : (s.setStrand k f).ply = s.ply := rfl
@[simp] theorem setStrand_skn (s : State) (k : Nat) (f : Strand → Strand) : (s.setStrand k f).skn = s.skn := rfl
@[simp] theorem setStrand_pnl (s : State) (k : Nat) (f : Strand → Strand) : (s.setStrand k f).pnl = s.pnl := rfl
@[simp] theorem setStrand_tag (s : State) (k : Nat) (f : Strand → Strand) : (s.setStrand k f).tag = s.tag := rfl
@[simp] theorem setStrand_rov (s : State) (k : Nat) (f : Strand → Strand) : (s.setStrand k f).rov = s.rov := rfl

/-! ### setSpindle -/

@[simp] theorem setSpindle_pending (s : State) (n : Nat) (f : Spindle → Spindle) : (s.setSpindle n f).pending = s.pending := rfl
@[simp] theorem setSpindle_regs (s : State) (n : Nat) (f : Spindle → Spindle) : (s.setSpindle n f).regs = s.regs := rfl
@[simp] theorem setSpindle_latch (s : State) (n : Nat) (f : Spindle → Spindle) : (s.setSpindle n f).latch = s.latch := rfl
@[simp] theorem setSpindle_rdata (s : State) (n : Nat) (f : Spindle → Spindle) : (s.setSpindle n f).rdata = s.rdata := rfl
@[simp] theorem setSpindle_rdataHi (s : State) (n : Nat) (f : Spindle → Spindle) : (s.setSpindle n f).rdataHi = s.rdataHi := rfl
@[simp] theorem setSpindle_free (s : State) (n : Nat) (f : Spindle → Spindle) : (s.setSpindle n f).free = s.free := rfl
@[simp] theorem setSpindle_sys (s : State) (n : Nat) (f : Spindle → Spindle) : (s.setSpindle n f).sys = s.sys := rfl
@[simp] theorem setSpindle_pwr (s : State) (n : Nat) (f : Spindle → Spindle) : (s.setSpindle n f).pwr = s.pwr := rfl
@[simp] theorem setSpindle_txn (s : State) (n : Nat) (f : Spindle → Spindle) : (s.setSpindle n f).txn = s.txn := rfl
@[simp] theorem setSpindle_dst (s : State) (n : Nat) (f : Spindle → Spindle) : (s.setSpindle n f).dst = s.dst := rfl
@[simp] theorem setSpindle_stw (s : State) (n : Nat) (f : Spindle → Spindle) : (s.setSpindle n f).stw = s.stw := rfl
@[simp] theorem setSpindle_hl (s : State) (n : Nat) (f : Spindle → Spindle) : (s.setSpindle n f).hl = s.hl := rfl
@[simp] theorem setSpindle_whl (s : State) (n : Nat) (f : Spindle → Spindle) : (s.setSpindle n f).whl = { s.whl with spindles := Tab.upd (fun _ => {}) s.whl.spindles n f } := rfl
@[simp] theorem setSpindle_fly (s : State) (n : Nat) (f : Spindle → Spindle) : (s.setSpindle n f).fly = s.fly := rfl
@[simp] theorem setSpindle_bob (s : State) (n : Nat) (f : Spindle → Spindle) : (s.setSpindle n f).bob = s.bob := rfl
@[simp] theorem setSpindle_eth (s : State) (n : Nat) (f : Spindle → Spindle) : (s.setSpindle n f).eth = s.eth := rfl
@[simp] theorem setSpindle_can (s : State) (n : Nat) (f : Spindle → Spindle) : (s.setSpindle n f).can = s.can := rfl
@[simp] theorem setSpindle_ply (s : State) (n : Nat) (f : Spindle → Spindle) : (s.setSpindle n f).ply = s.ply := rfl
@[simp] theorem setSpindle_skn (s : State) (n : Nat) (f : Spindle → Spindle) : (s.setSpindle n f).skn = s.skn := rfl
@[simp] theorem setSpindle_pnl (s : State) (n : Nat) (f : Spindle → Spindle) : (s.setSpindle n f).pnl = s.pnl := rfl
@[simp] theorem setSpindle_tag (s : State) (n : Nat) (f : Spindle → Spindle) : (s.setSpindle n f).tag = s.tag := rfl
@[simp] theorem setSpindle_rov (s : State) (n : Nat) (f : Spindle → Spindle) : (s.setSpindle n f).rov = s.rov := rfl

/-! ### setBobbin -/

@[simp] theorem setBobbin_pending (s : State) (b : Nat) (f : Bobbin → Bobbin) : (s.setBobbin b f).pending = s.pending := rfl
@[simp] theorem setBobbin_regs (s : State) (b : Nat) (f : Bobbin → Bobbin) : (s.setBobbin b f).regs = s.regs := rfl
@[simp] theorem setBobbin_latch (s : State) (b : Nat) (f : Bobbin → Bobbin) : (s.setBobbin b f).latch = s.latch := rfl
@[simp] theorem setBobbin_rdata (s : State) (b : Nat) (f : Bobbin → Bobbin) : (s.setBobbin b f).rdata = s.rdata := rfl
@[simp] theorem setBobbin_rdataHi (s : State) (b : Nat) (f : Bobbin → Bobbin) : (s.setBobbin b f).rdataHi = s.rdataHi := rfl
@[simp] theorem setBobbin_free (s : State) (b : Nat) (f : Bobbin → Bobbin) : (s.setBobbin b f).free = s.free := rfl
@[simp] theorem setBobbin_sys (s : State) (b : Nat) (f : Bobbin → Bobbin) : (s.setBobbin b f).sys = s.sys := rfl
@[simp] theorem setBobbin_pwr (s : State) (b : Nat) (f : Bobbin → Bobbin) : (s.setBobbin b f).pwr = s.pwr := rfl
@[simp] theorem setBobbin_txn (s : State) (b : Nat) (f : Bobbin → Bobbin) : (s.setBobbin b f).txn = s.txn := rfl
@[simp] theorem setBobbin_dst (s : State) (b : Nat) (f : Bobbin → Bobbin) : (s.setBobbin b f).dst = s.dst := rfl
@[simp] theorem setBobbin_stw (s : State) (b : Nat) (f : Bobbin → Bobbin) : (s.setBobbin b f).stw = s.stw := rfl
@[simp] theorem setBobbin_hl (s : State) (b : Nat) (f : Bobbin → Bobbin) : (s.setBobbin b f).hl = s.hl := rfl
@[simp] theorem setBobbin_whl (s : State) (b : Nat) (f : Bobbin → Bobbin) : (s.setBobbin b f).whl = s.whl := rfl
@[simp] theorem setBobbin_fly (s : State) (b : Nat) (f : Bobbin → Bobbin) : (s.setBobbin b f).fly = s.fly := rfl
@[simp] theorem setBobbin_bob (s : State) (b : Nat) (f : Bobbin → Bobbin) : (s.setBobbin b f).bob = { s.bob with bobbins := Tab.upd (fun _ => {}) s.bob.bobbins b f } := rfl
@[simp] theorem setBobbin_eth (s : State) (b : Nat) (f : Bobbin → Bobbin) : (s.setBobbin b f).eth = s.eth := rfl
@[simp] theorem setBobbin_can (s : State) (b : Nat) (f : Bobbin → Bobbin) : (s.setBobbin b f).can = s.can := rfl
@[simp] theorem setBobbin_ply (s : State) (b : Nat) (f : Bobbin → Bobbin) : (s.setBobbin b f).ply = s.ply := rfl
@[simp] theorem setBobbin_skn (s : State) (b : Nat) (f : Bobbin → Bobbin) : (s.setBobbin b f).skn = s.skn := rfl
@[simp] theorem setBobbin_pnl (s : State) (b : Nat) (f : Bobbin → Bobbin) : (s.setBobbin b f).pnl = s.pnl := rfl
@[simp] theorem setBobbin_tag (s : State) (b : Nat) (f : Bobbin → Bobbin) : (s.setBobbin b f).tag = s.tag := rfl
@[simp] theorem setBobbin_rov (s : State) (b : Nat) (f : Bobbin → Bobbin) : (s.setBobbin b f).rov = s.rov := rfl

/-! ### setEgress -/

@[simp] theorem setEgress_pending (s : State) (p : Nat) (f : Egress → Egress) : (s.setEgress p f).pending = s.pending := rfl
@[simp] theorem setEgress_regs (s : State) (p : Nat) (f : Egress → Egress) : (s.setEgress p f).regs = s.regs := rfl
@[simp] theorem setEgress_latch (s : State) (p : Nat) (f : Egress → Egress) : (s.setEgress p f).latch = s.latch := rfl
@[simp] theorem setEgress_rdata (s : State) (p : Nat) (f : Egress → Egress) : (s.setEgress p f).rdata = s.rdata := rfl
@[simp] theorem setEgress_rdataHi (s : State) (p : Nat) (f : Egress → Egress) : (s.setEgress p f).rdataHi = s.rdataHi := rfl
@[simp] theorem setEgress_free (s : State) (p : Nat) (f : Egress → Egress) : (s.setEgress p f).free = s.free := rfl
@[simp] theorem setEgress_sys (s : State) (p : Nat) (f : Egress → Egress) : (s.setEgress p f).sys = s.sys := rfl
@[simp] theorem setEgress_pwr (s : State) (p : Nat) (f : Egress → Egress) : (s.setEgress p f).pwr = s.pwr := rfl
@[simp] theorem setEgress_txn (s : State) (p : Nat) (f : Egress → Egress) : (s.setEgress p f).txn = s.txn := rfl
@[simp] theorem setEgress_dst (s : State) (p : Nat) (f : Egress → Egress) : (s.setEgress p f).dst = s.dst := rfl
@[simp] theorem setEgress_stw (s : State) (p : Nat) (f : Egress → Egress) : (s.setEgress p f).stw = s.stw := rfl
@[simp] theorem setEgress_hl (s : State) (p : Nat) (f : Egress → Egress) : (s.setEgress p f).hl = s.hl := rfl
@[simp] theorem setEgress_whl (s : State) (p : Nat) (f : Egress → Egress) : (s.setEgress p f).whl = s.whl := rfl
@[simp] theorem setEgress_fly (s : State) (p : Nat) (f : Egress → Egress) : (s.setEgress p f).fly = s.fly := rfl
@[simp] theorem setEgress_bob (s : State) (p : Nat) (f : Egress → Egress) : (s.setEgress p f).bob = { s.bob with egress := Tab.upd (fun _ => {}) s.bob.egress p f } := rfl
@[simp] theorem setEgress_eth (s : State) (p : Nat) (f : Egress → Egress) : (s.setEgress p f).eth = s.eth := rfl
@[simp] theorem setEgress_can (s : State) (p : Nat) (f : Egress → Egress) : (s.setEgress p f).can = s.can := rfl
@[simp] theorem setEgress_ply (s : State) (p : Nat) (f : Egress → Egress) : (s.setEgress p f).ply = s.ply := rfl
@[simp] theorem setEgress_skn (s : State) (p : Nat) (f : Egress → Egress) : (s.setEgress p f).skn = s.skn := rfl
@[simp] theorem setEgress_pnl (s : State) (p : Nat) (f : Egress → Egress) : (s.setEgress p f).pnl = s.pnl := rfl
@[simp] theorem setEgress_tag (s : State) (p : Nat) (f : Egress → Egress) : (s.setEgress p f).tag = s.tag := rfl
@[simp] theorem setEgress_rov (s : State) (p : Nat) (f : Egress → Egress) : (s.setEgress p f).rov = s.rov := rfl

/-! ### setFrame -/

@[simp] theorem setFrame_pending (s : State) (id : Nat) (g : Frame → Frame) : (s.setFrame id g).pending = s.pending := rfl
@[simp] theorem setFrame_regs (s : State) (id : Nat) (g : Frame → Frame) : (s.setFrame id g).regs = s.regs := rfl
@[simp] theorem setFrame_latch (s : State) (id : Nat) (g : Frame → Frame) : (s.setFrame id g).latch = s.latch := rfl
@[simp] theorem setFrame_rdata (s : State) (id : Nat) (g : Frame → Frame) : (s.setFrame id g).rdata = s.rdata := rfl
@[simp] theorem setFrame_rdataHi (s : State) (id : Nat) (g : Frame → Frame) : (s.setFrame id g).rdataHi = s.rdataHi := rfl
@[simp] theorem setFrame_free (s : State) (id : Nat) (g : Frame → Frame) : (s.setFrame id g).free = s.free := rfl
@[simp] theorem setFrame_sys (s : State) (id : Nat) (g : Frame → Frame) : (s.setFrame id g).sys = s.sys := rfl
@[simp] theorem setFrame_pwr (s : State) (id : Nat) (g : Frame → Frame) : (s.setFrame id g).pwr = s.pwr := rfl
@[simp] theorem setFrame_txn (s : State) (id : Nat) (g : Frame → Frame) : (s.setFrame id g).txn = s.txn := rfl
@[simp] theorem setFrame_dst (s : State) (id : Nat) (g : Frame → Frame) : (s.setFrame id g).dst = s.dst := rfl
@[simp] theorem setFrame_stw (s : State) (id : Nat) (g : Frame → Frame) : (s.setFrame id g).stw = s.stw := rfl
@[simp] theorem setFrame_hl (s : State) (id : Nat) (g : Frame → Frame) : (s.setFrame id g).hl = s.hl := rfl
@[simp] theorem setFrame_whl (s : State) (id : Nat) (g : Frame → Frame) : (s.setFrame id g).whl = s.whl := rfl
@[simp] theorem setFrame_fly (s : State) (id : Nat) (g : Frame → Frame) : (s.setFrame id g).fly = s.fly := rfl
@[simp] theorem setFrame_bob (s : State) (id : Nat) (g : Frame → Frame) : (s.setFrame id g).bob = { s.bob with frames := s.bob.frames.map fun f => if f.id = id then g f else f } := rfl
@[simp] theorem setFrame_eth (s : State) (id : Nat) (g : Frame → Frame) : (s.setFrame id g).eth = s.eth := rfl
@[simp] theorem setFrame_can (s : State) (id : Nat) (g : Frame → Frame) : (s.setFrame id g).can = s.can := rfl
@[simp] theorem setFrame_ply (s : State) (id : Nat) (g : Frame → Frame) : (s.setFrame id g).ply = s.ply := rfl
@[simp] theorem setFrame_skn (s : State) (id : Nat) (g : Frame → Frame) : (s.setFrame id g).skn = s.skn := rfl
@[simp] theorem setFrame_pnl (s : State) (id : Nat) (g : Frame → Frame) : (s.setFrame id g).pnl = s.pnl := rfl
@[simp] theorem setFrame_tag (s : State) (id : Nat) (g : Frame → Frame) : (s.setFrame id g).tag = s.tag := rfl
@[simp] theorem setFrame_rov (s : State) (id : Nat) (g : Frame → Frame) : (s.setFrame id g).rov = s.rov := rfl

/-! ### setSys -/

@[simp] theorem setSys_pending (f : Sys → Sys) (s : State) : (setSys f s).pending = s.pending := rfl
@[simp] theorem setSys_regs (f : Sys → Sys) (s : State) : (setSys f s).regs = s.regs := rfl
@[simp] theorem setSys_latch (f : Sys → Sys) (s : State) : (setSys f s).latch = s.latch := rfl
@[simp] theorem setSys_rdata (f : Sys → Sys) (s : State) : (setSys f s).rdata = s.rdata := rfl
@[simp] theorem setSys_rdataHi (f : Sys → Sys) (s : State) : (setSys f s).rdataHi = s.rdataHi := rfl
@[simp] theorem setSys_free (f : Sys → Sys) (s : State) : (setSys f s).free = s.free := rfl
@[simp] theorem setSys_sys (f : Sys → Sys) (s : State) : (setSys f s).sys = f s.sys := rfl
@[simp] theorem setSys_pwr (f : Sys → Sys) (s : State) : (setSys f s).pwr = s.pwr := rfl
@[simp] theorem setSys_txn (f : Sys → Sys) (s : State) : (setSys f s).txn = s.txn := rfl
@[simp] theorem setSys_dst (f : Sys → Sys) (s : State) : (setSys f s).dst = s.dst := rfl
@[simp] theorem setSys_stw (f : Sys → Sys) (s : State) : (setSys f s).stw = s.stw := rfl
@[simp] theorem setSys_hl (f : Sys → Sys) (s : State) : (setSys f s).hl = s.hl := rfl
@[simp] theorem setSys_whl (f : Sys → Sys) (s : State) : (setSys f s).whl = s.whl := rfl
@[simp] theorem setSys_fly (f : Sys → Sys) (s : State) : (setSys f s).fly = s.fly := rfl
@[simp] theorem setSys_bob (f : Sys → Sys) (s : State) : (setSys f s).bob = s.bob := rfl
@[simp] theorem setSys_eth (f : Sys → Sys) (s : State) : (setSys f s).eth = s.eth := rfl
@[simp] theorem setSys_can (f : Sys → Sys) (s : State) : (setSys f s).can = s.can := rfl
@[simp] theorem setSys_ply (f : Sys → Sys) (s : State) : (setSys f s).ply = s.ply := rfl
@[simp] theorem setSys_skn (f : Sys → Sys) (s : State) : (setSys f s).skn = s.skn := rfl
@[simp] theorem setSys_pnl (f : Sys → Sys) (s : State) : (setSys f s).pnl = s.pnl := rfl
@[simp] theorem setSys_tag (f : Sys → Sys) (s : State) : (setSys f s).tag = s.tag := rfl
@[simp] theorem setSys_rov (f : Sys → Sys) (s : State) : (setSys f s).rov = s.rov := rfl

/-! ### setPwr -/

@[simp] theorem setPwr_pending (f : Pwr → Pwr) (s : State) : (setPwr f s).pending = s.pending := rfl
@[simp] theorem setPwr_regs (f : Pwr → Pwr) (s : State) : (setPwr f s).regs = s.regs := rfl
@[simp] theorem setPwr_latch (f : Pwr → Pwr) (s : State) : (setPwr f s).latch = s.latch := rfl
@[simp] theorem setPwr_rdata (f : Pwr → Pwr) (s : State) : (setPwr f s).rdata = s.rdata := rfl
@[simp] theorem setPwr_rdataHi (f : Pwr → Pwr) (s : State) : (setPwr f s).rdataHi = s.rdataHi := rfl
@[simp] theorem setPwr_free (f : Pwr → Pwr) (s : State) : (setPwr f s).free = s.free := rfl
@[simp] theorem setPwr_sys (f : Pwr → Pwr) (s : State) : (setPwr f s).sys = s.sys := rfl
@[simp] theorem setPwr_pwr (f : Pwr → Pwr) (s : State) : (setPwr f s).pwr = f s.pwr := rfl
@[simp] theorem setPwr_txn (f : Pwr → Pwr) (s : State) : (setPwr f s).txn = s.txn := rfl
@[simp] theorem setPwr_dst (f : Pwr → Pwr) (s : State) : (setPwr f s).dst = s.dst := rfl
@[simp] theorem setPwr_stw (f : Pwr → Pwr) (s : State) : (setPwr f s).stw = s.stw := rfl
@[simp] theorem setPwr_hl (f : Pwr → Pwr) (s : State) : (setPwr f s).hl = s.hl := rfl
@[simp] theorem setPwr_whl (f : Pwr → Pwr) (s : State) : (setPwr f s).whl = s.whl := rfl
@[simp] theorem setPwr_fly (f : Pwr → Pwr) (s : State) : (setPwr f s).fly = s.fly := rfl
@[simp] theorem setPwr_bob (f : Pwr → Pwr) (s : State) : (setPwr f s).bob = s.bob := rfl
@[simp] theorem setPwr_eth (f : Pwr → Pwr) (s : State) : (setPwr f s).eth = s.eth := rfl
@[simp] theorem setPwr_can (f : Pwr → Pwr) (s : State) : (setPwr f s).can = s.can := rfl
@[simp] theorem setPwr_ply (f : Pwr → Pwr) (s : State) : (setPwr f s).ply = s.ply := rfl
@[simp] theorem setPwr_skn (f : Pwr → Pwr) (s : State) : (setPwr f s).skn = s.skn := rfl
@[simp] theorem setPwr_pnl (f : Pwr → Pwr) (s : State) : (setPwr f s).pnl = s.pnl := rfl
@[simp] theorem setPwr_tag (f : Pwr → Pwr) (s : State) : (setPwr f s).tag = s.tag := rfl
@[simp] theorem setPwr_rov (f : Pwr → Pwr) (s : State) : (setPwr f s).rov = s.rov := rfl

/-! ### setDst -/

@[simp] theorem setDst_pending (f : Dst → Dst) (s : State) : (setDst f s).pending = s.pending := rfl
@[simp] theorem setDst_regs (f : Dst → Dst) (s : State) : (setDst f s).regs = s.regs := rfl
@[simp] theorem setDst_latch (f : Dst → Dst) (s : State) : (setDst f s).latch = s.latch := rfl
@[simp] theorem setDst_rdata (f : Dst → Dst) (s : State) : (setDst f s).rdata = s.rdata := rfl
@[simp] theorem setDst_rdataHi (f : Dst → Dst) (s : State) : (setDst f s).rdataHi = s.rdataHi := rfl
@[simp] theorem setDst_free (f : Dst → Dst) (s : State) : (setDst f s).free = s.free := rfl
@[simp] theorem setDst_sys (f : Dst → Dst) (s : State) : (setDst f s).sys = s.sys := rfl
@[simp] theorem setDst_pwr (f : Dst → Dst) (s : State) : (setDst f s).pwr = s.pwr := rfl
@[simp] theorem setDst_txn (f : Dst → Dst) (s : State) : (setDst f s).txn = s.txn := rfl
@[simp] theorem setDst_dst (f : Dst → Dst) (s : State) : (setDst f s).dst = f s.dst := rfl
@[simp] theorem setDst_stw (f : Dst → Dst) (s : State) : (setDst f s).stw = s.stw := rfl
@[simp] theorem setDst_hl (f : Dst → Dst) (s : State) : (setDst f s).hl = s.hl := rfl
@[simp] theorem setDst_whl (f : Dst → Dst) (s : State) : (setDst f s).whl = s.whl := rfl
@[simp] theorem setDst_fly (f : Dst → Dst) (s : State) : (setDst f s).fly = s.fly := rfl
@[simp] theorem setDst_bob (f : Dst → Dst) (s : State) : (setDst f s).bob = s.bob := rfl
@[simp] theorem setDst_eth (f : Dst → Dst) (s : State) : (setDst f s).eth = s.eth := rfl
@[simp] theorem setDst_can (f : Dst → Dst) (s : State) : (setDst f s).can = s.can := rfl
@[simp] theorem setDst_ply (f : Dst → Dst) (s : State) : (setDst f s).ply = s.ply := rfl
@[simp] theorem setDst_skn (f : Dst → Dst) (s : State) : (setDst f s).skn = s.skn := rfl
@[simp] theorem setDst_pnl (f : Dst → Dst) (s : State) : (setDst f s).pnl = s.pnl := rfl
@[simp] theorem setDst_tag (f : Dst → Dst) (s : State) : (setDst f s).tag = s.tag := rfl
@[simp] theorem setDst_rov (f : Dst → Dst) (s : State) : (setDst f s).rov = s.rov := rfl

/-! ### setStw -/

@[simp] theorem setStw_pending (f : Stw → Stw) (s : State) : (setStw f s).pending = s.pending := rfl
@[simp] theorem setStw_regs (f : Stw → Stw) (s : State) : (setStw f s).regs = s.regs := rfl
@[simp] theorem setStw_latch (f : Stw → Stw) (s : State) : (setStw f s).latch = s.latch := rfl
@[simp] theorem setStw_rdata (f : Stw → Stw) (s : State) : (setStw f s).rdata = s.rdata := rfl
@[simp] theorem setStw_rdataHi (f : Stw → Stw) (s : State) : (setStw f s).rdataHi = s.rdataHi := rfl
@[simp] theorem setStw_free (f : Stw → Stw) (s : State) : (setStw f s).free = s.free := rfl
@[simp] theorem setStw_sys (f : Stw → Stw) (s : State) : (setStw f s).sys = s.sys := rfl
@[simp] theorem setStw_pwr (f : Stw → Stw) (s : State) : (setStw f s).pwr = s.pwr := rfl
@[simp] theorem setStw_txn (f : Stw → Stw) (s : State) : (setStw f s).txn = s.txn := rfl
@[simp] theorem setStw_dst (f : Stw → Stw) (s : State) : (setStw f s).dst = s.dst := rfl
@[simp] theorem setStw_stw (f : Stw → Stw) (s : State) : (setStw f s).stw = f s.stw := rfl
@[simp] theorem setStw_hl (f : Stw → Stw) (s : State) : (setStw f s).hl = s.hl := rfl
@[simp] theorem setStw_whl (f : Stw → Stw) (s : State) : (setStw f s).whl = s.whl := rfl
@[simp] theorem setStw_fly (f : Stw → Stw) (s : State) : (setStw f s).fly = s.fly := rfl
@[simp] theorem setStw_bob (f : Stw → Stw) (s : State) : (setStw f s).bob = s.bob := rfl
@[simp] theorem setStw_eth (f : Stw → Stw) (s : State) : (setStw f s).eth = s.eth := rfl
@[simp] theorem setStw_can (f : Stw → Stw) (s : State) : (setStw f s).can = s.can := rfl
@[simp] theorem setStw_ply (f : Stw → Stw) (s : State) : (setStw f s).ply = s.ply := rfl
@[simp] theorem setStw_skn (f : Stw → Stw) (s : State) : (setStw f s).skn = s.skn := rfl
@[simp] theorem setStw_pnl (f : Stw → Stw) (s : State) : (setStw f s).pnl = s.pnl := rfl
@[simp] theorem setStw_tag (f : Stw → Stw) (s : State) : (setStw f s).tag = s.tag := rfl
@[simp] theorem setStw_rov (f : Stw → Stw) (s : State) : (setStw f s).rov = s.rov := rfl

/-! ### setHl -/

@[simp] theorem setHl_pending (f : Hl → Hl) (s : State) : (setHl f s).pending = s.pending := rfl
@[simp] theorem setHl_regs (f : Hl → Hl) (s : State) : (setHl f s).regs = s.regs := rfl
@[simp] theorem setHl_latch (f : Hl → Hl) (s : State) : (setHl f s).latch = s.latch := rfl
@[simp] theorem setHl_rdata (f : Hl → Hl) (s : State) : (setHl f s).rdata = s.rdata := rfl
@[simp] theorem setHl_rdataHi (f : Hl → Hl) (s : State) : (setHl f s).rdataHi = s.rdataHi := rfl
@[simp] theorem setHl_free (f : Hl → Hl) (s : State) : (setHl f s).free = s.free := rfl
@[simp] theorem setHl_sys (f : Hl → Hl) (s : State) : (setHl f s).sys = s.sys := rfl
@[simp] theorem setHl_pwr (f : Hl → Hl) (s : State) : (setHl f s).pwr = s.pwr := rfl
@[simp] theorem setHl_txn (f : Hl → Hl) (s : State) : (setHl f s).txn = s.txn := rfl
@[simp] theorem setHl_dst (f : Hl → Hl) (s : State) : (setHl f s).dst = s.dst := rfl
@[simp] theorem setHl_stw (f : Hl → Hl) (s : State) : (setHl f s).stw = s.stw := rfl
@[simp] theorem setHl_hl (f : Hl → Hl) (s : State) : (setHl f s).hl = f s.hl := rfl
@[simp] theorem setHl_whl (f : Hl → Hl) (s : State) : (setHl f s).whl = s.whl := rfl
@[simp] theorem setHl_fly (f : Hl → Hl) (s : State) : (setHl f s).fly = s.fly := rfl
@[simp] theorem setHl_bob (f : Hl → Hl) (s : State) : (setHl f s).bob = s.bob := rfl
@[simp] theorem setHl_eth (f : Hl → Hl) (s : State) : (setHl f s).eth = s.eth := rfl
@[simp] theorem setHl_can (f : Hl → Hl) (s : State) : (setHl f s).can = s.can := rfl
@[simp] theorem setHl_ply (f : Hl → Hl) (s : State) : (setHl f s).ply = s.ply := rfl
@[simp] theorem setHl_skn (f : Hl → Hl) (s : State) : (setHl f s).skn = s.skn := rfl
@[simp] theorem setHl_pnl (f : Hl → Hl) (s : State) : (setHl f s).pnl = s.pnl := rfl
@[simp] theorem setHl_tag (f : Hl → Hl) (s : State) : (setHl f s).tag = s.tag := rfl
@[simp] theorem setHl_rov (f : Hl → Hl) (s : State) : (setHl f s).rov = s.rov := rfl

/-! ### setWhl -/

@[simp] theorem setWhl_pending (f : Whl → Whl) (s : State) : (setWhl f s).pending = s.pending := rfl
@[simp] theorem setWhl_regs (f : Whl → Whl) (s : State) : (setWhl f s).regs = s.regs := rfl
@[simp] theorem setWhl_latch (f : Whl → Whl) (s : State) : (setWhl f s).latch = s.latch := rfl
@[simp] theorem setWhl_rdata (f : Whl → Whl) (s : State) : (setWhl f s).rdata = s.rdata := rfl
@[simp] theorem setWhl_rdataHi (f : Whl → Whl) (s : State) : (setWhl f s).rdataHi = s.rdataHi := rfl
@[simp] theorem setWhl_free (f : Whl → Whl) (s : State) : (setWhl f s).free = s.free := rfl
@[simp] theorem setWhl_sys (f : Whl → Whl) (s : State) : (setWhl f s).sys = s.sys := rfl
@[simp] theorem setWhl_pwr (f : Whl → Whl) (s : State) : (setWhl f s).pwr = s.pwr := rfl
@[simp] theorem setWhl_txn (f : Whl → Whl) (s : State) : (setWhl f s).txn = s.txn := rfl
@[simp] theorem setWhl_dst (f : Whl → Whl) (s : State) : (setWhl f s).dst = s.dst := rfl
@[simp] theorem setWhl_stw (f : Whl → Whl) (s : State) : (setWhl f s).stw = s.stw := rfl
@[simp] theorem setWhl_hl (f : Whl → Whl) (s : State) : (setWhl f s).hl = s.hl := rfl
@[simp] theorem setWhl_whl (f : Whl → Whl) (s : State) : (setWhl f s).whl = f s.whl := rfl
@[simp] theorem setWhl_fly (f : Whl → Whl) (s : State) : (setWhl f s).fly = s.fly := rfl
@[simp] theorem setWhl_bob (f : Whl → Whl) (s : State) : (setWhl f s).bob = s.bob := rfl
@[simp] theorem setWhl_eth (f : Whl → Whl) (s : State) : (setWhl f s).eth = s.eth := rfl
@[simp] theorem setWhl_can (f : Whl → Whl) (s : State) : (setWhl f s).can = s.can := rfl
@[simp] theorem setWhl_ply (f : Whl → Whl) (s : State) : (setWhl f s).ply = s.ply := rfl
@[simp] theorem setWhl_skn (f : Whl → Whl) (s : State) : (setWhl f s).skn = s.skn := rfl
@[simp] theorem setWhl_pnl (f : Whl → Whl) (s : State) : (setWhl f s).pnl = s.pnl := rfl
@[simp] theorem setWhl_tag (f : Whl → Whl) (s : State) : (setWhl f s).tag = s.tag := rfl
@[simp] theorem setWhl_rov (f : Whl → Whl) (s : State) : (setWhl f s).rov = s.rov := rfl

/-! ### setTag -/

@[simp] theorem setTag_pending (f : Tag → Tag) (s : State) : (setTag f s).pending = s.pending := rfl
@[simp] theorem setTag_regs (f : Tag → Tag) (s : State) : (setTag f s).regs = s.regs := rfl
@[simp] theorem setTag_latch (f : Tag → Tag) (s : State) : (setTag f s).latch = s.latch := rfl
@[simp] theorem setTag_rdata (f : Tag → Tag) (s : State) : (setTag f s).rdata = s.rdata := rfl
@[simp] theorem setTag_rdataHi (f : Tag → Tag) (s : State) : (setTag f s).rdataHi = s.rdataHi := rfl
@[simp] theorem setTag_free (f : Tag → Tag) (s : State) : (setTag f s).free = s.free := rfl
@[simp] theorem setTag_sys (f : Tag → Tag) (s : State) : (setTag f s).sys = s.sys := rfl
@[simp] theorem setTag_pwr (f : Tag → Tag) (s : State) : (setTag f s).pwr = s.pwr := rfl
@[simp] theorem setTag_txn (f : Tag → Tag) (s : State) : (setTag f s).txn = s.txn := rfl
@[simp] theorem setTag_dst (f : Tag → Tag) (s : State) : (setTag f s).dst = s.dst := rfl
@[simp] theorem setTag_stw (f : Tag → Tag) (s : State) : (setTag f s).stw = s.stw := rfl
@[simp] theorem setTag_hl (f : Tag → Tag) (s : State) : (setTag f s).hl = s.hl := rfl
@[simp] theorem setTag_whl (f : Tag → Tag) (s : State) : (setTag f s).whl = s.whl := rfl
@[simp] theorem setTag_fly (f : Tag → Tag) (s : State) : (setTag f s).fly = s.fly := rfl
@[simp] theorem setTag_bob (f : Tag → Tag) (s : State) : (setTag f s).bob = s.bob := rfl
@[simp] theorem setTag_eth (f : Tag → Tag) (s : State) : (setTag f s).eth = s.eth := rfl
@[simp] theorem setTag_can (f : Tag → Tag) (s : State) : (setTag f s).can = s.can := rfl
@[simp] theorem setTag_ply (f : Tag → Tag) (s : State) : (setTag f s).ply = s.ply := rfl
@[simp] theorem setTag_skn (f : Tag → Tag) (s : State) : (setTag f s).skn = s.skn := rfl
@[simp] theorem setTag_pnl (f : Tag → Tag) (s : State) : (setTag f s).pnl = s.pnl := rfl
@[simp] theorem setTag_tag (f : Tag → Tag) (s : State) : (setTag f s).tag = f s.tag := rfl
@[simp] theorem setTag_rov (f : Tag → Tag) (s : State) : (setTag f s).rov = s.rov := rfl

/-! ### setRov -/

@[simp] theorem setRov_pending (f : Rov → Rov) (s : State) : (setRov f s).pending = s.pending := rfl
@[simp] theorem setRov_regs (f : Rov → Rov) (s : State) : (setRov f s).regs = s.regs := rfl
@[simp] theorem setRov_latch (f : Rov → Rov) (s : State) : (setRov f s).latch = s.latch := rfl
@[simp] theorem setRov_rdata (f : Rov → Rov) (s : State) : (setRov f s).rdata = s.rdata := rfl
@[simp] theorem setRov_rdataHi (f : Rov → Rov) (s : State) : (setRov f s).rdataHi = s.rdataHi := rfl
@[simp] theorem setRov_free (f : Rov → Rov) (s : State) : (setRov f s).free = s.free := rfl
@[simp] theorem setRov_sys (f : Rov → Rov) (s : State) : (setRov f s).sys = s.sys := rfl
@[simp] theorem setRov_pwr (f : Rov → Rov) (s : State) : (setRov f s).pwr = s.pwr := rfl
@[simp] theorem setRov_txn (f : Rov → Rov) (s : State) : (setRov f s).txn = s.txn := rfl
@[simp] theorem setRov_dst (f : Rov → Rov) (s : State) : (setRov f s).dst = s.dst := rfl
@[simp] theorem setRov_stw (f : Rov → Rov) (s : State) : (setRov f s).stw = s.stw := rfl
@[simp] theorem setRov_hl (f : Rov → Rov) (s : State) : (setRov f s).hl = s.hl := rfl
@[simp] theorem setRov_whl (f : Rov → Rov) (s : State) : (setRov f s).whl = s.whl := rfl
@[simp] theorem setRov_fly (f : Rov → Rov) (s : State) : (setRov f s).fly = s.fly := rfl
@[simp] theorem setRov_bob (f : Rov → Rov) (s : State) : (setRov f s).bob = s.bob := rfl
@[simp] theorem setRov_eth (f : Rov → Rov) (s : State) : (setRov f s).eth = s.eth := rfl
@[simp] theorem setRov_can (f : Rov → Rov) (s : State) : (setRov f s).can = s.can := rfl
@[simp] theorem setRov_ply (f : Rov → Rov) (s : State) : (setRov f s).ply = s.ply := rfl
@[simp] theorem setRov_skn (f : Rov → Rov) (s : State) : (setRov f s).skn = s.skn := rfl
@[simp] theorem setRov_pnl (f : Rov → Rov) (s : State) : (setRov f s).pnl = s.pnl := rfl
@[simp] theorem setRov_tag (f : Rov → Rov) (s : State) : (setRov f s).tag = s.tag := rfl
@[simp] theorem setRov_rov (f : Rov → Rov) (s : State) : (setRov f s).rov = f s.rov := rfl

/-! ### setTxns -/

@[simp] theorem setTxns_pending (f : TxnSt → TxnSt) (s : State) : (setTxns f s).pending = s.pending := rfl
@[simp] theorem setTxns_regs (f : TxnSt → TxnSt) (s : State) : (setTxns f s).regs = s.regs := rfl
@[simp] theorem setTxns_latch (f : TxnSt → TxnSt) (s : State) : (setTxns f s).latch = s.latch := rfl
@[simp] theorem setTxns_rdata (f : TxnSt → TxnSt) (s : State) : (setTxns f s).rdata = s.rdata := rfl
@[simp] theorem setTxns_rdataHi (f : TxnSt → TxnSt) (s : State) : (setTxns f s).rdataHi = s.rdataHi := rfl
@[simp] theorem setTxns_free (f : TxnSt → TxnSt) (s : State) : (setTxns f s).free = s.free := rfl
@[simp] theorem setTxns_sys (f : TxnSt → TxnSt) (s : State) : (setTxns f s).sys = s.sys := rfl
@[simp] theorem setTxns_pwr (f : TxnSt → TxnSt) (s : State) : (setTxns f s).pwr = s.pwr := rfl
@[simp] theorem setTxns_txn (f : TxnSt → TxnSt) (s : State) : (setTxns f s).txn = f s.txn := rfl
@[simp] theorem setTxns_dst (f : TxnSt → TxnSt) (s : State) : (setTxns f s).dst = s.dst := rfl
@[simp] theorem setTxns_stw (f : TxnSt → TxnSt) (s : State) : (setTxns f s).stw = s.stw := rfl
@[simp] theorem setTxns_hl (f : TxnSt → TxnSt) (s : State) : (setTxns f s).hl = s.hl := rfl
@[simp] theorem setTxns_whl (f : TxnSt → TxnSt) (s : State) : (setTxns f s).whl = s.whl := rfl
@[simp] theorem setTxns_fly (f : TxnSt → TxnSt) (s : State) : (setTxns f s).fly = s.fly := rfl
@[simp] theorem setTxns_bob (f : TxnSt → TxnSt) (s : State) : (setTxns f s).bob = s.bob := rfl
@[simp] theorem setTxns_eth (f : TxnSt → TxnSt) (s : State) : (setTxns f s).eth = s.eth := rfl
@[simp] theorem setTxns_can (f : TxnSt → TxnSt) (s : State) : (setTxns f s).can = s.can := rfl
@[simp] theorem setTxns_ply (f : TxnSt → TxnSt) (s : State) : (setTxns f s).ply = s.ply := rfl
@[simp] theorem setTxns_skn (f : TxnSt → TxnSt) (s : State) : (setTxns f s).skn = s.skn := rfl
@[simp] theorem setTxns_pnl (f : TxnSt → TxnSt) (s : State) : (setTxns f s).pnl = s.pnl := rfl
@[simp] theorem setTxns_tag (f : TxnSt → TxnSt) (s : State) : (setTxns f s).tag = s.tag := rfl
@[simp] theorem setTxns_rov (f : TxnSt → TxnSt) (s : State) : (setTxns f s).rov = s.rov := rfl

/-! ### regWrite -/

@[simp] theorem regWrite_pending (s : State) (a : Nat) (v : Word) : (s.regWrite a v).pending = s.pending := rfl
@[simp] theorem regWrite_regs (s : State) (a : Nat) (v : Word) : (s.regWrite a v).regs = setReg s.regs a (writeFields (fieldsAt a) (s.rd a) v) := rfl
@[simp] theorem regWrite_latch (s : State) (a : Nat) (v : Word) : (s.regWrite a v).latch = s.latch := rfl
@[simp] theorem regWrite_rdata (s : State) (a : Nat) (v : Word) : (s.regWrite a v).rdata = s.rdata := rfl
@[simp] theorem regWrite_rdataHi (s : State) (a : Nat) (v : Word) : (s.regWrite a v).rdataHi = s.rdataHi := rfl
@[simp] theorem regWrite_free (s : State) (a : Nat) (v : Word) : (s.regWrite a v).free = s.free := rfl
@[simp] theorem regWrite_sys (s : State) (a : Nat) (v : Word) : (s.regWrite a v).sys = s.sys := rfl
@[simp] theorem regWrite_pwr (s : State) (a : Nat) (v : Word) : (s.regWrite a v).pwr = s.pwr := rfl
@[simp] theorem regWrite_txn (s : State) (a : Nat) (v : Word) : (s.regWrite a v).txn = s.txn := rfl
@[simp] theorem regWrite_dst (s : State) (a : Nat) (v : Word) : (s.regWrite a v).dst = s.dst := rfl
@[simp] theorem regWrite_stw (s : State) (a : Nat) (v : Word) : (s.regWrite a v).stw = s.stw := rfl
@[simp] theorem regWrite_hl (s : State) (a : Nat) (v : Word) : (s.regWrite a v).hl = s.hl := rfl
@[simp] theorem regWrite_whl (s : State) (a : Nat) (v : Word) : (s.regWrite a v).whl = s.whl := rfl
@[simp] theorem regWrite_fly (s : State) (a : Nat) (v : Word) : (s.regWrite a v).fly = s.fly := rfl
@[simp] theorem regWrite_bob (s : State) (a : Nat) (v : Word) : (s.regWrite a v).bob = s.bob := rfl
@[simp] theorem regWrite_eth (s : State) (a : Nat) (v : Word) : (s.regWrite a v).eth = s.eth := rfl
@[simp] theorem regWrite_can (s : State) (a : Nat) (v : Word) : (s.regWrite a v).can = s.can := rfl
@[simp] theorem regWrite_ply (s : State) (a : Nat) (v : Word) : (s.regWrite a v).ply = s.ply := rfl
@[simp] theorem regWrite_skn (s : State) (a : Nat) (v : Word) : (s.regWrite a v).skn = s.skn := rfl
@[simp] theorem regWrite_pnl (s : State) (a : Nat) (v : Word) : (s.regWrite a v).pnl = s.pnl := rfl
@[simp] theorem regWrite_tag (s : State) (a : Nat) (v : Word) : (s.regWrite a v).tag = s.tag := rfl
@[simp] theorem regWrite_rov (s : State) (a : Nat) (v : Word) : (s.regWrite a v).rov = s.rov := rfl

/-! ### setBits -/

@[simp] theorem setBits_pending (s : State) (a : Nat) (v : Word) : (s.setBits a v).pending = s.pending := rfl
@[simp] theorem setBits_regs (s : State) (a : Nat) (v : Word) : (s.setBits a v).regs = setReg s.regs a (s.rd a ||| v) := rfl
@[simp] theorem setBits_latch (s : State) (a : Nat) (v : Word) : (s.setBits a v).latch = s.latch := rfl
@[simp] theorem setBits_rdata (s : State) (a : Nat) (v : Word) : (s.setBits a v).rdata = s.rdata := rfl
@[simp] theorem setBits_rdataHi (s : State) (a : Nat) (v : Word) : (s.setBits a v).rdataHi = s.rdataHi := rfl
@[simp] theorem setBits_free (s : State) (a : Nat) (v : Word) : (s.setBits a v).free = s.free := rfl
@[simp] theorem setBits_sys (s : State) (a : Nat) (v : Word) : (s.setBits a v).sys = s.sys := rfl
@[simp] theorem setBits_pwr (s : State) (a : Nat) (v : Word) : (s.setBits a v).pwr = s.pwr := rfl
@[simp] theorem setBits_txn (s : State) (a : Nat) (v : Word) : (s.setBits a v).txn = s.txn := rfl
@[simp] theorem setBits_dst (s : State) (a : Nat) (v : Word) : (s.setBits a v).dst = s.dst := rfl
@[simp] theorem setBits_stw (s : State) (a : Nat) (v : Word) : (s.setBits a v).stw = s.stw := rfl
@[simp] theorem setBits_hl (s : State) (a : Nat) (v : Word) : (s.setBits a v).hl = s.hl := rfl
@[simp] theorem setBits_whl (s : State) (a : Nat) (v : Word) : (s.setBits a v).whl = s.whl := rfl
@[simp] theorem setBits_fly (s : State) (a : Nat) (v : Word) : (s.setBits a v).fly = s.fly := rfl
@[simp] theorem setBits_bob (s : State) (a : Nat) (v : Word) : (s.setBits a v).bob = s.bob := rfl
@[simp] theorem setBits_eth (s : State) (a : Nat) (v : Word) : (s.setBits a v).eth = s.eth := rfl
@[simp] theorem setBits_can (s : State) (a : Nat) (v : Word) : (s.setBits a v).can = s.can := rfl
@[simp] theorem setBits_ply (s : State) (a : Nat) (v : Word) : (s.setBits a v).ply = s.ply := rfl
@[simp] theorem setBits_skn (s : State) (a : Nat) (v : Word) : (s.setBits a v).skn = s.skn := rfl
@[simp] theorem setBits_pnl (s : State) (a : Nat) (v : Word) : (s.setBits a v).pnl = s.pnl := rfl
@[simp] theorem setBits_tag (s : State) (a : Nat) (v : Word) : (s.setBits a v).tag = s.tag := rfl
@[simp] theorem setBits_rov (s : State) (a : Nat) (v : Word) : (s.setBits a v).rov = s.rov := rfl

/-! ### setFld -/

@[simp] theorem setFld_pending (s : State) (a lo w v : Nat) : (s.setFld a lo w v).pending = s.pending := rfl
@[simp] theorem setFld_regs (s : State) (a lo w v : Nat) : (s.setFld a lo w v).regs = setReg s.regs a (putField (s.rd a) lo w v) := rfl
@[simp] theorem setFld_latch (s : State) (a lo w v : Nat) : (s.setFld a lo w v).latch = s.latch := rfl
@[simp] theorem setFld_rdata (s : State) (a lo w v : Nat) : (s.setFld a lo w v).rdata = s.rdata := rfl
@[simp] theorem setFld_rdataHi (s : State) (a lo w v : Nat) : (s.setFld a lo w v).rdataHi = s.rdataHi := rfl
@[simp] theorem setFld_free (s : State) (a lo w v : Nat) : (s.setFld a lo w v).free = s.free := rfl
@[simp] theorem setFld_sys (s : State) (a lo w v : Nat) : (s.setFld a lo w v).sys = s.sys := rfl
@[simp] theorem setFld_pwr (s : State) (a lo w v : Nat) : (s.setFld a lo w v).pwr = s.pwr := rfl
@[simp] theorem setFld_txn (s : State) (a lo w v : Nat) : (s.setFld a lo w v).txn = s.txn := rfl
@[simp] theorem setFld_dst (s : State) (a lo w v : Nat) : (s.setFld a lo w v).dst = s.dst := rfl
@[simp] theorem setFld_stw (s : State) (a lo w v : Nat) : (s.setFld a lo w v).stw = s.stw := rfl
@[simp] theorem setFld_hl (s : State) (a lo w v : Nat) : (s.setFld a lo w v).hl = s.hl := rfl
@[simp] theorem setFld_whl (s : State) (a lo w v : Nat) : (s.setFld a lo w v).whl = s.whl := rfl
@[simp] theorem setFld_fly (s : State) (a lo w v : Nat) : (s.setFld a lo w v).fly = s.fly := rfl
@[simp] theorem setFld_bob (s : State) (a lo w v : Nat) : (s.setFld a lo w v).bob = s.bob := rfl
@[simp] theorem setFld_eth (s : State) (a lo w v : Nat) : (s.setFld a lo w v).eth = s.eth := rfl
@[simp] theorem setFld_can (s : State) (a lo w v : Nat) : (s.setFld a lo w v).can = s.can := rfl
@[simp] theorem setFld_ply (s : State) (a lo w v : Nat) : (s.setFld a lo w v).ply = s.ply := rfl
@[simp] theorem setFld_skn (s : State) (a lo w v : Nat) : (s.setFld a lo w v).skn = s.skn := rfl
@[simp] theorem setFld_pnl (s : State) (a lo w v : Nat) : (s.setFld a lo w v).pnl = s.pnl := rfl
@[simp] theorem setFld_tag (s : State) (a lo w v : Nat) : (s.setFld a lo w v).tag = s.tag := rfl
@[simp] theorem setFld_rov (s : State) (a lo w v : Nat) : (s.setFld a lo w v).rov = s.rov := rfl

/-! ### count -/

@[simp] theorem count_pending (s : State) (a n : Nat) : (s.count a n).pending = s.pending := rfl
@[simp] theorem count_regs (s : State) (a n : Nat) : (s.count a n).regs = setReg s.regs a (s.rd a + BitVec.ofNat 32 n) := rfl
@[simp] theorem count_latch (s : State) (a n : Nat) : (s.count a n).latch = s.latch := rfl
@[simp] theorem count_rdata (s : State) (a n : Nat) : (s.count a n).rdata = s.rdata := rfl
@[simp] theorem count_rdataHi (s : State) (a n : Nat) : (s.count a n).rdataHi = s.rdataHi := rfl
@[simp] theorem count_free (s : State) (a n : Nat) : (s.count a n).free = s.free := rfl
@[simp] theorem count_sys (s : State) (a n : Nat) : (s.count a n).sys = s.sys := rfl
@[simp] theorem count_pwr (s : State) (a n : Nat) : (s.count a n).pwr = s.pwr := rfl
@[simp] theorem count_txn (s : State) (a n : Nat) : (s.count a n).txn = s.txn := rfl
@[simp] theorem count_dst (s : State) (a n : Nat) : (s.count a n).dst = s.dst := rfl
@[simp] theorem count_stw (s : State) (a n : Nat) : (s.count a n).stw = s.stw := rfl
@[simp] theorem count_hl (s : State) (a n : Nat) : (s.count a n).hl = s.hl := rfl
@[simp] theorem count_whl (s : State) (a n : Nat) : (s.count a n).whl = s.whl := rfl
@[simp] theorem count_fly (s : State) (a n : Nat) : (s.count a n).fly = s.fly := rfl
@[simp] theorem count_bob (s : State) (a n : Nat) : (s.count a n).bob = s.bob := rfl
@[simp] theorem count_eth (s : State) (a n : Nat) : (s.count a n).eth = s.eth := rfl
@[simp] theorem count_can (s : State) (a n : Nat) : (s.count a n).can = s.can := rfl
@[simp] theorem count_ply (s : State) (a n : Nat) : (s.count a n).ply = s.ply := rfl
@[simp] theorem count_skn (s : State) (a n : Nat) : (s.count a n).skn = s.skn := rfl
@[simp] theorem count_pnl (s : State) (a n : Nat) : (s.count a n).pnl = s.pnl := rfl
@[simp] theorem count_tag (s : State) (a n : Nat) : (s.count a n).tag = s.tag := rfl
@[simp] theorem count_rov (s : State) (a n : Nat) : (s.count a n).rov = s.rov := rfl

/-! ### raiseLine -/

@[simp] theorem raiseLine_pending (n : Nat) (s : State) : (raiseLine n s).pending = s.pending := rfl
@[simp] theorem raiseLine_regs (n : Nat) (s : State) : (raiseLine n s).regs = s.regs := rfl
@[simp] theorem raiseLine_latch (n : Nat) (s : State) : (raiseLine n s).latch = s.latch := rfl
@[simp] theorem raiseLine_rdata (n : Nat) (s : State) : (raiseLine n s).rdata = s.rdata := rfl
@[simp] theorem raiseLine_rdataHi (n : Nat) (s : State) : (raiseLine n s).rdataHi = s.rdataHi := rfl
@[simp] theorem raiseLine_free (n : Nat) (s : State) : (raiseLine n s).free = s.free := rfl
@[simp] theorem raiseLine_sys (n : Nat) (s : State) : (raiseLine n s).sys = s.sys := rfl
@[simp] theorem raiseLine_pwr (n : Nat) (s : State) : (raiseLine n s).pwr = s.pwr := rfl
@[simp] theorem raiseLine_txn (n : Nat) (s : State) : (raiseLine n s).txn = s.txn := rfl
@[simp] theorem raiseLine_dst (n : Nat) (s : State) : (raiseLine n s).dst = s.dst := rfl
@[simp] theorem raiseLine_stw (n : Nat) (s : State) : (raiseLine n s).stw = { s.stw with ipend := s.stw.ipend ||| BitVec.ofNat 32 (2 ^ n) } := rfl
@[simp] theorem raiseLine_hl (n : Nat) (s : State) : (raiseLine n s).hl = s.hl := rfl
@[simp] theorem raiseLine_whl (n : Nat) (s : State) : (raiseLine n s).whl = s.whl := rfl
@[simp] theorem raiseLine_fly (n : Nat) (s : State) : (raiseLine n s).fly = s.fly := rfl
@[simp] theorem raiseLine_bob (n : Nat) (s : State) : (raiseLine n s).bob = s.bob := rfl
@[simp] theorem raiseLine_eth (n : Nat) (s : State) : (raiseLine n s).eth = s.eth := rfl
@[simp] theorem raiseLine_can (n : Nat) (s : State) : (raiseLine n s).can = s.can := rfl
@[simp] theorem raiseLine_ply (n : Nat) (s : State) : (raiseLine n s).ply = s.ply := rfl
@[simp] theorem raiseLine_skn (n : Nat) (s : State) : (raiseLine n s).skn = s.skn := rfl
@[simp] theorem raiseLine_pnl (n : Nat) (s : State) : (raiseLine n s).pnl = s.pnl := rfl
@[simp] theorem raiseLine_tag (n : Nat) (s : State) : (raiseLine n s).tag = s.tag := rfl
@[simp] theorem raiseLine_rov (n : Nat) (s : State) : (raiseLine n s).rov = s.rov := rfl

/-! ### clearLine -/

@[simp] theorem clearLine_pending (n : Nat) (s : State) : (clearLine n s).pending = s.pending := rfl
@[simp] theorem clearLine_regs (n : Nat) (s : State) : (clearLine n s).regs = s.regs := rfl
@[simp] theorem clearLine_latch (n : Nat) (s : State) : (clearLine n s).latch = s.latch := rfl
@[simp] theorem clearLine_rdata (n : Nat) (s : State) : (clearLine n s).rdata = s.rdata := rfl
@[simp] theorem clearLine_rdataHi (n : Nat) (s : State) : (clearLine n s).rdataHi = s.rdataHi := rfl
@[simp] theorem clearLine_free (n : Nat) (s : State) : (clearLine n s).free = s.free := rfl
@[simp] theorem clearLine_sys (n : Nat) (s : State) : (clearLine n s).sys = s.sys := rfl
@[simp] theorem clearLine_pwr (n : Nat) (s : State) : (clearLine n s).pwr = s.pwr := rfl
@[simp] theorem clearLine_txn (n : Nat) (s : State) : (clearLine n s).txn = s.txn := rfl
@[simp] theorem clearLine_dst (n : Nat) (s : State) : (clearLine n s).dst = s.dst := rfl
@[simp] theorem clearLine_stw (n : Nat) (s : State) : (clearLine n s).stw = { s.stw with ipend := s.stw.ipend &&& ~~~ BitVec.ofNat 32 (2 ^ n) } := rfl
@[simp] theorem clearLine_hl (n : Nat) (s : State) : (clearLine n s).hl = s.hl := rfl
@[simp] theorem clearLine_whl (n : Nat) (s : State) : (clearLine n s).whl = s.whl := rfl
@[simp] theorem clearLine_fly (n : Nat) (s : State) : (clearLine n s).fly = s.fly := rfl
@[simp] theorem clearLine_bob (n : Nat) (s : State) : (clearLine n s).bob = s.bob := rfl
@[simp] theorem clearLine_eth (n : Nat) (s : State) : (clearLine n s).eth = s.eth := rfl
@[simp] theorem clearLine_can (n : Nat) (s : State) : (clearLine n s).can = s.can := rfl
@[simp] theorem clearLine_ply (n : Nat) (s : State) : (clearLine n s).ply = s.ply := rfl
@[simp] theorem clearLine_skn (n : Nat) (s : State) : (clearLine n s).skn = s.skn := rfl
@[simp] theorem clearLine_pnl (n : Nat) (s : State) : (clearLine n s).pnl = s.pnl := rfl
@[simp] theorem clearLine_tag (n : Nat) (s : State) : (clearLine n s).tag = s.tag := rfl
@[simp] theorem clearLine_rov (n : Nat) (s : State) : (clearLine n s).rov = s.rov := rfl

/-! ### logFault -/

@[simp] theorem logFault_pending (code block : Nat) (d : List Byte) (s : State) : (logFault code block d s).pending = s.pending := rfl
@[simp] theorem logFault_regs (code block : Nat) (d : List Byte) (s : State) : (logFault code block d s).regs = s.regs := rfl
@[simp] theorem logFault_latch (code block : Nat) (d : List Byte) (s : State) : (logFault code block d s).latch = s.latch := rfl
@[simp] theorem logFault_rdata (code block : Nat) (d : List Byte) (s : State) : (logFault code block d s).rdata = s.rdata := rfl
@[simp] theorem logFault_rdataHi (code block : Nat) (d : List Byte) (s : State) : (logFault code block d s).rdataHi = s.rdataHi := rfl
@[simp] theorem logFault_free (code block : Nat) (d : List Byte) (s : State) : (logFault code block d s).free = s.free := rfl
@[simp] theorem logFault_sys (code block : Nat) (d : List Byte) (s : State) : (logFault code block d s).sys = pushFault (faultRec s code block d) s.sys := rfl
@[simp] theorem logFault_pwr (code block : Nat) (d : List Byte) (s : State) : (logFault code block d s).pwr = s.pwr := rfl
@[simp] theorem logFault_txn (code block : Nat) (d : List Byte) (s : State) : (logFault code block d s).txn = s.txn := rfl
@[simp] theorem logFault_dst (code block : Nat) (d : List Byte) (s : State) : (logFault code block d s).dst = s.dst := rfl
@[simp] theorem logFault_stw (code block : Nat) (d : List Byte) (s : State) : (logFault code block d s).stw = s.stw := rfl
@[simp] theorem logFault_hl (code block : Nat) (d : List Byte) (s : State) : (logFault code block d s).hl = s.hl := rfl
@[simp] theorem logFault_whl (code block : Nat) (d : List Byte) (s : State) : (logFault code block d s).whl = s.whl := rfl
@[simp] theorem logFault_fly (code block : Nat) (d : List Byte) (s : State) : (logFault code block d s).fly = s.fly := rfl
@[simp] theorem logFault_bob (code block : Nat) (d : List Byte) (s : State) : (logFault code block d s).bob = s.bob := rfl
@[simp] theorem logFault_eth (code block : Nat) (d : List Byte) (s : State) : (logFault code block d s).eth = s.eth := rfl
@[simp] theorem logFault_can (code block : Nat) (d : List Byte) (s : State) : (logFault code block d s).can = s.can := rfl
@[simp] theorem logFault_ply (code block : Nat) (d : List Byte) (s : State) : (logFault code block d s).ply = s.ply := rfl
@[simp] theorem logFault_skn (code block : Nat) (d : List Byte) (s : State) : (logFault code block d s).skn = s.skn := rfl
@[simp] theorem logFault_pnl (code block : Nat) (d : List Byte) (s : State) : (logFault code block d s).pnl = s.pnl := rfl
@[simp] theorem logFault_tag (code block : Nat) (d : List Byte) (s : State) : (logFault code block d s).tag = s.tag := rfl
@[simp] theorem logFault_rov (code block : Nat) (d : List Byte) (s : State) : (logFault code block d s).rov = s.rov := rfl

/-! ### hostMsg -/

@[simp] theorem hostMsg_pending (n : Nat) (s : State) : (hostMsg n s).pending = s.pending := rfl
@[simp] theorem hostMsg_regs (n : Nat) (s : State) : (hostMsg n s).regs = s.regs := rfl
@[simp] theorem hostMsg_latch (n : Nat) (s : State) : (hostMsg n s).latch = s.latch := rfl
@[simp] theorem hostMsg_rdata (n : Nat) (s : State) : (hostMsg n s).rdata = s.rdata := rfl
@[simp] theorem hostMsg_rdataHi (n : Nat) (s : State) : (hostMsg n s).rdataHi = s.rdataHi := rfl
@[simp] theorem hostMsg_free (n : Nat) (s : State) : (hostMsg n s).free = s.free := rfl
@[simp] theorem hostMsg_sys (n : Nat) (s : State) : (hostMsg n s).sys = s.sys := rfl
@[simp] theorem hostMsg_pwr (n : Nat) (s : State) : (hostMsg n s).pwr = s.pwr := rfl
@[simp] theorem hostMsg_txn (n : Nat) (s : State) : (hostMsg n s).txn = s.txn := rfl
@[simp] theorem hostMsg_dst (n : Nat) (s : State) : (hostMsg n s).dst = s.dst := rfl
@[simp] theorem hostMsg_stw (n : Nat) (s : State) : (hostMsg n s).stw = s.stw := rfl
@[simp] theorem hostMsg_hl (n : Nat) (s : State) : (hostMsg n s).hl = hostSent n s := rfl
@[simp] theorem hostMsg_whl (n : Nat) (s : State) : (hostMsg n s).whl = s.whl := rfl
@[simp] theorem hostMsg_fly (n : Nat) (s : State) : (hostMsg n s).fly = s.fly := rfl
@[simp] theorem hostMsg_bob (n : Nat) (s : State) : (hostMsg n s).bob = s.bob := rfl
@[simp] theorem hostMsg_eth (n : Nat) (s : State) : (hostMsg n s).eth = s.eth := rfl
@[simp] theorem hostMsg_can (n : Nat) (s : State) : (hostMsg n s).can = s.can := rfl
@[simp] theorem hostMsg_ply (n : Nat) (s : State) : (hostMsg n s).ply = s.ply := rfl
@[simp] theorem hostMsg_skn (n : Nat) (s : State) : (hostMsg n s).skn = s.skn := rfl
@[simp] theorem hostMsg_pnl (n : Nat) (s : State) : (hostMsg n s).pnl = s.pnl := rfl
@[simp] theorem hostMsg_tag (n : Nat) (s : State) : (hostMsg n s).tag = s.tag := rfl
@[simp] theorem hostMsg_rov (n : Nat) (s : State) : (hostMsg n s).rov = s.rov := rfl

/-! ### tookFree -/

@[simp] theorem tookFree_pending (s : State) : (tookFree s).pending = s.pending := rfl
@[simp] theorem tookFree_regs (s : State) : (tookFree s).regs = s.regs := rfl
@[simp] theorem tookFree_latch (s : State) : (tookFree s).latch = s.latch := rfl
@[simp] theorem tookFree_rdata (s : State) : (tookFree s).rdata = s.rdata := rfl
@[simp] theorem tookFree_rdataHi (s : State) : (tookFree s).rdataHi = s.rdataHi := rfl
@[simp] theorem tookFree_free (s : State) : (tookFree s).free = s.free + 1 := rfl
@[simp] theorem tookFree_sys (s : State) : (tookFree s).sys = s.sys := rfl
@[simp] theorem tookFree_pwr (s : State) : (tookFree s).pwr = s.pwr := rfl
@[simp] theorem tookFree_txn (s : State) : (tookFree s).txn = s.txn := rfl
@[simp] theorem tookFree_dst (s : State) : (tookFree s).dst = s.dst := rfl
@[simp] theorem tookFree_stw (s : State) : (tookFree s).stw = s.stw := rfl
@[simp] theorem tookFree_hl (s : State) : (tookFree s).hl = s.hl := rfl
@[simp] theorem tookFree_whl (s : State) : (tookFree s).whl = s.whl := rfl
@[simp] theorem tookFree_fly (s : State) : (tookFree s).fly = s.fly := rfl
@[simp] theorem tookFree_bob (s : State) : (tookFree s).bob = s.bob := rfl
@[simp] theorem tookFree_eth (s : State) : (tookFree s).eth = s.eth := rfl
@[simp] theorem tookFree_can (s : State) : (tookFree s).can = s.can := rfl
@[simp] theorem tookFree_ply (s : State) : (tookFree s).ply = s.ply := rfl
@[simp] theorem tookFree_skn (s : State) : (tookFree s).skn = s.skn := rfl
@[simp] theorem tookFree_pnl (s : State) : (tookFree s).pnl = s.pnl := rfl
@[simp] theorem tookFree_tag (s : State) : (tookFree s).tag = s.tag := rfl
@[simp] theorem tookFree_rov (s : State) : (tookFree s).rov = s.rov := rfl

/-! ### queueUnit -/

@[simp] theorem queueUnit_pending (x : GUnit) (s : State) : (queueUnit x s).pending = s.pending := rfl
@[simp] theorem queueUnit_regs (x : GUnit) (s : State) : (queueUnit x s).regs = s.regs := rfl
@[simp] theorem queueUnit_latch (x : GUnit) (s : State) : (queueUnit x s).latch = s.latch := rfl
@[simp] theorem queueUnit_rdata (x : GUnit) (s : State) : (queueUnit x s).rdata = s.rdata := rfl
@[simp] theorem queueUnit_rdataHi (x : GUnit) (s : State) : (queueUnit x s).rdataHi = s.rdataHi := rfl
@[simp] theorem queueUnit_free (x : GUnit) (s : State) : (queueUnit x s).free = s.free := rfl
@[simp] theorem queueUnit_sys (x : GUnit) (s : State) : (queueUnit x s).sys = s.sys := rfl
@[simp] theorem queueUnit_pwr (x : GUnit) (s : State) : (queueUnit x s).pwr = s.pwr := rfl
@[simp] theorem queueUnit_txn (x : GUnit) (s : State) : (queueUnit x s).txn = s.txn := rfl
@[simp] theorem queueUnit_dst (x : GUnit) (s : State) : (queueUnit x s).dst = { s.dst with waiting := s.dst.waiting ++ [x] } := rfl
@[simp] theorem queueUnit_stw (x : GUnit) (s : State) : (queueUnit x s).stw = s.stw := rfl
@[simp] theorem queueUnit_hl (x : GUnit) (s : State) : (queueUnit x s).hl = s.hl := rfl
@[simp] theorem queueUnit_whl (x : GUnit) (s : State) : (queueUnit x s).whl = s.whl := rfl
@[simp] theorem queueUnit_fly (x : GUnit) (s : State) : (queueUnit x s).fly = s.fly := rfl
@[simp] theorem queueUnit_bob (x : GUnit) (s : State) : (queueUnit x s).bob = s.bob := rfl
@[simp] theorem queueUnit_eth (x : GUnit) (s : State) : (queueUnit x s).eth = s.eth := rfl
@[simp] theorem queueUnit_can (x : GUnit) (s : State) : (queueUnit x s).can = s.can := rfl
@[simp] theorem queueUnit_ply (x : GUnit) (s : State) : (queueUnit x s).ply = s.ply := rfl
@[simp] theorem queueUnit_skn (x : GUnit) (s : State) : (queueUnit x s).skn = s.skn := rfl
@[simp] theorem queueUnit_pnl (x : GUnit) (s : State) : (queueUnit x s).pnl = s.pnl := rfl
@[simp] theorem queueUnit_tag (x : GUnit) (s : State) : (queueUnit x s).tag = s.tag := rfl
@[simp] theorem queueUnit_rov (x : GUnit) (s : State) : (queueUnit x s).rov = s.rov := rfl

/-! ### sknSend -/

@[simp] theorem sknSend_pending (o : SkOut) (s : State) : (sknSend o s).pending = s.pending := rfl
@[simp] theorem sknSend_regs (o : SkOut) (s : State) : (sknSend o s).regs = s.regs := rfl
@[simp] theorem sknSend_latch (o : SkOut) (s : State) : (sknSend o s).latch = s.latch := rfl
@[simp] theorem sknSend_rdata (o : SkOut) (s : State) : (sknSend o s).rdata = s.rdata := rfl
@[simp] theorem sknSend_rdataHi (o : SkOut) (s : State) : (sknSend o s).rdataHi = s.rdataHi := rfl
@[simp] theorem sknSend_free (o : SkOut) (s : State) : (sknSend o s).free = s.free := rfl
@[simp] theorem sknSend_sys (o : SkOut) (s : State) : (sknSend o s).sys = s.sys := rfl
@[simp] theorem sknSend_pwr (o : SkOut) (s : State) : (sknSend o s).pwr = s.pwr := rfl
@[simp] theorem sknSend_txn (o : SkOut) (s : State) : (sknSend o s).txn = s.txn := rfl
@[simp] theorem sknSend_dst (o : SkOut) (s : State) : (sknSend o s).dst = s.dst := rfl
@[simp] theorem sknSend_stw (o : SkOut) (s : State) : (sknSend o s).stw = s.stw := rfl
@[simp] theorem sknSend_hl (o : SkOut) (s : State) : (sknSend o s).hl = s.hl := rfl
@[simp] theorem sknSend_whl (o : SkOut) (s : State) : (sknSend o s).whl = s.whl := rfl
@[simp] theorem sknSend_fly (o : SkOut) (s : State) : (sknSend o s).fly = s.fly := rfl
@[simp] theorem sknSend_bob (o : SkOut) (s : State) : (sknSend o s).bob = s.bob := rfl
@[simp] theorem sknSend_eth (o : SkOut) (s : State) : (sknSend o s).eth = s.eth := rfl
@[simp] theorem sknSend_can (o : SkOut) (s : State) : (sknSend o s).can = s.can := rfl
@[simp] theorem sknSend_ply (o : SkOut) (s : State) : (sknSend o s).ply = s.ply := rfl
@[simp] theorem sknSend_skn (o : SkOut) (s : State) : (sknSend o s).skn = { s.skn with out := s.skn.out ++ [o] } := rfl
@[simp] theorem sknSend_pnl (o : SkOut) (s : State) : (sknSend o s).pnl = s.pnl := rfl
@[simp] theorem sknSend_tag (o : SkOut) (s : State) : (sknSend o s).tag = s.tag := rfl
@[simp] theorem sknSend_rov (o : SkOut) (s : State) : (sknSend o s).rov = s.rov := rfl

/-! ### sknTx -/

@[simp] theorem sknTx_pending (l : Nat) (o : SkOut) (s : State) : (sknTx l o s).pending = s.pending := rfl
@[simp] theorem sknTx_regs (l : Nat) (o : SkOut) (s : State) : (sknTx l o s).regs = s.regs := rfl
@[simp] theorem sknTx_latch (l : Nat) (o : SkOut) (s : State) : (sknTx l o s).latch = s.latch := rfl
@[simp] theorem sknTx_rdata (l : Nat) (o : SkOut) (s : State) : (sknTx l o s).rdata = s.rdata := rfl
@[simp] theorem sknTx_rdataHi (l : Nat) (o : SkOut) (s : State) : (sknTx l o s).rdataHi = s.rdataHi := rfl
@[simp] theorem sknTx_free (l : Nat) (o : SkOut) (s : State) : (sknTx l o s).free = s.free := rfl
@[simp] theorem sknTx_sys (l : Nat) (o : SkOut) (s : State) : (sknTx l o s).sys = s.sys := rfl
@[simp] theorem sknTx_pwr (l : Nat) (o : SkOut) (s : State) : (sknTx l o s).pwr = s.pwr := rfl
@[simp] theorem sknTx_txn (l : Nat) (o : SkOut) (s : State) : (sknTx l o s).txn = s.txn := rfl
@[simp] theorem sknTx_dst (l : Nat) (o : SkOut) (s : State) : (sknTx l o s).dst = s.dst := rfl
@[simp] theorem sknTx_stw (l : Nat) (o : SkOut) (s : State) : (sknTx l o s).stw = s.stw := rfl
@[simp] theorem sknTx_hl (l : Nat) (o : SkOut) (s : State) : (sknTx l o s).hl = s.hl := rfl
@[simp] theorem sknTx_whl (l : Nat) (o : SkOut) (s : State) : (sknTx l o s).whl = s.whl := rfl
@[simp] theorem sknTx_fly (l : Nat) (o : SkOut) (s : State) : (sknTx l o s).fly = s.fly := rfl
@[simp] theorem sknTx_bob (l : Nat) (o : SkOut) (s : State) : (sknTx l o s).bob = s.bob := rfl
@[simp] theorem sknTx_eth (l : Nat) (o : SkOut) (s : State) : (sknTx l o s).eth = s.eth := rfl
@[simp] theorem sknTx_can (l : Nat) (o : SkOut) (s : State) : (sknTx l o s).can = s.can := rfl
@[simp] theorem sknTx_ply (l : Nat) (o : SkOut) (s : State) : (sknTx l o s).ply = s.ply := rfl
@[simp] theorem sknTx_skn (l : Nat) (o : SkOut) (s : State) : (sknTx l o s).skn = (sknSend o (s.setLink l fun k => { k with txFrm := k.txFrm + 1 })).skn := rfl
@[simp] theorem sknTx_pnl (l : Nat) (o : SkOut) (s : State) : (sknTx l o s).pnl = s.pnl := rfl
@[simp] theorem sknTx_tag (l : Nat) (o : SkOut) (s : State) : (sknTx l o s).tag = s.tag := rfl
@[simp] theorem sknTx_rov (l : Nat) (o : SkOut) (s : State) : (sknTx l o s).rov = s.rov := rfl

/-! ### sknRx -/

@[simp] theorem sknRx_pending (l : Nat) (s : State) : (sknRx l s).pending = s.pending := rfl
@[simp] theorem sknRx_regs (l : Nat) (s : State) : (sknRx l s).regs = s.regs := rfl
@[simp] theorem sknRx_latch (l : Nat) (s : State) : (sknRx l s).latch = s.latch := rfl
@[simp] theorem sknRx_rdata (l : Nat) (s : State) : (sknRx l s).rdata = s.rdata := rfl
@[simp] theorem sknRx_rdataHi (l : Nat) (s : State) : (sknRx l s).rdataHi = s.rdataHi := rfl
@[simp] theorem sknRx_free (l : Nat) (s : State) : (sknRx l s).free = s.free := rfl
@[simp] theorem sknRx_sys (l : Nat) (s : State) : (sknRx l s).sys = s.sys := rfl
@[simp] theorem sknRx_pwr (l : Nat) (s : State) : (sknRx l s).pwr = s.pwr := rfl
@[simp] theorem sknRx_txn (l : Nat) (s : State) : (sknRx l s).txn = s.txn := rfl
@[simp] theorem sknRx_dst (l : Nat) (s : State) : (sknRx l s).dst = s.dst := rfl
@[simp] theorem sknRx_stw (l : Nat) (s : State) : (sknRx l s).stw = s.stw := rfl
@[simp] theorem sknRx_hl (l : Nat) (s : State) : (sknRx l s).hl = s.hl := rfl
@[simp] theorem sknRx_whl (l : Nat) (s : State) : (sknRx l s).whl = s.whl := rfl
@[simp] theorem sknRx_fly (l : Nat) (s : State) : (sknRx l s).fly = s.fly := rfl
@[simp] theorem sknRx_bob (l : Nat) (s : State) : (sknRx l s).bob = s.bob := rfl
@[simp] theorem sknRx_eth (l : Nat) (s : State) : (sknRx l s).eth = s.eth := rfl
@[simp] theorem sknRx_can (l : Nat) (s : State) : (sknRx l s).can = s.can := rfl
@[simp] theorem sknRx_ply (l : Nat) (s : State) : (sknRx l s).ply = s.ply := rfl
@[simp] theorem sknRx_skn (l : Nat) (s : State) : (sknRx l s).skn = (s.setLink l fun k => { k with rxFrm := k.rxFrm + 1 }).skn := rfl
@[simp] theorem sknRx_pnl (l : Nat) (s : State) : (sknRx l s).pnl = s.pnl := rfl
@[simp] theorem sknRx_tag (l : Nat) (s : State) : (sknRx l s).tag = s.tag := rfl
@[simp] theorem sknRx_rov (l : Nat) (s : State) : (sknRx l s).rov = s.rov := rfl

/-! ### setTxn -/

@[simp] theorem setTxn_pending (h : Nat) (f : Txn → Txn) (s : State) : (setTxn h f s).pending = s.pending := rfl
@[simp] theorem setTxn_regs (h : Nat) (f : Txn → Txn) (s : State) : (setTxn h f s).regs = s.regs := rfl
@[simp] theorem setTxn_latch (h : Nat) (f : Txn → Txn) (s : State) : (setTxn h f s).latch = s.latch := rfl
@[simp] theorem setTxn_rdata (h : Nat) (f : Txn → Txn) (s : State) : (setTxn h f s).rdata = s.rdata := rfl
@[simp] theorem setTxn_rdataHi (h : Nat) (f : Txn → Txn) (s : State) : (setTxn h f s).rdataHi = s.rdataHi := rfl
@[simp] theorem setTxn_free (h : Nat) (f : Txn → Txn) (s : State) : (setTxn h f s).free = s.free := rfl
@[simp] theorem setTxn_sys (h : Nat) (f : Txn → Txn) (s : State) : (setTxn h f s).sys = s.sys := rfl
@[simp] theorem setTxn_pwr (h : Nat) (f : Txn → Txn) (s : State) : (setTxn h f s).pwr = s.pwr := rfl
@[simp] theorem setTxn_txn (h : Nat) (f : Txn → Txn) (s : State) : (setTxn h f s).txn = { s.txn with txns := s.txn.txns.map fun t => if t.h = h then f t else t } := rfl
@[simp] theorem setTxn_dst (h : Nat) (f : Txn → Txn) (s : State) : (setTxn h f s).dst = s.dst := rfl
@[simp] theorem setTxn_stw (h : Nat) (f : Txn → Txn) (s : State) : (setTxn h f s).stw = s.stw := rfl
@[simp] theorem setTxn_hl (h : Nat) (f : Txn → Txn) (s : State) : (setTxn h f s).hl = s.hl := rfl
@[simp] theorem setTxn_whl (h : Nat) (f : Txn → Txn) (s : State) : (setTxn h f s).whl = s.whl := rfl
@[simp] theorem setTxn_fly (h : Nat) (f : Txn → Txn) (s : State) : (setTxn h f s).fly = s.fly := rfl
@[simp] theorem setTxn_bob (h : Nat) (f : Txn → Txn) (s : State) : (setTxn h f s).bob = s.bob := rfl
@[simp] theorem setTxn_eth (h : Nat) (f : Txn → Txn) (s : State) : (setTxn h f s).eth = s.eth := rfl
@[simp] theorem setTxn_can (h : Nat) (f : Txn → Txn) (s : State) : (setTxn h f s).can = s.can := rfl
@[simp] theorem setTxn_ply (h : Nat) (f : Txn → Txn) (s : State) : (setTxn h f s).ply = s.ply := rfl
@[simp] theorem setTxn_skn (h : Nat) (f : Txn → Txn) (s : State) : (setTxn h f s).skn = s.skn := rfl
@[simp] theorem setTxn_pnl (h : Nat) (f : Txn → Txn) (s : State) : (setTxn h f s).pnl = s.pnl := rfl
@[simp] theorem setTxn_tag (h : Nat) (f : Txn → Txn) (s : State) : (setTxn h f s).tag = s.tag := rfl
@[simp] theorem setTxn_rov (h : Nat) (f : Txn → Txn) (s : State) : (setTxn h f s).rov = s.rov := rfl

/-! ### withConf -/

@[simp] theorem withConf_pending (c : Conf) (s : State) : (withConf c s).pending = s.pending := rfl
@[simp] theorem withConf_regs (c : Conf) (s : State) : (withConf c s).regs = s.regs := rfl
@[simp] theorem withConf_latch (c : Conf) (s : State) : (withConf c s).latch = s.latch := rfl
@[simp] theorem withConf_rdata (c : Conf) (s : State) : (withConf c s).rdata = s.rdata := rfl
@[simp] theorem withConf_rdataHi (c : Conf) (s : State) : (withConf c s).rdataHi = s.rdataHi := rfl
@[simp] theorem withConf_free (c : Conf) (s : State) : (withConf c s).free = s.free := rfl
@[simp] theorem withConf_sys (c : Conf) (s : State) : (withConf c s).sys = s.sys := rfl
@[simp] theorem withConf_pwr (c : Conf) (s : State) : (withConf c s).pwr = s.pwr := rfl
@[simp] theorem withConf_txn (c : Conf) (s : State) : (withConf c s).txn = { s.txn with conf := c } := rfl
@[simp] theorem withConf_dst (c : Conf) (s : State) : (withConf c s).dst = s.dst := rfl
@[simp] theorem withConf_stw (c : Conf) (s : State) : (withConf c s).stw = s.stw := rfl
@[simp] theorem withConf_hl (c : Conf) (s : State) : (withConf c s).hl = s.hl := rfl
@[simp] theorem withConf_whl (c : Conf) (s : State) : (withConf c s).whl = s.whl := rfl
@[simp] theorem withConf_fly (c : Conf) (s : State) : (withConf c s).fly = s.fly := rfl
@[simp] theorem withConf_bob (c : Conf) (s : State) : (withConf c s).bob = s.bob := rfl
@[simp] theorem withConf_eth (c : Conf) (s : State) : (withConf c s).eth = s.eth := rfl
@[simp] theorem withConf_can (c : Conf) (s : State) : (withConf c s).can = s.can := rfl
@[simp] theorem withConf_ply (c : Conf) (s : State) : (withConf c s).ply = s.ply := rfl
@[simp] theorem withConf_skn (c : Conf) (s : State) : (withConf c s).skn = s.skn := rfl
@[simp] theorem withConf_pnl (c : Conf) (s : State) : (withConf c s).pnl = s.pnl := rfl
@[simp] theorem withConf_tag (c : Conf) (s : State) : (withConf c s).tag = s.tag := rfl
@[simp] theorem withConf_rov (c : Conf) (s : State) : (withConf c s).rov = s.rov := rfl

/-! ### startWake -/

@[simp] theorem startWake_pending (s : State) : (startWake s).pending = s.pending := rfl
@[simp] theorem startWake_regs (s : State) : (startWake s).regs = s.regs := rfl
@[simp] theorem startWake_latch (s : State) : (startWake s).latch = s.latch := rfl
@[simp] theorem startWake_rdata (s : State) : (startWake s).rdata = s.rdata := rfl
@[simp] theorem startWake_rdataHi (s : State) : (startWake s).rdataHi = s.rdataHi := rfl
@[simp] theorem startWake_free (s : State) : (startWake s).free = s.free := rfl
@[simp] theorem startWake_sys (s : State) : (startWake s).sys = { s.sys with mode := .kindle, due := some .wake, timeZero := true, kstep := 1, wakePending := false } := rfl
@[simp] theorem startWake_pwr (s : State) : (startWake s).pwr = s.pwr := rfl
@[simp] theorem startWake_txn (s : State) : (startWake s).txn = s.txn := rfl
@[simp] theorem startWake_dst (s : State) : (startWake s).dst = s.dst := rfl
@[simp] theorem startWake_stw (s : State) : (startWake s).stw = s.stw := rfl
@[simp] theorem startWake_hl (s : State) : (startWake s).hl = s.hl := rfl
@[simp] theorem startWake_whl (s : State) : (startWake s).whl = s.whl := rfl
@[simp] theorem startWake_fly (s : State) : (startWake s).fly = s.fly := rfl
@[simp] theorem startWake_bob (s : State) : (startWake s).bob = s.bob := rfl
@[simp] theorem startWake_eth (s : State) : (startWake s).eth = s.eth := rfl
@[simp] theorem startWake_can (s : State) : (startWake s).can = s.can := rfl
@[simp] theorem startWake_ply (s : State) : (startWake s).ply = s.ply := rfl
@[simp] theorem startWake_skn (s : State) : (startWake s).skn = s.skn := rfl
@[simp] theorem startWake_pnl (s : State) : (startWake s).pnl = s.pnl := rfl
@[simp] theorem startWake_tag (s : State) : (startWake s).tag = s.tag := rfl
@[simp] theorem startWake_rov (s : State) : (startWake s).rov = s.rov := rfl

/-! ### regsReset -/

@[simp] theorem regsReset_pending (k : RKind) (s : State) : (regsReset k s).pending = s.pending := rfl
@[simp] theorem regsReset_regs (k : RKind) (s : State) : (regsReset k s).regs = resetRegs k s.regs := rfl
@[simp] theorem regsReset_latch (k : RKind) (s : State) : (regsReset k s).latch = [] := rfl
@[simp] theorem regsReset_rdata (k : RKind) (s : State) : (regsReset k s).rdata = s.rdata := rfl
@[simp] theorem regsReset_rdataHi (k : RKind) (s : State) : (regsReset k s).rdataHi = s.rdataHi := rfl
@[simp] theorem regsReset_free (k : RKind) (s : State) : (regsReset k s).free = s.free := rfl
@[simp] theorem regsReset_sys (k : RKind) (s : State) : (regsReset k s).sys = s.sys := rfl
@[simp] theorem regsReset_pwr (k : RKind) (s : State) : (regsReset k s).pwr = s.pwr := rfl
@[simp] theorem regsReset_txn (k : RKind) (s : State) : (regsReset k s).txn = s.txn := rfl
@[simp] theorem regsReset_dst (k : RKind) (s : State) : (regsReset k s).dst = s.dst := rfl
@[simp] theorem regsReset_stw (k : RKind) (s : State) : (regsReset k s).stw = s.stw := rfl
@[simp] theorem regsReset_hl (k : RKind) (s : State) : (regsReset k s).hl = s.hl := rfl
@[simp] theorem regsReset_whl (k : RKind) (s : State) : (regsReset k s).whl = s.whl := rfl
@[simp] theorem regsReset_fly (k : RKind) (s : State) : (regsReset k s).fly = s.fly := rfl
@[simp] theorem regsReset_bob (k : RKind) (s : State) : (regsReset k s).bob = s.bob := rfl
@[simp] theorem regsReset_eth (k : RKind) (s : State) : (regsReset k s).eth = s.eth := rfl
@[simp] theorem regsReset_can (k : RKind) (s : State) : (regsReset k s).can = s.can := rfl
@[simp] theorem regsReset_ply (k : RKind) (s : State) : (regsReset k s).ply = s.ply := rfl
@[simp] theorem regsReset_skn (k : RKind) (s : State) : (regsReset k s).skn = s.skn := rfl
@[simp] theorem regsReset_pnl (k : RKind) (s : State) : (regsReset k s).pnl = s.pnl := rfl
@[simp] theorem regsReset_tag (k : RKind) (s : State) : (regsReset k s).tag = s.tag := rfl
@[simp] theorem regsReset_rov (k : RKind) (s : State) : (regsReset k s).rov = s.rov := rfl

end Sys2Proof.Machine
end

