-- ==== Sys2Proof/Laws/Tab.lean ====
section
/-!
SUPPORT. Sparse tables: every operation keeps the canonical form, a written key reads back, and every other key reads as
before. Memories are tables of bytes, so the same holds of them.
-/

namespace Sys2Proof

variable {α : Type} [DecidableEq α] {d : Nat → α}

/-! ### The canonical form -/

theorem okFrom_tail {t : Tab α} {lo : Option Nat} {k : Nat} {v : α} (h : Tab.okFrom d lo ((k, v) :: t) = true) :
    Tab.okFrom d (some k) t = true := by
  simp [Tab.okFrom] at h
  exact h.2

theorem okFrom_erase : ∀ (t : Tab α) (lo : Option Nat) (i : Nat), Tab.okFrom d lo t = true → Tab.okFrom d lo (t.erase i) = true
  | [], _, _, _ => rfl
  | (k, v) :: t, lo, i, h => by
    simp only [Tab.erase]
    split
    · cases t with
      | nil => rfl
      | cons e t =>
        obtain ⟨k2, v2⟩ := e
        cases lo <;> simp [Tab.okFrom] at h ⊢ <;> refine ⟨?_, h.2.2⟩ <;> (try omega) <;> simp_all <;> omega
    · split
      · exact h
      · have := okFrom_erase t (some k) i (okFrom_tail h)
        cases lo <;> simp [Tab.okFrom] at h ⊢ <;> simp_all

theorem okFrom_put (x : α) (i : Nat) (hx : x ≠ d i) : ∀ (t : Tab α) (lo : Option Nat), (∀ l, lo = some l → l < i) →
    Tab.okFrom d lo t = true → Tab.okFrom d lo (t.put i x) = true
  | [], lo, hl, _ => by
    cases lo with
    | none => simp [Tab.put, Tab.okFrom, hx]
    | some l => simp [Tab.put, Tab.okFrom, hx, hl l rfl]
  | (k, v) :: t, lo, hl, h => by
    simp only [Tab.put]
    split
    · next e => subst e; cases lo <;> simp [Tab.okFrom] at h ⊢ <;> simp_all
    · split
      · cases lo with
        | none => simp [Tab.okFrom] at h ⊢; simp_all
        | some l => have := hl l rfl; simp [Tab.okFrom] at h ⊢; simp_all
      · have hlt : k < i := by omega
        have := okFrom_put x i hx t (some k) (by intro l e; cases e; exact hlt) (okFrom_tail h)
        cases lo <;> simp [Tab.okFrom] at h ⊢ <;> simp_all

/-- A write keeps the canonical form. -/
theorem Tab.wf_set {t : Tab α} (i : Nat) (x : α) (h : Tab.wf d t = true) : Tab.wf d (t.set d i x) = true := by
  unfold Tab.wf Tab.set at *
  split
  · exact okFrom_erase _ _ _ h
  · next hx => exact okFrom_put x i hx t none (by intro l e; cases e) h

/-- So does a change in place. -/
theorem Tab.wf_upd {t : Tab α} (i : Nat) (f : α → α) (h : Tab.wf d t = true) : Tab.wf d (t.upd d i f) = true := Tab.wf_set i _ h

/-- A table built entry by entry from a canonical one is canonical. -/
theorem Tab.wf_setAll (f : Nat → α → α) : ∀ (t acc : Tab α), Tab.wf d acc = true →
    Tab.wf d (t.foldl (fun acc e => Tab.set d acc e.1 (f e.1 e.2)) acc) = true
  | [], _, h => h
  | e :: t, _, h => Tab.wf_setAll f t _ (Tab.wf_set e.1 (f e.1 e.2) h)

/-- A pass over a table answers a canonical one. -/
theorem Tab.wf_mapVals (f : Nat → α → α) (t : Tab α) : Tab.wf d (t.mapVals d f) = true := Tab.wf_setAll f t [] rfl

/-! ### Reading -/

theorem Tab.get_below (i : Nat) : ∀ (t : Tab α) (lo : Nat), Tab.okFrom d (some lo) t = true → i ≤ lo → Tab.get d t i = d i
  | [], _, _, _ => rfl
  | (k, v) :: t, lo, h, hi => by
    simp only [Tab.okFrom, Bool.and_eq_true, decide_eq_true_eq] at h
    have h1 : i ≠ k := by omega
    have h2 : i < k := by omega
    simp [Tab.get, h1, h2]

theorem Tab.get_set_from (i j : Nat) (x : α) : ∀ (t : Tab α) (lo : Option Nat), Tab.okFrom d lo t = true →
    Tab.get d (Tab.set d t i x) j = if j = i then x else Tab.get d t j
  | [], _, _ => by
    by_cases hx : x = d i <;> simp [Tab.set, hx, Tab.erase, Tab.put, Tab.get]
    intro h
    simp [h]
  | (k, v) :: t, lo, h => by
    have hr := okFrom_tail h
    have ih := Tab.get_set_from i j x t (some k) hr
    by_cases hx : x = d i
    · simp only [Tab.set, hx, if_true] at ih ⊢
      simp only [Tab.erase]
      split
      · subst_vars
        by_cases hj : j = k
        · subst hj; simp; exact Tab.get_below _ t _ hr (Nat.le_refl _)
        · simp [Tab.get, hj]
          intro hlt
          rw [Tab.get_below j t k hr (by omega)]
      · split
        · by_cases hj : j = i
          · subst hj; simp_all [Tab.get]
          · simp [hj]
        · simp only [Tab.get]
          split
          · next e => subst e; simp; omega
          · split
            · by_cases hj : j = i
              · omega
              · simp [hj]
            · exact ih
    · simp only [Tab.set, hx, if_false] at ih ⊢
      simp only [Tab.put]
      split
      · subst_vars
        by_cases hj : j = k
        · subst hj; simp [Tab.get]
        · simp [Tab.get, hj]
      · split
        · by_cases hj : j = i
          · subst hj; simp [Tab.get]
          · simp only [Tab.get, hj, if_false]
            split
            · rw [if_neg (by omega), if_pos (by omega)]
            · rfl
        · simp only [Tab.get]
          split
          · next e => subst e; rw [if_neg (by omega)]
          · split
            · by_cases hj : j = i
              · omega
              · simp [hj]
            · exact ih

/-- A written key reads back; every other key reads as before. -/
theorem Tab.get_set {t : Tab α} (i j : Nat) (x : α) (h : Tab.wf d t = true) :
    Tab.get d (Tab.set d t i x) j = if j = i then x else Tab.get d t j := Tab.get_set_from i j x t none h

@[simp] theorem Tab.get_set_self {t : Tab α} (i : Nat) (x : α) (h : Tab.wf d t = true) : Tab.get d (Tab.set d t i x) i = x := by
  simp [Tab.get_set i i x h]

@[simp] theorem Tab.get_upd_self {t : Tab α} (i : Nat) (f : α → α) (h : Tab.wf d t = true) :
    Tab.get d (Tab.upd d t i f) i = f (Tab.get d t i) := Tab.get_set_self i _ h

/-- A change in place leaves every other key. -/
theorem Tab.get_upd_other {t : Tab α} {i j : Nat} (f : α → α) (h : Tab.wf d t = true) (hj : j ≠ i) :
    Tab.get d (Tab.upd d t i f) j = Tab.get d t j := by
  simp [Tab.upd, Tab.get_set i j _ h, hj]

/-! ### Memories -/

/-- A byte written keeps the canonical form. -/
theorem Mem.wf_setByte {m : Mem} (a : Nat) (b : Byte) (h : m.wf = true) : (m.setByte a b).wf = true := Tab.wf_set a b h

/-- Bytes written keep it. -/
theorem Mem.wf_write : ∀ (bs : List Byte) (m : Mem) (a : Nat), m.wf = true → (m.write a bs).wf = true
  | [], _, _, h => h
  | b :: bs, m, a, h => Mem.wf_write bs (m.setByte a b) (a + 1) (Mem.wf_setByte a b h)

/-- A byte written reads back; every other byte reads as before. -/
theorem Mem.byte_setByte {m : Mem} (a c : Nat) (b : Byte) (h : m.wf = true) :
    (m.setByte a b).byte c = if c = a then b else m.byte c := Tab.get_set a c b h

/-- Bytes written leave every byte outside them. -/
theorem Mem.byte_write_outside : ∀ (bs : List Byte) (m : Mem) (a c : Nat), m.wf = true → c < a ∨ a + bs.length ≤ c →
    (m.write a bs).byte c = m.byte c
  | [], _, _, _, _, _ => rfl
  | b :: bs, m, a, c, h, hc => by
    have hl : (b :: bs).length = bs.length + 1 := rfl
    have := Mem.byte_write_outside bs (m.setByte a b) (a + 1) c (Mem.wf_setByte a b h) (by omega)
    rw [Mem.write, this, Mem.byte_setByte a c b h, if_neg (by omega)]

/-- Bytes written read back. -/
theorem Mem.byte_write : ∀ (bs : List Byte) (m : Mem) (a i : Nat), m.wf = true → i < bs.length →
    (m.write a bs).byte (a + i) = bs.getD i 0
  | [], _, _, _, _, hi => by simp at hi
  | b :: bs, m, a, 0, h, _ => by
    show ((m.setByte a b).write (a + 1) bs).byte a = _
    rw [Mem.byte_write_outside bs _ (a + 1) a (Mem.wf_setByte a b h) (by omega), Mem.byte_setByte a a b h]
    simp
  | b :: bs, m, a, i + 1, h, hi => by
    have := Mem.byte_write bs (m.setByte a b) (a + 1) i (Mem.wf_setByte a b h) (by simpa using hi)
    rw [Mem.write, show a + (i + 1) = a + 1 + i by omega, this]
    simp

namespace Machine

/-! ### The registers -/

theorem wf_setReg {t : Tab Word} (a : Nat) (v : Word) (h : Tab.wf regRst t = true) : Tab.wf regRst (setReg t a v) = true :=
  Tab.wf_set a v h

theorem wf_resetRegs (k : RKind) (t : Tab Word) : Tab.wf regRst (resetRegs k t) = true := Tab.wf_mapVals _ t

/-- A register write of the hardware reads back; every other register reads as before. -/
theorem get_setReg {t : Tab Word} (a b : Nat) (v : Word) (h : Tab.wf regRst t = true) :
    Tab.get regRst (setReg t a v) b = if b = a then v else Tab.get regRst t b := Tab.get_set a b v h

/-! ### The memories at reset -/

/-- Every memory of the State is in canonical form at reset. -/
theorem reset_memories_wf : Tab.wf regRst State.reset.regs = true ∧ Mem.wf State.reset.stw.sram = true ∧
    Mem.wf State.reset.whl.code = true ∧ Mem.wf State.reset.whl.data = true ∧ Mem.wf State.reset.whl.enqBuf = true ∧
    Mem.wf State.reset.hl.dev = true ∧ Mem.wf State.reset.hl.hst = true ∧ Mem.wf State.reset.hl.msix = true ∧
    Mem.wf State.reset.hl.desc = true ∧ Mem.wf State.reset.dst.imgA = true ∧ Mem.wf State.reset.dst.imgB = true ∧
    Mem.wf State.reset.dst.nameplate = true ∧ Mem.wf State.reset.rov.mem = true := by decide

end Machine

end Sys2Proof
end

