-- ==== Sys2Proof/Laws/Ops.lean ====
section
/-!
SUPPORT. What each shared operation can do, said once: the arrays of the State, the fault recorder and the whorl's log, the
Reel, an instruction of a core, of a flyer, of the roving sequencer, a request that the steward serves.
-/

namespace Sys2Proof.Machine

/-! ### Arrays: the element changed, and the others -/

theorem eport_setEport {s : State} (p q : Nat) (f : EPort → EPort) (h : Tab.wf (fun _ => {}) s.eth.port = true) :
    (s.setEport p f).eport q = if q = p then f (s.eport p) else s.eport q := Tab.get_set p q _ h
theorem canOf_setCan {s : State} (n m : Nat) (f : Can → Can) (h : Tab.wf (fun _ => {}) s.can = true) :
    (s.setCan n f).canOf m = if m = n then f (s.canOf n) else s.canOf m := Tab.get_set n m _ h
theorem flyer_setFlyer {s : State} (n m : Nat) (f : Flyer → Flyer) (h : Tab.wf (fun _ => {}) s.fly.fl = true) :
    (s.setFlyer n f).flyer m = if m = n then f (s.flyer n) else s.flyer m := Tab.get_set n m _ h
theorem pin_setPin {s : State} (n m : Nat) (f : Pin → Pin) (h : Tab.wf (fun _ => {}) s.fly.pins = true) :
    (s.setPin n f).pin m = if m = n then f (s.pin n) else s.pin m := Tab.get_set n m _ h
theorem plyOf_setPly {s : State} (k j : Nat) (f : Ply → Ply) (h : Tab.wf (fun _ => {}) s.ply.ply = true) :
    (s.setPly k f).plyOf j = if j = k then f (s.plyOf k) else s.plyOf j := Tab.get_set k j _ h
theorem linkOf_setLink {s : State} (k j : Nat) (f : Link → Link) (h : Tab.wf (fun _ => {}) s.skn.link = true) :
    (s.setLink k f).linkOf j = if j = k then f (s.linkOf k) else s.linkOf j := Tab.get_set k j _ h
theorem ring_setRing {s : State} (k j : Nat) (f : Ring → Ring) (h : Tab.wf (fun _ => {}) s.hl.rings = true) :
    (s.setRing k f).ring j = if j = k then f (s.ring k) else s.ring j := Tab.get_set k j _ h
theorem strand_setStrand {s : State} (k j : Nat) (f : Strand → Strand) (h : Tab.wf (fun _ => {}) s.whl.strands = true) :
    (s.setStrand k f).strand j = if j = k then f (s.strand k) else s.strand j := Tab.get_set k j _ h
theorem spindle_setSpindle {s : State} (k j : Nat) (f : Spindle → Spindle) (h : Tab.wf (fun _ => {}) s.whl.spindles = true) :
    (s.setSpindle k f).spindle j = if j = k then f (s.spindle k) else s.spindle j := Tab.get_set k j _ h
theorem bobbin_setBobbin {s : State} (k j : Nat) (f : Bobbin → Bobbin) (h : Tab.wf (fun _ => {}) s.bob.bobbins = true) :
    (s.setBobbin k f).bobbin j = if j = k then f (s.bobbin k) else s.bobbin j := Tab.get_set k j _ h
theorem egress_setEgress {s : State} (k j : Nat) (f : Egress → Egress) (h : Tab.wf (fun _ => {}) s.bob.egress = true) :
    (s.setEgress k f).egress j = if j = k then f (s.egress k) else s.egress j := Tab.get_set k j _ h

/-! ### Registers -/

/-- A register after each way of writing one. -/
theorem rd_regWrite {s : State} (a b : Nat) (v : Word) (h : RegsWf s) :
    (s.regWrite a v).rd b = if b = a then writeFields (fieldsAt a) (s.rd a) v else s.rd b := get_setReg a b _ h
theorem rd_setBits {s : State} (a b : Nat) (v : Word) (h : RegsWf s) :
    (s.setBits a v).rd b = if b = a then s.rd a ||| v else s.rd b := get_setReg a b _ h
theorem rd_setFld {s : State} (a lo w v b : Nat) (h : RegsWf s) :
    (s.setFld a lo w v).rd b = if b = a then putField (s.rd a) lo w v else s.rd b := get_setReg a b _ h
theorem rd_count {s : State} (a n b : Nat) (h : RegsWf s) :
    (s.count a n).rd b = if b = a then s.rd a + BitVec.ofNat 32 n else s.rd b := get_setReg a b _ h

theorem regsWf_regWrite {s : State} (a : Nat) (v : Word) (h : RegsWf s) : RegsWf (s.regWrite a v) := wf_setReg a _ h
theorem regsWf_setBits {s : State} (a : Nat) (v : Word) (h : RegsWf s) : RegsWf (s.setBits a v) := wf_setReg a _ h
theorem regsWf_setFld {s : State} (a lo w v : Nat) (h : RegsWf s) : RegsWf (s.setFld a lo w v) := wf_setReg a _ h
theorem regsWf_count {s : State} (a n : Nat) (h : RegsWf s) : RegsWf (s.count a n) := wf_setReg a _ h
theorem regsWf_regsReset (k : RKind) (s : State) : RegsWf (regsReset k s) := wf_resetRegs k s.regs

/-! ### The fault recorder and the whorl's log -/

/-- A record pushed leaves at most 8. -/
theorem pushFault_le (r : FaultRec) (y : Sys) (h : y.recorder.length ≤ 8) : (pushFault r y).recorder.length ≤ 8 := by
  unfold pushFault
  split <;> simp <;> omega

/-- The record pushed is the last. -/
theorem pushFault_last (r : FaultRec) (y : Sys) : (pushFault r y).recorder.getLast? = some r := by
  unfold pushFault
  split <;> simp

theorem pushFlog_le (e : FlogEntry) (w : Whl) (h : w.flog.length ≤ 16) : (pushFlog e w).flog.length ≤ 16 := by
  unfold pushFlog
  split <;> simp <;> omega

theorem pushFlog_last (e : FlogEntry) (w : Whl) : (pushFlog e w).flog.getLast? = some e := by
  unfold pushFlog
  split <;> simp

theorem recorderOk_logFault (code block : Nat) (d : List Byte) {s : State} (h : RecorderOk s) : RecorderOk (logFault code block d s) :=
  pushFault_le _ _ h

/-! ### The Reel -/

/-- Reaching a tick changes the Reel alone: it runs and lay before the tick, and lies there now; or nothing changes. -/
theorem reachTick_eq (t : Tick) (s : State) : reachTick t s =
    { s with ply := { s.ply with reel := if s.ply.running = true ∧ s.ply.reel < t then t else s.ply.reel } } := by
  unfold reachTick
  by_cases h : s.ply.running = true ∧ s.ply.reel < t
  · simp [h.1, h.2]
  · have hn : ¬ (s.ply.running && decide (s.ply.reel < t)) = true := by simpa using h
    rw [if_neg h, if_neg hn]

/-! ### An instruction of a core -/

/-- A fetch changes the mark of a corrected word and its count alone (R209). -/
theorem stwFetched_eq (s : State) : ∃ m n, stwFetched s = { s with stw := { s.stw with eccSoft := m }, sys := { s.sys with eccCorr := n } } := by
  unfold stwFetched
  split
  · exact ⟨s.stw.eccSoft, s.sys.eccCorr, rfl⟩
  · exact ⟨_, _, rfl⟩
@[simp] theorem stwFetched_g (s : State) : (stwFetched s).stw.g = s.stw.g := by obtain ⟨m, n, h⟩ := stwFetched_eq s; rw [h]
@[simp] theorem stwFetched_pc (s : State) : (stwFetched s).stw.pc = s.stw.pc := by obtain ⟨m, n, h⟩ := stwFetched_eq s; rw [h]
@[simp] theorem stwFetched_xbudget (s : State) : (stwFetched s).stw.xbudget = s.stw.xbudget := by obtain ⟨m, n, h⟩ := stwFetched_eq s; rw [h]
@[simp] theorem stwFetched_ext (s : State) : (stwFetched s).stw.ext = s.stw.ext := by obtain ⟨m, n, h⟩ := stwFetched_eq s; rw [h]

theorem stwRun_idle {body : State → Res State} {s : State} (h : stwGoes s = false) : stwRun body s = s := by
  simp [stwRun, h]

theorem stwRun_fetch {body : State → Res State} {s : State} {f : Flt} (h : stwGoes s = true) (hf : stwFetch s = some f) :
    stwRun body s = stwFault f s := by
  simp [stwRun, h, hf]

theorem stwRun_budget {body : State → Res State} {s : State} (h : stwGoes s = true) (hf : stwFetch s = none)
    (he : s.stw.ext = true) (hb : s.stw.xbudget = 0) : stwRun body s = stwFault { cause := cBudget } (stwFetched s) := by
  simp [stwRun, h, hf, he, hb]

/-- A ready steward core runs the body: its next state, or the fault it raises. -/
theorem stwRun_ready {body : State → Res State} {s : State} (h : coreReady .steward s) : stwRun body s =
    match body (stwFetched s) with
    | .ok t => retire s.stw.ext t
    | .error (f, t) => stwFault f t := by
  obtain ⟨h1, h2, h3⟩ := h
  by_cases he : s.stw.ext = true <;> simp_all [stwRun] <;> rcases body (stwFetched s) with ⟨f, t⟩ | t <;> rfl

theorem whlRun_none {body : State → Slot → Except Nat (Slot × State)} {s : State} (h : s.whl.slot = none) : whlRun body s = s := by
  simp [whlRun, h]

/-- The slot's core runs the body: its next state, or CONTRACT. -/
theorem whlRun_ready {body : State → Slot → Except Nat (Slot × State)} {s : State} {sl : Slot} (h : s.whl.slot = some sl)
    (h1 : slotRuns sl = true) (h2 : segFault false 0 (Tab.get (fun _ => {}) sl.seg 0) sl.pc.toNat 4 .fetch = none) :
    whlRun body s = match body s sl with
      | .ok (t, u) => { u with whl := { u.whl with slot := some t } }
      | .error c => contract c s := by
  simp only [whlRun, h, h1, h2, Bool.not_true, Bool.false_eq_true, if_false]
  try (rcases body s sl with c | ⟨t, u⟩ <;> rfl)

/-- An instruction of registers and pc alone on a ready core: it does just that, or faults. -/
theorem coreRun_ready (c : Core) (f : RegFn) {s : State} (h : coreReady c s) : coreRun c f s =
    match f (coreG c s) (corePc c s) with
    | .ok r => coreDid c r.1 r.2 s
    | .error e => coreFaults c e s := by
  cases c with
  | steward =>
    simp only [coreRun, stwRun_ready h, coreG, corePc, coreDid, coreFaults, stwFetched_g, stwFetched_pc]
    cases f s.stw.g s.stw.pc with
    | error e => rfl
    | ok r => by_cases he : s.stw.ext = true <;> simp [he, retire, setStw, coreAfter]
  | whorl =>
    obtain ⟨sl, h0, h1, h2⟩ := h
    simp only [coreRun, whlRun_ready h0 h1 h2, coreG, corePc, coreDid, coreAfter, coreFaults, h0, Option.map_some,
      Option.getD_some]
    cases f sl.g sl.pc <;> rfl

/-- An ALU instruction on a ready core sets rd and advances pc. -/
theorem alu_ready (c : Core) (rd : GReg) (f : Tab Word → Word) {s : State} (h : coreReady c s) :
    alu c rd f s = coreSets c rd (f (coreG c s)) s := by
  rw [alu, coreRun_ready c _ h]
  rfl

theorem alu2_ready (c : Core) (rd ra rb : GReg) (f : Word → Word → Word) {s : State} (h : coreReady c s) :
    alu2 c rd ra rb f s = coreSets c rd (f (gGet (coreG c s) ra.toNat) (gGet (coreG c s) rb.toNat)) s := alu_ready c rd _ h

theorem alu1_ready (c : Core) (rd ra : GReg) (f : Word → Word) {s : State} (h : coreReady c s) :
    alu1 c rd ra f s = coreSets c rd (f (gGet (coreG c s) ra.toNat)) s := alu_ready c rd _ h

/-- A branch on a ready core whose target is a word: pc goes there, or on. -/
theorem branch_ready (c : Core) (ra rb : GReg) (d : BitVec 16) (cond : Word → Word → Bool) {s : State} (h : coreReady c s)
    (ha : (corePc c s + 4 + disp16 d).toNat % 4 = 0) : branch c ra rb d cond s =
    coreDid c (coreG c s) (if cond (gGet (coreG c s) ra.toNat) (gGet (coreG c s) rb.toNat) then corePc c s + 4 + disp16 d else corePc c s + 4) s := by
  rw [branch, coreRun_ready c _ h]
  by_cases hc : cond (gGet (coreG c s) ra.toNat) (gGet (coreG c s) rb.toNat) = true
  · simp only [hc, goTo, ha, if_true]
  · simp [hc]

/-- A general register after a write of one: g0 reads 0 and discards what is written (R210). -/
theorem gGet_gSet {g : Tab Word} (r q : Nat) (v : Word) (h : Tab.wf (fun _ => 0) g = true) :
    gGet (gSet g r v) q = if q = r ∧ r ≠ 0 then v else gGet g q := by
  by_cases hr : r = 0
  · simp [gSet, hr]
  · by_cases hq : q = 0
    · subst hq
      simp [gGet, Ne.symm hr]
    · simpa [gSet, gGet, hr, hq] using Tab.get_set r q v h

/-! ### A flyer, the roving sequencer -/

theorem flyRun_ready {f op : Nat} {act : State → Word → State → State} {s : State} (h : flyReady s f op = true) :
    flyRun f op act s = act s (flyWord s f) (flySideSet f (flyWord s f) s) := by simp [flyRun, h]
theorem flyRun_not {f op : Nat} {act : State → Word → State → State} {s : State} (h : flyReady s f op = false) :
    flyRun f op act s = s := by simp [flyRun, h]

theorem rovRun_ready {op : Nat} {f : Word → Word → State → State} {s : State} (h : rovFetches s = true)
    (h1 : rovLegal (rovW0 s) (rovW1 s) = true) (h2 : bitsOf (rovW0 s) 26 6 = op) : rovRun op f s = f (rovW0 s) (rovW1 s) s := by
  simp [rovRun, h, h1, h2]
theorem rovRun_not {op : Nat} {f : Word → Word → State → State} {s : State} (h : rovFetches s = false) : rovRun op f s = s := by
  simp [rovRun, h]

/-! ### A request that the steward serves (R317) -/

theorem serve_none {code need : Nat} {modes : Mode → Bool} {src : ReqSrc} {body : Req → State → State} {s : State}
    (h : takenOf s src = none) : serve code need modes src body s = s := by simp [serve, h]

/-- A request that passes the checks: the command's body answers it. -/
theorem serve_ready {code need : Nat} {modes : Mode → Bool} {src : ReqSrc} {q : Req} {body : Req → State → State} {s : State}
    (h : reqReady code need modes src q s) : serve code need modes src body s = body q (dropTaken q s) := by
  obtain ⟨h1, h2, h3, h4, h5, h6⟩ := h
  have h4' : ¬ q.msg.length < need := by omega
  rcases h3 with h3 | h3 <;> simp [serve, h1, h2, h3, h4', h5, h6]

/-- The three refusals that come first. -/
theorem serve_imageNone {code need : Nat} {modes : Mode → Bool} {src : ReqSrc} {q : Req} {body : Req → State → State} {s : State}
    (h1 : takenOf s src = some q) (h2 : reqCode q = code) (h3 : imageNone s = true) (h4 : code ∉ recoveryCodes) (h6 : txnAhead s q = false) :
    serve code need modes src body s = refuse q .imageNone 0 (dropTaken q s) := by
  simp [serve, h1, h2, h3, h4, h6]
theorem serve_badLength {code need : Nat} {modes : Mode → Bool} {src : ReqSrc} {q : Req} {body : Req → State → State} {s : State}
    (h1 : takenOf s src = some q) (h2 : reqCode q = code) (h3 : imageNone s = false ∨ code ∈ recoveryCodes) (h4 : q.msg.length < need)
    (h6 : txnAhead s q = false) :
    serve code need modes src body s = refuse q .badLength need (dropTaken q s) := by
  rcases h3 with h3 | h3 <;> simp [serve, h1, h2, h3, h4, h6]
theorem serve_modeDenied {code need : Nat} {modes : Mode → Bool} {src : ReqSrc} {q : Req} {body : Req → State → State} {s : State}
    (h1 : takenOf s src = some q) (h2 : reqCode q = code) (h3 : imageNone s = false ∨ code ∈ recoveryCodes) (h4 : need ≤ q.msg.length)
    (h5 : modes s.sys.mode = false) (h6 : txnAhead s q = false) : serve code need modes src body s = refuse q .modeDenied (modeNum s.sys.mode) (dropTaken q s) := by
  have h4' : ¬ q.msg.length < need := by omega
  rcases h3 with h3 | h3 <;> simp [serve, h1, h2, h3, h4', h5, h6]

/-- An answer only adds to what falls due. -/
theorem answer_mailbox {q : Req} {n : Fin 32} (st : Status) (detail : Nat) (pay : List Byte) (s : State) (h : q.src = .mailbox n) :
    answer q st detail pay s =
      { s with hl := { s.hl with due := s.hl.due ++ [{ mb := n.val, seq := q.seq, msg := replyMsg (reqCode q) st detail pay }] } } := by
  simp [answer, pushDue, h]
theorem answer_relay {q : Req} {dev : BitVec 10} {m : Nat} (st : Status) (detail : Nat) (pay : List Byte) (s : State) (h : q.src = .relay dev m) :
    answer q st detail pay s = sknTx (sideTo s dev.toNat) (.reply dev m (replyMsg (reqCode q) st detail pay)) s := by
  simp [answer, pushDue, h]

end Sys2Proof.Machine
end

