-- ==== Sys2Proof/Machine/Pages.lean ====
section
/-!
DEFINITION. The physical pages of the Distaff as bytes (R141, R142, R147, R174): State keeps what a page says, and these
functions lay it out and read it back. A page whose CRC32 does not hold, as one the BCH code miscorrected, reads as none.
-/

namespace Sys2Proof.Machine

/-- A page of 512 bytes whose last 4 are the CRC32 of the rest. -/
def crcPage (body : List Byte) : List Byte :=
  let b := (body ++ List.replicate 508 0).take 508
  b ++ leBytes 4 (crc32 b).toNat

/-- The CRC32 at the end of a page holds. -/
def crcHolds (b : List Byte) : Bool := b.length == 512 && leAt b 508 4 == (crc32 (b.take 508)).toNat

/-- A segment header page (Table 3.2). -/
def segPage (h : SegHdr) : List Byte :=
  crcPage (leBytes 2 0x5344 ++ [5, BitVec.ofNat 8 h.region] ++ leBytes 2 h.lseg ++ leBytes 2 0 ++ leBytes 4 h.gen
    ++ leBytes 8 (if h.region = 3 then h.firstSeq else 0))

/-- The header that a page holds, if it is one. -/
def segRead (b : List Byte) : Option SegHdr :=
  if crcHolds b && leAt b 0 2 == 0x5344 && leAt b 2 1 == 5 then
    some { region := leAt b 3 1, lseg := leAt b 4 2, gen := leAt b 8 4, valid := true, retired := false, firstSeq := leAt b 12 8 }
  else none

/-- A slot control page (R174). -/
def bootPage (c : SlotCtl) : List Byte :=
  crcPage (leBytes 8 c.bseq ++ [BitVec.ofNat 8 (b2n c.active), BitVec.ofNat 8 (slotNum c.stA), BitVec.ofNat 8 (slotNum c.stB),
    BitVec.ofNat 8 c.tries] ++ leBytes 4 c.kindles)

/-- A slot state by its number. -/
def slotOf (n : Nat) : SlotState :=
  match n with
  | 1 => .writing
  | 2 => .trial
  | 3 => .good
  | 4 => .bad
  | _ => .empty

/-- The slot control that a page holds, if its CRC holds. -/
def bootRead (b : List Byte) : Option SlotCtl :=
  if crcHolds b then
    some { bseq := leAt b 0 8, active := leAt b 8 1 == 1, stA := slotOf (leAt b 9 1), stB := slotOf (leAt b 10 1)
           tries := leAt b 11 1, kindles := leAt b 12 4 }
  else none

/-- A page of the LOG region: 12 records of 40 bytes (R355). -/
def logPage (d : Dst) (i : Nat) : List Byte :=
  (((d.log.filter fun (r : LogRec) => r.index / 12 % 8064 == i).flatMap logBytes) ++ List.replicate 512 0).take 512

/-- The 512 data bytes of a physical page (R141, R146, R174); none for a page that cannot be read, and for a page of a SPARE
segment, whose contents nothing uses. -/
def pageData (d : Dst) (p : Nat) : Option (List Byte) :=
  let zeros : List Byte := List.replicate 512 0
  if p = 0 then d.copy1.map bootPage
  else if p = 128 then d.copy2.map bootPage
  else if p < 256 then some zeros
  else if p < 272 then some (d.nameplate.bytes (512 * (p - 256)) 512)
  else if p < 320 then some zeros
  else
    let h := segHdr d (p / 64)
    let i := 63 * h.lseg + (p % 64 - 1)
    if p % 64 = 0 then (if h.valid then some (segPage h) else none)
    else if h.region = 1 then some (d.imgA.bytes (512 * i) 512)
    else if h.region = 2 then some (d.imgB.bytes (512 * i) 512)
    else if h.region = 3 then (let g := Tab.get (fun _ => {}) d.ring i; if g.bad then none else some g.bytes)
    else if h.region = 4 then some (logPage d i)
    else none

/-- The 16 spare bytes of a page (R141): 13 of BCH parity over its data and wear count, then the wear count. -/
def pageSpare (d : Dst) (p : Nat) : List Byte :=
  let w := leBytes 3 (wearOf d p)
  (Config.bchParity (((pageData d p).getD []) ++ w)).take 13 ++ w

end Sys2Proof.Machine
end

