-- ==== Sys2Proof/Machine/Pins.lean ====
section
/-!
DEFINITION. What the balls show, read off the State: each pin group of Table 1.6 in Dark, in Kindle before its function is
configured, in Drowse, and while its function runs (R64).
-/

namespace Sys2Proof.Machine

/-- What a ball does. -/
inductive Ball where
  | highZ
  /-- An open-drain output, or an output not driven low. -/
  | released
  | input
  | inputPullUp
  | low
  | high
  /-- Its function drives or samples it. -/
  | active
  /-- A code on several balls. -/
  | code (v : Nat)
  deriving DecidableEq, Repr

/-- Functions have not been configured yet: Kindle before step 7 (R97). -/
def beforeConfig (s : State) : Bool := s.sys.mode == .kindle && decide (s.sys.kstep < 7)

/-- A group that is high-Z in Dark, in Kindle before configuration and in Drowse; while configured, as given. -/
def configured (b : Ball) (s : State) : Ball :=
  if s.sys.mode = .dark ∨ s.sys.mode = .drowse ∨ beforeConfig s = true then .highZ else b

/-- A flyer pin (R64): driven by its function or an input. -/
def flyerBall (p : Nat) (s : State) : Ball :=
  configured (if (s.pin p).dir then (if (s.pin p).out then .high else .low) else .input) s

/-- CANn_TXD: high-Z in Dark; recessive while the controller sends no frame. -/
def canTxdBall (n : Nat) (s : State) : Ball :=
  if s.sys.mode = .dark then .highZ else if (s.canOf n).onBus.isSome then .active else .high

/-- Panel rows: high-Z until the scanner runs, which it does in Drowse too. -/
def panelRowBall (s : State) : Ball := if pnlRuns s then .active else .highZ
/-- Panel columns, buttons and encoders. -/
def panelColumnBall (s : State) : Ball := if s.sys.mode = .dark then .input else .inputPullUp

/-- BYPE_N of port `n`. -/
def bypeBall (n : Nat) (s : State) : Ball := if s.pwr.bypeLow.getLsbD n then .low else .released

/-- PCIe lanes. -/
def pcieBall (s : State) : Ball := if pcieMay s then .active else .highZ
/-- SPI_MISO: high-Z unless the SPI host port serves and SPI_CS_N is low, which only a frame is. -/
def misoBall (s : State) : Ball := if spiSelected s && stewardRuns s then .active else .highZ
/-- HOST_IRQ_N (R289). -/
def hostIrqBall (s : State) : Ball := if hostIrqLow s then .low else .released

/-- The PHY or RGMII of Ethernet port `p`. -/
def phyBall (p : Nat) (s : State) : Ball := if (s.eport p).enabled then .active else .highZ

/-- Roving lane `l` (R747). -/
def rovBall (l : Nat) (s : State) : Ball :=
  configured (if s.rov.laneOe.getLsbD l then (if s.rov.lane.getLsbD l then .high else .low) else .highZ) s

/-- REG_EN of switched rail `r`; in Dark the board's pull-down holds it low. -/
def regEnBall (r : Nat) (s : State) : Ball := if s.pwr.regEn.getLsbD r then .high else .low

/-- VCORE_VID: high-Z in Dark (R30). -/
def vidBall (s : State) : Ball := if s.sys.mode = .dark then .highZ else .code s.pwr.vidOut

end Sys2Proof.Machine
end

