-- ==== Sys2Proof/Tests/Slice0.lean ====
section
/-!
SUPPORT. Small tests: an ill-formed term for each check of WellFormed, which the check refuses, and numbers that the spec's
tables and worked cases state. Each test names its source.
-/

namespace Sys2Proof.Tests

open Sys2Proof Sys2Proof.Machine

/-! ### WellFormed: one ill-formed term per check, and a term that passes -/

theorem test_wf_register_misaligned : (Instr.registerWrite .block 0x40010002 ⟨[0, 0, 0, 0], 0⟩).wellFormed = false := by decide
theorem test_wf_register_outside : (Instr.registerWrite .bar0 0x4000 ⟨[0], 0⟩).wellFormed = false := by decide
theorem test_wf_register : (Instr.registerWrite .block 0x40010000 ⟨[0, 0, 0, 0], 0⟩).wellFormed = true := by decide
theorem test_wf_rc_outside : (Instr.rcFieldRead .block ⟨0x400F0000, 4⟩ false).wellFormed = false := by decide
theorem test_wf_pair_misaligned : (Instr.latchedPairRead .bar2 ⟨2, 4⟩).wellFormed = false := by decide
theorem test_pci_vectors : (Machine.pciOf 7).ints = .msi 32 ∧ (Machine.pciOf 7).mps = 128 := by decide
theorem test_wf_kindle_step0 : (Instr.kindleLate 0 0).wellFormed = false := by decide
theorem test_wf_bfx_past_32 : (Instr.bfx .steward 1 2 30 3 false).wellFormed = false := by decide
theorem test_wf_bfi_past_32 : (Instr.bfi .steward 1 2 31 1).wellFormed = false := by decide
theorem test_wf_bfx_whole : (Instr.bfx .steward 1 2 0 31 true).wellFormed = true := by decide
theorem test_wf_perm_mode11 : (Instr.perm .steward 1 2 0x32C0).wellFormed = false := by decide
theorem test_wf_segld_r16 : (Instr.segld .steward 16 0 1 0).wellFormed = false := by decide
theorem test_wf_segst_r16 : (Instr.segst .whorl 16 0 1 0).wellFormed = false := by decide
theorem test_wf_illegal_is_not_legal : (Instr.illegalInstruction .steward 0).wellFormed = !yukinLegal 0 := by decide
theorem test_wf_extension_index : (Instr.extensionInvoke 256 []).wellFormed = false := by decide
theorem test_wf_extension_record : (Instr.extensionInvoke 0 (List.replicate 257 0)).wellFormed = false := by decide +kernel
theorem test_wf_spi_write_offset : (Instr.spiWriteFrame 16384 []).wellFormed = false := by decide
theorem test_wf_spi_read_nothing : (Instr.spiReadFrame 0 0).wellFormed = false := by decide
theorem test_wf_spi_read_offset : (Instr.spiReadFrame 16384 4).wellFormed = false := by decide
theorem test_wf_ring_register : (Instr.ringCtrlWrite 0 8 0).wellFormed = false := by decide
theorem test_wf_tx_empty : (Instr.txRingOffer 0 []).wellFormed = false := by decide
theorem test_wf_task_no_event : (Instr.taskInputEvent 0 0).wellFormed = false := by decide
theorem test_wf_pace_17 : (Instr.paceUpdate (List.replicate 17 0)).wellFormed = false := by decide
theorem test_wf_burst_0 : (Instr.whorlBurstReq 0 0).wellFormed = false := by decide
theorem test_wf_can_length : (Instr.canFrameRx 0 ⟨⟨0, 0x00080000, [1, 2]⟩, ⟨0, 0x00080000, [1, 2]⟩, ⟨0, 0x00080000, [1, 2]⟩⟩ 0 .good ⟨0, 0⟩).wellFormed = false := by decide
theorem test_wf_can_remote : (Instr.canWakeFrame 0 ⟨0x40000000, 0x00080000, []⟩).wellFormed = true := by decide
theorem test_wf_can_wake_length : (Instr.canWakeFrame 0 ⟨0x40000000, 0x00080000, [1]⟩).wellFormed = false := by decide
theorem test_wf_skein_header : (Instr.skeinFrameReceive 0 [] [] true).wellFormed = false := by decide
theorem test_wf_credit_0 : (Instr.creditReturn 0 false 0 0).wellFormed = false := by decide
theorem test_wf_join_mode : (Instr.joinReceive 0 ⟨0, 0, 6⟩ 1).wellFormed = false := by decide
theorem test_wf_topology_mode : (Instr.topologyReceive 0 ⟨true, 0, [⟨1, 7, 0⟩], []⟩).wellFormed = false := by decide
theorem test_wf_relay_length : (Instr.relayRequest 0 0 0 (List.replicate 241 0)).wellFormed = false := by decide +kernel
theorem test_wf_tag_read_0 : (Instr.tagReadMultipleBlocks 0 0).wellFormed = false := by decide
theorem test_wf_tag_write_31 : (Instr.tagWriteSingleBlock 0 (List.replicate 31 0)).wellFormed = false := by decide

/-! ### Conventions (spec/00_scope.md, the worked case; R7, R10) -/

/-- The four bytes of 0x8003_12C4 from the lowest address up, and COUNT at [19:12]. -/
theorem test_little_endian : leBytes 4 0x800312C4 = [0xC4, 0x12, 0x03, 0x80] ∧ ofLE [0xC4, 0x12, 0x03, 0x80] = 0x800312C4 := by decide
theorem test_field_read : bitsOf 0x800312C4 12 8 = 0x31 := by decide
/-- An RC field is 0 after the read, and 1 when one event arrives in the same access. -/
theorem test_rc_read : readClears counter 49 false = 0 ∧ readClears counter 49 true = 1 := by decide
/-- No row of the opcode table has bits, so no word is a command. -/
theorem test_no_word : decodeTableWord 32 0x12345678 = none := by decide

/-! ### Tables (Tab) -/

theorem test_table_default_unlisted : Tab.set (fun _ => (0 : Byte)) [(3, 7)] 3 0 = [] := by decide
theorem test_table_order : Tab.set (fun _ => (0 : Byte)) [(3, 7), (9, 1)] 5 2 = [(3, 7), (5, 2), (9, 1)] := by decide

/-! ### Checks by their standards' check values -/

theorem test_crc16 : crc16 [0x31, 0x32, 0x33, 0x34, 0x35, 0x36, 0x37, 0x38, 0x39] = 0x29B1 := by decide +kernel
theorem test_crc32 : crc32 [0x31, 0x32, 0x33, 0x34, 0x35, 0x36, 0x37, 0x38, 0x39] = 0xCBF43926 := by decide +kernel
/-- FIPS 180-4's first example: the hash of "abc" begins BA 78 16 BF. -/
theorem test_sha256 : (sha256 [0x61, 0x62, 0x63]).take 4 = [0xBA, 0x78, 0x16, 0xBF] := by decide +kernel

/-! ### The Distaff's energy figures (spec/03_distaff_store.md, the worked case) -/

theorem test_unit_energy : unitEnergy 1005 = 16075 := by decide
theorem test_voltage_energy : eVolts 3300 12000 = 206471 := by decide +kernel
theorem test_commit_pages : recPages 492 = 1 ∧ recPages 493 = 2 := by decide

/-! ### Yukin (spec/04_yukin_and_steward.md: R220, R221 and the worked case of BMOVE) -/

theorem test_division_corners : divS 0x80000000 0xFFFFFFFF = 0x80000000 ∧ remS 0x80000000 0xFFFFFFFF = 0 ∧
    divU 5 0 = 0xFFFFFFFF ∧ remU 5 0 = 5 := by decide
theorem test_division_truncates : divS 0xFFFFFFF9 2 = 0xFFFFFFFD ∧ remS 0xFFFFFFF9 2 = 0xFFFFFFFF := by decide
theorem test_bfx_signed : bfxW 0x000000F0 4 4 true = 0xFFFFFFFF ∧ bfxW 0x000000F0 4 4 false = 0xF := by decide
theorem test_bfi : bfiW 0xFFFFFFFF 0x12 8 8 = 0xFFFF12FF := by decide
/-- Words written out from Tables 4.3 to 4.9: ADD g3, g1, g2; BFX of g2[7:4] with sign; LW g4, s2:8(g5); BEQ; SVC 5; a register-group
word whose sh is not 0, and a bit field past bit 31, are no instruction. -/
theorem test_yukin_words : yukinOf .steward 0b00000000011000010001000000000000 = some (.addR .steward 3 1 2) ∧
    yukinOf .whorl 0b00100000011000100010000011100000 = some (.bfx .whorl 3 2 4 3 true) ∧
    yukinOf .steward 0b01010000100001010010000000001000 = some (.lw .steward 4 5 2 8) ∧
    yukinOf .steward 0b10000000001000101111111111111111 = some (.beq .steward 1 2 0xFFFF) ∧
    yukinOf .steward 0b11111100000000000000000101000001 = some (.svc .steward 5) ∧
    yukinOf .steward 0b00000000011000010001000001000000 = none ∧
    yukinOf .steward 0b00100000011000101111100001000000 = none := by decide +kernel
/-- Word-aligned offsets and 1,502 bytes to go: a word; two bytes to go: a byte. -/
theorem test_element_size : elemSize [0x100, 0x400] 1502 = 4 ∧ elemSize [0x6DC, 0x9DC] 2 = 1 := by decide

/-- The steward before the BMOVE of the worked case: s1 stands for both areas. -/
def tCopy (g1 g2 g3 : Word) : State :=
  { sys := { mode := .spin }
    stw := { seg := [(0, ⟨0xFFFF0000, 0x10000, 0xB⟩), (1, ⟨0, 0x10000, 0x7⟩)], g := [(1, g1), (2, g2), (3, g3)] } }

/-- A property of the next state. -/
def tNext (o : Host.Outcome State Fault Refusal) (p : State → Bool) : Bool :=
  match o with
  | .next t => p t
  | _ => false

theorem test_bmove_word_element : tNext (exec (.bmove .steward 1 1) (tCopy 0x100 0x400 1502)) (fun t =>
    gGet t.stw.g 1 == 0x104 && gGet t.stw.g 2 == 0x404 && gGet t.stw.g 3 == 1498 && t.stw.pc == 0) = true := by decide +kernel
theorem test_bmove_last_element : tNext (exec (.bmove .steward 1 1) (tCopy 0x6DD 0x9DD 1)) (fun t =>
    gGet t.stw.g 1 == 0x6DE && gGet t.stw.g 2 == 0x9DE && gGet t.stw.g 3 == 0 && t.stw.pc == 4) = true := by decide +kernel
/-- The handler's first look at YC_ECAUSE: line 14 shows as 0x4E (Table 4.19). -/
theorem test_interrupt_cause : tNext (exec .interruptEntry
    { tCopy 0 0 0 with stw := { (tCopy 0 0 0).stw with ie := true, imask := 0x4000, ipend := 0x4000 } })
    (fun t => bitsOf t.stw.ecause 0 8 == 0x4E) = true := by decide +kernel

/-! ### SPI (spec/05_host_link_and_mailboxes.md, Table 5.11) -/

/-- A machine whose host port is SPI. -/
def tSpi : State := { sys := { mode := .spin, straps := ⟨false, 1, 0⟩ }, hl := { ready := true } }

/-- The tail frame at 0x25FC sets MB_DFULL bit 5 and line 14. -/
theorem test_spi_tail : tNext (exec (.spiWriteFrame 0x25FC [0x3C, 0x00, 0x41, 0x00]) tSpi)
    (fun t => t.hl.dfull == 0x20 && bitOf t.stw.ipend 14) = true := by decide +kernel
/-- READY and the asserted interrupt show as status byte 0xC0. -/
theorem test_spi_status : spiStatus { tSpi with regs := [(dbStatus, 0x20), (dbMask, 0)] } = 0xC0 := by decide +kernel

/-! ### Flyers (spec/08_flyers.md, Table 8.9) -/

/-- A flyer that is at a program word. -/
def tFlyAt (w : Word) (x : Flyer) : State :=
  { sys := { mode := .spin }, fly := { fl := [(0, { x with halted := false })], prog := [(0, w)] } }

theorem test_fly_put_x : tNext (exec (.flyPut 0) (tFlyAt 0x720261 {})) (fun t => (t.flyer 0).x == 9 && (t.flyer 0).pc == 1) = true := by decide +kernel
theorem test_fly_load : tNext (exec (.flyLoad 0) (tFlyAt 0x480020 { outF := [0x168] })) (fun t =>
    (t.flyer 0).sh == 0x168 && (t.flyer 0).fill == 32 && (t.flyer 0).pc == 1) = true := by decide +kernel
theorem test_fly_bra_out_empty : tNext (exec (.flyBra 0) (tFlyAt 0x0E0361 {})) (fun t => (t.flyer 0).pc == 1) = true := by decide +kernel
theorem test_fly_bra_out_held : tNext (exec (.flyBra 0) (tFlyAt 0x0E0361 { outF := [5] })) (fun t => (t.flyer 0).pc == 13) = true := by decide +kernel
theorem test_fly_bra_count : tNext (exec (.flyBra 0) (tFlyAt 0x0501A1 { x := 9 })) (fun t =>
    (t.flyer 0).pc == 6 && (t.flyer 0).x == 8) = true := by decide +kernel

/-! ### Bobbins (spec/09_bobbins_and_fabric.md, the worked case) -/

/-- Bobbin 0x120's map words are 0x8030_0900 and 0x0000_0011. -/
def tMap : State := { txn := { conf := [(0x40100, { len := 0x908, bytes := [(0x901, 9), (0x902, 0x30), (0x903, 0x80), (0x904, 0x11)] })] } }

theorem test_map_word : tMap.qcfg 0x120 0 = 0x80300900 ∧ bobEn tMap 0x120 = true ∧ bobEgress tMap 0x120 = 0 ∧
    bobTc tMap 0x120 = 3 ∧ bobProfile tMap 0x120 = 9 ∧ bobMeter tMap 0x120 = 17 := by decide +kernel
theorem test_cells : cellsOf 1522 = 6 ∧ cellsOf 1000 = 4 := by decide

/-! ### Carding (spec/10_ethernet_and_carding.md, Tables 10.10 and 10.11) -/

/-- Comparator 0: FIELD 2, LO = HI = 502; comparator 1: FIELD 2, 319 to 320; comparator 2: FIELD 2, 49,152 to 65,535. -/
def tBank : State := { txn := { conf := [(0x10000, { len := 0x5000, bytes :=
  [(0x100, 2), (0x102, 0xF6), (0x103, 1), (0x104, 0xF6), (0x105, 1), (0x108, 2), (0x10A, 0x3F), (0x10B, 1), (0x10C, 0x40),
   (0x10D, 1), (0x110, 2), (0x113, 0xC0), (0x114, 0xFF), (0x115, 0xFF)] })] } }

/-- Up to the ports: addresses, IPv4, `proto`, from 10.0.0.1 to 192.168.10.5, destination port `p`. -/
def tIp (proto : Byte) (p : Nat) : List Byte :=
  List.replicate 12 0 ++ [8, 0, 0x45, 0, 0, 76, 0, 0, 0, 0, 64, proto, 0, 0, 10, 0, 0, 1, 192, 168, 10, 5, 0x30, 0x39] ++
    beBytes 2 p ++ List.replicate 48 0

theorem test_rangehit_tcp_502 : rangeHits tBank (tIp 6 502) (parseHdr (tIp 6 502)) = 1 := by decide +kernel
theorem test_rangehit_udp_320 : rangeHits tBank (tIp 17 320) (parseHdr (tIp 17 320)) = 2 := by decide +kernel
theorem test_rangehit_udp_50000 : rangeHits tBank (tIp 17 50000) (parseHdr (tIp 17 50000)) = 4 := by decide +kernel

/-! ### CAN (spec/11_can_fd_ports.md, the worked case) -/

theorem test_can_record : [0x1F3EFC00, 0x84040D00, 0x800F0000].flatMap (leBytes 4) =
    [0x00, 0xFC, 0x3E, 0x1F, 0x00, 0x0D, 0x04, 0x84, 0x00, 0x00, 0x0F, 0x80] := by decide
theorem test_can_timing : canTimingOk 0x1F3EFC00 0x84040D00 0x800F0000 = true := by decide +kernel
/-- Above 2,000 kbit/s TDCEN must be 1. -/
theorem test_can_timing_no_tdc : canTimingOk 0x1F3EFC00 0x84040D00 0 = false := by decide +kernel
/-- DLC 9 is 12 bytes in an FD frame and 8 in a classical one (Table 11.2). -/
theorem test_can_dlc : dlcLen true 9 = 12 ∧ dlcLen false 9 = 8 ∧ dlcLen true 15 = 64 := by decide

/-! ### Time (spec/13_reel_plies_and_time.md, Table 13.7) -/

/-- PLY1 with ROLE 1, PORT 8, STEPTHR 10,000, KP = KI = 1.0, after Sync 1's step; the Reel is at Sync 2. -/
def tPly : State :=
  { sys := { mode := .spin }
    regs := [(plyTs 1, 0x18000000), (plyTs 1 + 4, 0x04000400), (plyTs 1 + 8, 10000)]
    ply := { running := true, reel := 60125001500
             ply := [(1, { hist := [⟨0, 0, 0, 0, 2 ^ 32⟩, ⟨60000050000, 1718400000, 400050800, 0, 2 ^ 32⟩] })] } }

/-- Frame X converts through entry 0 and frame Y through entry 1. -/
theorem test_tick_to_ply : tickToPly tPly 1 60000020000 0 = some (60, 20000) ∧
    tickToPly tPly 1 60000080000 0 = some (1718400000, 400080800) := by decide +kernel
/-- Sync 2: theta is +1,500 ns, the drift 12 ppm, the increment 0xFFFE_6D59. -/
theorem test_servo : tNext (exec (.timeSync 1 ⟨60125001500, 1718400000525000800, 125000000⟩) tPly) (fun t =>
    tNext (exec (.plyChangeApply 1) { t with ply := { t.ply with reel := t.ply.reel + 1 } }) fun u =>
      plyIncrement u 1 == 0xFFFE6D59) = true := by decide +kernel

/-! ### Skein (spec/14_skein_cascade.md, the worked case) -/

/-- Entry 0x8028_0420 names bobbin 0x0420 of device 40. -/
theorem test_remote_entry : remoteOf { regs := [(0x40098000, 0x80280420)], skn := { dev := 10 } } 0 = some (40, 0x420) := by decide +kernel
/-- A hint that another serial number holds: the highest unused ID. -/
theorem test_assign_taken : assignId { skn := { known := [(1, 37)] } } 5 ⟨2, 37, 2⟩ = 1023 := by decide +kernel
theorem test_assign_hint : assignId { skn := { known := [(1, 37)] } } 5 ⟨2, 212, 2⟩ = 212 ∧
    assignId { skn := { known := [(1, 37)] } } 5 ⟨1, 5, 2⟩ = 37 := by decide +kernel
/-- A master that has taken over keeps the IDs of the members it found (R665). -/
theorem test_assign_member : assignId { skn := { members := [⟨37, 2, 3⟩] } } 5 ⟨2, 37, 2⟩ = 1023 ∧
    assignId { skn := { members := [⟨37, 2, 3⟩] } } 3 ⟨2, 37, 2⟩ = 37 := by decide +kernel

/-! ### The roving sequencer (spec/16_roving_sequencer.md, Tables 16.6 to 16.8) -/

theorem test_rov_words : rovLegal 0x0C000000 0xBB7 = true ∧ rovLegal 0x04020000 1 = true ∧ rovLegal 0x0C000000 0x11 = true ∧
    rovLegal 0x04020008 0 = true ∧ rovLegal 0x10000000 0 = true ∧ rovLegal 0x2C000000 0 = true := by decide
theorem test_rov_bad_word : rovLegal 0x10000001 0 = false ∧ rovLegal 0xFC000000 0 = false := by decide

/-- TS1: lane 0 is RO (E1 0, E2 4,000,000), lane 1 NRZ. -/
def tRovTs : State := { regs := [(tsBase 1 + 8, 0x80000000), (tsBase 1 + 12, 4000000)] }

/-- Lane 0 goes low at 0 and high 250 µs later; lane 1 stays high. -/
theorem test_rov_pulse : laneEdges tRovTs 0x10030002 0 = [{ lane := 0, at' := 0, level := false }, { lane := 0, at' := 4000000, level := true }] ∧
    laneEdges tRovTs 0x10030002 1 = [{ lane := 1, at' := 0, level := true }] := by decide +kernel

/-- LOOP 3,000 at 0x00 goes on at 0x08. -/
theorem test_rov_loop : tNext (exec .rovLoop { sys := { mode := .service }, rov := { running := true, ready := 3, mem := [(3, 0x0C), (4, 0xB7), (5, 0x0B)] } })
    (fun t => t.rov.pc == 8) = true := by decide +kernel

/-! ### The queue -/

/-- A step takes the command in front; on an empty queue the block idles for one nanosecond of the Reel. -/
theorem test_step_front : tNext (step { State.reset with pending := [.heartbeat, .vidStep] }) (fun t => t.pending == [.vidStep]) = true := by decide +kernel

end Sys2Proof.Tests
end

