-- ==== Sys2Proof/Tests/Witnesses.lean ====
section
/-!
SUPPORT. The hypotheses of the obligations are met: for each obligation, a concrete state and operands for the hypotheses of
each of its clauses (clauses with the same hypotheses share one). A field that a state here does not name is as at reset.
-/

namespace Sys2Proof.Tests

open Sys2Proof Sys2Proof.Machine

/-- A slot that runs, at the entry of its spindle's code, with the profile `pr`; s1 is 4 KiB of data memory. -/
def tSlot (pr : List Nat) : Slot :=
  { strand := 0, index := 0, spindle := 0, start := 0, stop := 1000, g := []
    seg := [(0, ⟨0, 0x1000, 0xB⟩), (1, ⟨0, 0x1000, 0x7⟩)], pc := 0, profile := pr
    staged := [], count := 0, granted := [], enq := [], act0 := [], got := [], txres := [] }

/-- The whorl runs a slot. -/
def tWhl : State := { sys := { mode := .spin }, whl := { slot := some (tSlot []) } }

/-- The slot has 4 in g3, to move four bytes. -/
def tWhlMove : State := { whl := { slot := some { tSlot [] with g := [(3, 4)] } } }

/-- The steward has taken a request of `src` with code `code` and `n` bytes, zeros but for the code, in mode `m`. -/
def tAsk (src : ReqSrc) (code n : Nat) (m : Mode) : State :=
  { sys := { mode := m }, hl := { ready := true, taken := [⟨src, 0, leBytes 2 code ++ List.replicate (n - 2) 0⟩] } }

/-- The same of mailbox 0, with `body` from byte 8 on. -/
def tReq (code n : Nat) (body : List Byte) (m : Mode) : State :=
  { sys := { mode := m }
    hl := { ready := true, taken := [⟨.mailbox 0, 0, (leBytes 2 code ++ List.replicate 6 0 ++ body ++ List.replicate n 0).take n⟩] } }

/-- The steward has taken TXN_STAGE_DMA of 4 bytes for the open transaction 0. -/
def tStageDma : State :=
  { sys := { mode := .spin }, txn := { txns := [{ h := 0 }] }
    hl := { ready := true, taken := [⟨.mailbox 0, 0, leBytes 2 0x303 ++ List.replicate 10 0 ++ leBytes 4 4 ++ List.replicate 8 0⟩] } }

/-- Segments of an extension: s8 is its code, as the boot ROM's segment s0 but for US. -/
def tExtSeg : Tab Seg := [(0, ⟨0xFFFF0000, 0x10000, 0xB⟩), (8, ⟨0xFFFF0000, 0x10000, 0x1B⟩)]

/-- The steward runs firmware; s1 is 4 KiB of SRAM. -/
def tSteward : State :=
  { sys := { mode := .spin }, stw := { seg := [(0, ⟨0xFFFF0000, 0x10000, 0xB⟩), (1, ⟨0, 0x1000, 0x7⟩)] } }

/-- The same with 4 in g3, to move four bytes. -/
def tMove : State := { tSteward with stw := { tSteward.stw with g := [(3, 4)] } }

/-- An extension has asked for service `code`, with `g2` in g2. -/
def tService (code : Nat) (g2 : Word) : State :=
  { sys := { mode := .spin }, stw := { seg := tExtSeg, extIdx := some 0, pext := true, fh := true, ecause := BitVec.ofNat 32 (65536 * code + 16), g := [(2, g2)] } }

/-- An enabled TX ring 0 with one descriptor of 64 bytes given; its bobbin 0 is enabled or not. -/
def tTxRing (en : Bool) : State :=
  { sys := { mode := .spin }, regs := [(0x200000000, 0x80000000), (0x200000008, 1)]
    hl := { pcieUp := true, desc := [(0x1008, 64), (0x100A, 1), (0x100B, 0x80)] }
    txn := { conf := if en then [(0x40000, { len := 32, bytes := [(4, 0xFF)] }), (0x40100, { len := 8, bytes := [(3, 0xA0)] })] else [] } }

/-- An enabled RX ring 0 with one descriptor of 64 bytes given, and a frame ready in its bobbin 0. -/
def tRxRing : State :=
  { sys := { mode := .spin }, regs := [(0x200000000, 0xC0000000), (0x200000008, 1)]
    hl := { pcieUp := true, desc := [(0x1008, 64), (0x100B, 0x80)] }
    bob := { frames := [{ id := 0, bytes := [0], ingress := 0, whole := true, eligible := true, stage := .held }], queue := [⟨0, 0, false, 1, false⟩] } }

/-- A frame ready in bobbin 0, whose egress is port 0. -/
def tQueued : State :=
  { bob := { frames := [{ id := 0, bytes := [0], ingress := 0, whole := true, eligible := true, stage := .held }], queue := [⟨0, 0, false, 1, false⟩] } }

/-- The same frame with a copy asked for: it leaves as a train. -/
def tTrain : State :=
  { bob := { frames := [{ id := 0, bytes := [0], ingress := 0, whole := true, eligible := true, stage := .held, cells := 1, copy := some 1 }]
             queue := [⟨0, 0, false, 1, false⟩] } }

/-- A frame that may cut through from port 0 to port 0, which is sending another. -/
def tCut : State :=
  { eth := { port := [(0, { link := true, speed := 3 })] }, regs := [(0x40040100, 0x80000040)]
    bob := { frames := [{ id := 0, bytes := [], ingress := 0, stage := .held }], egress := [(0, { cur := some 1 })] } }

/-- Flyer 0 as `x`, at a program word `w`. -/
def tFly (w : Word) (x : Flyer) : State := { fly := { fl := [(0, x)], prog := [(0, w)] } }

/-- Strand 0 runs a lea of one slot of spindle 0 on a ply that counts with the Reel. -/
def tStrand (x : Strand) (m : Mode) : State :=
  { sys := { mode := m }, ply := { running := true, ply := [(0, { hist := [⟨0, 0, 0, 0, 2 ^ 32⟩] })] }
    whl := { strands := [(0, { x with run := true, lea := some ⟨0, 1000, 0, [⟨0, 100, 0, 0, 0⟩], 0⟩ })] } }

/-- Its slot is due; the spindle is in state `st`, and `sl` runs. -/
def tDue (st : SpState) (sl : Option Slot) : State :=
  { whl := { strands := [(0, { run := true, on := true, lea := some ⟨0, 1000, 0, [⟨0, 100, 0, 0, 0⟩], 0⟩ })], spindles := [(0, { st := st })], slot := sl } }

/-- A header of a frame with `hops` hops to go for device `dst`. -/
def tHdr (hops dst : Nat) : List Byte :=
  let b : List Byte := [0, 0] ++ beBytes 2 hops ++ beBytes 2 dst ++ List.replicate 8 0
  b ++ beBytes 2 (crc16 b).toNat

/-- A frame ready in bobbin 0 for bobbin 5 of device 1, which is the next one east on a ring of two. -/
def tSkein : State :=
  { regs := [(0x40098000, 0x80010005)], txn := { conf := [(0x40100, { len := 8, bytes := [(3, 12)] })] }
    skn := { link := [(0, { st := .up10g }), (1, { pathClosed := false })], masterSerial := some 0, members := [{ pos := 0, dev := 0, mode := 0 }, { pos := 1, dev := 1, mode := 0 }] }
    bob := { frames := [{ id := 0, bytes := [0], ingress := 0, whole := true, eligible := true, stage := .held }], queue := [⟨0, 0, false, 1, false⟩] } }

/-- A frame for device 1 in bobbin 0, whose egress is K0; no link is up. -/
def tRemote : State :=
  { regs := [(0x40098000, 0x80010000)], txn := { conf := [(0x40100, { len := 8, bytes := [(3, 12)] })] }, bob := { queue := [⟨0, 0, false, 1, false⟩] } }

/-- The roving sequencer at an instruction whose opcode byte (OP and FLAGS) is `b`. -/
def tRov (b : Byte) : State := { rov := { mem := [(3, b)], ready := 1, running := true } }

/-- The least of numbers that are not negative is not negative. -/
theorem foldl_min_nonneg (f : Nat → Int) (h : ∀ n, 0 ≤ f n) (l : List Nat) (m : Int) (hm : 0 ≤ m) :
    0 ≤ l.foldl (fun m n => min m (f n)) m := by
  induction l generalizing m with
  | nil => exact hm
  | cons n l ih => exact ih _ (by have := h n; show 0 ≤ min m (f n); omega)

/-- The least is not above the first. -/
theorem foldl_min_le (f : Nat → Int) (l : List Nat) (m : Int) : l.foldl (fun m n => min m (f n)) m ≤ m := by
  induction l generalizing m with
  | nil => exact Int.le_refl m
  | cons n l ih => exact Int.le_trans (ih _) (Int.min_le_left _ _)

/-- With no delay measured the margin of a monitor is between 0 and 10,000. -/
theorem paceMargin_zero (n : Nat) : 0 ≤ paceMargin n 0 ∧ paceMargin n 0 ≤ 10000 := by
  unfold paceMargin
  by_cases h : Config.paceRef n = 0
  · simp [h]
  · have e : ((Config.paceRef n : Int) - (0 : Nat)) * 10000 = (Config.paceRef n : Int) * 10000 := by simp
    rw [e, Int.mul_ediv_cancel_left _ (by omega)]; decide

/-- So is the least of them not negative. -/
theorem pace_nonneg : 0 ≤ paceM [] :=
  foldl_min_nonneg (fun n => paceMargin n 0) (fun n => (paceMargin_zero n).1) _ _ (paceMargin_zero 0).1

/-- And at most 10,000. -/
theorem pace_le : paceM [] ≤ 10000 :=
  Int.le_trans (foldl_min_le (fun n => paceMargin n 0) _ _) (paceMargin_zero 0).2

/-- StepRunsFrontCommand: its hypotheses are met. -/
theorem witness_StepRunsFrontCommand :
    ∃ (c : Instr) (rest : List Instr) (s : State), s.pending = c :: rest :=
  ⟨.validSupply, [], { pending := [.validSupply] }, by decide⟩

/-- IdleStepCountsTheReel: the hypotheses of each clause are met. -/
theorem witness_IdleStepCountsTheReel :
    (∃ (s : State), s.pending = [] ∧ s.sys.resetDue = false ∧ s.ply.running = true) ∧
    (∃ (s : State), s.pending = [] ∧ s.sys.resetDue = false ∧ s.ply.running = false ∧ s.ply.cont = false) ∧
    (∃ (s : State), s.pending = [] ∧ s.sys.resetDue = false ∧ s.ply.running = false ∧ s.ply.cont = true) ∧
    (∃ (s : State), s.pending = [] ∧ s.sys.resetDue = true) :=
  ⟨⟨{ sys := { resetDue := false }, ply := { running := true } }, by decide, by decide, by decide⟩,
   ⟨{ sys := { resetDue := false }, ply := { running := false, cont := false } }, by decide, by decide, by decide, by decide⟩,
   ⟨{ sys := { resetDue := false }, ply := { running := false, cont := true } }, by decide, by decide, by decide, by decide⟩,
   ⟨{ sys := { resetDue := true } }, by decide, by decide⟩⟩

/-- EveryStepKeepsTheInvariant: its hypotheses are met. -/
theorem witness_EveryStepKeepsTheInvariant :
    ∃ (s t : State), Inv s ∧ step s = .next t :=
  ⟨{}, _, ⟨rfl, by exact Nat.zero_le _, by exact Nat.zero_le _⟩, rfl⟩

/-- WrittenValuesReadBack: the hypotheses of each clause are met. -/
theorem witness_WrittenValuesReadBack :
    (∃ (t : Tab Word), Tab.wf regRst t = true) ∧
    (∃ (m : Mem), m.wf = true) :=
  ⟨⟨[], by decide⟩,
   ⟨[], by decide⟩⟩

/-- FieldsFollowTheirAccessCodes: the hypotheses of each clause are met. -/
theorem witness_FieldsFollowTheirAccessCodes :
    (∃ (f : Fld), ∃ i, 0 < f.w ∧ f.lo + f.w ≤ 32 ∧ (i < f.lo ∨ f.lo + f.w ≤ i)) ∧
    (∃ (f : Fld) (i : Nat), 0 < f.w ∧ f.lo + f.w ≤ 32 ∧ (f.acc = .rw ∨ f.acc = .wo) ∧ f.lim = none ∧ i < f.w) ∧
    (∃ (f : Fld) (i : Nat), 0 < f.w ∧ f.lo + f.w ≤ 32 ∧ f.acc = .w1c ∧ i < f.w) ∧
    (∃ (f : Fld) (i : Nat), 0 < f.w ∧ f.lo + f.w ≤ 32 ∧ f.acc = .w1s ∧ i < f.w) ∧
    (∃ (f : Fld), 0 < f.w ∧ f.lo + f.w ≤ 32 ∧ f.acc = .rc) ∧
    (∃ (f : Fld) (i : Nat), 0 < f.w ∧ f.lo + f.w ≤ 32 ∧ f.acc = .wo ∧ i < f.w) ∧
    (∃ (f : Fld), 0 < f.w ∧ f.lo + f.w ≤ 32 ∧ f.acc ≠ .wo) :=
  ⟨⟨{ lo := 1, w := 1 }, 0, by decide, by decide, by decide⟩,
   ⟨{ lo := 0, w := 32, acc := .rw }, 0, by decide, by decide, by decide, by decide, by decide⟩,
   ⟨{ lo := 0, w := 32, acc := .w1c }, 0, by decide, by decide, by decide, by decide⟩,
   ⟨{ lo := 0, w := 32, acc := .w1s }, 0, by decide, by decide, by decide, by decide⟩,
   ⟨{ lo := 0, w := 32, acc := .rc }, by decide, by decide, by decide⟩,
   ⟨{ lo := 0, w := 32, acc := .wo }, 0, by decide, by decide, by decide, by decide⟩,
   ⟨{ lo := 0, w := 32 }, by decide, by decide, by decide⟩⟩

/-- RegisterAccessCommands: the hypotheses of each clause are met. -/
theorem witness_RegisterAccessCommands :
    (∃ (s : State) (a : Nat), stewardRuns s = true ∧ a / 65536 ∈ [0x4000, 0x4001, 0x4004, 0x4006] ∧ a % 4 = 0) ∧
    (∃ (s : State) (a : Nat), stewardRuns s = true ∧ RegsWf s ∧ a / 65536 ∈ [0x4000, 0x4001, 0x4004, 0x4006] ∧ a % 4 = 0 ∧ fieldsAt a = []) ∧
    (∃ (s : State) (a : Nat), stewardRuns s = true ∧ a % 4 = 0 ∧ RegsWf s) ∧
    (∃ (s : State), stewardRuns s = true) ∧
    (∃ (s : State), stewardRuns s = false) ∧
    (∃ (s : State), hostServes s = true) ∧
    (∃ (s : State) (a : Nat) (bs : List Byte), hostServes s = true ∧ bar0Plain a bs.length = false ∧ bar0Burst a bs.length = false) ∧
    (∃ (s : State), pcieServes s = true) ∧
    (∃ (s : State) (a : Nat), stewardRuns s = true ∧ a / 65536 ∈ [0x4000, 0x4001, 0x4002, 0x4004, 0x4006, 0x4009] ∧ a % 4 = 0 ∧ a ∉ pairLows ∧ a ≠ 0x40020020) ∧
    (∃ (s : State) (a : Nat), hostServes s = true ∧ bar0Plain a 4 = true ∧ bar0Tail a = none) ∧
    (∃ (s : State) (a n : Nat), hostServes s = true ∧ bar0Plain a n = false) ∧
    (∃ (s : State) (a : Nat), stewardRuns s = true ∧ a ∈ pairLows) ∧
    (∃ (s : State) (a : Nat) (v : Word), stewardRuns s = true ∧ a ∈ pairLows ∧ latched s (a + 4) = some v) :=
  ⟨⟨{ sys := { mode := .spin } }, 0x40000058, by decide, by decide, by decide⟩,
   ⟨{ sys := { mode := .spin } }, 0x40000100, by decide, rfl, by decide, by decide, by decide⟩,
   ⟨{ sys := { mode := .spin } }, 0, by decide, by decide, rfl⟩,
   ⟨{ sys := { mode := .spin } }, by decide⟩,
   ⟨{}, by decide⟩,
   ⟨{ sys := { mode := .spin, straps := ⟨false, 1, 0⟩ } }, by decide⟩,
   ⟨{ sys := { mode := .spin, straps := ⟨false, 1, 0⟩ } }, 0, [], by decide, by decide, by decide⟩,
   ⟨{ sys := { mode := .spin }, hl := { pcieUp := true } }, by decide⟩,
   ⟨{ sys := { mode := .spin } }, 0x40000058, by decide, by decide, by decide, by decide, by decide⟩,
   ⟨{ sys := { mode := .spin, straps := ⟨false, 1, 0⟩ } }, 0, by decide, by decide, by decide⟩,
   ⟨{ sys := { mode := .spin, straps := ⟨false, 1, 0⟩ } }, 0, 0, by decide, by decide⟩,
   ⟨{ sys := { mode := .spin } }, 0x40080000, by decide, by decide⟩,
   ⟨{ sys := { mode := .spin }, latch := [(0x40080004, some 1)] }, 0x40080000, 1, by decide, by decide, by decide⟩⟩

/-- SupplyCommands: the hypotheses of each clause are met. -/
theorem witness_SupplyCommands :
    (∃ (s : State), s.sys.due.isSome = true ∧ s.sys.timeZero = false) ∧
    (∃ (s : State), s.pwr.regEn.getLsbD 0 = true) ∧
    (∃ (s : State), RegsWf s ∧ s.pwr.regEn.getLsbD 0 = false) ∧
    (∃ (s : State) (n : Fin 4), bitOf (s.rd 0x400E000C) n = true) ∧
    (∃ (s : State) (n : Fin 4), bitOf (s.rd 0x400E000C) n = false ∧ (s.eport n).enabled = false) ∧
    (∃ (s : State) (n : Fin 4), bitOf (s.rd 0x400E000C) n = false ∧ (s.eport n).enabled = true) ∧
    (∃ (s : State) (n : Fin 4), bitOf (s.rd 0x400E000C) n = true ∧ (s.eport n).enabled = false ∧ s.pwr.settling.getLsbD n = false) ∧
    (∃ (s : State) (n : Fin 4), bitOf (s.rd 0x400E000C) n = true ∧ ((s.eport n).enabled = true ∨ s.pwr.settling.getLsbD n = true)) ∧
    (∃ (s : State) (n : Fin 4), s.pwr.settling.getLsbD n = true ∧ (s.conf 0x0203 n).num 0 1 ≠ 0 ∧ s.sys.limp = false) :=
  ⟨⟨{ sys := { timeZero := false } }, by decide, by decide⟩,
   ⟨{ pwr := { regEn := 1 } }, by decide⟩,
   ⟨{}, rfl, by decide⟩,
   ⟨{ regs := [(0x400E000C, 0x1)] }, 0, by decide⟩,
   ⟨{ eth := { port := [(0, { enabled := false })] } }, 0, by decide, by decide⟩,
   ⟨{ eth := { port := [(0, { enabled := true })] } }, 0, by decide, by decide⟩,
   ⟨{ eth := { port := [(0, { enabled := false })] }, regs := [(0x400E000C, 0x1)] }, 0, by decide, by decide, by decide⟩,
   ⟨{ eth := { port := [(0, { enabled := true })] }, regs := [(0x400E000C, 0x1)] }, 0, by decide, by decide⟩,
   ⟨{ pwr := { settling := 1 }, txn := { conf := [(0x2030000, { len := 1, bytes := [(0, 1)] })] } }, 0, by decide, by decide, by decide⟩⟩

/-- ResetAndBraceCommands: the hypotheses of each clause are met. -/
theorem witness_ResetAndBraceCommands :
    (∃ (s : State) (rails : BitVec 8) (banks : BitVec 13) (byPg : Bool), RegsWf s ∧ watched s rails banks byPg ≠ 0) ∧
    (∃ (s : State) (r : Fin 4), (s.pwr.ready &&& ~~~ s.pwr.pgTied).getLsbD r = true ∧ s.sys.mode ≠ .dark) ∧
    (∃ (s : State), RegsWf s ∧ s.sys.resetNLow = false) ∧
    (∃ (s : State), s.sys.due.isSome = true ∧ s.sys.timeZero = false ∧ s.sys.offTime = false) ∧
    (∃ (s : State), s.sys.offTime = true ∧ s.sys.due.isSome = true ∧ s.sys.timeZero = false ∧ s.sys.resetNLow = false) ∧
    (∃ (s : State), (s.sys.mode = .spin ∨ s.sys.mode = .service) ∧ (∀ x, s.sys.entering = true → s.sys.drowseReq = some x → s.ply.reel.toNat ≤ x.2.2.toNat + 5000) ∧ (s.sys.entering = true → s.sys.drowseReq.isSome = true)) ∧
    (∃ (s : State), s.sys.mode = .brace) ∧
    (∃ (s : State), (s.sys.mode = .dark ∨ s.sys.mode = .kindle ∨ s.sys.mode = .drowse ∨ ((s.sys.mode = .spin ∨ s.sys.mode = .service) ∧ s.sys.entering = true ∧ ∀ x, s.sys.drowseReq = some x → x.2.2.toNat + 5000 < s.ply.reel.toNat))) ∧
    (∃ (s : State), s.sys.mode = .brace ∧ s.sys.window = true ∧ s.pwr.senseWarn = false) :=
  ⟨⟨{}, 0x40, 0, false, rfl, by decide⟩,
   ⟨{ sys := { mode := .kindle }, pwr := { ready := 1 } }, 0, by decide, by decide⟩,
   ⟨{ sys := { resetNLow := false } }, rfl, by decide⟩,
   ⟨{ sys := { timeZero := false, offTime := false } }, by decide, by decide, by decide⟩,
   ⟨{ sys := { offTime := true, timeZero := false, resetNLow := false } }, by decide, by decide, by decide, by decide⟩,
   ⟨{ sys := { mode := .spin, entering := true, drowseReq := some (.mailbox 0, 0, 0) } }, by decide, (fun x _ h => by cases h; decide), (fun _ => rfl)⟩,
   ⟨{ sys := { mode := .brace } }, by decide⟩,
   ⟨{ sys := { mode := .dark } }, by decide⟩,
   ⟨{ sys := { mode := .brace, window := true }, pwr := { senseWarn := false } }, by decide, by decide, by decide⟩⟩

/-- KindleStepCommands: the hypotheses of each clause are met. -/
theorem witness_KindleStepCommands :
    (∃ (s : State) (c : KCause), s.sys.due = some c ∧ c ≠ .wake ∧ s.sys.mode = .kindle ∧ s.sys.timeZero = true ∧ s.sys.kstep = 1) ∧
    (∃ (s : State), s.sys.due = some .wake ∧ s.sys.mode = .kindle ∧ s.sys.timeZero = true ∧ s.sys.kstep = 1 ∧ s.sys.wakeLimp = false) ∧
    (∃ (s : State) (us : Nat), s.sys.mode = .kindle ∧ s.sys.kstep = 2 ∧ s.pwr.ready.getLsbD 1 = false ∧ us ≤ 15000) ∧
    (∃ (s : State), s.sys.mode = .kindle ∧ s.sys.kstep = 2 ∧ s.pwr.ready.getLsbD 1 = false) ∧
    (∃ (s : State), s.sys.limp = true ∧ s.sys.xtalLate = false ∧ s.sys.mode ≠ .kindle) ∧
    (∃ (s : State) (n : Fin 8), s.sys.mode = .kindle ∧ 1 ≤ n.val ∧ n.val ≤ s.sys.kstep ∧ timeoutMet s n = false ∧ s.sys.lateSteps.getLsbD n = false) ∧
    (∃ (s : State) (n : Fin 8), s.sys.lateSteps.getLsbD n = true) :=
  ⟨⟨{ sys := { due := (some .cold), mode := .kindle, timeZero := true, kstep := 1 } }, .cold, by decide, by decide, by decide, by decide, by decide⟩,
   ⟨{ sys := { due := (some .wake), mode := .kindle, timeZero := true, kstep := 1, wakeLimp := false } }, by decide, by decide, by decide, by decide, by decide⟩,
   ⟨{ sys := { mode := .kindle, kstep := 2 } }, 0, by decide, by decide, by decide, by decide⟩,
   ⟨{ sys := { mode := .kindle, kstep := 2 } }, by decide, by decide, by decide⟩,
   ⟨{ sys := { limp := true, xtalLate := false } }, by decide, by decide, by decide⟩,
   ⟨{ sys := { mode := .kindle, kstep := 1 } }, 1, by decide, by decide, by decide, by decide, by decide⟩,
   ⟨{ sys := { lateSteps := 1 } }, 0, by decide⟩⟩

/-- RailAndPllCommands: the hypotheses of each clause are met. -/
theorem witness_RailAndPllCommands :
    (∃ (s : State), s.sys.mode = .kindle ∧ s.sys.kstep = 3 ∧ s.sys.kfault = false ∧ s.sys.railPos = 0 ∧ s.sys.retryOff = false ∧ s.pwr.regEn.getLsbD 1 = true ∧ s.pwr.ready = 0) ∧
    (∃ (s : State) (r : Nat), railNow s = some r ∧ s.sys.mode = .kindle ∧ s.sys.kstep = 3 ∧ s.sys.kfault = false ∧ s.sys.retryOff = false ∧ s.pwr.regEn.getLsbD r = true) ∧
    (∃ (s : State) (r : Nat), railNow s = some r ∧ s.sys.mode = .kindle ∧ s.sys.kstep = 3 ∧ s.sys.kfault = false ∧ s.sys.retryOff = false ∧ s.pwr.regEn.getLsbD r = true ∧ s.sys.railTries < 3) ∧
    (∃ (s : State) (r : Nat), railNow s = some r ∧ s.sys.mode = .kindle ∧ s.sys.kstep = 3 ∧ s.sys.kfault = false ∧ s.sys.retryOff = false ∧ s.pwr.regEn.getLsbD r = true ∧ 3 ≤ s.sys.railTries) ∧
    (∃ (s : State) (r : Nat), railNow s = some r ∧ s.sys.mode = .kindle ∧ s.sys.kstep = 3 ∧ s.sys.kfault = false ∧ s.sys.retryOff = true) ∧
    (∃ (s : State), s.sys.mode = .kindle ∧ s.sys.kstep = 3 ∧ s.sys.kfault = false ∧ s.pwr.ready.getLsbD 1 = true ∧ s.sys.pllLocked = false) ∧
    (∃ (s : State), s.sys.mode = .kindle ∧ s.sys.kstep = 3 ∧ s.sys.kfault = false ∧ s.pwr.ready.getLsbD 1 = true ∧ s.sys.pllLocked = false ∧ s.sys.pllTries = 0) ∧
    (∃ (s : State), s.sys.mode = .kindle ∧ s.sys.kstep = 3 ∧ s.sys.kfault = false ∧ s.pwr.ready.getLsbD 1 = true ∧ s.sys.pllLocked = false ∧ s.sys.pllTries ≠ 0) :=
  ⟨⟨{ sys := { mode := .kindle, kstep := 3, kfault := false, railPos := 0, retryOff := false }, pwr := { regEn := 2, ready := 0 } }, by decide, by decide, by decide, by decide, by decide, by decide, by decide⟩,
   ⟨{ sys := { mode := .kindle, kstep := 3, kfault := false, retryOff := false }, pwr := { regEn := 2 } }, _, rfl, by decide, by decide, by decide, by decide, by decide⟩,
   ⟨{ sys := { mode := .kindle, kstep := 3, kfault := false, retryOff := false }, pwr := { regEn := 2 } }, _, rfl, by decide, by decide, by decide, by decide, by decide, by decide⟩,
   ⟨{ sys := { mode := .kindle, kstep := 3, kfault := false, retryOff := false, railTries := 3 }, pwr := { regEn := 2 } }, _, rfl, by decide, by decide, by decide, by decide, by decide, by decide⟩,
   ⟨{ sys := { mode := .kindle, kstep := 3, kfault := false, retryOff := true } }, _, rfl, by decide, by decide, by decide, by decide⟩,
   ⟨{ sys := { mode := .kindle, kstep := 3, kfault := false, pllLocked := false }, pwr := { ready := 2 } }, by decide, by decide, by decide, by decide, by decide⟩,
   ⟨{ sys := { mode := .kindle, kstep := 3, kfault := false, pllLocked := false, pllTries := 0 }, pwr := { ready := 2 } }, by decide, by decide, by decide, by decide, by decide, by decide⟩,
   ⟨{ sys := { mode := .kindle, kstep := 3, kfault := false, pllLocked := false, pllTries := 1 }, pwr := { ready := 2 } }, by decide, by decide, by decide, by decide, by decide, by decide⟩⟩

/-- DrowseAndWakeCommands: the hypotheses of each clause are met. -/
theorem witness_DrowseAndWakeCommands :
    (∃ (s : State), s.sys.entering = true ∧ strandsStopped s = true ∧ s.rov.running = false) ∧
    (∃ (s : State), (s.sys.entering = false ∨ strandsStopped s = false ∨ s.rov.running = true)) ∧
    (∃ (s : State) (src : BitVec 6), src.getLsbD 5 = false ∧ s.sys.mode = .drowse ∧ src &&& BitVec.ofNat 6 (s.fld 0x40000058 0 6) ≠ 0) ∧
    (∃ (s : State), s.ply.reel ≤ wakeAlarm s ∧ s.sys.mode = .drowse ∧ bitOf (s.rd 0x40000058) 5 = true ∧ s.sys.wakePending = false ∧ supplyValid s = true) ∧
    (∃ (s : State) (src : BitVec 6), src.getLsbD 5 = false ∧ src &&& BitVec.ofNat 6 (s.fld 0x40000058 0 6) = 0) ∧
    (∃ (s : State), s.sys.mode = .drowse ∧ s.sys.wakePending = true ∧ supplyValid s = true) ∧
    (∃ (s : State) (b : Fin 13), s.sys.mode = .drowse ∧ (banksWatched s).getLsbD b = false) ∧
    (∃ (s : State), (s.sys.mode = .drowse ∨ s.sys.mode = .dark)) ∧
    (∃ (s : State), s.sys.straps.bootsel.getLsbD 0 = false ∧ (s.sys.mode = .spin ∨ s.sys.mode = .brace ∨ s.sys.mode = .service)) :=
  ⟨⟨{ sys := { entering := true }, rov := { running := false } }, by decide, by decide, by decide⟩,
   ⟨{ sys := { entering := false } }, by decide⟩,
   ⟨{ sys := { mode := .drowse } }, 1, by decide, by decide, by decide⟩,
   ⟨{ sys := { mode := .drowse, wakePending := false }, pwr := { railOk := 0x40, banks := 0x1FFF, senseWarn := false }, regs := [(0x40000058, 0x20)] }, by decide, by decide, by decide, by decide, by decide⟩,
   ⟨{}, 0, by decide, by decide⟩,
   ⟨{ sys := { mode := .drowse, wakePending := true }, pwr := { railOk := 0x40, banks := 0x1FFF, senseWarn := false } }, by decide, by decide, by decide⟩,
   ⟨{ sys := { mode := .drowse } }, 12, by decide, by decide⟩,
   ⟨{ sys := { mode := .drowse } }, by decide⟩,
   ⟨{ sys := { mode := .spin } }, by decide, by decide⟩⟩

/-- DistaffSupplyCommands: the hypotheses of each clause are met. -/
theorem witness_DistaffSupplyCommands :
    (∃ (s : State), s.pwr.distaffUp = true) ∧
    (∃ (s : State), s.pwr.hucAct = true) ∧
    (∃ (s : State) (mv : Nat), chargerRuns s = true ∧ s.pwr.slowLogged = false ∧ mv < 11000) ∧
    (∃ (s : State) (mv : Nat), chargerRuns s = false ∧ s.dst.running = none ∧ s.pwr.railOk.getLsbD 6 = true ∧ s.pwr.leakLogged = false ∧ 500 < mv) ∧
    (∃ (s : State) (dv : Nat), chargerRuns s = true ∧ 500 ≤ dv) ∧
    (∃ (s u : State) (l : HoldupSample) (xs : List Int), s.dst.running = none ∧ s.pwr.distaffUp = true ∧ steady xs = true ∧ u = holdSample l (reachTick (windowEnd s.pwr) s)) ∧
    (∃ (s : State) (xs : List Int), s.dst.running = none ∧ s.pwr.distaffUp = true ∧ steady xs = false) ∧
    (∃ (s : State) (c : Commit), s.dst.staged = some c) ∧
    (∃ (s : State) (c : Commit), s.dst.inflight = some c ∧ s.dst.running = none) :=
  ⟨⟨{ pwr := { distaffUp := true } }, by decide⟩,
   ⟨{ pwr := { hucAct := true } }, by decide⟩,
   ⟨{ pwr := { slowLogged := false, railOk := 0x40, banks := 0x1FFF }, sys := { mode := .spin } }, 0, by decide, by decide, by decide⟩,
   ⟨{ dst := { running := none }, pwr := { railOk := 64, leakLogged := false } }, 501, by decide, by decide, by decide, by decide, by decide⟩,
   ⟨{ sys := { mode := .spin }, pwr := { railOk := 0x40, banks := 0x1FFF } }, 500, by decide, by decide⟩,
   ⟨{ dst := { running := none }, pwr := { distaffUp := true } }, _, ⟨0, 0, 0, 0⟩, List.replicate 1000 0, by decide, by decide, by unfold steady; decide +kernel, rfl⟩,
   ⟨{ dst := { running := none }, pwr := { distaffUp := true } }, [], by decide, by decide, by decide⟩,
   ⟨{ dst := { staged := (some { txn := 0, recs := [], schema := 0 }) } }, { txn := 0, recs := [], schema := 0 }, by decide⟩,
   ⟨{ dst := { inflight := (some { txn := 0, recs := [], schema := 0 }), running := none } }, { txn := 0, recs := [], schema := 0 }, by decide, by decide⟩⟩

/-- GatedUnitCommands: the hypotheses of each clause are met. -/
theorem witness_GatedUnitCommands :
    (∃ (s : State) (l : HoldupSample) (u : GUnit), gateOpens (holdSample l s) = true ∧ firstUnit (holdSample l s) = some u ∧ (∀ n b, u ≠ .commit n b)) ∧
    (∃ (s : State) (l : HoldupSample) (n : Nat) (b : Bool), gateOpens (holdSample l s) = true ∧ firstUnit (holdSample l s) = some (.commit n b) ∧ ((∃ c, commitNext (holdSample l s) = some c ∧ (c.written = 0 → ringBlocked s (commitMost s (recPages c.body.length)) = false)))) ∧
    (∃ (s : State) (l : HoldupSample), gateOpens (holdSample l s) = false) ∧
    (∃ (s : State) (c : SlotCtl) (rep : Bool), s.dst.running = some (.boot false c rep) ∧ s.dst.copy2 ≠ some c) ∧
    (∃ (s : State) (c : SlotCtl) (rep : Bool), s.dst.running = some (.boot true c rep)) ∧
    (∃ (s : State) (e : FaultRec) (rest : List FaultRec), s.dst.running = some .log ∧ s.sys.recorder = e :: rest ∧ s.dst.log.length < 96768) ∧
    (∃ (s : State) (bs : List (Nat × List Byte)), s.dst.running = some (.nameplate bs)) ∧
    (∃ (s : State) (off : Nat) (data : List Byte), s.dst.running = some (.image off data)) ∧
    (∃ (s : State) (a b : Nat), s.dst.running = some (.migration a b)) ∧
    (∃ (a b : Nat), a ≠ b) :=
  ⟨⟨{ pwr := { trusted := true, q := 10 ^ 10 }, dst := { waiting := [.log] } }, ⟨15000, 0, 0, 0⟩, _, by decide, rfl, (fun _ _ h => nomatch h)⟩,
   ⟨{ pwr := { trusted := true, q := 10 ^ 10 }, dst := { staged := some { txn := 0, recs := [], schema := 0 } } }, ⟨15000, 0, 0, 0⟩, _, _, by decide, rfl, ⟨_, rfl, by decide⟩⟩,
   ⟨{}, ⟨0, 0, 0, 0⟩, by decide⟩,
   ⟨{ dst := { running := (some (.boot false {} false)), copy2 := none } }, {}, false, by decide, by decide⟩,
   ⟨{ dst := { running := (some (.boot true {} false)) } }, {}, false, by decide⟩,
   ⟨{ dst := { running := (some .log) }, sys := { recorder := (⟨1, 0, 0, 0, [], 0⟩ :: []) } }, ⟨1, 0, 0, 0, [], 0⟩, [], by decide, by decide, by decide⟩,
   ⟨{ dst := { running := (some (.nameplate [])) } }, [], by decide⟩,
   ⟨{ dst := { running := (some (.image 0 [])) } }, 0, [], by decide⟩,
   ⟨{ dst := { running := (some (.migration 0 0)) } }, 0, 0, by decide⟩,
   ⟨1, 0, by decide⟩⟩

/-- CommitAndScrubCommands: the hypotheses of each clause are met. -/
theorem witness_CommitAndScrubCommands :
    (∃ (s : State) (n : Nat) (bad : List Nat) (c : Commit), s.dst.running = some (.commit n false) ∧ s.dst.inflight = some c ∧ bad.length ≤ 3) ∧
    (∃ (s : State) (n : Nat) (bad reads : List Nat) (c : Commit), s.dst.running = some (.commit n true) ∧ s.dst.inflight = some c ∧ bad.length + (reads.filter fun r => 3 < r).length ≤ 3) ∧
    (∃ (s : State) (n : Nat) (bad : List Nat) (c : Commit), s.dst.running = some (.commit n true) ∧ s.dst.inflight = some c ∧ (∀ i < 4, i ∈ bad)) ∧
    (∃ (s : State), (s.sys.mode = .spin ∨ s.sys.mode = .drowse) ∧ s.dst.scrubbing = false) ∧
    (∃ (s : State) (bits : Nat), (s.sys.mode = .spin ∨ s.sys.mode = .drowse) ∧ s.dst.scrubbing = true ∧ s.dst.scrubPage ≠ 131071 ∧ bits ≤ 8 ∧ beingProgrammed s s.dst.scrubPage = false) ∧
    (∃ (s : State) (bits : Nat), (s.sys.mode = .spin ∨ s.sys.mode = .drowse) ∧ s.dst.scrubbing = true ∧ s.dst.scrubPage = 131071 ∧ bits ≤ 3 ∧ beingProgrammed s s.dst.scrubPage = false) ∧
    (∃ (s : State) (bits : Nat), (s.sys.mode = .spin ∨ s.sys.mode = .drowse) ∧ s.dst.scrubbing = true ∧ s.dst.scrubPage < 256 ∧ 8 < bits ∧ beingProgrammed s s.dst.scrubPage = false) ∧
    (∃ (s : State), beingProgrammed s s.dst.scrubPage = true) ∧
    (∃ (s : State) (p : Nat), s.dst.running = some (.scrub p)) :=
  ⟨⟨{ dst := { running := (some (.commit 0 false)), inflight := (some { txn := 0, recs := [], schema := 0 }) } }, 0, [], { txn := 0, recs := [], schema := 0 }, by decide, by decide, by decide⟩,
   ⟨{ dst := { running := (some (.commit 0 true)), inflight := (some { txn := 0, recs := [], schema := 0 }) } }, 0, [], [], { txn := 0, recs := [], schema := 0 }, by decide, by decide, by decide⟩,
   ⟨{ dst := { running := (some (.commit 0 true)), inflight := (some { txn := 0, recs := [], schema := 0 }) } }, 0, [0, 1, 2, 3], { txn := 0, recs := [], schema := 0 }, by decide, by decide, by decide⟩,
   ⟨{ sys := { mode := .spin }, dst := { scrubbing := false } }, by decide, by decide⟩,
   ⟨{ sys := { mode := .spin }, dst := { scrubbing := true } }, 0, by decide, by decide, by decide, by decide, by decide⟩,
   ⟨{ sys := { mode := .spin }, dst := { scrubbing := true, scrubPage := 131071 } }, 0, by decide, by decide, by decide, by decide, by decide⟩,
   ⟨{ sys := { mode := .spin }, dst := { scrubbing := true } }, 9, by decide, by decide, by decide, by decide, by decide⟩,
   ⟨{ dst := { running := some (.boot false {} false) } }, by decide⟩,
   ⟨{ dst := { running := (some (.scrub 0)) } }, 0, by decide⟩⟩

/-- KindleEndCommands: the hypotheses of each clause are met. -/
theorem witness_KindleEndCommands :
    (∃ (s : State), s.sys.mode = .kindle ∧ s.sys.kfault = false ∧ s.sys.kstep = 4 ∧ s.dst.running = none) ∧
    (∃ (s : State), s.dst.running.isSome = true) ∧
    (∃ (s : State), s.sys.mode = .kindle ∧ s.sys.kfault = false ∧ s.sys.kstep = 5) ∧
    (∃ (s : State) (img : Mem), activeImage s = some img ∧ s.sys.mode = .kindle ∧ s.sys.kfault = false ∧ s.sys.kstep = 6) ∧
    (∃ (s : State) (c : Step7Cond), s.sys.mode = .kindle ∧ s.sys.kfault = false ∧ s.sys.kstep = 7 ∧ step7Ends s c = true ∧ s.pwr.senseWarn = false) ∧
    (∃ (s : State) (c : Step7Cond), s.sys.mode = .kindle ∧ s.sys.kfault = false ∧ s.sys.kstep = 7 ∧ step7Ends s c = true ∧ s.pwr.senseWarn = true) :=
  ⟨⟨{ sys := { mode := .kindle, kfault := false, kstep := 4 }, dst := { running := none } }, by decide, by decide, by decide, by decide⟩,
   ⟨{ dst := { running := some .log } }, by decide⟩,
   ⟨{ sys := { mode := .kindle, kfault := false, kstep := 5 } }, by decide, by decide, by decide⟩,
   ⟨{ sys := { mode := .kindle, kfault := false, kstep := 6 }, dst := { booted := some false } }, _, rfl, by decide, by decide, by decide⟩,
   ⟨{ sys := { mode := .kindle, kfault := false, kstep := 7 }, pwr := { senseWarn := false } }, .worstCase, by decide, by decide, by decide, by decide, by decide⟩,
   ⟨{ sys := { mode := .kindle, kfault := false, kstep := 7 }, pwr := { senseWarn := true } }, .worstCase, by decide, by decide, by decide, by decide, by decide⟩⟩

/-- MailboxCommands: the hypotheses of each clause are met. -/
theorem witness_MailboxCommands :
    (∃ (s : State) (n : Fin 32), hostServes s = true ∧ bitOf s.hl.dfull n = false) ∧
    (∃ (s : State) (n : Fin 32), hostServes s = true ∧ bitOf s.hl.dfull n = true) ∧
    (∃ (s : State), hostServes s = true ∧ s.hl.ready = true) ∧
    (∃ (s : State) (n : Fin 32), s.hl.ready = true ∧ (imageNone s = false ∨ s.hl.taken = []) ∧ takeNext s s.hl.order [] = some n.val) ∧
    (∃ (s : State) (n : Nat), mbBusy s n = false) ∧
    (∃ (s : State) (n m : Nat), mbBusy s m = true ∧ mbBusy s n = false ∧ reqTxn (mbReq s (Fin.ofNat 32 n)) = none) ∧
    (∃ (s : State) (n : Fin 32) (d : Due), s.hl.due.find? (fun d => d.mb == n.val) = some d ∧ bitOf s.hl.hfull n = false) ∧
    (∃ (s : State) (n : Fin 32), bitOf s.hl.hfull n = true) ∧
    (∃ (s : State), hostServes s = true) ∧
    (∃ (s : State) (v : Word), hostServes s = true ∧ v ≠ 0x203) ∧
    (∃ (s : State), s.hl.ready = true) ∧
    (∃ (s u : State) (l : Fin 2), u = s.setLink l (fun k => { k with rxFrm := k.rxFrm + 1 }) ∧ s.skn.assigned = true ∧ carries s l 1 = true ∧ s.sys.mode ∈ [.spin, .brace, .service]) ∧
    (∃ (s u : State) (l : Fin 2), u = s.setLink l (fun k => { k with rxFrm := k.rxFrm + 1 }) ∧ (s.skn.assigned = false ∨ carries s l 1 = false)) :=
  ⟨⟨{ sys := { mode := .spin, straps := ⟨false, 1, 0⟩ } }, 0, by decide, by decide⟩,
   ⟨{ sys := { mode := .spin, straps := ⟨false, 1, 0⟩ }, hl := { dfull := 1 } }, 0, by decide, by decide⟩,
   ⟨{ sys := { mode := .spin, straps := ⟨false, 1, 0⟩ }, hl := { ready := true } }, by decide, by decide⟩,
   ⟨{ hl := { ready := true, order := [0] } }, 0, by decide, by decide, by decide⟩,
   ⟨{}, 0, by decide⟩,
   ⟨{ hl := { due := [⟨0, 0, [], none⟩] } }, 1, 0, by decide, by decide, by decide⟩,
   ⟨{ hl := { due := [⟨0, 0, [], none⟩] } }, 0, ⟨0, 0, [], none⟩, rfl, by decide⟩,
   ⟨{ hl := { hfull := 1 } }, 0, by decide⟩,
   ⟨{ sys := { mode := .spin, straps := ⟨false, 1, 0⟩ } }, by decide⟩,
   ⟨{ sys := { mode := .spin, straps := ⟨false, 1, 0⟩ } }, 0, by decide, by decide⟩,
   ⟨{ hl := { ready := true } }, by decide⟩,
   ⟨{ skn := { assigned := true, link := [(0, { st := .up10g, pathClosed := false })] }, sys := { mode := .spin } }, _, 0, rfl, by decide, by decide, by decide⟩,
   ⟨{ skn := { assigned := false } }, _, 0, rfl, by decide⟩⟩

/-- SpiAndPerstCommands: the hypotheses of each clause are met. -/
theorem witness_SpiAndPerstCommands :
    (∃ (s : State) (off : Nat), spiServes s = true ∧ off < 0x4000 ∧ off % 4 = 0) ∧
    (∃ (s : State) (off : Nat), spiServes s = true ∧ (0x4000 ≤ off ∨ off % 4 ≠ 0)) ∧
    (∃ (s : State) (off : Nat), spiServes s = true ∧ off < 0x2000 ∧ off % 4 = 0) ∧
    (∃ (s : State), spiServes s = true) ∧
    (∃ (s : State), s.sys.mode ≠ .dark ∧ spiSelected s = false) :=
  ⟨⟨{ sys := { mode := .spin, straps := ⟨false, 1, 0⟩ } }, 0, by decide, by decide, by decide⟩,
   ⟨{ sys := { mode := .spin, straps := ⟨false, 1, 0⟩ } }, 1, by decide, by decide⟩,
   ⟨{ sys := { mode := .spin, straps := ⟨false, 1, 0⟩ } }, 0, by decide, by decide, by decide⟩,
   ⟨{ sys := { mode := .spin, straps := ⟨false, 1, 0⟩ } }, by decide⟩,
   ⟨{ sys := { mode := .spin } }, by decide, by decide⟩⟩

/-- DmaRingCommands: the hypotheses of each clause are met. -/
theorem witness_DmaRingCommands :
    (∃ (s : State) (r : Fin 64) (off : Nat), pcieServes s = true ∧ (off = 0 ∨ off = 4 ∨ off = 0x18 ∨ off = 0x1C) ∧ ringEnabled s r = false) ∧
    (∃ (s : State) (r : Fin 64) (off : Nat), pcieServes s = true ∧ (off = 4 ∨ off = 0x18 ∨ off = 0x1C) ∧ ringEnabled s r = true) ∧
    (∃ (s : State) (r : Fin 64), pcieServes s = true ∧ ringEnabled s r = true ∧ RegsWf s ∧ s.fld (ringBase r) 0 4 ≤ 8) ∧
    (∃ (s : State) (r : Fin 64), pcieServes s = true ∧ ringEnabled s r = false ∧ RegsWf s) ∧
    (∃ (s : State) (r : Fin 64) (d : Nat), ringGoes s r = true ∧ ringIsRx s r = false ∧ readsBusy s < 64 ∧ badDesc s r = false ∧ txDescs s r = some d) ∧
    (∃ (s : State) (r : Fin 64) (p : List Nat × Nat), ringGoes s r = true ∧ ringIsRx s r = true ∧ (s.hl.bursts.filter Burst.rx).length < 16 ∧ badDesc s r = false ∧ takeFrames s r ((headRun s (ringBob s r)).filter fun f => !(framesBusy s r).contains f.id) (descsBusy s r) (descsGiven s r - descsBusy s r) 32 65536 = p ∧ p.1 ≠ []) ∧
    (∃ (s : State) (r : Fin 64) (b : Burst), (burstsOf s r).head? = some b ∧ b.rx = true ∧ b.frames = []) ∧
    (∃ (s : State) (r : Fin 64) (b : Burst), (burstsOf s r).head? = some b ∧ (b.rx = true ∨ readFaulted s r = false)) ∧
    (∃ (s : State) (r : Fin 64), burstsOf s r = []) ∧
    (∃ (s : State) (r : Fin 64) (b : Burst), b ∈ burstsOf s r ∧ b.rx = false) ∧
    (∃ (s : State) (b : BitVec 16), bobStalled s b.toNat = true) ∧
    (∃ (s : State) (b : BitVec 16), bobStalled s b.toNat = false) :=
  ⟨⟨{ sys := { mode := .spin }, hl := { pcieUp := true } }, 0, 0, by decide, by decide, by decide⟩,
   ⟨{ sys := { mode := .spin }, hl := { pcieUp := true }, regs := [(0x200000000, 0x80000000)] }, 0, 4, by decide, by decide, by decide⟩,
   ⟨{ sys := { mode := .spin }, hl := { pcieUp := true }, regs := [(0x200000000, 0x80000000)] }, 0, by decide, by decide, rfl, by decide⟩,
   ⟨{ sys := { mode := .spin }, hl := { pcieUp := true } }, 0, by decide, by decide, rfl⟩,
   ⟨tTxRing true, 0, 1, by decide, by decide, by decide, by decide, by decide⟩,
   ⟨tRxRing, 0, _, by decide, by decide, by decide, by decide, rfl, by decide⟩,
   ⟨{ hl := { bursts := [{ ring := 0, rx := true, frames := [], descs := 0 }] } }, 0, { ring := 0, rx := true, frames := [], descs := 0 }, by decide, by decide, by decide⟩,
   ⟨{ hl := { bursts := [{ ring := 0, rx := true, frames := [], descs := 0 }] } }, 0, { ring := 0, rx := true, frames := [], descs := 0 }, by decide, by decide⟩,
   ⟨{}, 0, by decide⟩,
   ⟨{ hl := { bursts := [{ ring := 0, rx := false, frames := [], descs := 0 }] } }, 0, { ring := 0, rx := false, frames := [], descs := 0 }, by decide, by decide⟩,
   ⟨{ bob := { queue := [⟨0, 0, false, 1, false⟩] }, regs := [(0x200000000, 0x40000000)] }, 0, by decide⟩,
   ⟨{}, 0, by decide⟩⟩

/-- EthernetReceiveCommands: the hypotheses of each clause are met. -/
theorem witness_EthernetReceiveCommands :
    (∃ (s : State) (p : Fin 12), (s.eport p).link = true ∧ arriving s p = none ∧ (s.eport p).rx.length < 128 ∧ rxHeld (s.eport p) < 16384 ∧ 4 ≤ thruOut s p) ∧
    (∃ (s : State) (p : Fin 12), (s.eport p).link = true ∧ arriving s p = none ∧ (128 ≤ (s.eport p).rx.length ∨ 16384 ≤ rxHeld (s.eport p))) ∧
    (∃ (s : State) (p : Fin 12), (s.eport p).link = true ∧ arriving s p = none ∧ (s.eport p).rx.length < 128 ∧ rxHeld (s.eport p) < 16384 ∧ thruOut s p < 4) ∧
    (∃ (s : State) (p : Fin 12) (r : RxFrame), (s.eport p).rx.find? (fun r => !r.dealt) = some r) ∧
    (∃ (s : State) (l : Fin 16) (p id : Nat) (rest : List (Nat × Nat)) (r : RxFrame), Tab.get (fun _ => []) s.eth.lanes l = (p, id) :: rest ∧ (s.eport p).rx.find? (fun r => r.frame == id) = some r) ∧
    (∃ (s : State) (p : Fin 12) (bytes : List Byte) (f : Frame), arriving s p = some f ∧ bytes.length < 64 ∧ 4 ≤ (s.eport p).thruTo) ∧
    (∃ (s : State) (p : Fin 12) (bytes : List Byte) (long : Bool) (f : Frame), arriving s p = some f ∧ 64 ≤ bytes.length ∧ 4 ≤ (s.eport p).thruTo ∧ long = decide (maxFrame s p < bytes.length)) ∧
    (∃ (s : State) (p : Fin 12) (r : RxFrame) (rest : List RxFrame) (d : Decision), (s.eport p).rx = r :: rest ∧ r.decided = true ∧ r.decision = some d ∧ d.action = 0) ∧
    (∃ (s : State) (p : Fin 12) (r : RxFrame) (rest : List RxFrame) (d : Decision), (s.eport p).rx = r :: rest ∧ r.decided = true ∧ r.decision = some d ∧ d.action ≠ 0 ∧ (s.frame? r.frame).any Frame.thru = true ∧ r.ended = false) ∧
    (∃ (s : State) (p : Fin 12) (r : RxFrame) (rest : List RxFrame) (d : Decision), (s.eport p).rx = r :: rest ∧ r.decided = true ∧ r.decision = some d ∧ d.action ≠ 0 ∧ ((s.frame? r.frame).any Frame.thru = false ∨ r.ended = true)) :=
  ⟨⟨{ eth := { port := [(0, { link := true })] } }, 0, by decide, by decide, by decide, by decide, by decide⟩,
   ⟨{ eth := { port := [(0, { link := true, rx := List.replicate 128 { frame := 0 } })] } }, 0, by decide, by decide, .inl (by decide +kernel)⟩,
   ⟨{ eth := { port := [(0, { link := true })] }, txn := { conf := [(0x10000, { len := 1024 })] } }, 0, by decide, by decide, by decide, by decide, by decide⟩,
   ⟨{ eth := { port := [(0, { rx := [{ frame := 0 }] })] } }, 0, { frame := 0 }, rfl⟩,
   ⟨{ eth := { port := [(0, { rx := [{ frame := 0 }] })], lanes := [(0, [(0, 0)])] } }, 0, 0, 0, [], { frame := 0 }, by decide, rfl⟩,
   ⟨{ bob := { frames := [{ id := 0, bytes := [], ingress := 0 }] } }, 0, [], { id := 0, bytes := [], ingress := 0 }, by decide, by decide, by decide⟩,
   ⟨{ eth := { port := [(0, { thruTo := 4 })] }, bob := { frames := [{ id := 0, bytes := [], ingress := 0 }] } }, 0, List.replicate 64 0, _, { id := 0, bytes := [], ingress := 0 }, by decide, by decide, by decide, rfl⟩,
   ⟨{ eth := { port := [(0, { rx := [{ frame := 0, decided := true, decision := some ⟨0, 0, 0, 0, 0, 0⟩ }] })] } }, 0, { frame := 0, decided := true, decision := some ⟨0, 0, 0, 0, 0, 0⟩ }, [], ⟨0, 0, 0, 0, 0, 0⟩, by decide, by decide, by decide, by decide⟩,
   ⟨{ eth := { port := [(0, { rx := [{ frame := 0, decided := true, decision := some ⟨1, 0, 0, 0, 0, 0⟩ }] })] }, bob := { frames := [{ id := 0, bytes := [], ingress := 0, thru := true }] } }, 0, { frame := 0, decided := true, decision := some ⟨1, 0, 0, 0, 0, 0⟩ }, [], ⟨1, 0, 0, 0, 0, 0⟩, by decide, by decide, by decide, by decide, by decide, by decide⟩,
   ⟨{ eth := { port := [(0, { rx := [{ frame := 0, decided := true, decision := some ⟨1, 0, 0, 0, 0, 0⟩ }] })] } }, 0, { frame := 0, decided := true, decision := some ⟨1, 0, 0, 0, 0, 0⟩ }, [], ⟨1, 0, 0, 0, 0, 0⟩, by decide, by decide, by decide, by decide, by decide⟩⟩

/-- EthernetPortCommands: the hypotheses of each clause are met. -/
theorem witness_EthernetPortCommands :
    (∃ (s : State) (p : Fin 12) (v : Fin 5) (d : Bool) (x : Nat × Bool), (s.eport p).enabled = true ∧ linkFound s p v d = some x) ∧
    (∃ (s : State) (p : Fin 12) (v : Fin 5) (d : Bool), ((s.eport p).enabled = false ∨ linkFound s p v d = none)) ∧
    (∃ (s : State) (p : Fin 12), (s.eport p).link = true) ∧
    (∃ (s : State) (p : Fin 12), (s.eport p).enabled = true ∧ (s.eport p).link = false ∧ phyFlag s p 0 = true) ∧
    (∃ (s : State) (p : Fin 12), (s.eport p).link = true ∧ hasEee p (phyMode s p) = true ∧ phyFlag s p 1 = true ∧ (s.eport p).lpiTx = false ∧ (s.egress p).cur = none ∧ (selectNext s p).1 = none) ∧
    (∃ (s : State), s.eth.mdioBusy = false) ∧
    (∃ (s : State) (v : Word), s.eth.mdioBusy = true ∧ bitOf v 31 = true) ∧
    (∃ (s : State), s.eth.mdioBusy = true ∧ s.fld 0x40051000 26 2 = 2) ∧
    (∃ (s : State), s.eth.mdioBusy = true ∧ s.fld 0x40051000 26 2 ≠ 2) ∧
    (∃ (s : State), s.eth.mdioBusy = true ∧ s.fld 0x40051000 26 2 = 2 ∧ RegsWf s) ∧
    (∃ (s : State) (p : Fin 12), (s.eport p).link = false) ∧
    (∃ (s : State) (p : Fin 12), (s.eport p).aging = true ∧ (s.eport p).link = false ∧ (selectNext s p).1 = none) ∧
    (∃ (s : State) (p : Fin 12) (c : Nat × Nat), (s.eport p).aging = true ∧ (s.eport p).link = false ∧ (selectNext s p).1 = some c) :=
  ⟨⟨{ eth := { port := [(0, { enabled := true })] } }, 0, 1, true, (1, true), by decide, by decide⟩,
   ⟨{ eth := { port := [(0, { enabled := false })] } }, 0, 0, false, by decide⟩,
   ⟨{ eth := { port := [(0, { link := true })] } }, 0, by decide⟩,
   ⟨{ eth := { port := [(0, { enabled := true, link := false })] }, txn := { conf := [(0x2030000, { len := 2, bytes := [(1, 1)] })] } }, 0, by decide, by decide, by decide⟩,
   ⟨{ eth := { port := [(0, { link := true, lpiTx := false })] }, bob := { egress := [(0, { cur := none })] }, txn := { conf := [(0x2030000, { len := 2, bytes := [(1, 2)] })] } }, 0, by decide, by decide, by decide, by decide, by decide, by decide⟩,
   ⟨{ eth := { mdioBusy := false } }, by decide⟩,
   ⟨{ eth := { mdioBusy := true } }, 0x80000000, by decide, by decide⟩,
   ⟨{ eth := { mdioBusy := true }, regs := [(0x40051000, 0x8000000)] }, by decide, by decide⟩,
   ⟨{ eth := { mdioBusy := true } }, by decide, by decide⟩,
   ⟨{ eth := { mdioBusy := true }, regs := [(0x40051000, 0x8000000)] }, by decide, by decide, rfl⟩,
   ⟨{ eth := { port := [(0, { link := false })] } }, 0, by decide⟩,
   ⟨{ eth := { port := [(0, { aging := true, link := false })] } }, 0, by decide, by decide, by decide⟩,
   ⟨{ tQueued with eth := { port := [(0, { aging := true })] } }, 0, (0, 0), by decide, by decide, by decide⟩⟩

/-- FabricCommands: the hypotheses of each clause are met. -/
theorem witness_FabricCommands :
    (∃ (s : State) (n : Nat) (f : Frame), s.frame? n = some f ∧ f.whole = true ∧ f.eligible = false ∧ f.stage = .held ∧ f.bad = false ∧ f.trunc = false) ∧
    (∃ (s : State) (n : Nat) (f : Frame), s.frame? n = some f ∧ f.whole = true ∧ f.eligible = false ∧ f.stage = .held ∧ f.bad = true ∧ onWire s n = false) ∧
    (∃ (s : State) (n : Nat) (f : Frame), s.frame? n = some f ∧ mayCut s f = true ∧ (s.egress ((directWire s f).getD 0)).cur.isSome = true) ∧
    (∃ (s : State) (n : Nat) (f : Frame), s.frame? n = some f ∧ f.bad = true ∧ onWire s n = true) ∧
    (∃ (s : State) (p : Fin 14) (c : Nat × Nat) (g : Egress), p.val < 12 ∧ (s.egress p).cur = none ∧ portUp s p = true ∧ throughEgress s p = false ∧ selectNext s p = (some c, g)) ∧
    (∃ (s : State) (p : Fin 14), p.val < 12 ∧ (selectNext s p).1 = none) ∧
    (∃ (s : State) (p : Fin 14) (b n d rb : Nat) (f : Frame), 12 ≤ p.val ∧ skeinNext s p = some (b, n) ∧ s.frame? n = some f ∧ remoteOf s f.bobbin = some (d, rb)) ∧
    (∃ (s : State) (p : Fin 14), 12 ≤ p.val ∧ skeinNext s p = none) ∧
    (∃ (s : State) (p : Fin 14) (n : Nat) (f : Frame), p.val < 12 ∧ (s.egress p).cur = some n ∧ s.frame? n = some f ∧ f.whole = true) ∧
    (∃ (s : State), nextTrain s = none) ∧
    (∃ (s : State) (e : QEntry) (f : Frame), nextTrain s = some e ∧ s.frame? e.frame = some f) :=
  ⟨⟨{ bob := { frames := [{ id := 0, bytes := [], ingress := 0, whole := true, stage := .held }] } }, 0, { id := 0, bytes := [], ingress := 0, whole := true, stage := .held }, by decide, by decide, by decide, by decide, by decide, by decide⟩,
   ⟨{ bob := { frames := [{ id := 0, bytes := [], ingress := 0, bad := true, whole := true, stage := .held }] } }, 0, { id := 0, bytes := [], ingress := 0, bad := true, whole := true, stage := .held }, by decide, by decide, by decide, by decide, by decide, by decide⟩,
   ⟨tCut, 0, { id := 0, bytes := [], ingress := 0, stage := .held }, by decide, by decide, by decide⟩,
   ⟨{ bob := { frames := [{ id := 0, bytes := [], ingress := 0, bad := true, whole := true, stage := .held }], egress := [(0, { cur := some 0 })] } }, 0, { id := 0, bytes := [], ingress := 0, bad := true, whole := true, stage := .held }, by decide, by decide, by decide⟩,
   ⟨{ tQueued with eth := { port := [(0, { link := true })] } }, 0, (0, 0), _, by decide, by decide, by decide, by decide, rfl⟩,
   ⟨{}, 0, by decide, by decide⟩,
   ⟨tSkein, 12, 0, 0, _, _, _, by decide, rfl, rfl, rfl⟩,
   ⟨{}, 12, by decide, rfl⟩,
   ⟨{ bob := { frames := [{ id := 0, bytes := [], ingress := 0, whole := true, stage := .held }], egress := [(0, { cur := some 0 })] } }, 0, 0, { id := 0, bytes := [], ingress := 0, whole := true, stage := .held }, by decide, by decide, by decide, by decide⟩,
   ⟨{}, by decide⟩,
   ⟨tTrain, _, _, rfl, rfl⟩⟩

/-- CanControlCommands: the hypotheses of each clause are met. -/
theorem witness_CanControlCommands :
    (∃ (s : State) (n : Fin 8) (who : Owner), canOwner s n = who) ∧
    (∃ (s : State) (n : Fin 8) (who : Owner), canOwner s n ≠ who) ∧
    (∃ (s : State) (n : Fin 8) (who : Owner), canOwner s n = who ∧ (s.canOf n).onBus = none) ∧
    (∃ (s : State) (n : Fin 8) (who : Owner) (b : Nat), canOwner s n = who ∧ (s.canOf n).onBus = some b) ∧
    (∃ (s : State) (n : Fin 8) (b : Nat), CanOn s n ∧ (s.canOf n).listen = false ∧ (s.canOf n).onBus = none ∧ canBest (s.canOf n) = some b) ∧
    (∃ (s : State) (n : Fin 8), canBest (s.canOf n) = none) ∧
    (∃ (s : State) (n : Fin 8), (s.canOf n).enabled = true ∧ (s.canOf n).st = .integrating) ∧
    (∃ (s : State) (n : Fin 8), (s.canOf n).enabled = true ∧ (s.canOf n).st = .busOff) ∧
    (∃ (s : State) (n : Fin 8), (s.canOf n).enabled = true ∧ (s.canOf n).onBus = none) ∧
    (∃ (s : State) (n : Fin 8) (nbt dbt tdc : Word) (h : Nat), (s.canOf n).pend = some (nbt, dbt, tdc, h) ∧ txn? s h = none) ∧
    (∃ (s : State) (n : Fin 8) (nbt dbt tdc : Word) (h : Nat) (forced : Bool), (s.canOf n).pend = some (nbt, dbt, tdc, h) ∧ (forced = true ∨ (s.canOf n).onBus = none)) ∧
    (∃ (s : State) (n : Fin 8), (s.canOf n).pend = none) :=
  ⟨⟨{}, 0, _, rfl⟩,
   ⟨{}, 0, .whorl, by decide⟩,
   ⟨{ can := [(0, { onBus := none })] }, 0, _, rfl, by decide⟩,
   ⟨{ can := [(0, { onBus := (some 0) })] }, 0, _, 0, rfl, by decide⟩,
   ⟨{ can := [(0, { enabled := true, st := .active, txreq := 1 })] }, 0, _, ⟨by decide, by decide⟩, by decide, by decide, rfl⟩,
   ⟨{}, 0, by decide⟩,
   ⟨{ can := [(0, { enabled := true, st := .integrating })] }, 0, by decide, by decide⟩,
   ⟨{ can := [(0, { enabled := true, st := .busOff })] }, 0, by decide, by decide⟩,
   ⟨{ can := [(0, { enabled := true, onBus := none })] }, 0, by decide, by decide⟩,
   ⟨{ can := [(0, { pend := (some (0, 0, 0, 0)) })] }, 0, 0, 0, 0, 0, by decide, by decide⟩,
   ⟨{ can := [(0, { pend := (some (0, 0, 0, 0)) })] }, 0, 0, 0, 0, 0, false, by decide, by decide⟩,
   ⟨{ can := [(0, { pend := none })] }, 0, by decide⟩⟩

/-- CanTrafficCommands: the hypotheses of each clause are met. -/
theorem witness_CanTrafficCommands :
    (∃ (s : State) (n : Fin 8) (b : Nat), (s.canOf n).onBus = some b) ∧
    (∃ (s : State) (n : Fin 8) (b : Nat), (s.canOf n).onBus = some b ∧ bitOf (txbCtlw (s.canOf n) b) 28 = false ∧ (s.canOf n).cancelWait &&& BitVec.ofNat 32 (2 ^ b) = 0) ∧
    (∃ (s : State) (n : Nat), (s.canOf n).tef.length < 16) ∧
    (∃ (s : State) (n : Fin 8), (s.canOf n).onBus = none) ∧
    (∃ (s : State) (n : Fin 8) (x : CanSamples) (g : CanFrame) (i : Nat), CanOn s n ∧ g = canSampled (bitOf (s.canOf n).nbt 31) x ∧ (bitOf g.ctlw 31 = true → (s.canOf n).fden = true) ∧ canRoute s n g.idw = (1, some i) ∧ (s.canOf n).rxf0.length < 32) ∧
    (∃ (s : State) (n : Fin 8) (x : CanSamples) (g : CanFrame) (i : Nat), CanOn s n ∧ g = canSampled (bitOf (s.canOf n).nbt 31) x ∧ (bitOf g.ctlw 31 = true → (s.canOf n).fden = true) ∧ canRoute s n g.idw = (2, some i) ∧ 32 ≤ (s.canOf n).rxf1.length) ∧
    (∃ (s : State) (n : Fin 8) (x : CanSamples) (res : CanRxResult), CanOn s n ∧ (res = .error ∨ (s.canOf n).fden = false ∧ (res = .resRecessive ∨ bitOf (canSampled (bitOf (s.canOf n).nbt 31) x).ctlw 31 = true))) ∧
    (∃ (s : State) (n : Fin 8), CanOn s n ∧ (s.canOf n).fden = true) ∧
    (∃ (s : State) (n : Nat), (s.canOf n).listen = true) ∧
    (∃ (s u : State) (n : Fin 8) (f : CanFrame), s.fld (canBase n + 0x40) 30 2 = 2 ∧ s.sys.mode = .drowse ∧ u = s.setCan n (fun c => { c with fec := if bitOf f.ctlw 31 then c.fec else c.fec - 1 })) ∧
    (∃ (s : State) (n : Fin 8), s.fld (canBase n + 0x40) 30 2 = 2 ∧ s.sys.mode = .drowse) :=
  ⟨⟨{ can := [(0, { onBus := (some 0) })] }, 0, 0, by decide⟩,
   ⟨{ can := [(0, { onBus := (some 0) })] }, 0, 0, by decide, by decide, by decide⟩,
   ⟨{}, 0, by decide⟩,
   ⟨{ can := [(0, { onBus := none })] }, 0, by decide⟩,
   ⟨{ can := [(0, { enabled := true, st := .active })], regs := [(0x40070100, 0x40000000)] }, 0, ⟨⟨0, 0, []⟩, ⟨0, 0, []⟩, ⟨0, 0, []⟩⟩, _, 0, ⟨by decide, by decide⟩, rfl, by decide, by decide, by decide⟩,
   ⟨{ can := [(0, { enabled := true, st := .active, rxf1 := List.replicate 32 ⟨⟨0, 0, []⟩, 0⟩ })], regs := [(0x40070100, 0x80000000)] }, 0, ⟨⟨0, 0, []⟩, ⟨0, 0, []⟩, ⟨0, 0, []⟩⟩, _, 0, ⟨by decide, by decide⟩, rfl, by decide, by decide, by decide⟩,
   ⟨{ can := [(0, { enabled := true, st := .active })] }, 0, ⟨⟨0, 0, []⟩, ⟨0, 0, []⟩, ⟨0, 0, []⟩⟩, .error, ⟨by decide, by decide⟩, by decide⟩,
   ⟨{ can := [(0, { enabled := true, st := .active, fden := true })] }, 0, ⟨by decide, by decide⟩, by decide⟩,
   ⟨{ can := [(0, { listen := true })] }, 0, by decide⟩,
   ⟨{ sys := { mode := .drowse }, regs := [(0x40070040, 0x80000000)] }, _, 0, ⟨0, 0, []⟩, by decide, by decide, rfl⟩,
   ⟨{ sys := { mode := .drowse }, regs := [(0x40070040, 0x80000000)] }, 0, by decide, by decide⟩⟩

/-- TimeCommands: the hypotheses of each clause are met. -/
theorem witness_TimeCommands :
    (∃ (s : State) (k : Fin 8) (v : Word), (bitOf v 0 = true ∨ bitOf v 1 = true) ∧ (s.plyOf k).chg = none) ∧
    (∃ (s : State) (k : Fin 8) (v : Word), ∃ i, (bitOf v 0 = true ∨ bitOf v 1 = true) ∧ (s.plyOf k).chg = none ∧ (chgOf s k v).incr = some i) ∧
    (∃ (s : State) (k : Fin 8) (v : Word), ((bitOf v 0 = false ∧ bitOf v 1 = false) ∨ (s.plyOf k).chg.isSome = true)) ∧
    (∃ (s : State) (k : Fin 8) (c : PlyChange) (e : Hist), (s.plyOf k).chg = some c ∧ c.step = none ∧ c.at' ≤ s.ply.reel ∧ histFor (s.plyOf k).hist c.at' = some e) ∧
    (∃ (s : State) (k : Fin 8) (c : PlyChange) (e : Hist) (a b : Nat), (s.plyOf k).chg = some c ∧ c.step = some (true, a, b) ∧ c.at' ≤ s.ply.reel ∧ histFor (s.plyOf k).hist c.at' = some e ∧ histAt e c.at' 0 < plyTotal a b 0) ∧
    (∃ (s : State) (k : Fin 8), (s.plyOf k).chg = none) ∧
    (∃ (s : State) (k : Fin 8), 1 ≤ tsService s k ∧ tsService s k ≤ 4 ∧ s.sys.limp = false) ∧
    (∃ (s : State) (k : Fin 8), (tsService s k = 0 ∨ s.sys.limp = true)) ∧
    (∃ (s : State) (k : Fin 8), (tsService s k = 2 ∨ tsService s k = 3) ∧ s.sys.limp = false ∧ tsPort s k < 12 ∧ (s.eport (tsPort s k)).link = true) ∧
    (∃ (s : State) (k : Fin 8), 1 ≤ tsService s k ∧ tsService s k ≤ 4 ∧ (s.plyOf k).holdover = false) ∧
    (∃ (s : State), (s.skn.master = false ∨ s.sys.mode = .drowse)) ∧
    (∃ (s : State), s.skn.master = true ∧ s.sys.mode ≠ .drowse) ∧
    (∃ (s u : State) (l : Fin 2) (a : Tick), u = ledgerSkein l 2 a (reachTick a (sknRx l s)) ∧ carries s l 2 = false) ∧
    (∃ (s u : State) (l : Fin 2) (a : Tick), u = ledgerSkein l 2 a (reachTick a (sknRx l s)) ∧ carries s l 2 = true ∧ (s.skn.master = true ∨ s.skn.assigned = false ∨ l.val ≠ (if s.skn.hopsE ≤ s.skn.hopsW then 0 else 1))) ∧
    (∃ (s u : State) (l : Fin 2) (a : Tick), u = ledgerSkein l 2 a (reachTick a (sknRx l s)) ∧ carries s l 2 = true ∧ s.skn.master = false ∧ s.skn.assigned = true ∧ l.val = (if s.skn.hopsE ≤ s.skn.hopsW then 0 else 1)) :=
  ⟨⟨{ ply := { ply := [(0, { chg := none })] } }, 0, 1, by decide, by decide⟩,
   ⟨{ ply := { ply := [(0, { chg := none })] } }, 0, 2, _, by decide, by decide, rfl⟩,
   ⟨{}, 0, 0, by decide⟩,
   ⟨{ ply := { ply := [(0, { chg := some { at' := 0, step := none, incr := some 0 }, hist := [⟨0, 0, 0, 0, 2 ^ 32⟩] })] } }, 0, { at' := 0, step := none, incr := some 0 }, _, by decide, by decide, by decide, rfl⟩,
   ⟨{ ply := { ply := [(0, { chg := some { at' := 0, step := some (true, 1, 0), incr := none }, hist := [⟨0, 0, 0, 0, 2 ^ 32⟩] })] } }, 0, { at' := 0, step := some (true, 1, 0), incr := none }, _, 1, 0, by decide, by decide, by decide, rfl, by decide⟩,
   ⟨{ ply := { ply := [(0, { chg := none })] } }, 0, by decide⟩,
   ⟨{ regs := [(0x40080400, 0x10000000)] }, 0, by decide, by decide, by decide⟩,
   ⟨{}, 0, by decide⟩,
   ⟨{ regs := [(0x40080400, 0x20000000)], eth := { port := [(0, { link := true })] } }, 0, by decide, by decide, by decide, by decide⟩,
   ⟨{ regs := [(0x40080400, 0x10000000)] }, 0, by decide, by decide, by decide⟩,
   ⟨{ skn := { master := false } }, by decide⟩,
   ⟨{ skn := { master := true } }, by decide, by decide⟩,
   ⟨{}, _, 0, 0, rfl, by decide⟩,
   ⟨{ skn := { master := true, link := [(0, { st := .up10g, pathClosed := false })] } }, _, 0, 0, rfl, by decide, by decide⟩,
   ⟨{ skn := { master := false, assigned := true, link := [(0, { st := .up10g, pathClosed := false })] } }, _, 0, 0, rfl, by decide, by decide, by decide, by decide⟩⟩

/-- PanelCommands: the hypotheses of each clause are met. -/
theorem witness_PanelCommands :
    (∃ (s : State), pnlRuns s = false) ∧
    (∃ (s : State), pnlRuns s = true ∧ s.sys.mode ≠ .drowse ∧ s.sys.entering = false) ∧
    (∃ (s : State) (k : Nat) (closed : Bool), closed = (s.key k).pressed) ∧
    (∃ (s : State) (k : Nat), (s.key k).pressed = false ∧ (s.key k).run + 1 < s.fld pnlCfg 0 8) ∧
    (∃ (s : State) (k : Fin 136), pnlRuns s = true ∧ (s.key k).pressed = true ∧ (s.key k).masked = false ∧ (s.key k).noRep = false ∧ keyMode s k = 2) ∧
    (∃ (s : State) (k : Fin 136), pnlRuns s = true ∧ (s.key k).pressed = true ∧ (s.key k).masked = false ∧ s.fld pnlCfg 16 8 ≠ 0) ∧
    (∃ (s : State), s.sys.mode ≠ .drowse ∧ s.pnl.queue.length < 64) ∧
    (∃ (s : State), 64 ≤ s.pnl.queue.length) ∧
    (∃ (s : State) (e : PEntry) (q : List PEntry), s.pnl.queue = e :: q) ∧
    (∃ (s : State), s.pnl.queue = []) ∧
    (∃ (src : ReqSrc) (q : Req) (s t : State) (n : Nat), Served 0x0801 9 anyMode src q s t ∧ n = par q 8 1 ∧ (n = 0 ∨ 30 < n)) ∧
    (∃ (src : ReqSrc) (q : Req) (s t : State) (n : Nat), Served 0x0801 9 anyMode src q s t ∧ n = par q 8 1 ∧ 1 ≤ n ∧ n ≤ 30) ∧
    (∃ (src : ReqSrc) (q : Req) (s t : State), Served 0x0902 28 serviceOnly src q s t) ∧
    (∃ (src : ReqSrc) (q : Req) (s t : State), Served 0x0903 10 spinOrService src q s t ∧ 2 < par q 8 1) ∧
    (∃ (src : ReqSrc) (q : Req) (s t : State), Served 0x0903 10 spinOrService src q s t ∧ par q 8 1 ≤ 1 ∧ 3 < par q 9 1) ∧
    (∃ (src : ReqSrc) (q : Req) (s t : State), Served 0x0903 10 spinOrService src q s t ∧ par q 8 1 = 2 ∧ 0 < par q 9 1) ∧
    (∃ (src : ReqSrc) (q : Req) (s t : State), Served 0x0903 10 spinOrService src q s t ∧ (par q 8 1 ≤ 1 ∧ par q 9 1 ≤ 3 ∨ par q 8 1 = 2 ∧ par q 9 1 = 0)) :=
  ⟨⟨{}, by decide⟩,
   ⟨{ sys := { mode := .spin, entering := false }, regs := [(0x400A0000, 0x80000000)] }, by decide, by decide, by decide⟩,
   ⟨{}, 0, _, rfl⟩,
   ⟨{ pnl := { keys := [(0, { pressed := false })] } }, 0, by decide, by decide⟩,
   ⟨{ sys := { mode := .spin }, pnl := { keys := [(0, { pressed := true, masked := false, noRep := false })] }, regs := [(0x400A0000, 0x80000000), (0x400A0010, 2)] }, 0, by decide, by decide, by decide, by decide, by decide⟩,
   ⟨{ sys := { mode := .spin }, pnl := { keys := [(0, { pressed := true, masked := false })] }, regs := [(0x400A0000, 0x80010000)] }, 0, by decide, by decide, by decide, by decide⟩,
   ⟨{}, by decide, by decide⟩,
   ⟨{ pnl := { queue := List.replicate 64 ⟨0, 0, 0⟩ } }, by decide⟩,
   ⟨{ pnl := { queue := [⟨0, 0, 0⟩] } }, ⟨0, 0, 0⟩, [], by decide⟩,
   ⟨{ pnl := { queue := [] } }, by decide⟩,
   ⟨(.mailbox 0), _, tAsk (.mailbox 0) 0x0801 9 .spin, _, _, ⟨⟨rfl, rfl, by decide, by decide, rfl, by decide⟩, rfl⟩, rfl, by decide⟩,
   ⟨(.mailbox 0), _, tReq 0x0801 9 [1] .spin, _, 1, ⟨⟨rfl, rfl, by decide, by decide, rfl, by decide⟩, rfl⟩, rfl, by decide, by decide⟩,
   ⟨(.mailbox 0), _, tAsk (.mailbox 0) 0x0902 28 .service, _, ⟨⟨rfl, rfl, by decide, by decide, rfl, by decide⟩, rfl⟩⟩,
   ⟨(.mailbox 0), _, tReq 0x0903 10 [3] .spin, _, ⟨⟨rfl, rfl, by decide, by decide, rfl, by decide⟩, rfl⟩, by decide⟩,
   ⟨(.mailbox 0), _, tReq 0x0903 10 [0, 4] .spin, _, ⟨⟨rfl, rfl, by decide, by decide, rfl, by decide⟩, rfl⟩, by decide, by decide⟩,
   ⟨(.mailbox 0), _, tReq 0x0903 10 [2, 1] .spin, _, ⟨⟨rfl, rfl, by decide, by decide, rfl, by decide⟩, rfl⟩, by decide, by decide⟩,
   ⟨(.mailbox 0), _, tAsk (.mailbox 0) 0x0903 10 .spin, _, ⟨⟨rfl, rfl, by decide, by decide, rfl, by decide⟩, rfl⟩, by decide⟩⟩

/-- FlyerDataInstructions: the hypotheses of each clause are met. -/
theorem witness_FlyerDataInstructions :
    (∃ (w : Word), bitOf w 5 = false) ∧
    (∃ (s : State) (f : Fin 48), ((s.flyer f).halted || (s.flyer f).stalled || (s.flyer f).delaying) = true) ∧
    (∃ (s : State) (f : Fin 48) (w : Word), flyReady s f 0x0 = true ∧ flyWord s f = w) ∧
    (∃ (s : State) (f : Fin 48) (w : Word), flyReady s f 0x0 = true ∧ flyWord s f = w ∧ bitsOf w 16 4 = 0) ∧
    (∃ (s : State) (f : Fin 48) (w : Word), flyReady s f 0x0 = true ∧ flyWord s f = w ∧ bitsOf w 16 4 = 5) ∧
    (∃ (s : State) (f : Fin 48) (w : Word), flyReady s f 0x1 = true ∧ flyWord s f = w ∧ awaitHolds s f w = true ∧ bitsOf w 17 2 ≠ 2) ∧
    (∃ (s : State) (f : Fin 48) (w : Word), flyReady s f 0x1 = true ∧ flyWord s f = w ∧ (s.flyer f).go = true ∧ bitsOf w 17 2 = 2) ∧
    (∃ (s : State) (f : Fin 48) (w : Word), flyReady s f 0x1 = true ∧ flyWord s f = w ∧ awaitHolds s f w = false) ∧
    (∃ (s : State) (f : Fin 48) (w : Word), flyReady s f 0x2 = true ∧ flyWord s f = w) ∧
    (∃ (s : State) (f : Fin 48) (w : Word), flyReady s f 0x3 = true ∧ flyWord s f = w) ∧
    (∃ (s : State) (f : Fin 48) (w : Word), flyReady s f 0x3 = true ∧ flyWord s f = w ∧ bitsOf w 17 3 = 1) ∧
    (∃ (s : State) (f : Fin 48) (w : Word), flyReady s f 0x3 = true ∧ flyWord s f = w ∧ bitsOf w 17 3 = 3) ∧
    (∃ (s : State) (f : Fin 48) (w : Word), ∃ v, ∃ r, flyReady s f 0x4 = true ∧ flyWord s f = w ∧ (s.flyer f).outF = v :: r) ∧
    (∃ (s : State) (f : Fin 48) (w : Word), flyReady s f 0x4 = true ∧ flyWord s f = w ∧ (s.flyer f).outF = [] ∧ bitOf w 19 = true) ∧
    (∃ (s : State) (f : Fin 48) (w : Word), flyReady s f 0x4 = true ∧ flyWord s f = w ∧ (s.flyer f).outF = [] ∧ bitOf w 19 = false) ∧
    (∃ (s : State) (f : Fin 48) (w : Word), flyReady s f 0x5 = true ∧ flyWord s f = w ∧ (s.flyer f).inF.length < 8) ∧
    (∃ (s : State) (f : Fin 48) (w : Word), flyReady s f 0x5 = true ∧ flyWord s f = w ∧ 8 ≤ (s.flyer f).inF.length ∧ bitOf w 19 = true) ∧
    (∃ (s : State) (f : Fin 48) (w : Word), flyReady s f 0x5 = true ∧ flyWord s f = w ∧ 8 ≤ (s.flyer f).inF.length ∧ bitOf w 19 = false) :=
  ⟨⟨0, by decide⟩,
   ⟨{}, 0, by decide⟩,
   ⟨tFly 0x0 { halted := false }, 0, _, by decide, rfl⟩,
   ⟨tFly 0x0 { halted := false }, 0, _, by decide, rfl, by decide⟩,
   ⟨tFly 0x50000 { halted := false }, 0, _, by decide, rfl, by decide⟩,
   ⟨tFly 0x100000 { halted := false }, 0, _, by decide, rfl, by decide, by decide⟩,
   ⟨tFly 0x140000 { halted := false, go := true }, 0, _, by decide, rfl, by decide, by decide⟩,
   ⟨tFly 0x180000 { halted := false }, 0, _, by decide, rfl, by decide⟩,
   ⟨tFly 0x200000 { halted := false }, 0, _, by decide, rfl⟩,
   ⟨tFly 0x300000 { halted := false }, 0, _, by decide, rfl⟩,
   ⟨tFly 0x320000 { halted := false }, 0, _, by decide, rfl, by decide⟩,
   ⟨tFly 0x360000 { halted := false }, 0, _, by decide, rfl, by decide⟩,
   ⟨tFly 0x400000 { halted := false, outF := [1] }, 0, _, _, _, by decide, rfl, rfl⟩,
   ⟨tFly 0x480000 { halted := false }, 0, _, by decide, rfl, by decide, by decide⟩,
   ⟨tFly 0x400000 { halted := false }, 0, _, by decide, rfl, by decide, by decide⟩,
   ⟨tFly 0x500000 { halted := false }, 0, _, by decide, rfl, by decide⟩,
   ⟨tFly 0x580000 { halted := false, inF := List.replicate 8 0 }, 0, _, by decide, rfl, by decide, by decide⟩,
   ⟨tFly 0x500000 { halted := false, inF := List.replicate 8 0 }, 0, _, by decide, rfl, by decide, by decide⟩⟩

/-- FlyerControlInstructions: the hypotheses of each clause are met. -/
theorem witness_FlyerControlInstructions :
    (∃ (s : State) (f : Fin 48), ((s.flyer f).halted || (s.flyer f).stalled || (s.flyer f).delaying) = true) ∧
    (∃ (s : State) (f : Fin 48) (w : Word), flyReady s f 0x6 = true ∧ flyWord s f = w) ∧
    (∃ (s : State) (f : Fin 48) (w : Word), flyReady s f 0x6 = true ∧ flyWord s f = w ∧ bitsOf w 17 3 = 1 ∧ bitsOf w 15 2 = 0 ∧ bitsOf w 12 3 = 2) ∧
    (∃ (s : State) (f : Fin 48) (w : Word), flyReady s f 0x6 = true ∧ flyWord s f = w ∧ bitsOf w 17 3 = 3 ∧ bitsOf w 15 2 = 1 ∧ bitsOf w 12 3 = 4) ∧
    (∃ (s : State) (f : Fin 48) (w : Word), flyReady s f 0x6 = true ∧ flyWord s f = w ∧ bitsOf w 17 3 = 2 ∧ bitsOf w 15 2 = 2 ∧ bitsOf w 12 3 = 0) ∧
    (∃ (s : State) (f : Fin 48) (w : Word), flyReady s f 0x7 = true ∧ flyWord s f = w ∧ bitsOf w 17 3 = 2) ∧
    (∃ (s : State) (f : Fin 48) (w : Word), flyReady s f 0x7 = true ∧ flyWord s f = w ∧ bitsOf w 17 3 = 0) ∧
    (∃ (s : State) (f : Fin 48) (w : Word), flyReady s f 0x8 = true ∧ flyWord s f = w) ∧
    (∃ (s : State) (f : Fin 48) (w : Word), flyReady s f 0x9 = true ∧ flyWord s f = w ∧ actBad (s.flyer f).x (s.flyer f).y = true) ∧
    (∃ (s : State) (f : Fin 48) (w : Word), flyReady s f 0x9 = true ∧ flyWord s f = w ∧ actBad (s.flyer f).x (s.flyer f).y = false ∧ 16 ≤ (s.flyer f).aq.length) ∧
    (∃ (s : State) (f : Fin 48) (w : Word), flyReady s f 0x9 = true ∧ flyWord s f = w ∧ actBad (s.flyer f).x (s.flyer f).y = false ∧ (s.flyer f).aq.length < 16) ∧
    (∃ (s : State) (f : Fin 48) (w : Word), flyReady s f 0xA = true ∧ flyWord s f = w ∧ bitOf (s.rd (flyBase f + 0x24)) (bitsOf w 6 2) = false) ∧
    (∃ (s : State) (f : Fin 48) (w : Word), flyReady s f 0xA = true ∧ flyWord s f = w ∧ bitOf (s.rd (flyBase f + 0x24)) (bitsOf w 6 2) = true) ∧
    (∃ (s : State) (f : Fin 48) (w : Word), flyReady s f 0xB = true ∧ flyWord s f = w) ∧
    (∃ (s : State) (f : Fin 48), (s.flyer f).delaying = true) ∧
    (∃ (s : State) (f : Fin 48), (s.flyer f).delaying = false) ∧
    (∃ (s : State) (f : Fin 48), (s.flyer f).halted = false ∧ (s.flyer f).stalled = false ∧ (s.flyer f).delaying = false ∧ flyLegal (flyWord s f) = false) ∧
    (∃ (s : State) (f : Fin 48), flyLegal (flyWord s f) = true) ∧
    (∃ (s : State) (f : Nat), bitOf (s.rd (flyBase f + 0x18)) 9 = false) :=
  ⟨⟨{}, 0, by decide⟩,
   ⟨tFly 0x600000 { halted := false }, 0, _, by decide, rfl⟩,
   ⟨tFly 0x622000 { halted := false }, 0, _, by decide, rfl, by decide, by decide, by decide⟩,
   ⟨tFly 0x66c000 { halted := false }, 0, _, by decide, rfl, by decide, by decide, by decide⟩,
   ⟨tFly 0x650000 { halted := false }, 0, _, by decide, rfl, by decide, by decide, by decide⟩,
   ⟨tFly 0x740000 { halted := false }, 0, _, by decide, rfl, by decide⟩,
   ⟨tFly 0x700000 { halted := false }, 0, _, by decide, rfl, by decide⟩,
   ⟨tFly 0x800000 { halted := false }, 0, _, by decide, rfl⟩,
   ⟨tFly 0x900000 { halted := false, y := 1 }, 0, _, by decide, rfl, by decide⟩,
   ⟨tFly 0x900000 { halted := false, aq := List.replicate 16 { at16 := none, w0 := 0, w1 := 0 } }, 0, _, by decide, rfl, by decide, by decide⟩,
   ⟨tFly 0x900000 { halted := false }, 0, _, by decide, rfl, by decide, by decide⟩,
   ⟨tFly 0xa00000 { halted := false }, 0, _, by decide, rfl, by decide⟩,
   ⟨{ tFly 0xA00000 { halted := false } with regs := [(0x40030024, 1)] }, 0, _, by decide, rfl, by decide⟩,
   ⟨tFly 0xb00000 { halted := false }, 0, _, by decide, rfl⟩,
   ⟨{ fly := { fl := [(0, { delaying := true })] } }, 0, by decide⟩,
   ⟨{ fly := { fl := [(0, { delaying := false })] } }, 0, by decide⟩,
   ⟨tFly 0xf00000 { halted := false }, 0, by decide, by decide, by decide, by decide⟩,
   ⟨{}, 0, by decide⟩,
   ⟨{}, 0, by decide⟩⟩

/-- FlyerEventCommands: the hypotheses of each clause are met. -/
theorem witness_FlyerEventCommands :
    (∃ (s : State) (f : Fin 48) (w : Word), flyWord s f = w ∧ (s.flyer f).stalled = false) ∧
    (∃ (s : State) (f : Fin 48) (w : Word), flyWord s f = w ∧ (s.flyer f).stalled = true ∧ flyOp w = 4 ∧ (s.flyer f).outF = []) ∧
    (∃ (s : State) (f : Fin 48) (w : Word), ∃ v, ∃ r, flyWord s f = w ∧ (s.flyer f).stalled = true ∧ flyOp w = 4 ∧ (s.flyer f).outF = v :: r) ∧
    (∃ (s : State) (f : Fin 48) (w : Word), flyWord s f = w ∧ (s.flyer f).stalled = true ∧ flyOp w = 1 ∧ awaitHolds s f w = true ∧ bitsOf w 17 2 ≠ 2) ∧
    (∃ (s : State) (f : Fin 48) (w : Word), flyWord s f = w ∧ (s.flyer f).stalled = true ∧ flyOp w = 5 ∧ (s.flyer f).inF.length < 8) ∧
    (∃ (s : State) (f : Fin 48) (w : Word), flyWord s f = w ∧ (s.flyer f).stalled = true ∧ flyOp w = 9 ∧ (s.flyer f).aq.length < 16) ∧
    (∃ (s : State) (f : Fin 48) (bs : List Bool) (h : Hunt) (c : Nat), ∃ p, (s.flyer f).hunt.on = true ∧ h = huntTake (s.flyer f).hunt bs ∧ huntSearch s f h (huntPeriod s f) 4096 (max h.start h.base) = (some p, c)) ∧
    (∃ (s : State) (f : Fin 48) (bs : List Bool) (h : Hunt) (c : Nat), (s.flyer f).hunt.on = true ∧ h = huntTake (s.flyer f).hunt bs ∧ huntSearch s f h (huntPeriod s f) 4096 (max h.start h.base) = (none, c)) ∧
    (∃ (s : State) (f : Fin 48), (s.flyer f).hunt.locked = false) ∧
    (∃ (s : State) (f : Fin 48) (who : Owner), flyOwner s f = who) ∧
    (∃ (s : State) (f : Fin 48) (who : Owner), flyOwner s f = who ∧ islandsUp s = true) ∧
    (∃ (s : State) (f : Fin 48) (who : Owner), flyOwner s f ≠ who) ∧
    (∃ (s : State) (f : Fin 48) (a : Action) (d : Nat), (s.flyer f).aq = [a] ∧ a.at16 = some d ∧ BitVec.ofNat 64 (d / 16) ≤ s.ply.reel ∧ (haltAt s f d = true ∨ flySsCount s f = 0)) ∧
    (∃ (s t : State) (f : Fin 48) (v : Word), islandsUp s = true ∧ t = s.regWrite (flyBase f) v) ∧
    (∃ (s : State), s.txn.seamPins = []) ∧
    (∃ (s : State) (p : SeamPin), s.txn.seamPins = [p] ∧ s.txn.txns = []) ∧
    (∃ (s t : State) (b : Fin 6) (pin : Fin 24) (up : Bool), t = s.setPin (24 * b + pin) (fun x => { x with ball := up }) ∧ (s.fld (pinCfg (24 * b + pin)) 16 2 = 0 ∨ islandsUp s = false)) ∧
    (∃ (s t : State) (b : Fin 6) (pin : Fin 24) (up : Bool), t = s.setPin (24 * b + pin) (fun x => { x with ball := up }) ∧ s.fld (pinCfg (24 * b + pin)) 16 2 = 3 ∧ bitOf (s.rd (pinCfg (24 * b + pin))) 7 = false ∧ islandsUp s = true) :=
  ⟨⟨{ fly := { fl := [(0, { stalled := false })] } }, 0, _, rfl, by decide⟩,
   ⟨tFly 0x400000 { stalled := true }, 0, _, rfl, by decide, by decide, by decide⟩,
   ⟨tFly 0x400000 { stalled := true, outF := [1] }, 0, _, _, _, rfl, by decide, by decide, rfl⟩,
   ⟨tFly 0x100000 { stalled := true }, 0, _, rfl, by decide, by decide, by decide, by decide⟩,
   ⟨tFly 0x500000 { stalled := true }, 0, _, rfl, by decide, by decide, by decide⟩,
   ⟨tFly 0x900000 { stalled := true }, 0, _, rfl, by decide, by decide, by decide⟩,
   ⟨{ fly := { fl := [(0, { hunt := { on := true } })] }, regs := [(0x4003000C, 0x80001)] }, 0, List.replicate 80 false, _, _, _, by decide, rfl, rfl⟩,
   ⟨{ fly := { fl := [(0, { hunt := { on := true } })] }, regs := [(0x4003000C, 0x80001)] }, 0, [], _, _, by decide, rfl, rfl⟩,
   ⟨{}, 0, by decide⟩,
   ⟨{}, 0, _, rfl⟩,
   ⟨{ sys := { mode := .spin } }, 0, _, rfl, by decide⟩,
   ⟨{}, 0, .whorl, by decide⟩,
   ⟨{ fly := { fl := [(0, { aq := ([{ at16 := some 0, w0 := 0, w1 := 0 }]) })] } }, 0, { at16 := some 0, w0 := 0, w1 := 0 }, 0, by decide, by decide, by decide, by decide⟩,
   ⟨{ sys := { mode := .spin } }, _, 0, 0, by decide, rfl⟩,
   ⟨{ txn := { seamPins := [] } }, by decide⟩,
   ⟨{ txn := { seamPins := [⟨0, 0, 0, 0⟩], txns := [] } }, ⟨0, 0, 0, 0⟩, by decide, by decide⟩,
   ⟨{}, _, 0, 0, false, rfl, by decide⟩,
   ⟨{ sys := { mode := .spin }, regs := [(0x40034000, 0x30000)] }, _, 0, 0, false, rfl, by decide, by decide, by decide⟩⟩

/-- GeneralRegisterAccess: its hypotheses are met. -/
theorem witness_GeneralRegisterAccess :
    ∃ (g : Tab Word) (r : Nat), Tab.wf (fun _ => 0) g = true ∧ r ≠ 0 :=
  ⟨[], 1, by decide, by decide⟩

/-- YukinRegisterGroup: the hypotheses of each clause are met. -/
theorem witness_YukinRegisterGroup :
    (∃ (c : Core) (ra rb : GReg) (s : State) (a b : Word), coreReady c s ∧ a = gGet (coreG c s) ra.toNat ∧ b = gGet (coreG c s) rb.toNat) ∧
    (∃ (c : Core) (ra : GReg) (s : State) (a : Word), coreReady c s ∧ a = gGet (coreG c s) ra.toNat) ∧
    (∃ (a : Word), a ≠ 0) ∧
    (∃ (a : Word) (i : Nat), a ≠ 0 ∧ i < (clzW a).toNat) ∧
    (∃ (s : State), stwGoes s = false) ∧
    (∃ (s : State), s.whl.slot = none) ∧
    (∃ (s : State) (f : Flt), stwGoes s = true ∧ stwFetch s = some f) ∧
    (∃ (s : State), stwGoes s = true ∧ stwFetch s = none ∧ s.stw.ext = true ∧ s.stw.xbudget = 0) :=
  ⟨⟨.steward, 0, 0, { sys := { mode := .spin } }, _, _, ⟨by decide, by decide, by decide⟩, rfl, rfl⟩,
   ⟨.steward, 0, { sys := { mode := .spin } }, _, ⟨by decide, by decide, by decide⟩, rfl⟩,
   ⟨1, by decide⟩,
   ⟨1, 0, by decide, by decide⟩,
   ⟨{}, by decide⟩,
   ⟨{ whl := { slot := none } }, by decide⟩,
   ⟨{ sys := { mode := .spin }, stw := { pc := 2 } }, _, by decide, rfl⟩,
   ⟨{ sys := { mode := .spin }, stw := { ext := true, seg := tExtSeg } }, by decide, by decide, by decide, by decide⟩⟩

/-- YukinDivision: the hypotheses of each clause are met. -/
theorem witness_YukinDivision :
    (∃ (ra rb : GReg) (s : State) (a : Word), coreReady .steward s ∧ a = gGet s.stw.g ra.toNat ∧ gGet s.stw.g rb.toNat = 0) ∧
    (∃ (ra rb : GReg) (s : State), coreReady .steward s ∧ gGet s.stw.g ra.toNat = 0x80000000 ∧ gGet s.stw.g rb.toNat = 0xFFFFFFFF) ∧
    (∃ (ra rb : GReg) (s : State) (a b : Word), coreReady .steward s ∧ a = gGet s.stw.g ra.toNat ∧ b = gGet s.stw.g rb.toNat ∧ b ≠ 0) ∧
    (∃ (s : State), coreReady .whorl s) :=
  ⟨⟨0, 0, { sys := { mode := .spin } }, _, ⟨by decide, by decide, by decide⟩, rfl, by decide⟩,
   ⟨1, 2, { sys := { mode := .spin }, stw := { g := [(1, 0x80000000), (2, 0xFFFFFFFF)] } }, ⟨by decide, by decide, by decide⟩, by decide, by decide⟩,
   ⟨0, 2, { sys := { mode := .spin }, stw := { g := [(2, 3)] } }, _, _, ⟨by decide, by decide, by decide⟩, rfl, rfl, by decide⟩,
   ⟨tWhl, ⟨_, rfl, by decide, by decide⟩⟩⟩

/-- YukinImmediateGroup: the hypotheses of each clause are met. -/
theorem witness_YukinImmediateGroup :
    (∃ (c : Core) (ra : GReg) (s : State) (a : Word), coreReady c s ∧ a = gGet (coreG c s) ra.toNat) ∧
    (∃ (c : Core) (ra : GReg) (pos wm1 : BitVec 5) (s : State) (a : Word), coreReady c s ∧ a = gGet (coreG c s) ra.toNat ∧ pos.toNat + wm1.toNat + 1 ≤ 32) ∧
    (∃ (c : Core) (rd ra : GReg) (pos wm1 : BitVec 5) (s : State) (a d : Word), coreReady c s ∧ a = gGet (coreG c s) ra.toNat ∧ d = gGet (coreG c s) rd.toNat ∧ pos.toNat + wm1.toNat + 1 ≤ 32) ∧
    (∃ (c : Core) (ra : GReg) (sel : BitVec 16) (s : State) (a : Word), coreReady c s ∧ a = gGet (coreG c s) ra.toNat ∧ (∀ i < 4, sel.toNat / 16 ^ i % 16 / 4 ≠ 3)) ∧
    (∃ (c : Core) (pos wm1 : BitVec 5) (s : State), coreReady c s ∧ 32 < pos.toNat + wm1.toNat + 1) ∧
    (∃ (c : Core) (sel : BitVec 16) (s : State) (i : Nat), coreReady c s ∧ i < 4 ∧ sel.toNat / 16 ^ i % 16 / 4 = 3) :=
  ⟨⟨.steward, 0, { sys := { mode := .spin } }, _, ⟨by decide, by decide, by decide⟩, rfl⟩,
   ⟨.steward, 0, 0, 0, { sys := { mode := .spin } }, _, ⟨by decide, by decide, by decide⟩, rfl, by decide⟩,
   ⟨.steward, 0, 0, 0, 0, { sys := { mode := .spin } }, _, _, ⟨by decide, by decide, by decide⟩, rfl, rfl, by decide⟩,
   ⟨.steward, 0, 0, { sys := { mode := .spin } }, _, ⟨by decide, by decide, by decide⟩, rfl, by decide⟩,
   ⟨.steward, 31, 1, { sys := { mode := .spin } }, ⟨by decide, by decide, by decide⟩, by decide⟩,
   ⟨.steward, 12, { sys := { mode := .spin } }, 0, ⟨by decide, by decide, by decide⟩, by decide, by decide⟩⟩

/-- YukinBranches: the hypotheses of each clause are met. -/
theorem witness_YukinBranches :
    (∃ (c : Core) (ra rb : GReg) (d : BitVec 16) (s : State) (a b goal : Word), coreReady c s ∧ a = gGet (coreG c s) ra.toNat ∧ b = gGet (coreG c s) rb.toNat ∧ goal = corePc c s + 4 + (d.signExtend 32) * 4 ∧ (corePc c s).toNat % 4 = 0) ∧
    (∃ (c : Core) (d : BitVec 26) (s : State) (goal : Word), coreReady c s ∧ goal = corePc c s + 4 + (d.signExtend 32) * 4 ∧ (corePc c s).toNat % 4 = 0) ∧
    (∃ (c : Core) (ra : GReg) (imm : BitVec 16) (s : State) (goal : Word), coreReady c s ∧ goal = gGet (coreG c s) ra.toNat + imm.signExtend 32 ∧ goal.toNat % 4 = 0) ∧
    (∃ (c : Core) (ra : GReg) (imm : BitVec 16) (s : State) (goal : Word), coreReady c s ∧ goal = gGet (coreG c s) ra.toNat + imm.signExtend 32 ∧ goal.toNat % 4 ≠ 0) :=
  ⟨⟨.steward, 0, 0, 0, { sys := { mode := .spin } }, _, _, _, ⟨by decide, by decide, by decide⟩, rfl, rfl, rfl, by decide⟩,
   ⟨.steward, 0, { sys := { mode := .spin } }, _, ⟨by decide, by decide, by decide⟩, rfl, by decide⟩,
   ⟨.steward, 0, 0, { sys := { mode := .spin } }, _, ⟨by decide, by decide, by decide⟩, rfl, by decide⟩,
   ⟨.steward, 0, 2, { sys := { mode := .spin } }, _, ⟨by decide, by decide, by decide⟩, rfl, by decide⟩⟩

/-- YukinLoads: the hypotheses of each clause are met. -/
theorem witness_YukinLoads :
    (∃ (s : State) (sg : Nat) (x : Seg), x = Tab.get (fun _ => {}) s.stw.seg sg) ∧
    (∃ op ∈ ([(.lb, 1, true), (.lbu, 1, false), (.lh, 2, true), (.lhu, 2, false), (.lw, 4, false)] : List ((Core → GReg → GReg → BitVec 4 → BitVec 12 → Instr) × Nat × Bool)), ∃ (rb : GReg) (sg : BitVec 4) (imm : BitVec 12) (s t : State) (off : Word), ∃ f, coreReady .steward s ∧ off = gGet s.stw.g rb.toNat + imm.signExtend 32 ∧ t = stwFetched s ∧ stwCheck s sg.toNat off op.2.1 .read = .error f) ∧
    (∃ op ∈ ([(.lb, 1, true), (.lbu, 1, false), (.lh, 2, true), (.lhu, 2, false), (.lw, 4, false)] : List ((Core → GReg → GReg → BitVec 4 → BitVec 12 → Instr) × Nat × Bool)), ∃ (rb : GReg) (sg : BitVec 4) (imm : BitVec 12) (s t : State) (off : Word), ∃ pa, coreReady .steward s ∧ off = gGet s.stw.g rb.toNat + imm.signExtend 32 ∧ t = stwFetched s ∧ stwCheck s sg.toNat off op.2.1 .read = .ok pa ∧ segDv s sg.toNat = false ∧ pa < 0x100000 ∧ s.stw.sb.reverse.find? (fun e => decide (e.pa < pa + op.2.1 ∧ pa < e.pa + e.size)) = none ∧ eccHit s.stw pa op.2.1 = false) ∧
    (∃ op ∈ ([(.lb, 1, true), (.lbu, 1, false), (.lh, 2, true), (.lhu, 2, false), (.lw, 4, false)] : List ((Core → GReg → GReg → BitVec 4 → BitVec 12 → Instr) × Nat × Bool)), ∃ (rb : GReg) (sg : BitVec 4) (imm : BitVec 12) (s t : State) (off : Word), ∃ pa, ∃ e, coreReady .steward s ∧ off = gGet s.stw.g rb.toNat + imm.signExtend 32 ∧ t = stwFetched s ∧ stwCheck s sg.toNat off op.2.1 .read = .ok pa ∧ segDv s sg.toNat = false ∧ s.stw.sb.reverse.find? (fun e => decide (e.pa < pa + op.2.1 ∧ pa < e.pa + e.size)) = some e ∧ e.pa ≤ pa ∧ pa + op.2.1 ≤ e.pa + e.size) ∧
    (∃ op ∈ ([(.lb, 1, true), (.lbu, 1, false), (.lh, 2, true), (.lhu, 2, false), (.lw, 4, false)] : List ((Core → GReg → GReg → BitVec 4 → BitVec 12 → Instr) × Nat × Bool)), ∃ (rb : GReg) (sg : BitVec 4) (imm : BitVec 12) (s t : State) (off : Word), ∃ pa, ∃ e, ∃ u, coreReady .steward s ∧ off = gGet s.stw.g rb.toNat + imm.signExtend 32 ∧ t = stwFetched s ∧ stwCheck s sg.toNat off op.2.1 .read = .ok pa ∧ segDv s sg.toNat = false ∧ s.stw.sb.reverse.find? (fun e => decide (e.pa < pa + op.2.1 ∧ pa < e.pa + e.size)) = some e ∧ (¬ (e.pa ≤ pa ∧ pa + op.2.1 ≤ e.pa + e.size)) ∧ u = drainN (sbUpTo pa op.2.1 s.stw.sb) t ∧ pa < 0x100000 ∧ eccHit u.stw pa op.2.1 = false) ∧
    (∃ op ∈ ([(.lb, 1, true), (.lbu, 1, false), (.lh, 2, true), (.lhu, 2, false), (.lw, 4, false)] : List ((Core → GReg → GReg → BitVec 4 → BitVec 12 → Instr) × Nat × Bool)), ∃ (rb : GReg) (sg : BitVec 4) (imm : BitVec 12) (s t : State) (off : Word), ∃ pa, coreReady .steward s ∧ off = gGet s.stw.g rb.toNat + imm.signExtend 32 ∧ t = stwFetched s ∧ stwCheck s sg.toNat off op.2.1 .read = .ok pa ∧ segDv s sg.toNat = false ∧ s.stw.sb = [] ∧ eccHit s.stw pa op.2.1 = true) ∧
    (∃ op ∈ ([(.lb, 1, true), (.lbu, 1, false), (.lh, 2, true), (.lhu, 2, false), (.lw, 4, false)] : List ((Core → GReg → GReg → BitVec 4 → BitVec 12 → Instr) × Nat × Bool)), ∃ (rb : GReg) (sg : BitVec 4) (imm : BitVec 12) (s t : State) (off : Word), ∃ pa, ∃ u, coreReady .steward s ∧ off = gGet s.stw.g rb.toNat + imm.signExtend 32 ∧ t = stwFetched s ∧ stwCheck s sg.toNat off op.2.1 .read = .ok pa ∧ segDv s sg.toNat = true ∧ u = drainAll t ∧ 0x40000000 ≤ pa ∧ pa < 0xFFFF0000) ∧
    (∃ op ∈ ([(.lb, 1, true), (.lbu, 1, false), (.lh, 2, true), (.lhu, 2, false), (.lw, 4, false)] : List ((Core → GReg → GReg → BitVec 4 → BitVec 12 → Instr) × Nat × Bool)), ∃ (rb : GReg) (sg : BitVec 4) (imm : BitVec 12) (s : State) (sl : Slot), ∃ v, ∃ u, coreReady .whorl s ∧ s.whl.slot = some sl ∧ whlLoad s sl sg.toNat (gGet sl.g rb.toNat + imm.signExtend 32) op.2.1 = .ok (v, u)) ∧
    (∃ op ∈ ([(.lb, 1, true), (.lbu, 1, false), (.lh, 2, true), (.lhu, 2, false), (.lw, 4, false)] : List ((Core → GReg → GReg → BitVec 4 → BitVec 12 → Instr) × Nat × Bool)), ∃ (rb : GReg) (sg : BitVec 4) (imm : BitVec 12) (s : State) (sl : Slot), ∃ c, coreReady .whorl s ∧ s.whl.slot = some sl ∧ whlLoad s sl sg.toNat (gGet sl.g rb.toNat + imm.signExtend 32) op.2.1 = .error c) ∧
    (∃ (s : State) (sl : Slot), coreReady .whorl s ∧ s.whl.slot = some sl ∧ (∀ n < 256, (sl.profile.getD 12 0).testBit n = true → tinTested s sl n = 0)) ∧
    (∃ (s : State) (sl : Slot) (n : Nat), coreReady .whorl s ∧ s.whl.slot = some sl ∧ n < 256 ∧ (sl.profile.getD 12 0).testBit n = true ∧ tinTested s sl n ≠ 0 ∧ (∀ m < n, (sl.profile.getD 12 0).testBit m = true → tinTested s sl m = 0) ∧ sl.count < 512) :=
  ⟨⟨{}, 0, _, rfl⟩,
   ⟨(.lb, 1, true), .head _, 0, 2, 0, tSteward, _, _, _, ⟨by decide, by decide, by decide⟩, rfl, rfl, rfl⟩,
   ⟨(.lb, 1, true), .head _, 0, 1, 0, tSteward, _, _, _, ⟨by decide, by decide, by decide⟩, rfl, rfl, rfl, by decide, by decide, by decide, by decide⟩,
   ⟨(.lb, 1, true), .head _, 0, 1, 0, { tSteward with stw := { tSteward.stw with sb := [⟨0, 4, 0⟩] } }, _, _, _, _, ⟨by decide, by decide, by decide⟩, rfl, rfl, rfl, by decide, rfl, by decide, by decide⟩,
   ⟨(.lw, 4, false), .tail _ (.tail _ (.tail _ (.tail _ (.head _)))), 0, 1, 0, { tSteward with stw := { tSteward.stw with sb := [⟨0, 1, 0⟩] } }, _, _, _, _, _, ⟨by decide, by decide, by decide⟩, rfl, rfl, rfl, by decide, rfl, by decide, rfl, by decide, by decide⟩,
   ⟨(.lb, 1, true), .head _, 0, 1, 0, { tSteward with stw := { tSteward.stw with eccBad := [(0, true)] } }, _, _, _, ⟨by decide, by decide, by decide⟩, rfl, rfl, rfl, by decide, by decide, by decide⟩,
   ⟨(.lw, 4, false), .tail _ (.tail _ (.tail _ (.tail _ (.head _)))), 0, 1, 0, { sys := { mode := .spin }, stw := { seg := [(0, ⟨0xFFFF0000, 0x10000, 0xB⟩), (1, ⟨0x40080000, 0x10000, 0x27⟩)] } }, _, _, _, _, ⟨by decide, by decide, by decide⟩, rfl, rfl, rfl, by decide, rfl, by decide, by decide⟩,
   ⟨(.lb, 1, true), .head _, 0, 1, 0, tWhl, _, _, _, ⟨_, rfl, by decide, by decide⟩, rfl, rfl⟩,
   ⟨(.lb, 1, true), .head _, 0, 3, 0, tWhl, _, _, ⟨_, rfl, by decide, by decide⟩, rfl, rfl⟩,
   ⟨tWhl, tSlot [], ⟨_, rfl, by decide, by decide⟩, by decide, fun n _ h => by simp [tSlot] at h⟩,
   ⟨{ sys := { mode := .spin }, whl := { slot := some (tSlot [0, 0, 0, 0, 0, 0, 0, 0, 0, 0, 0, 0, 1]), tin := [(0, 1)] } }, _, 0, ⟨_, rfl, by decide, by decide⟩, rfl, by decide, by decide, by decide, by decide, by decide⟩⟩

/-- YukinStores: the hypotheses of each clause are met. -/
theorem witness_YukinStores :
    (∃ op ∈ ([(.sb, 1, 0xFF), (.sh, 2, 0xFFFF), (.sw, 4, 0xFFFFFFFF)] : List ((Core → GReg → GReg → BitVec 4 → BitVec 12 → Instr) × Nat × Word)), ∃ (r rb : GReg) (sg : BitVec 4) (imm : BitVec 12) (s : State) (off v : Word), ∃ pa, ∃ t, coreReady .steward s ∧ off = gGet s.stw.g rb.toNat + imm.signExtend 32 ∧ v = gGet s.stw.g r.toNat &&& op.2.2 ∧ stwCheck s sg.toNat off op.2.1 .write = .ok pa ∧ s.stw.sb.length < 8 ∧ t = coreDid .steward s.stw.g (s.stw.pc + 4) s) ∧
    (∃ op ∈ ([(.sb, 1, 0xFF), (.sh, 2, 0xFFFF), (.sw, 4, 0xFFFFFFFF)] : List ((Core → GReg → GReg → BitVec 4 → BitVec 12 → Instr) × Nat × Word)), ∃ (r rb : GReg) (sg : BitVec 4) (imm : BitVec 12) (s : State) (off v : Word), ∃ pa, ∃ u, coreReady .steward s ∧ off = gGet s.stw.g rb.toNat + imm.signExtend 32 ∧ v = gGet s.stw.g r.toNat &&& op.2.2 ∧ stwCheck s sg.toNat off op.2.1 .write = .ok pa ∧ 8 ≤ s.stw.sb.length ∧ u = drainOne (stwFetched s)) ∧
    (∃ op ∈ ([(.sb, 1, 0xFF), (.sh, 2, 0xFFFF), (.sw, 4, 0xFFFFFFFF)] : List ((Core → GReg → GReg → BitVec 4 → BitVec 12 → Instr) × Nat × Word)), ∃ (r rb : GReg) (sg : BitVec 4) (imm : BitVec 12) (s : State) (off v : Word), ∃ f, coreReady .steward s ∧ off = gGet s.stw.g rb.toNat + imm.signExtend 32 ∧ v = gGet s.stw.g r.toNat &&& op.2.2 ∧ stwCheck s sg.toNat off op.2.1 .write = .error f) ∧
    (∃ op ∈ ([(.sb, 1, 0xFF), (.sh, 2, 0xFFFF), (.sw, 4, 0xFFFFFFFF)] : List ((Core → GReg → GReg → BitVec 4 → BitVec 12 → Instr) × Nat × Word)), ∃ (r rb : GReg) (sg : BitVec 4) (imm : BitVec 12) (s : State) (sl : Slot) (off v : Word), ∃ u, ∃ t, coreReady .whorl s ∧ s.whl.slot = some sl ∧ off = gGet sl.g rb.toNat + imm.signExtend 32 ∧ v = gGet sl.g r.toNat &&& op.2.2 ∧ whlStore sg.toNat off op.2.1 v s sl = .ok (u, t)) ∧
    (∃ op ∈ ([(.sb, 1, 0xFF), (.sh, 2, 0xFFFF), (.sw, 4, 0xFFFFFFFF)] : List ((Core → GReg → GReg → BitVec 4 → BitVec 12 → Instr) × Nat × Word)), ∃ (r rb : GReg) (sg : BitVec 4) (imm : BitVec 12) (s : State) (sl : Slot) (off v : Word), ∃ c, coreReady .whorl s ∧ s.whl.slot = some sl ∧ off = gGet sl.g rb.toNat + imm.signExtend 32 ∧ v = gGet sl.g r.toNat &&& op.2.2 ∧ whlStore sg.toNat off op.2.1 v s sl = .error c) ∧
    (∃ (s : State) (e : SbEntry) (rest : List SbEntry), stewardRuns s = true ∧ s.stw.sb = e :: rest ∧ e.pa < 0x100000 ∧ s.stw.sram.wf = true) ∧
    (∃ (s : State) (e : SbEntry) (rest : List SbEntry), stewardRuns s = true ∧ s.stw.sb = e :: rest ∧ 0x100000 ≤ e.pa) ∧
    (∃ (s : State), s.stw.sb = []) ∧
    (∃ (r rb : GReg) (sg : BitVec 4) (imm : BitVec 12) (s t : State) (off : Word), ∃ pa, ∃ b, ∃ l, ∃ k, ∃ u, coreReady .steward s ∧ r.toNat < 16 ∧ off = gGet s.stw.g rb.toNat + imm.signExtend 32 ∧ t = stwFetched s ∧ s.stw.ext = false ∧ stwCheck s sg.toNat off 16 .read = .ok pa ∧ segDv s sg.toNat = false ∧ s.stw.sb = [] ∧ pa < 0x100000 ∧ eccHit s.stw pa 16 = false ∧ b = s.stw.sram.num pa 4 ∧ l = s.stw.sram.num (pa + 4) 4 ∧ k = s.stw.sram.num (pa + 8) 4 ∧ u = eccFix pa 16 t) ∧
    (∃ (r rb : GReg) (sg : BitVec 4) (imm : BitVec 12) (s t : State) (off : Word), ∃ pa, ∃ x, coreReady .steward s ∧ r.toNat < 16 ∧ off = gGet s.stw.g rb.toNat + imm.signExtend 32 ∧ t = stwFetched s ∧ s.stw.ext = false ∧ stwCheck s sg.toNat off 16 .write = .ok pa ∧ s.stw.sb.length ≤ 4 ∧ x = Tab.get (fun _ => {}) s.stw.seg r.toNat) ∧
    (∃ (r rb : GReg) (sg : BitVec 4) (imm : BitVec 12) (s t : State) (off : Word), ∃ f, coreReady .steward s ∧ r.toNat < 16 ∧ off = gGet s.stw.g rb.toNat + imm.signExtend 32 ∧ t = stwFetched s ∧ s.stw.ext = false ∧ stwCheck s sg.toNat off 16 .write = .error f) ∧
    (∃ (r rb : GReg) (imm : BitVec 12) (s t : State) (off : Word), coreReady .steward s ∧ r.toNat < 16 ∧ off = gGet s.stw.g rb.toNat + imm.signExtend 32 ∧ t = stwFetched s ∧ s.stw.ext = true) ∧
    (∃ (c : Core) (r : GReg) (s : State), coreReady c s ∧ (16 ≤ r.toNat ∨ c = .whorl)) :=
  ⟨⟨(.sb, 1, 0xFF), .head _, 0, 0, 1, 0, tSteward, _, _, _, _, ⟨by decide, by decide, by decide⟩, rfl, rfl, rfl, by decide, rfl⟩,
   ⟨(.sb, 1, 0xFF), .head _, 0, 0, 1, 0, { tSteward with stw := { tSteward.stw with sb := List.replicate 8 ⟨0, 4, 0⟩ } }, _, _, _, _, ⟨by decide, by decide, by decide⟩, rfl, rfl, rfl, by decide, rfl⟩,
   ⟨(.sb, 1, 0xFF), .head _, 0, 0, 2, 0, tSteward, _, _, _, ⟨by decide, by decide, by decide⟩, rfl, rfl, rfl⟩,
   ⟨(.sb, 1, 0xFF), .head _, 0, 0, 1, 0, tWhl, _, _, _, _, _, ⟨_, rfl, by decide, by decide⟩, rfl, rfl, rfl, rfl⟩,
   ⟨(.sb, 1, 0xFF), .head _, 0, 0, 3, 0, tWhl, _, _, _, _, ⟨_, rfl, by decide, by decide⟩, rfl, rfl, rfl, rfl⟩,
   ⟨{ sys := { mode := .spin }, stw := { sb := [⟨0, 4, 0⟩] } }, _, _, by decide, rfl, by decide, by decide⟩,
   ⟨{ sys := { mode := .spin }, stw := { sb := [⟨0x40000000, 4, 0⟩] } }, _, _, by decide, rfl, by decide⟩,
   ⟨{ stw := { sb := [] } }, by decide⟩,
   ⟨0, 0, 1, 0, tSteward, _, _, _, _, _, _, _, ⟨by decide, by decide, by decide⟩, by decide, rfl, rfl, by decide, rfl, by decide, by decide, by decide, by decide, rfl, rfl, rfl, rfl⟩,
   ⟨0, 0, 1, 0, tSteward, _, _, _, _, ⟨by decide, by decide, by decide⟩, by decide, rfl, rfl, by decide, rfl, by decide, rfl⟩,
   ⟨0, 0, 2, 0, tSteward, _, _, _, ⟨by decide, by decide, by decide⟩, by decide, rfl, rfl, by decide, rfl⟩,
   ⟨0, 0, 0, { tSteward with stw := { tSteward.stw with ext := true, xbudget := 1, seg := tExtSeg } }, _, _, ⟨by decide, by decide, by decide⟩, by decide, rfl, rfl, by decide⟩,
   ⟨.steward, 16, { sys := { mode := .spin } }, ⟨by decide, by decide, by decide⟩, by decide⟩⟩

/-- YukinLongInstructions: the hypotheses of each clause are met. -/
theorem witness_YukinLongInstructions :
    (∃ (s : State), coreReady .steward s ∧ gGet s.stw.g 3 = 0) ∧
    (∃ (sd ss : BitVec 4) (s t : State) (n : Nat), ∃ u, ∃ g, ∃ pw, ∃ v, coreReady .steward s ∧ t = stwFetched s ∧ gGet s.stw.g 3 ≠ 0 ∧ n = (if (gGet s.stw.g 1).toNat % 4 = 0 ∧ (gGet s.stw.g 2).toNat % 4 = 0 ∧ 4 ≤ (gGet s.stw.g 3).toNat then 4 else 1) ∧ stwCheck s sd.toNat (gGet s.stw.g 2) n .write = .ok pw ∧ stwLoad ss.toNat (gGet s.stw.g 1) n t = .ok (v, u) ∧ u.stw.sb.length < 8 ∧ u.stw.g = s.stw.g ∧ u.stw.pc = s.stw.pc ∧ g = gSet s.stw.g 3 (gGet s.stw.g 3 - BitVec.ofNat 32 n)) ∧
    (∃ (ss : BitVec 4) (s t : State) (n : Nat), ∃ f, coreReady .steward s ∧ t = stwFetched s ∧ gGet s.stw.g 3 ≠ 0 ∧ n = (if (gGet s.stw.g 1).toNat % 4 = 0 ∧ (gGet s.stw.g 2).toNat % 4 = 0 ∧ 4 ≤ (gGet s.stw.g 3).toNat then 4 else 1) ∧ stwCheck s ss.toNat (gGet s.stw.g 1) n .read = .error f) ∧
    (∃ (sd : BitVec 4) (s : State) (n : Nat), ∃ pa, coreReady .steward s ∧ gGet s.stw.g 3 ≠ 0 ∧ n = (if (gGet s.stw.g 2).toNat % 4 = 0 ∧ 4 ≤ (gGet s.stw.g 3).toNat then 4 else 1) ∧ stwCheck s sd.toNat (gGet s.stw.g 2) n .write = .ok pa ∧ s.stw.sb.length < 8) ∧
    (∃ (sd : BitVec 4) (s : State) (n : Nat), ∃ f, coreReady .steward s ∧ gGet s.stw.g 3 ≠ 0 ∧ n = (if (gGet s.stw.g 2).toNat % 4 = 0 ∧ 4 ≤ (gGet s.stw.g 3).toNat then 4 else 1) ∧ stwCheck s sd.toNat (gGet s.stw.g 2) n .write = .error f) ∧
    (∃ (ss : BitVec 4) (s u : State) (n v : Nat), coreReady .steward s ∧ gGet s.stw.g 3 ≠ 0 ∧ n = (if (gGet s.stw.g 1).toNat % 4 = 0 ∧ 4 ≤ (gGet s.stw.g 3).toNat then 4 else 1) ∧ stwLoad ss.toNat (gGet s.stw.g 1) n (stwFetched s) = .ok (v, u) ∧ u.stw.g = s.stw.g ∧ u.stw.pc = s.stw.pc ∧ u.stw.ext = s.stw.ext) ∧
    (∃ (s : State), coreReady .whorl s) ∧
    (∃ (s : State), coreReady .whorl s ∧ 256 < (gGet (coreG .whorl s) 3).toNat) ∧
    (∃ (s : State), coreReady .whorl s ∧ gGet (coreG .whorl s) 3 = 0) ∧
    (∃ (ss : BitVec 4) (s : State) (sl u : Slot) (n v : Nat), coreReady .whorl s ∧ s.whl.slot = some sl ∧ gGet sl.g 3 ≠ 0 ∧ (gGet sl.g 3).toNat ≤ 256 ∧ n = (if (gGet sl.g 1).toNat % 4 = 0 ∧ 4 ≤ (gGet sl.g 3).toNat then 4 else 1) ∧ whlLoad s sl ss.toNat (gGet sl.g 1) n = .ok (v, u)) :=
  ⟨⟨{ sys := { mode := .spin } }, ⟨by decide, by decide, by decide⟩, by decide⟩,
   ⟨1, 1, tMove, _, _, _, _, _, _, ⟨by decide, by decide, by decide⟩, rfl, by decide, rfl, rfl, rfl, by decide, by decide, by decide, rfl⟩,
   ⟨2, tMove, _, _, _, ⟨by decide, by decide, by decide⟩, rfl, by decide, rfl, rfl⟩,
   ⟨1, tMove, _, _, ⟨by decide, by decide, by decide⟩, by decide, rfl, rfl, by decide⟩,
   ⟨2, tMove, _, _, ⟨by decide, by decide, by decide⟩, by decide, rfl, rfl⟩,
   ⟨1, tMove, _, _, _, ⟨by decide, by decide, by decide⟩, by decide, rfl, rfl, by decide, by decide, by decide⟩,
   ⟨tWhl, ⟨_, rfl, by decide, by decide⟩⟩,
   ⟨{ sys := { mode := .spin }, whl := { slot := some { tSlot [] with g := [(3, 257)] } } }, ⟨_, rfl, by decide, by decide⟩, by decide⟩,
   ⟨tWhl, ⟨_, rfl, by decide, by decide⟩, by decide⟩,
   ⟨1, { tWhlMove with sys := { mode := .spin } }, _, _, _, _, ⟨_, rfl, by decide, by decide⟩, rfl, by decide, by decide, rfl, rfl⟩⟩

/-- YukinSystemGroup: the hypotheses of each clause are met. -/
theorem witness_YukinSystemGroup :
    (∃ (s t : State), coreReady .steward s ∧ t = stwFetched s) ∧
    (∃ (s t : State), coreReady .steward s ∧ t = stwFetched s ∧ s.stw.sb = []) ∧
    (∃ (s t : State), coreReady .steward s ∧ t = stwFetched s ∧ s.stw.ext = false) ∧
    (∃ (code : BitVec 10) (s t : State), coreReady .steward s ∧ t = stwFetched s ∧ (s.stw.ext = false ∨ 1 ≤ code.toNat ∧ code.toNat ≤ 5)) ∧
    (∃ (code : BitVec 10) (s t : State), coreReady .steward s ∧ t = stwFetched s ∧ s.stw.ext = true ∧ (code.toNat = 0 ∨ 5 < code.toNat)) ∧
    (∃ (s : State) (w : Stw), coreReady .steward s ∧ s.stw.ext = false ∧ w = s.stw) ∧
    (∃ (rb : GReg) (s t : State) (v : Word), coreReady .steward s ∧ s.stw.ext = false ∧ v = gGet s.stw.g rb.toNat ∧ t = stwFetched s) ∧
    (∃ (s t : State), coreReady .steward s ∧ s.stw.ext = true ∧ t = stwFault { cause := 2 } (stwFetched s)) ∧
    (∃ (s t : State), coreReady .whorl s ∧ t = contract 1 s) ∧
    (∃ (c : Core) (w : Word) (s : State), coreReady c s ∧ yukinLegal w = false) ∧
    (∃ (w : Word), yukinLegal w = true) :=
  ⟨⟨{ sys := { mode := .spin } }, _, ⟨by decide, by decide, by decide⟩, rfl⟩,
   ⟨{ sys := { mode := .spin }, stw := { sb := [] } }, _, ⟨by decide, by decide, by decide⟩, rfl, by decide⟩,
   ⟨{ sys := { mode := .spin }, stw := { ext := false } }, _, ⟨by decide, by decide, by decide⟩, rfl, by decide⟩,
   ⟨0, { sys := { mode := .spin }, stw := { ext := false } }, _, ⟨by decide, by decide, by decide⟩, rfl, by decide⟩,
   ⟨0, { sys := { mode := .spin }, stw := { ext := true, xbudget := 1, seg := tExtSeg } }, _, ⟨by decide, by decide, by decide⟩, rfl, by decide, by decide⟩,
   ⟨{ sys := { mode := .spin }, stw := { ext := false } }, _, ⟨by decide, by decide, by decide⟩, by decide, rfl⟩,
   ⟨0, { sys := { mode := .spin }, stw := { ext := false } }, _, _, ⟨by decide, by decide, by decide⟩, by decide, rfl, rfl⟩,
   ⟨{ sys := { mode := .spin }, stw := { ext := true, xbudget := 1, seg := tExtSeg } }, _, ⟨by decide, by decide, by decide⟩, by decide, rfl⟩,
   ⟨tWhl, _, ⟨_, rfl, by decide, by decide⟩, rfl⟩,
   ⟨.steward, 0x0000003F, { sys := { mode := .spin } }, ⟨by decide, by decide, by decide⟩, by decide⟩,
   ⟨0, by decide⟩⟩

/-- StewardInterruptCommands: the hypotheses of each clause are met. -/
theorem witness_StewardInterruptCommands :
    (∃ (s : State), s.stw.fh = false ∧ s.stw.ext = false) ∧
    (∃ (s : State), s.stw.fh = true) ∧
    (∃ (s : State) (n : Nat), stewardRuns s = true ∧ s.stw.ie = true ∧ s.stw.fh = false ∧ n < 32 ∧ bitOf (s.stw.ipend &&& s.stw.imask) n = true ∧ (∀ m < n, bitOf (s.stw.ipend &&& s.stw.imask) m = false)) ∧
    (∃ (s : State), (stewardRuns s = false ∨ s.stw.ie = false ∨ s.stw.fh = true ∨ s.stw.ipend &&& s.stw.imask = 0)) ∧
    (∃ (s : State), s.stw.waiting = true ∧ s.stw.ipend &&& s.stw.imask ≠ 0) ∧
    (∃ (s : State), (s.stw.waiting = false ∨ s.stw.ipend &&& s.stw.imask = 0)) ∧
    (∃ (s : State), stewardRuns s = true ∧ s.ply.running = true ∧ s.ply.reel.toNat + 2 ^ 32 ≤ 2 ^ 64) ∧
    (∃ (s : State), (stewardRuns s = false ∨ s.ply.running = false)) :=
  ⟨⟨{ stw := { fh := false, ext := false } }, by decide, by decide⟩,
   ⟨{ stw := { fh := true } }, by decide⟩,
   ⟨{ sys := { mode := .spin }, stw := { ie := true, ipend := 1, imask := 1 } }, 0, by decide, by decide, by decide, by decide, by decide, by decide⟩,
   ⟨{}, by decide⟩,
   ⟨{ stw := { waiting := true, ipend := 1, imask := 1 } }, by decide, by decide⟩,
   ⟨{ stw := { waiting := false } }, by decide⟩,
   ⟨{ sys := { mode := .spin }, ply := { running := true } }, by decide, by decide, by decide⟩,
   ⟨{}, by decide⟩⟩

/-- ExtensionCommands: the hypotheses of each clause are met. -/
theorem witness_ExtensionCommands :
    (∃ (s t : State) (idx code data budget : Nat), stwGoes s = true ∧ s.stw.ext = false ∧ s.stw.extIdx = none ∧ Tab.get (fun _ => (0, 0, 0)) s.stw.exts idx = (code, data, budget) ∧ 0 < code ∧ Tab.get (fun _ => 0) s.stw.extFault idx < 3 ∧ t = drainAll s) ∧
    (∃ (s : State) (idx : Nat), (stwGoes s = false ∨ s.stw.ext = true ∨ s.stw.extIdx.isSome = true ∨ (Tab.get (fun _ => (0, 0, 0)) s.stw.exts idx).1 = 0 ∨ 3 ≤ Tab.get (fun _ => 0) s.stw.extFault idx)) ∧
    (∃ (s : State) (g : Tab Word) (pc : Word) (ie : Bool), svcOpen 1 s = true ∧ s.stw.extSaved = (g, pc, ie)) ∧
    (∃ (s : State), svcOpen 2 s = true) ∧
    (∃ (s : State), svcOpen 3 s = true) ∧
    (∃ (s : State) (k : Nat), svcOpen 4 s = true ∧ k = (gGet s.stw.g 2).toNat ∧ k < 8) ∧
    (∃ (s : State), svcOpen 4 s = true ∧ 8 ≤ (gGet s.stw.g 2).toNat) ∧
    (∃ (s : State) (len n : Nat), svcOpen 5 s = true ∧ s.stw.sb = [] ∧ len = (gGet s.stw.g 2).toNat ∧ n = (gGet s.stw.g 3).toNat ∧ (len < 1 ∨ 244 < len ∨ 32 ≤ n)) ∧
    (∃ (s : State) (len n : Nat), svcOpen 5 s = true ∧ s.stw.sb = [] ∧ len = (gGet s.stw.g 2).toNat ∧ n = (gGet s.stw.g 3).toNat ∧ 1 ≤ len ∧ len ≤ 244 ∧ n < 32 ∧ (bitOf s.hl.hfull n = true ∨ replyDue s n = true)) ∧
    (∃ (s : State) (len n : Nat), svcOpen 5 s = true ∧ s.stw.sb = [] ∧ len = (gGet s.stw.g 2).toNat ∧ n = (gGet s.stw.g 3).toNat ∧ 1 ≤ len ∧ len ≤ 244 ∧ n < 32 ∧ bitOf s.hl.hfull n = false ∧ replyDue s n = false) ∧
    (∃ (s : State) (i : Nat), s.stw.fh = false ∧ s.stw.ext = true ∧ s.stw.extIdx = some i) ∧
    (∃ (s : State), (s.stw.ext = true ∨ s.stw.extIdx = none)) :=
  ⟨⟨{ sys := { mode := .spin }, stw := { exts := [(0, (4, 0, 10))] } }, _, 0, 4, 0, 10, by decide, by decide, by decide, by decide, by decide, by decide, rfl⟩,
   ⟨{}, 0, by decide⟩,
   ⟨tService 1 0, _, _, _, by decide, rfl⟩,
   ⟨tService 2 0, by decide⟩,
   ⟨tService 3 0, by decide⟩,
   ⟨tService 4 0, _, by decide, rfl, by decide⟩,
   ⟨tService 4 8, by decide, by decide⟩,
   ⟨tService 5 0, _, _, by decide, by decide, rfl, rfl, by decide⟩,
   ⟨{ tService 5 4 with hl := { hfull := 1 } }, _, _, by decide, by decide, rfl, rfl, by decide, by decide, by decide, by decide⟩,
   ⟨tService 5 4, _, _, by decide, by decide, rfl, rfl, by decide, by decide, by decide, by decide, by decide⟩,
   ⟨{ stw := { ext := true, extIdx := some 0 } }, 0, by decide, by decide, by decide⟩,
   ⟨{ stw := { ext := true } }, by decide⟩⟩

/-- CommandChecks: the hypotheses of each clause are met. -/
theorem witness_CommandChecks :
    (∃ (q : Req) (st : Status) (d : Nat) (pay msg : List Byte) (n : Fin 32), msg = leBytes 2 (reqCode q) ++ leBytes 2 st.code ++ leBytes 2 d ++ leBytes 2 0 ++ pay ∧ q.src = .mailbox n) ∧
    (∃ (q : Req) (st : Status) (d : Nat) (pay msg : List Byte) (s : State) (dev : BitVec 10) (n : Nat) (u : State), msg = leBytes 2 (reqCode q) ++ leBytes 2 st.code ++ leBytes 2 d ++ leBytes 2 0 ++ pay ∧ q.src = .relay dev n ∧ u = s.setLink (sideTo s dev.toNat) (fun k => { k with txFrm := k.txFrm + 1 })) ∧
    (∃ (src : ReqSrc) (s : State), ∃ q, takenOf s src = some q ∧ reqCode q ∉ knownCodes) ∧
    (∃ (src : ReqSrc) (s : State), (takenOf s src = none ∨ (∃ q, takenOf s src = some q ∧ reqCode q ∈ knownCodes))) ∧
    (∃ data, ∃ row ∈ commandRows data ++ [(.resetWarm, 0x0203, 8, anyMode), (.imgEnd, 0x0405, 8, serviceOnly), (.cascRelay, 0x0703, 20, anyMode)], ∃ (src : ReqSrc) (s : State), (takenOf s src = none ∨ (∃ q, takenOf s src = some q ∧ (reqCode q ≠ row.2.1 ∨ txnAhead s q = true)))) ∧
    (∃ data, ∃ row ∈ commandRows data ++ [(.resetWarm, 0x0203, 8, anyMode), (.imgEnd, 0x0405, 8, serviceOnly), (.cascRelay, 0x0703, 20, anyMode)], ∃ (src : ReqSrc) (s : State), ∃ q, ∃ t, takenOf s src = some q ∧ t = dropTaken q s ∧ reqCode q = row.2.1 ∧ txnAhead s q = false ∧ (row.2.1 = 0x0203 → warmWaits src s = false) ∧ (row.2.1 = 0x0405 → imageUnitsLeft s = false) ∧ (row.2.1 = 0x0703 → relayFull src s = false) ∧ imageNone s = true ∧ row.2.1 ∉ recoveryCodes) ∧
    (∃ data, ∃ row ∈ commandRows data ++ [(.resetWarm, 0x0203, 8, anyMode), (.imgEnd, 0x0405, 8, serviceOnly), (.cascRelay, 0x0703, 20, anyMode)], ∃ (src : ReqSrc) (s : State), ∃ q, ∃ t, takenOf s src = some q ∧ t = dropTaken q s ∧ reqCode q = row.2.1 ∧ txnAhead s q = false ∧ (row.2.1 = 0x0203 → warmWaits src s = false) ∧ (row.2.1 = 0x0405 → imageUnitsLeft s = false) ∧ (row.2.1 = 0x0703 → relayFull src s = false) ∧ (imageNone s = false ∨ row.2.1 ∈ recoveryCodes) ∧ q.msg.length < row.2.2.1) ∧
    (∃ data, ∃ row ∈ commandRows data ++ [(.resetWarm, 0x0203, 8, anyMode), (.imgEnd, 0x0405, 8, serviceOnly), (.cascRelay, 0x0703, 20, anyMode)], ∃ (src : ReqSrc) (s : State), ∃ q, ∃ t, takenOf s src = some q ∧ t = dropTaken q s ∧ reqCode q = row.2.1 ∧ txnAhead s q = false ∧ (row.2.1 = 0x0203 → warmWaits src s = false) ∧ (row.2.1 = 0x0405 → imageUnitsLeft s = false) ∧ (row.2.1 = 0x0703 → relayFull src s = false) ∧ (imageNone s = false ∨ row.2.1 ∈ recoveryCodes) ∧ row.2.2.1 ≤ q.msg.length ∧ row.2.2.2 s.sys.mode = false) ∧
    (∃ (s : State), imageUnitsLeft s = true) ∧
    (∃ (s : State) (n : Fin 32), bitOf s.hl.hfull n.val = true) ∧
    (∃ (src : ReqSrc) (s : State) (q : Req) (m : Member), takenOf s src = some q ∧ m ∈ s.skn.members ∧ m.dev.toNat = par q 8 2 ∧ 512 ≤ (s.skn.relays.filter fun r => r.side == sideTo s (par q 8 2)).length) ∧
    (∃ (s : State) (h : Nat) (x : Txn), txn? s h = some x ∧ x.st = .waiting ∧ x.reelEpoch = false ∧ (s.strand x.strand).run = false ∧ plyFirst x.strand s = s ∧ x.src = none) ∧
    (∃ (s : State) (h : Nat) (x : Txn), txn? s h = some x ∧ x.h = h ∧ x.st = .waiting ∧ x.reelEpoch = true ∧ s.txn.txns = [x] ∧ x.recs = [] ∧ x.persist = false ∧ s.ply.running = true ∧ s.ply.reel < x.tick) ∧
    (∃ (s : State) (h : Nat) (x : Txn) (n : Fin 32), txn? s h = some x ∧ x.st = .applying ∧ x.portsDone = true ∧ x.src = some (.mailbox n)) ∧
    (∃ (d : Due) (h : Nat), d.txn = some h) ∧
    (∃ (s : State) (h : Nat), (∀ x, txn? s h = some x → x.st ≠ .applying ∨ x.portsDone = false)) ∧
    (∃ (s : State) (h : Nat), (∀ x, txn? s h = some x → x.st ≠ .waiting)) ∧
    (∃ (s : State) (h : Nat), (∀ x, txn? s h = some x → x.st ≠ .opened)) ∧
    (∃ (s : State) (h : Nat) (x : Txn), txn? s h = some x ∧ x.st = .opened) :=
  ⟨⟨⟨.mailbox 0, 0, []⟩, .ok, 0, [], _, 0, rfl, by decide⟩,
   ⟨⟨.relay 0 0, 0, []⟩, .ok, 0, [], _, {}, 0, 0, _, rfl, by decide, rfl⟩,
   ⟨(.mailbox 0), { hl := { taken := [⟨.mailbox 0, 0, []⟩] } }, _, rfl, by decide⟩,
   ⟨(.mailbox 0), {}, by decide⟩,
   ⟨none, (.idGet, 0x0101, 8, anyMode), .head _, (.mailbox 0), {}, by decide⟩,
   ⟨none, (.wakeSet, 0x0204, 24, spinOrService), .tail _ (.tail _ (.tail _ (.tail _ (.head _)))), (.mailbox 0), { sys := { krec := { imgNone := true } }, hl := { taken := [⟨.mailbox 0, 0, leBytes 2 0x0204⟩] } }, _, _, rfl, rfl, by decide, by decide, by decide, by decide, by decide, by decide, by decide⟩,
   ⟨none, (.idGet, 0x0101, 8, anyMode), .head _, (.mailbox 0), { sys := {}, hl := { taken := [⟨.mailbox 0, 0, leBytes 2 0x0101⟩] } }, _, _, rfl, rfl, by decide, by decide, by decide, by decide, by decide, by decide, by decide⟩,
   ⟨none, (.wakeSet, 0x0204, 24, spinOrService), .tail _ (.tail _ (.tail _ (.tail _ (.head _)))), (.mailbox 0), { sys := { mode := .brace }, hl := { taken := [⟨.mailbox 0, 0, leBytes 2 0x0204 ++ List.replicate 22 0⟩] } }, _, _, rfl, rfl, by decide, by decide, by decide, by decide, by decide, by decide, by decide, by decide⟩,
   ⟨{ dst := { waiting := [.image 0 []] } }, by decide⟩,
   ⟨{ hl := { hfull := 1 } }, 0, by decide⟩,
   ⟨(.mailbox 0), { hl := { taken := [⟨.mailbox 0, 0, []⟩] }, skn := { members := [{ pos := 0, dev := 0, mode := 0 }], relays := List.replicate 512 ⟨0, .mailbox 0, 0, 0, false, 0⟩ } }, _, _, rfl, .head _, by decide, by decide +kernel⟩,
   ⟨{ txn := { txns := [{ h := 0, st := .waiting }] } }, 0, _, rfl, by decide, by decide, by decide, rfl, by decide⟩,
   ⟨{ txn := { txns := [{ h := 0, st := .waiting, reelEpoch := true, tick := 5 }] }, ply := { running := true } }, 0, { h := 0, st := .waiting, reelEpoch := true, tick := 5 }, rfl, by decide, by decide, by decide, by decide, by decide, by decide, by decide, by decide⟩,
   ⟨{ txn := { txns := [{ h := 0, st := .applying, portsDone := true, src := some (.mailbox 0) }] } }, 0, _, 0, rfl, by decide, by decide, by decide⟩,
   ⟨⟨0, 0, [], some 0⟩, 0, by decide⟩,
   ⟨{}, 0, by decide⟩,
   ⟨{}, 0, by decide⟩,
   ⟨{}, 0, by decide⟩,
   ⟨{ txn := { txns := [{ h := 0 }] } }, 0, { h := 0 }, by decide, by decide⟩⟩

/-- InquiryCommands: the hypotheses of each clause are met. -/
theorem witness_InquiryCommands :
    (∃ row ∈ ([(.idGet, 0x0101, 8, fun _ t => idBytes t), (.kindleReport, 0x0102, 8, fun _ t => kindleBytes t), (.modeGet, 0x0201, 8, fun _ t => regBytes t 0x40000020 ++ regBytes t 0x4000005C), (.imgStatus, 0x0401, 8, fun _ t => imgStatusBytes t), (.imgRefusals, 0x0407, 8, fun _ t => leBytes 8 t.whl.refused.toNat), (.cascStatus, 0x0701, 8, fun _ t => cascBytes t), (.pnlStatus, 0x0802, 8, fun _ t => pnlStatusBytes t), (.tagStatus, 0x0901, 8, fun _ t => tagBytes t), (.rovStatus, 0x0A05, 8, fun _ t => rovStatusBytes t), (.logRead, 0x0B01, 12, fun q t => logReadBytes t.dst (par q 8 4)), (.bobStatus, 0x0503, 10, fun q t => bobBytes t (par q 8 2)), (.wearGet, 0x0B02, 8, fun _ t => (List.range 11).flatMap fun i => regBytes t (0x40010008 + 4 * i)), (.gateGet, 0x0B03, 8, fun _ t => (List.range 4).flatMap fun i => regBytes t (0x400E001C + 4 * i))] : List ((ReqSrc → Instr) × Nat × Nat × (Req → State → List Byte))), ∃ (src : ReqSrc) (q : Req) (s t : State), Served row.2.1 row.2.2.1 anyMode src q s t) ∧
    (∃ (src : ReqSrc) (q : Req) (s t : State), Served 0x0604 8 anyMode src q s t) ∧
    (∃ op ∈ ([(.portStatus, 0x0501), (.portCounters, 0x0502)] : List ((ReqSrc → Instr) × Nat)), ∃ (src : ReqSrc) (q : Req) (s t : State), Served op.2 10 anyMode src q s t ∧ 2 < par q 8 1) ∧
    (∃ op ∈ ([(.portStatus, 0x0501), (.portCounters, 0x0502)] : List ((ReqSrc → Instr) × Nat)), ∃ (src : ReqSrc) (q : Req) (s t : State), Served op.2 10 anyMode src q s t ∧ par q 8 1 ≤ 2 ∧ [12, 8, 2].getD (par q 8 1) 0 ≤ par q 9 1) ∧
    (∃ (src : ReqSrc) (q : Req) (s t : State) (i : Nat) (m : Nat → Nat → Tick → List Byte), Served 0x0501 10 anyMode src q s t ∧ i = par q 9 1 ∧ (∀ st sp at_, m st sp at_ = leBytes 1 st ++ leBytes 1 sp ++ leBytes 2 0 ++ leBytes 4 0 ++ leBytes 8 at_.toNat) ∧ par q 8 1 = 0 ∧ i < 12) ∧
    (∃ (src : ReqSrc) (q : Req) (s t : State) (i : Nat) (m : Nat → Nat → Tick → List Byte), Served 0x0501 10 anyMode src q s t ∧ i = par q 9 1 ∧ (∀ st sp at_, m st sp at_ = leBytes 1 st ++ leBytes 1 sp ++ leBytes 2 0 ++ leBytes 4 0 ++ leBytes 8 at_.toNat) ∧ par q 8 1 = 1 ∧ i < 8) ∧
    (∃ (src : ReqSrc) (q : Req) (s t : State) (i : Nat) (m : Nat → Nat → Tick → List Byte), Served 0x0501 10 anyMode src q s t ∧ i = par q 9 1 ∧ (∀ st sp at_, m st sp at_ = leBytes 1 st ++ leBytes 1 sp ++ leBytes 2 0 ++ leBytes 4 0 ++ leBytes 8 at_.toNat) ∧ par q 8 1 = 2 ∧ i < 2) ∧
    (∃ (src : ReqSrc) (q : Req) (s t : State), Served 0x0502 10 anyMode src q s t ∧ par q 8 1 ≤ 2 ∧ par q 9 1 < [12, 8, 2].getD (par q 8 1) 0) ∧
    (∃ (src : ReqSrc) (q : Req) (s t : State) (k : Nat), Served 0x0601 9 anyMode src q s t ∧ k = par q 8 1) ∧
    (∃ (src : ReqSrc) (q : Req) (s t : State) (r : Option (Nat × Nat)), Served 0x0605 24 anyMode src q s t ∧ r = tickToPly t (par q 8 1) (BitVec.ofNat 64 (par q 16 8)) 0) ∧
    (∃ (src : ReqSrc) (q : Req) (s t : State), Served 0x0702 10 anyMode src q s t) ∧
    (∃ (src : ReqSrc) (q : Req) (s t : State), Served 0x0306 12 anyMode src q s t) ∧
    (∃ src, ∃ q, ∃ s, ∃ t, ∃ item, ∃ inst, ∃ off, ∃ len, Served 0x0307 18 anyMode src q s t ∧ item = par q 8 2 ∧ inst = par q 10 2 ∧ off = par q 12 4 ∧ len = par q 16 2 ∧ itemKnown item inst = false) ∧
    (∃ src, ∃ q, ∃ s, ∃ t, ∃ item, ∃ inst, ∃ off, ∃ len, Served 0x0307 18 anyMode src q s t ∧ item = par q 8 2 ∧ inst = par q 10 2 ∧ off = par q 12 4 ∧ len = par q 16 2 ∧ itemKnown item inst = true) :=
  ⟨⟨(.idGet, 0x0101, 8, fun _ t => idBytes t), .head _, (.mailbox 0), _, tAsk (.mailbox 0) 0x0101 8 .spin, _, ⟨⟨rfl, rfl, by decide, by decide, rfl, by decide⟩, rfl⟩⟩,
   ⟨(.mailbox 0), _, tAsk (.mailbox 0) 0x0604 8 .spin, _, ⟨⟨rfl, rfl, by decide, by decide, rfl, by decide⟩, rfl⟩⟩,
   ⟨(.portStatus, 0x0501), .head _, (.mailbox 0), _, tReq 0x0501 10 [3] .spin, _, ⟨⟨rfl, rfl, by decide, by decide, rfl, by decide⟩, rfl⟩, by decide⟩,
   ⟨(.portStatus, 0x0501), .head _, (.mailbox 0), _, tReq 0x0501 10 [2, 2] .spin, _, ⟨⟨rfl, rfl, by decide, by decide, rfl, by decide⟩, rfl⟩, by decide, by decide⟩,
   ⟨(.mailbox 0), _, tReq 0x0501 10 [0, 0] .spin, _, _, fun st sp at_ => leBytes 1 st ++ leBytes 1 sp ++ leBytes 2 0 ++ leBytes 4 0 ++ leBytes 8 at_.toNat, ⟨⟨rfl, rfl, by decide, by decide, rfl, by decide⟩, rfl⟩, rfl, fun _ _ _ => rfl, by decide, by decide⟩,
   ⟨(.mailbox 0), _, tReq 0x0501 10 [1, 0] .spin, _, _, fun st sp at_ => leBytes 1 st ++ leBytes 1 sp ++ leBytes 2 0 ++ leBytes 4 0 ++ leBytes 8 at_.toNat, ⟨⟨rfl, rfl, by decide, by decide, rfl, by decide⟩, rfl⟩, rfl, fun _ _ _ => rfl, by decide, by decide⟩,
   ⟨(.mailbox 0), _, tReq 0x0501 10 [2, 0] .spin, _, _, fun st sp at_ => leBytes 1 st ++ leBytes 1 sp ++ leBytes 2 0 ++ leBytes 4 0 ++ leBytes 8 at_.toNat, ⟨⟨rfl, rfl, by decide, by decide, rfl, by decide⟩, rfl⟩, rfl, fun _ _ _ => rfl, by decide, by decide⟩,
   ⟨(.mailbox 0), _, tAsk (.mailbox 0) 0x0502 10 .spin, _, ⟨⟨rfl, rfl, by decide, by decide, rfl, by decide⟩, rfl⟩, by decide, by decide⟩,
   ⟨(.mailbox 0), _, tAsk (.mailbox 0) 0x0601 9 .spin, _, _, ⟨⟨rfl, rfl, by decide, by decide, rfl, by decide⟩, rfl⟩, rfl⟩,
   ⟨(.mailbox 0), _, tAsk (.mailbox 0) 0x0605 24 .spin, _, _, ⟨⟨rfl, rfl, by decide, by decide, rfl, by decide⟩, rfl⟩, rfl⟩,
   ⟨(.mailbox 0), _, tAsk (.mailbox 0) 0x0702 10 .spin, _, ⟨⟨rfl, rfl, by decide, by decide, rfl, by decide⟩, rfl⟩⟩,
   ⟨(.mailbox 0), _, tAsk (.mailbox 0) 0x0306 12 .spin, _, ⟨⟨rfl, rfl, by decide, by decide, rfl, by decide⟩, rfl⟩⟩,
   ⟨(.mailbox 0), _, tReq 0x0307 18 [9] .spin, _, _, _, _, _, ⟨⟨rfl, rfl, by decide, by decide, rfl, by decide⟩, rfl⟩, rfl, rfl, rfl, rfl, by decide⟩,
   ⟨(.mailbox 0), _, tReq 0x0307 18 [1] .spin, _, _, _, _, _, ⟨⟨rfl, rfl, by decide, by decide, rfl, by decide⟩, rfl⟩, rfl, rfl, rfl, rfl, by decide⟩⟩

/-- ModeSetCommands: the hypotheses of each clause are met. -/
theorem witness_ModeSetCommands :
    (∃ (src : ReqSrc) (q : Req) (s t : State), Served 0x0202 9 spinOrService src q s t ∧ par q 8 1 ∉ [2, 4, 5]) ∧
    (∃ (src : ReqSrc) (q : Req) (s t : State), Served 0x0202 9 spinOrService src q s t ∧ par q 8 1 = modeNum s.sys.mode) ∧
    (∃ (src : ReqSrc) (q : Req) (s t : State), Served 0x0202 9 spinOrService src q s t ∧ s.sys.mode = .spin ∧ s.sys.entering = true ∧ par q 8 1 = 5) ∧
    (∃ (src : ReqSrc) (q : Req) (s t : State), Served 0x0202 9 spinOrService src q s t ∧ s.sys.mode = .spin ∧ s.sys.entering = true ∧ par q 8 1 = 4) ∧
    (∃ (src : ReqSrc) (q : Req) (s t : State), Served 0x0202 9 spinOrService src q s t ∧ s.sys.mode = .spin ∧ s.sys.entering = false ∧ par q 8 1 = 5 ∧ commitsRun s = true) ∧
    (∃ (src : ReqSrc) (q : Req) (s t : State), Served 0x0202 9 spinOrService src q s t ∧ s.sys.mode = .spin ∧ s.sys.entering = false ∧ par q 8 1 = 5 ∧ commitsRun s = false) ∧
    (∃ (src : ReqSrc) (q : Req) (s t : State), Served 0x0202 9 spinOrService src q s t ∧ s.sys.mode = .service ∧ s.sys.entering = false ∧ par q 8 1 = 2 ∧ s.sys.imgUpdated = false) ∧
    (∃ (src : ReqSrc) (q : Req) (s t : State), Served 0x0202 9 spinOrService src q s t ∧ s.sys.mode = .service ∧ s.sys.entering = false ∧ par q 8 1 = 2 ∧ s.sys.imgUpdated = true) ∧
    (∃ (src : ReqSrc) (q : Req) (s t : State), Served 0x0202 9 spinOrService src q s t ∧ s.sys.mode = .service ∧ s.sys.entering = false ∧ par q 8 1 = 4) ∧
    (∃ (src : ReqSrc) (q : Req) (s t : State), Served 0x0202 9 spinOrService src q s t ∧ s.sys.mode = .spin ∧ s.sys.entering = false ∧ par q 8 1 = 4 ∧ (txnOpen s = true ∨ s.pwr.senseWarn = true)) ∧
    (∃ (src : ReqSrc) (q : Req) (s t : State), Served 0x0202 9 spinOrService src q s t ∧ s.sys.mode = .spin ∧ s.sys.entering = false ∧ par q 8 1 = 4 ∧ txnOpen s = false ∧ s.pwr.senseWarn = false ∧ (commitsRun s = true ∨ dstBusy s = true ∨ panelBusy t = true)) ∧
    (∃ (src : ReqSrc) (q : Req) (s t : State), Served 0x0202 9 spinOrService src q s t ∧ s.sys.mode = .spin ∧ s.sys.entering = false ∧ par q 8 1 = 4 ∧ txnOpen s = false ∧ s.pwr.senseWarn = false ∧ commitsRun s = false ∧ dstBusy s = false ∧ panelBusy t = false) ∧
    (∃ (n : Fin 32) (q : Req) (s t : State), Served 0x0203 8 anyMode (.mailbox n) q s t ∧ q.src = .mailbox n ∧ bitOf s.hl.hfull n.val = false) ∧
    (∃ (dev : BitVec 10) (m : Nat) (q : Req) (s t : State), Served 0x0203 8 anyMode (.relay dev m) q s t ∧ q.src = .relay dev m) ∧
    (∃ (src : ReqSrc) (q : Req) (s t : State), Served 0x0204 24 spinOrService src q s t) :=
  ⟨⟨(.mailbox 0), _, tAsk (.mailbox 0) 0x0202 9 .spin, _, ⟨⟨rfl, rfl, by decide, by decide, rfl, by decide⟩, rfl⟩, by decide⟩,
   ⟨(.mailbox 0), _, tReq 0x0202 9 [2] .spin, _, ⟨⟨rfl, rfl, by decide, by decide, rfl, by decide⟩, rfl⟩, by decide⟩,
   ⟨(.mailbox 0), _, { tReq 0x0202 9 [5] .spin with sys := { mode := .spin, entering := true } }, _, ⟨⟨rfl, rfl, by decide, by decide, rfl, by decide⟩, rfl⟩, by decide, by decide, by decide⟩,
   ⟨(.mailbox 0), _, { tReq 0x0202 9 [4] .spin with sys := { mode := .spin, entering := true } }, _, ⟨⟨rfl, rfl, by decide, by decide, rfl, by decide⟩, rfl⟩, by decide, by decide, by decide⟩,
   ⟨(.mailbox 0), _, { tReq 0x0202 9 [5] .spin with sys := { mode := .spin, entering := false }, txn := { txns := [{ h := 0, st := .waiting }] } }, _, ⟨⟨rfl, rfl, by decide, by decide, rfl, by decide⟩, rfl⟩, by decide, by decide, by decide, by decide⟩,
   ⟨(.mailbox 0), _, { tReq 0x0202 9 [5] .spin with sys := { mode := .spin, entering := false } }, _, ⟨⟨rfl, rfl, by decide, by decide, rfl, by decide⟩, rfl⟩, by decide, by decide, by decide, by decide⟩,
   ⟨(.mailbox 0), _, { tReq 0x0202 9 [2] .service with sys := { mode := .service, entering := false, imgUpdated := false } }, _, ⟨⟨rfl, rfl, by decide, by decide, rfl, by decide⟩, rfl⟩, by decide, by decide, by decide, by decide⟩,
   ⟨(.mailbox 0), _, { tReq 0x0202 9 [2] .service with sys := { mode := .service, entering := false, imgUpdated := true } }, _, ⟨⟨rfl, rfl, by decide, by decide, rfl, by decide⟩, rfl⟩, by decide, by decide, by decide, by decide⟩,
   ⟨(.mailbox 0), _, { tReq 0x0202 9 [4] .service with sys := { mode := .service, entering := false } }, _, ⟨⟨rfl, rfl, by decide, by decide, rfl, by decide⟩, rfl⟩, by decide, by decide, by decide⟩,
   ⟨(.mailbox 0), _, { tReq 0x0202 9 [4] .spin with sys := { mode := .spin, entering := false }, pwr := { senseWarn := true } }, _, ⟨⟨rfl, rfl, by decide, by decide, rfl, by decide⟩, rfl⟩, by decide, by decide, by decide, by decide⟩,
   ⟨(.mailbox 0), _, { tReq 0x0202 9 [4] .spin with sys := { mode := .spin, entering := false }, pwr := { senseWarn := false }, txn := { txns := [{ h := 0, st := .waiting }] } }, _, ⟨⟨rfl, rfl, by decide, by decide, rfl, by decide⟩, rfl⟩, by decide, by decide, by decide, by decide, by decide, by decide⟩,
   ⟨(.mailbox 0), _, { tReq 0x0202 9 [4] .spin with sys := { mode := .spin, entering := false }, pwr := { senseWarn := false } }, _, ⟨⟨rfl, rfl, by decide, by decide, rfl, by decide⟩, rfl⟩, by decide, by decide, by decide, by decide, by decide, by decide, by decide, by decide⟩,
   ⟨0, _, tAsk (.mailbox 0) 0x0203 8 .spin, _, ⟨⟨rfl, rfl, by decide, by decide, rfl, by decide⟩, rfl⟩, by decide, by decide⟩,
   ⟨0, 0, _, tAsk (.relay 0 0) 0x0203 8 .spin, _, ⟨⟨rfl, rfl, by decide, by decide, rfl, by decide⟩, rfl⟩, by decide⟩,
   ⟨(.mailbox 0), _, tAsk (.mailbox 0) 0x0204 24 .spin, _, ⟨⟨rfl, rfl, by decide, by decide, rfl, by decide⟩, rfl⟩⟩⟩

/-- TransactionCommands: the hypotheses of each clause are met. -/
theorem witness_TransactionCommands :
    (∃ (src : ReqSrc) (q : Req) (s t : State), Served 0x0301 8 workModes src q s t ∧ 4 ≤ (s.txn.txns.filter txnLive).length) ∧
    (∃ (src : ReqSrc) (q : Req) (s t : State), Served 0x0301 8 workModes src q s t ∧ (s.txn.txns.filter txnLive).length < 4) ∧
    (∃ (src : ReqSrc) (q : Req) (s t : State) (x : Txn), ∃ rs, Served 0x0302 12 workModes src q s t ∧ NamesOpen s q x ∧ stageCheck t x (q.msg.drop 12) = .ok rs) ∧
    (∃ (src : ReqSrc) (q : Req) (s t : State) (x : Txn), ∃ e, ∃ d, Served 0x0302 12 workModes src q s t ∧ NamesOpen s q x ∧ stageCheck t x (q.msg.drop 12) = .error (e, d)) ∧
    (∃ (src : ReqSrc) (q : Req) (s t : State), Served 0x0303 24 workModes src q s t ∧ spiSelected s = true) ∧
    (∃ (src : ReqSrc) (q : Req) (s t : State), Served 0x0303 24 workModes src q s t ∧ spiSelected s = false ∧ (par q 12 4 = 0 ∨ 984000 < par q 12 4)) ∧
    (∃ (src : ReqSrc) (q : Req) (s t : State), ∃ x, Served 0x0303 24 workModes src q s t ∧ spiSelected s = false ∧ 1 ≤ par q 12 4 ∧ par q 12 4 ≤ 984000 ∧ NamesOpen s q x) ∧
    (∃ (src : ReqSrc) (q : Req) (s t : State), ∃ x, ∃ (bs : List Byte), ∃ rs, Served 0x0303 24 workModes src q s t ∧ spiSelected s = false ∧ 1 ≤ par q 12 4 ∧ par q 12 4 ≤ 984000 ∧ NamesOpen s q x ∧ stageCheck t x (bs.take (par q 12 4)) = .ok rs) ∧
    (∃ (src : ReqSrc) (q : Req) (s t : State) (r : CommitReq), Served 0x0304 24 spinOrService src q s t ∧ r = { persist := (par q 10 2).testBit 0, nonatomicOk := (par q 10 2).testBit 1, ekind := par q 12 1, strand := par q 13 1, tick := BitVec.ofNat 64 (par q 16 8) } ∧ 1 < r.ekind) ∧
    (∃ (src : ReqSrc) (q : Req) (s t : State) (r : CommitReq), Served 0x0304 24 spinOrService src q s t ∧ r = { persist := (par q 10 2).testBit 0, nonatomicOk := (par q 10 2).testBit 1, ekind := par q 12 1, strand := par q 13 1, tick := BitVec.ofNat 64 (par q 16 8) } ∧ r.ekind = 0 ∧ 3 < r.strand) ∧
    (∃ (src : ReqSrc) (q : Req) (s t : State) (r : CommitReq), Served 0x0304 24 spinOrService src q s t ∧ r = { persist := (par q 10 2).testBit 0, nonatomicOk := (par q 10 2).testBit 1, ekind := par q 12 1, strand := par q 13 1, tick := BitVec.ofNat 64 (par q 16 8) } ∧ r.ekind = 1 ∧ epochFar t 1 r.tick = true) ∧
    (∃ (src : ReqSrc) (q : Req) (s t : State) (r : CommitReq), ∃ x, ∃ e, ∃ d, Served 0x0304 24 spinOrService src q s t ∧ r = { persist := (par q 10 2).testBit 0, nonatomicOk := (par q 10 2).testBit 1, ekind := par q 12 1, strand := par q 13 1, tick := BitVec.ofNat 64 (par q 16 8) } ∧ (r.ekind = 0 ∧ r.strand ≤ 3 ∨ r.ekind = 1 ∧ epochFar t 1 r.tick = false) ∧ NamesOpen s q x ∧ commitRefused t x r = some (e, d)) ∧
    (∃ (src : ReqSrc) (q : Req) (s t : State) (r : CommitReq), ∃ x, Served 0x0304 24 spinOrService src q s t ∧ r = { persist := (par q 10 2).testBit 0, nonatomicOk := (par q 10 2).testBit 1, ekind := par q 12 1, strand := par q 13 1, tick := BitVec.ofNat 64 (par q 16 8) } ∧ (r.ekind = 0 ∧ r.strand ≤ 3 ∨ r.ekind = 1 ∧ epochFar t 1 r.tick = false) ∧ NamesOpen s q x ∧ commitRefused t x r = none) ∧
    (∃ (src : ReqSrc) (q : Req) (s t : State), ∃ x, Served 0x0305 10 workModes src q s t ∧ NamesOpen s q x ∧ x.src = none ∧ s.dst.staged = none ∧ s.dst.inflight = none) ∧
    (∃ (src : ReqSrc) (q : Req) (s t : State), ∃ x, Served 0x0305 10 workModes src q s t ∧ txn? s (par q 8 2) = some x ∧ x.expired = false ∧ (x.st = .applying ∨ x.st = .done ∨ x.st = .aborted)) ∧
    (∃ op ∈ ([(.txnStage, 0x0302, 12), (.txnAbort, 0x0305, 10)] : List ((ReqSrc → Instr) × Nat × Nat)), ∃ (src : ReqSrc) (q : Req) (s t : State), Served op.2.1 op.2.2 workModes src q s t ∧ txn? s (par q 8 2) = none) ∧
    (∃ op ∈ ([(.txnStage, 0x0302, 12), (.txnAbort, 0x0305, 10)] : List ((ReqSrc → Instr) × Nat × Nat)), ∃ (src : ReqSrc) (q : Req) (s t : State), ∃ x, Served op.2.1 op.2.2 workModes src q s t ∧ txn? s (par q 8 2) = some x ∧ x.expired = true) ∧
    (∃ op ∈ ([(.txnStage, 0x0302, 12), (.txnAbort, 0x0305, 10)] : List ((ReqSrc → Instr) × Nat × Nat)), ∃ (src : ReqSrc) (q : Req) (s t : State), ∃ x, Served op.2.1 op.2.2 workModes src q s t ∧ txn? s (par q 8 2) = some x ∧ x.expired = false ∧ x.st = .done) :=
  ⟨⟨(.mailbox 0), _, { tAsk (.mailbox 0) 0x0301 8 .spin with txn := { txns := List.replicate 4 { h := 0 } } }, _, ⟨⟨rfl, rfl, by decide, by decide, rfl, by decide⟩, rfl⟩, by decide⟩,
   ⟨(.mailbox 0), _, tAsk (.mailbox 0) 0x0301 8 .spin, _, ⟨⟨rfl, rfl, by decide, by decide, rfl, by decide⟩, rfl⟩, by decide⟩,
   ⟨(.mailbox 0), _, { tAsk (.mailbox 0) 0x0302 12 .spin with txn := { txns := [{ h := 0 }] } }, _, { h := 0 }, _, ⟨⟨rfl, rfl, by decide, by decide, rfl, by decide⟩, rfl⟩, ⟨rfl, rfl, rfl⟩, rfl⟩,
   ⟨(.mailbox 0), _, { sys := { mode := .spin }, txn := { txns := [{ h := 0 }] }, hl := { ready := true, taken := [⟨.mailbox 0, 0, leBytes 2 0x302 ++ List.replicate 10 0 ++ [1]⟩] } }, _, { h := 0 }, _, _, ⟨⟨rfl, rfl, by decide, by decide, rfl, by decide⟩, rfl⟩, ⟨rfl, rfl, rfl⟩, rfl⟩,
   ⟨(.mailbox 0), _, { tAsk (.mailbox 0) 0x0303 24 .spin with sys := { straps := ⟨false, 1, 0⟩, mode := .spin } }, _, ⟨⟨rfl, rfl, by decide, by decide, rfl, by decide⟩, rfl⟩, by decide⟩,
   ⟨(.mailbox 0), _, tAsk (.mailbox 0) 0x0303 24 .spin, _, ⟨⟨rfl, rfl, by decide, by decide, rfl, by decide⟩, rfl⟩, by decide, by decide⟩,
   ⟨(.mailbox 0), _, { tReq 0x0303 24 [0, 0, 0, 0, 4] .spin with txn := { txns := [{ h := 0 }] } }, _, _, ⟨⟨rfl, rfl, by decide, by decide, rfl, by decide⟩, rfl⟩, by decide, by decide, by decide, ⟨rfl, rfl, rfl⟩⟩,
   ⟨(.mailbox 0), _, { tReq 0x0303 24 [0, 0, 0, 0, 4] .spin with txn := { txns := [{ h := 0 }] } }, _, _, List.replicate 4 0, _, ⟨⟨rfl, rfl, by decide, by decide, rfl, by decide⟩, rfl⟩, by decide, by decide, by decide, ⟨rfl, rfl, rfl⟩, rfl⟩,
   ⟨(.mailbox 0), _, tReq 0x0304 24 [0, 0, 0, 0, 2] .spin, _, _, ⟨⟨rfl, rfl, by decide, by decide, rfl, by decide⟩, rfl⟩, rfl, by decide⟩,
   ⟨(.mailbox 0), _, tReq 0x0304 24 [0, 0, 0, 0, 0, 4] .spin, _, _, ⟨⟨rfl, rfl, by decide, by decide, rfl, by decide⟩, rfl⟩, rfl, by decide, by decide⟩,
   ⟨(.mailbox 0), _, tReq 0x0304 24 [0, 0, 0, 0, 1, 0, 0, 0, 255, 255, 255, 255, 255] .spin, _, _, ⟨⟨rfl, rfl, by decide, by decide, rfl, by decide⟩, rfl⟩, rfl, by decide, by decide⟩,
   ⟨(.mailbox 0), _, { tAsk (.mailbox 0) 0x0304 24 .spin with txn := { txns := [{ h := 0 }] } }, _, _, _, _, _, ⟨⟨rfl, rfl, by decide, by decide, rfl, by decide⟩, rfl⟩, rfl, by decide, ⟨rfl, rfl, rfl⟩, rfl⟩,
   ⟨(.mailbox 0), _, { tAsk (.mailbox 0) 0x0304 24 .spin with txn := { txns := [{ h := 0 }] }, whl := { strands := [(0, { run := true, on := true })] } }, _, _, _, ⟨⟨rfl, rfl, by decide, by decide, rfl, by decide⟩, rfl⟩, rfl, by decide, ⟨rfl, rfl, rfl⟩, by decide⟩,
   ⟨(.mailbox 0), _, { tAsk (.mailbox 0) 0x0305 10 .spin with dst := { staged := none, inflight := none }, txn := { txns := [{ h := 0 }] } }, _, _, ⟨⟨rfl, rfl, by decide, by decide, rfl, by decide⟩, rfl⟩, ⟨rfl, rfl, rfl⟩, by decide, by decide, by decide⟩,
   ⟨(.mailbox 0), _, { tAsk (.mailbox 0) 0x0305 10 .spin with txn := { txns := [{ h := 0, st := .done }] } }, _, _, ⟨⟨rfl, rfl, by decide, by decide, rfl, by decide⟩, rfl⟩, rfl, by decide, by decide⟩,
   ⟨(.txnStage, 0x0302, 12), .head _, (.mailbox 0), _, tAsk (.mailbox 0) 0x0302 12 .spin, _, ⟨⟨rfl, rfl, by decide, by decide, rfl, by decide⟩, rfl⟩, by decide⟩,
   ⟨(.txnStage, 0x0302, 12), .head _, (.mailbox 0), _, { tAsk (.mailbox 0) 0x0302 12 .spin with txn := { txns := [{ h := 0, expired := true }] } }, _, _, ⟨⟨rfl, rfl, by decide, by decide, rfl, by decide⟩, rfl⟩, rfl, by decide⟩,
   ⟨(.txnStage, 0x0302, 12), .head _, (.mailbox 0), _, { tAsk (.mailbox 0) 0x0302 12 .spin with txn := { txns := [{ h := 0, st := .done }] } }, _, _, ⟨⟨rfl, rfl, by decide, by decide, rfl, by decide⟩, rfl⟩, rfl, by decide, by decide⟩⟩

/-- ImageCommands: the hypotheses of each clause are met. -/
theorem witness_ImageCommands :
    (∃ (src : ReqSrc) (q : Req) (s t : State) (b : Bool), Served 0x0402 12 serviceOnly src q s t ∧ b = (!s.dst.ctl.active) ∧ 16515072 < par q 8 4) ∧
    (∃ (src : ReqSrc) (q : Req) (s t : State) (b : Bool), Served 0x0402 12 serviceOnly src q s t ∧ b = (!s.dst.ctl.active) ∧ par q 8 4 ≤ 16515072) ∧
    (∃ (src : ReqSrc) (q : Req) (s t : State) (bs : List Byte), ∃ w, Served 0x0403 13 serviceOnly src q s t ∧ bs = (q.msg.drop 12).take 240 ∧ s.dst.imgWrite = some w ∧ par q 8 4 + bs.length ≤ w.size) ∧
    (∃ (src : ReqSrc) (q : Req) (s t : State) (bs : List Byte), ∃ w, Served 0x0403 13 serviceOnly src q s t ∧ bs = (q.msg.drop 12).take 240 ∧ s.dst.imgWrite = some w ∧ w.size < par q 8 4 + bs.length) ∧
    (∃ (src : ReqSrc) (q : Req) (s t : State) (bs : List Byte), Served 0x0403 13 serviceOnly src q s t ∧ bs = (q.msg.drop 12).take 240 ∧ s.dst.imgWrite = none) ∧
    (∃ (src : ReqSrc) (q : Req) (s t : State) (n : Nat), Served 0x0404 24 serviceOnly src q s t ∧ n = par q 12 4 ∧ spiSelected s = true) ∧
    (∃ (src : ReqSrc) (q : Req) (s t : State) (n : Nat), ∃ w, Served 0x0404 24 serviceOnly src q s t ∧ n = par q 12 4 ∧ spiSelected s = false ∧ s.dst.imgWrite = some w ∧ w.size < par q 8 4 + n) ∧
    (∃ (src : ReqSrc) (q : Req) (s t : State) (n : Nat), Served 0x0404 24 serviceOnly src q s t ∧ n = par q 12 4 ∧ spiSelected s = false ∧ imgPast q n s = false ∧ (n = 0 ∨ 65536 < n)) ∧
    (∃ (src : ReqSrc) (q : Req) (s t : State) (n : Nat), Served 0x0404 24 serviceOnly src q s t ∧ n = par q 12 4 ∧ spiSelected s = false ∧ imgPast q n s = false ∧ 1 ≤ n ∧ n ≤ 65536) ∧
    (∃ (src : ReqSrc) (q : Req) (s t : State) (n : Nat), ∃ w, ∃ (bs : List Byte), Served 0x0404 24 serviceOnly src q s t ∧ n = par q 12 4 ∧ spiSelected s = false ∧ 1 ≤ n ∧ n ≤ 65536 ∧ bs.length = n ∧ s.dst.imgWrite = some w ∧ par q 8 4 + n ≤ w.size) ∧
    (∃ (src : ReqSrc) (q : Req) (s t : State), ∃ w, Served 0x0405 8 serviceOnly src q s t ∧ imageUnitsLeft s = false ∧ s.dst.imgWrite = some w ∧ bytesWritten w = w.size) ∧
    (∃ (src : ReqSrc) (q : Req) (s t : State), Served 0x0405 8 serviceOnly src q s t ∧ imageUnitsLeft s = false ∧ s.dst.imgWrite.any (fun w => bytesWritten w == w.size) = false) ∧
    (∃ (src : ReqSrc) (q : Req) (s t : State) (b : Bool), Served 0x0406 8 workModes src q s t ∧ s.dst.booted = some b ∧ slotState s.dst.ctl b = .trial) ∧
    (∃ (src : ReqSrc) (q : Req) (s t : State) (b : Bool), Served 0x0406 8 workModes src q s t ∧ s.dst.booted = some b ∧ slotState s.dst.ctl b ≠ .trial) :=
  ⟨⟨(.mailbox 0), _, tReq 0x0402 12 [1, 0, 252] .service, _, _, ⟨⟨rfl, rfl, by decide, by decide, rfl, by decide⟩, rfl⟩, rfl, by decide⟩,
   ⟨(.mailbox 0), _, tAsk (.mailbox 0) 0x0402 12 .service, _, _, ⟨⟨rfl, rfl, by decide, by decide, rfl, by decide⟩, rfl⟩, rfl, by decide⟩,
   ⟨(.mailbox 0), _, { tAsk (.mailbox 0) 0x0403 13 .service with dst := { imgWrite := (some { slotB := false, size := 64, ranges := [(0, 64)] }) } }, _, _, _, ⟨⟨rfl, rfl, by decide, by decide, rfl, by decide⟩, rfl⟩, rfl, rfl, by decide⟩,
   ⟨(.mailbox 0), _, { tReq 0x0403 13 [64] .service with dst := { imgWrite := (some { slotB := false, size := 64, ranges := [(0, 64)] }) } }, _, _, _, ⟨⟨rfl, rfl, by decide, by decide, rfl, by decide⟩, rfl⟩, rfl, rfl, by decide⟩,
   ⟨(.mailbox 0), _, { tAsk (.mailbox 0) 0x0403 13 .service with dst := { imgWrite := none } }, _, _, ⟨⟨rfl, rfl, by decide, by decide, rfl, by decide⟩, rfl⟩, rfl, by decide⟩,
   ⟨(.mailbox 0), _, { tAsk (.mailbox 0) 0x0404 24 .service with sys := { straps := ⟨false, 1, 0⟩, mode := .service } }, _, _, ⟨⟨rfl, rfl, by decide, by decide, rfl, by decide⟩, rfl⟩, rfl, by decide⟩,
   ⟨(.mailbox 0), _, { tReq 0x0404 24 [65] .service with dst := { imgWrite := (some { slotB := false, size := 64, ranges := [(0, 64)] }) } }, _, _, _, ⟨⟨rfl, rfl, by decide, by decide, rfl, by decide⟩, rfl⟩, rfl, by decide, rfl, by decide⟩,
   ⟨(.mailbox 0), _, tAsk (.mailbox 0) 0x0404 24 .service, _, _, ⟨⟨rfl, rfl, by decide, by decide, rfl, by decide⟩, rfl⟩, rfl, by decide, by decide, by decide⟩,
   ⟨(.mailbox 0), _, tReq 0x0404 24 [0, 0, 0, 0, 4] .service, _, _, ⟨⟨rfl, rfl, by decide, by decide, rfl, by decide⟩, rfl⟩, rfl, by decide, by decide, by decide, by decide⟩,
   ⟨(.mailbox 0), _, { tReq 0x0404 24 [0, 0, 0, 0, 4] .service with dst := { imgWrite := (some { slotB := false, size := 64, ranges := [(0, 64)] }) } }, _, _, _, List.replicate 4 0, ⟨⟨rfl, rfl, by decide, by decide, rfl, by decide⟩, rfl⟩, rfl, by decide, by decide, by decide, by decide, rfl, by decide⟩,
   ⟨(.mailbox 0), _, { tAsk (.mailbox 0) 0x0405 8 .service with dst := { imgWrite := (some { slotB := false, size := 64, ranges := [(0, 64)] }) } }, _, _, ⟨⟨rfl, rfl, by decide, by decide, rfl, by decide⟩, rfl⟩, by decide, rfl, by decide⟩,
   ⟨(.mailbox 0), _, tAsk (.mailbox 0) 0x0405 8 .service, _, ⟨⟨rfl, rfl, by decide, by decide, rfl, by decide⟩, rfl⟩, by decide, by decide⟩,
   ⟨(.mailbox 0), _, { tAsk (.mailbox 0) 0x0406 8 .spin with dst := { booted := (some false), ctl := setSlot false .trial {} } }, _, _, ⟨⟨rfl, rfl, by decide, by decide, rfl, by decide⟩, rfl⟩, rfl, by decide⟩,
   ⟨(.mailbox 0), _, { tAsk (.mailbox 0) 0x0406 8 .spin with dst := { booted := (some false) } }, _, _, ⟨⟨rfl, rfl, by decide, by decide, rfl, by decide⟩, rfl⟩, rfl, by decide⟩⟩

/-- DeviceCommands: the hypotheses of each clause are met. -/
theorem witness_DeviceCommands :
    (∃ (src : ReqSrc) (q : Req) (s t : State) (k i : Nat), Served 0x0602 24 anyMode src q s t ∧ k = par q 8 1 ∧ i = par q 16 8 ∧ 7 < k) ∧
    (∃ (src : ReqSrc) (q : Req) (s t : State) (k i : Nat), Served 0x0602 24 anyMode src q s t ∧ k = par q 8 1 ∧ i = par q 16 8 ∧ k ≤ 7 ∧ (i < 4209067950 ∨ 4380866641 < i)) ∧
    (∃ (src : ReqSrc) (q : Req) (s t : State) (k i : Nat), Served 0x0602 24 anyMode src q s t ∧ k = par q 8 1 ∧ i = par q 16 8 ∧ k ≤ 7 ∧ 4209067950 ≤ i ∧ i ≤ 4380866641) ∧
    (∃ (src : ReqSrc) (q : Req) (s t : State) (k sec ns at_ : Nat), Served 0x0603 40 anyMode src q s t ∧ k = par q 8 1 ∧ sec = par q 16 8 ∧ ns = par q 24 4 ∧ at_ = par q 32 8 ∧ 7 < k) ∧
    (∃ (src : ReqSrc) (q : Req) (s t : State) (k sec ns at_ : Nat), Served 0x0603 40 anyMode src q s t ∧ k = par q 8 1 ∧ sec = par q 16 8 ∧ ns = par q 24 4 ∧ at_ = par q 32 8 ∧ k ≤ 7 ∧ 1 < par q 9 1) ∧
    (∃ (src : ReqSrc) (q : Req) (s t : State) (k sec ns at_ : Nat), Served 0x0603 40 anyMode src q s t ∧ k = par q 8 1 ∧ sec = par q 16 8 ∧ ns = par q 24 4 ∧ at_ = par q 32 8 ∧ k ≤ 7 ∧ par q 9 1 ≤ 1 ∧ 2 ^ 48 ≤ sec) ∧
    (∃ (src : ReqSrc) (q : Req) (s t : State) (k sec ns at_ : Nat), Served 0x0603 40 anyMode src q s t ∧ k = par q 8 1 ∧ sec = par q 16 8 ∧ ns = par q 24 4 ∧ at_ = par q 32 8 ∧ k ≤ 7 ∧ par q 9 1 ≤ 1 ∧ sec < 2 ^ 48 ∧ 999999999 < ns) ∧
    (∃ (src : ReqSrc) (q : Req) (s t : State) (k sec ns at_ : Nat), Served 0x0603 40 anyMode src q s t ∧ k = par q 8 1 ∧ sec = par q 16 8 ∧ ns = par q 24 4 ∧ at_ = par q 32 8 ∧ k ≤ 7 ∧ par q 9 1 ≤ 1 ∧ sec < 2 ^ 48 ∧ ns ≤ 999999999 ∧ at_ ≠ 0 ∧ at_ < s.ply.reel.toNat + 1000) ∧
    (∃ (src : ReqSrc) (q : Req) (s t : State) (k sec ns at_ : Nat), Served 0x0603 40 anyMode src q s t ∧ k = par q 8 1 ∧ sec = par q 16 8 ∧ ns = par q 24 4 ∧ at_ = par q 32 8 ∧ k ≤ 7 ∧ par q 9 1 ≤ 1 ∧ sec < 2 ^ 48 ∧ ns ≤ 999999999 ∧ s.ply.reel.toNat + 10000000000 < at_) ∧
    (∃ (src : ReqSrc) (q : Req) (s t : State) (k sec ns at_ : Nat), Served 0x0603 40 anyMode src q s t ∧ k = par q 8 1 ∧ sec = par q 16 8 ∧ ns = par q 24 4 ∧ at_ = par q 32 8 ∧ k ≤ 7 ∧ par q 9 1 ≤ 1 ∧ sec < 2 ^ 48 ∧ ns ≤ 999999999 ∧ (at_ = 0 ∨ s.ply.reel.toNat + 1000 ≤ at_ ∧ at_ ≤ s.ply.reel.toNat + 10000000000)) ∧
    (∃ (src : ReqSrc) (q : Req) (s t : State) (h off len : Nat), Served 0x0A01 32 anyMode src q s t ∧ h = par q 8 1 ∧ off = par q 12 4 ∧ len = par q 16 4 ∧ spiSelected s = true) ∧
    (∃ (src : ReqSrc) (q : Req) (s t : State) (h off len : Nat), Served 0x0A01 32 anyMode src q s t ∧ h = par q 8 1 ∧ off = par q 12 4 ∧ len = par q 16 4 ∧ spiSelected s = false ∧ 31 < h) ∧
    (∃ (src : ReqSrc) (q : Req) (s t : State) (h off len : Nat), Served 0x0A01 32 anyMode src q s t ∧ h = par q 8 1 ∧ off = par q 12 4 ∧ len = par q 16 4 ∧ spiSelected s = false ∧ h ≤ 31 ∧ (off % 4 ≠ 0 ∨ 131072 ≤ off)) ∧
    (∃ (src : ReqSrc) (q : Req) (s t : State) (h off len : Nat), Served 0x0A01 32 anyMode src q s t ∧ h = par q 8 1 ∧ off = par q 12 4 ∧ len = par q 16 4 ∧ spiSelected s = false ∧ h ≤ 31 ∧ off % 4 = 0 ∧ len % 4 = 0 ∧ 4 ≤ len ∧ off + len ≤ 131072 ∧ s.rov.ready.getLsbD h = true) ∧
    (∃ (src : ReqSrc) (q : Req) (s t : State) (h off len : Nat) (bs : List Byte), Served 0x0A01 32 anyMode src q s t ∧ h = par q 8 1 ∧ off = par q 12 4 ∧ len = par q 16 4 ∧ spiSelected s = false ∧ h ≤ 31 ∧ off % 4 = 0 ∧ len % 4 = 0 ∧ 4 ≤ len ∧ off + len ≤ 131072 ∧ s.rov.ready.getLsbD h = false ∧ bs.length = len) ∧
    (∃ (src : ReqSrc) (q : Req) (s t : State) (m : BitVec 32), Served 0x0A02 12 anyMode src q s t ∧ m = BitVec.ofNat 32 (par q 8 4) ∧ rovInUse s &&& ~~~ m ≠ 0) ∧
    (∃ (src : ReqSrc) (q : Req) (s t : State) (m : BitVec 32), Served 0x0A02 12 anyMode src q s t ∧ m = BitVec.ofNat 32 (par q 8 4) ∧ rovInUse s &&& ~~~ m = 0) ∧
    (∃ (src : ReqSrc) (q : Req) (s t : State) (entry at_ : Nat), Served 0x0A03 24 spinOrService src q s t ∧ entry = par q 8 4 ∧ at_ = par q 16 8 ∧ (4194304 ≤ entry ∨ entry % 8 ≠ 0 ∨ s.rov.ready.getLsbD (entry / 131072) = false)) ∧
    (∃ (src : ReqSrc) (q : Req) (s t : State) (entry at_ : Nat), Served 0x0A03 24 spinOrService src q s t ∧ entry = par q 8 4 ∧ at_ = par q 16 8 ∧ entry < 4194304 ∧ entry % 8 = 0 ∧ s.rov.ready.getLsbD (entry / 131072) = true ∧ at_ ≠ 0 ∧ at_ < s.ply.reel.toNat + 10000) ∧
    (∃ (src : ReqSrc) (q : Req) (s t : State) (entry at_ : Nat), Served 0x0A03 24 spinOrService src q s t ∧ entry = par q 8 4 ∧ at_ = par q 16 8 ∧ entry < 4194304 ∧ entry % 8 = 0 ∧ s.rov.ready.getLsbD (entry / 131072) = true ∧ at_ = 0 ∧ s.rov.running = true) ∧
    (∃ (src : ReqSrc) (q : Req) (s t : State) (entry at_ : Nat), Served 0x0A03 24 spinOrService src q s t ∧ entry = par q 8 4 ∧ at_ = par q 16 8 ∧ entry < 4194304 ∧ entry % 8 = 0 ∧ s.rov.ready.getLsbD (entry / 131072) = true ∧ at_ = 0 ∧ s.rov.running = false ∧ s.rov.startAt = none) ∧
    (∃ (src : ReqSrc) (q : Req) (s t : State) (entry at_ : Nat), Served 0x0A03 24 spinOrService src q s t ∧ entry = par q 8 4 ∧ at_ = par q 16 8 ∧ entry < 4194304 ∧ entry % 8 = 0 ∧ s.rov.ready.getLsbD (entry / 131072) = true ∧ s.ply.reel.toNat + 10000 ≤ at_ ∧ at_ ≤ s.ply.reel.toNat + 10000000000 ∧ s.rov.running = false ∧ s.rov.startAt = none) ∧
    (∃ (src : ReqSrc) (q : Req) (s t : State), Served 0x0A04 8 anyMode src q s t) :=
  ⟨⟨(.mailbox 0), _, tReq 0x0602 24 [8] .spin, _, _, _, ⟨⟨rfl, rfl, by decide, by decide, rfl, by decide⟩, rfl⟩, rfl, rfl, by decide⟩,
   ⟨(.mailbox 0), _, tAsk (.mailbox 0) 0x0602 24 .spin, _, _, _, ⟨⟨rfl, rfl, by decide, by decide, rfl, by decide⟩, rfl⟩, rfl, rfl, by decide, by decide⟩,
   ⟨(.mailbox 0), _, tReq 0x0602 24 [0, 0, 0, 0, 0, 0, 0, 0, 0, 0, 0, 0, 1] .spin, _, _, _, ⟨⟨rfl, rfl, by decide, by decide, rfl, by decide⟩, rfl⟩, rfl, rfl, by decide, by decide, by decide⟩,
   ⟨(.mailbox 0), _, tReq 0x0603 40 [8] .spin, _, _, _, _, _, ⟨⟨rfl, rfl, by decide, by decide, rfl, by decide⟩, rfl⟩, rfl, rfl, rfl, rfl, by decide⟩,
   ⟨(.mailbox 0), _, tReq 0x0603 40 [0, 2] .spin, _, _, _, _, _, ⟨⟨rfl, rfl, by decide, by decide, rfl, by decide⟩, rfl⟩, rfl, rfl, rfl, rfl, by decide, by decide⟩,
   ⟨(.mailbox 0), _, tReq 0x0603 40 [0, 0, 0, 0, 0, 0, 0, 0, 0, 0, 0, 0, 0, 0, 1] .spin, _, _, _, _, _, ⟨⟨rfl, rfl, by decide, by decide, rfl, by decide⟩, rfl⟩, rfl, rfl, rfl, rfl, by decide, by decide, by decide⟩,
   ⟨(.mailbox 0), _, tReq 0x0603 40 [0, 0, 0, 0, 0, 0, 0, 0, 0, 0, 0, 0, 0, 0, 0, 0, 0, 0, 0, 255] .spin, _, _, _, _, _, ⟨⟨rfl, rfl, by decide, by decide, rfl, by decide⟩, rfl⟩, rfl, rfl, rfl, rfl, by decide, by decide, by decide, by decide⟩,
   ⟨(.mailbox 0), _, tReq 0x0603 40 [0, 0, 0, 0, 0, 0, 0, 0, 0, 0, 0, 0, 0, 0, 0, 0, 0, 0, 0, 0, 0, 0, 0, 0, 1] .spin, _, _, _, _, _, ⟨⟨rfl, rfl, by decide, by decide, rfl, by decide⟩, rfl⟩, rfl, rfl, rfl, rfl, by decide, by decide, by decide, by decide, by decide, by decide⟩,
   ⟨(.mailbox 0), _, tReq 0x0603 40 [0, 0, 0, 0, 0, 0, 0, 0, 0, 0, 0, 0, 0, 0, 0, 0, 0, 0, 0, 0, 0, 0, 0, 0, 0, 0, 0, 0, 0, 1] .spin, _, _, _, _, _, ⟨⟨rfl, rfl, by decide, by decide, rfl, by decide⟩, rfl⟩, rfl, rfl, rfl, rfl, by decide, by decide, by decide, by decide, by decide⟩,
   ⟨(.mailbox 0), _, tAsk (.mailbox 0) 0x0603 40 .spin, _, _, _, _, _, ⟨⟨rfl, rfl, by decide, by decide, rfl, by decide⟩, rfl⟩, rfl, rfl, rfl, rfl, by decide, by decide, by decide, by decide, by decide⟩,
   ⟨(.mailbox 0), _, { tAsk (.mailbox 0) 0x0A01 32 .spin with sys := { straps := ⟨false, 1, 0⟩, mode := .spin } }, _, _, _, _, ⟨⟨rfl, rfl, by decide, by decide, rfl, by decide⟩, rfl⟩, rfl, rfl, rfl, by decide⟩,
   ⟨(.mailbox 0), _, tReq 0x0A01 32 [32] .spin, _, _, _, _, ⟨⟨rfl, rfl, by decide, by decide, rfl, by decide⟩, rfl⟩, rfl, rfl, rfl, by decide, by decide⟩,
   ⟨(.mailbox 0), _, tReq 0x0A01 32 [0, 0, 0, 0, 1] .spin, _, _, _, _, ⟨⟨rfl, rfl, by decide, by decide, rfl, by decide⟩, rfl⟩, rfl, rfl, rfl, by decide, by decide, by decide⟩,
   ⟨(.mailbox 0), _, { tReq 0x0A01 32 [0, 0, 0, 0, 0, 0, 0, 0, 4] .spin with rov := { ready := 1 } }, _, _, _, _, ⟨⟨rfl, rfl, by decide, by decide, rfl, by decide⟩, rfl⟩, rfl, rfl, rfl, by decide, by decide, by decide, by decide, by decide, by decide, by decide⟩,
   ⟨(.mailbox 0), _, tReq 0x0A01 32 [0, 0, 0, 0, 0, 0, 0, 0, 4] .spin, _, _, _, _, List.replicate 4 0, ⟨⟨rfl, rfl, by decide, by decide, rfl, by decide⟩, rfl⟩, rfl, rfl, rfl, by decide, by decide, by decide, by decide, by decide, by decide, by decide, by decide⟩,
   ⟨(.mailbox 0), _, { tAsk (.mailbox 0) 0x0A02 12 .spin with rov := { running := true } }, _, _, ⟨⟨rfl, rfl, by decide, by decide, rfl, by decide⟩, rfl⟩, rfl, by decide⟩,
   ⟨(.mailbox 0), _, tAsk (.mailbox 0) 0x0A02 12 .spin, _, _, ⟨⟨rfl, rfl, by decide, by decide, rfl, by decide⟩, rfl⟩, rfl, by decide⟩,
   ⟨(.mailbox 0), _, tAsk (.mailbox 0) 0x0A03 24 .spin, _, _, _, ⟨⟨rfl, rfl, by decide, by decide, rfl, by decide⟩, rfl⟩, rfl, rfl, by decide⟩,
   ⟨(.mailbox 0), _, { tReq 0x0A03 24 [0, 0, 0, 0, 0, 0, 0, 0, 1] .spin with rov := { ready := 1 } }, _, _, _, ⟨⟨rfl, rfl, by decide, by decide, rfl, by decide⟩, rfl⟩, rfl, rfl, by decide, by decide, by decide, by decide, by decide⟩,
   ⟨(.mailbox 0), _, { tAsk (.mailbox 0) 0x0A03 24 .spin with rov := { ready := 1, running := true } }, _, _, 0, ⟨⟨rfl, rfl, by decide, by decide, rfl, by decide⟩, rfl⟩, rfl, rfl, by decide, by decide, by decide, by decide, by decide⟩,
   ⟨(.mailbox 0), _, { tAsk (.mailbox 0) 0x0A03 24 .spin with rov := { ready := 1, running := false, startAt := none } }, _, _, 0, ⟨⟨rfl, rfl, by decide, by decide, rfl, by decide⟩, rfl⟩, rfl, rfl, by decide, by decide, by decide, by decide, by decide, by decide⟩,
   ⟨(.mailbox 0), _, { tReq 0x0A03 24 [0, 0, 0, 0, 0, 0, 0, 0, 0, 0, 1] .spin with rov := { ready := 1, running := false, startAt := none } }, _, _, _, ⟨⟨rfl, rfl, by decide, by decide, rfl, by decide⟩, rfl⟩, rfl, rfl, by decide, by decide, by decide, by decide, by decide, by decide, by decide⟩,
   ⟨(.mailbox 0), _, tAsk (.mailbox 0) 0x0A04 8 .spin, _, ⟨⟨rfl, rfl, by decide, by decide, rfl, by decide⟩, rfl⟩⟩⟩

/-- WhorlScheduleCommands: the hypotheses of each clause are met. -/
theorem witness_WhorlScheduleCommands :
    (∃ (s t : State) (k : Fin 4), t = plyFirst k s ∧ ((t.strand k).run = false ∨ nextBoundary t k = none)) ∧
    (∃ (s t : State) (k : Fin 4), ∃ b, t = plyFirst k s ∧ (t.strand k).run = true ∧ nextBoundary t k = some b ∧ (t.strand k).stopping = true) ∧
    (∃ (s t : State) (k : Fin 4), ∃ b, t = plyFirst k s ∧ (t.strand k).run = true ∧ nextBoundary t k = some b ∧ k = 0 ∧ (t.strand k).stopping = false ∧ (t.strand k).pend = none ∧ t.sys.mode = .brace) ∧
    (∃ (s t : State) (k : Fin 4), ∃ b, t = plyFirst k s ∧ (t.strand k).run = true ∧ nextBoundary t k = some b ∧ (t.strand k).stopping = false ∧ (t.strand k).pend = none) ∧
    (∃ (s : State) (k : Fin 4), (dueSlot s k = none ∨ (∃ d, dueSlot s k = some d ∧ lowerFirst s k d.2.2 = true))) ∧
    (∃ (s t u : State) (k : Fin 4) (i at_ : Nat) (d : SlotDef), dueSlot s k = some (i, d, at_) ∧ lowerFirst s k at_ = false ∧ t = reachTick (BitVec.ofNat 64 at_) s ∧ u = (clearHold d.spindle t).setStrand k (fun st => { st with next := i + 1, collided := false }) ∧ s.whl.slot.isSome = true) ∧
    (∃ (s t u : State) (k : Fin 4) (i at_ : Nat) (d : SlotDef), dueSlot s k = some (i, d, at_) ∧ lowerFirst s k at_ = false ∧ t = reachTick (BitVec.ofNat 64 at_) s ∧ u = (clearHold d.spindle t).setStrand k (fun st => { st with next := i + 1, collided := false }) ∧ s.whl.slot = none ∧ (u.spindle d.spindle).st ≠ .idle) ∧
    (∃ (s t u : State) (k : Fin 4) (i at_ : Nat) (d : SlotDef), dueSlot s k = some (i, d, at_) ∧ lowerFirst s k at_ = false ∧ t = reachTick (BitVec.ofNat 64 at_) s ∧ u = (clearHold d.spindle t).setStrand k (fun st => { st with next := i + 1, collided := false }) ∧ s.whl.slot = none ∧ (u.spindle d.spindle).st = .idle) ∧
    (∃ (s : State) (n : Nat), (bitOf (s.rd (holdClrReg n)) (n % 32) = false ∨ (s.spindle n).braceHeld = true)) ∧
    (∃ (s : State) (n : Nat), bitOf (s.rd (holdClrReg n)) (n % 32) = true ∧ (s.spindle n).braceHeld = false ∧ (s.spindle n).st = .hold) ∧
    (∃ (s : State) (sl : Slot), s.whl.slot = some sl ∧ sl.pc = 0xFFFFFFF0 ∧ s.ply.reel ≤ sl.stop - 8) ∧
    (∃ (s : State) (sl : Slot), s.whl.slot = some sl ∧ sl.pc = 0xFFFFFFF0 ∧ s.ply.reel ≤ sl.stop - 8 ∧ (s.spindle sl.spindle).braceHeld = false) ∧
    (∃ (s : State) (sl : Slot), s.whl.slot = some sl ∧ (sl.pc ≠ 0xFFFFFFF0 ∨ sl.stop - 8 < s.ply.reel)) ∧
    (∃ (sl : Slot), sl.staged = []) ∧
    (∃ (s : State), s.whl.slot = none) ∧
    (∃ (s : State), s.whl.releases = []) ∧
    (∃ (s : State) (r : Release) (pa n : Nat) (v : Word), nextRelease s = some r ∧ r.entries = [.store pa n v] ∧ pa < 0x100000) :=
  ⟨⟨{}, _, 0, rfl, by decide⟩,
   ⟨tStrand { stopping := true } .spin, _, 0, _, rfl, by decide, rfl, by decide⟩,
   ⟨tStrand {} .brace, _, 0, _, rfl, by decide, rfl, by decide, by decide, by decide, by decide⟩,
   ⟨tStrand {} .spin, _, 0, _, rfl, by decide, rfl, by decide, by decide⟩,
   ⟨{}, 0, by decide⟩,
   ⟨tDue .idle (some (tSlot [])), _, _, 0, _, _, _, rfl, by decide, rfl, rfl, by decide⟩,
   ⟨tDue .refused none, _, _, 0, _, _, _, rfl, by decide, rfl, rfl, by decide, by decide⟩,
   ⟨tDue .idle none, _, _, 0, _, _, _, rfl, by decide, rfl, rfl, by decide, by decide⟩,
   ⟨{}, 0, by decide⟩,
   ⟨{ whl := { spindles := [(0, { braceHeld := false, st := .hold })] }, regs := [(0x40020018, 1)] }, 0, by decide, by decide, by decide⟩,
   ⟨{ whl := { slot := some { tSlot [] with pc := 0xFFFFFFF0 } } }, { tSlot [] with pc := 0xFFFFFFF0 }, by decide, by decide, by decide⟩,
   ⟨{ whl := { slot := some { tSlot [] with pc := 0xFFFFFFF0 } } }, { tSlot [] with pc := 0xFFFFFFF0 }, by decide, by decide, by decide, by decide⟩,
   ⟨{ whl := { slot := (some (tSlot [])) } }, tSlot [], by decide, by decide⟩,
   ⟨tSlot [], by decide⟩,
   ⟨{ whl := { slot := none } }, by decide⟩,
   ⟨{ whl := { releases := [] } }, by decide⟩,
   ⟨{ whl := { releases := [⟨0, 0, [.store 0 4 0]⟩] } }, ⟨0, 0, [.store 0 4 0]⟩, 0, 4, 0, by decide, by decide, by decide⟩⟩

/-- WhorlMonitorCommands: the hypotheses of each clause are met. -/
theorem witness_WhorlMonitorCommands :
    (∃ (s : State) (n : Fin 256) (k c a : Nat), islandsUp s = true ∧ c = Tab.get (fun _ => 0) s.whl.tin n ∧ a = 0x40021000 + 4 * n ∧ (c + k ≤ 255 ∨ bitOf (s.rd a) 31 = true)) ∧
    (∃ (s : State) (n : Fin 256) (k c a : Nat), islandsUp s = true ∧ c = Tab.get (fun _ => 0) s.whl.tin n ∧ a = 0x40021000 + 4 * n ∧ 255 < c + k ∧ bitOf (s.rd a) 31 = false) ∧
    (∃ (s : State), islandsUp s = false) ∧
    (∃ (s0 s : State) (meas : List Nat) (m thr : Int), s = overrunFirst s0 ∧ m = paceM meas ∧ thr = s.fld 0x40020008 0 16 ∧ islandsUp s = false) ∧
    (∃ (s0 s : State) (meas : List Nat) (m thr : Int), s = overrunFirst s0 ∧ m = paceM meas ∧ thr = s.fld 0x40020008 0 16 ∧ islandsUp s = true ∧ thr ≤ m) ∧
    (∃ (s0 s : State) (meas : List Nat) (m thr : Int), s = overrunFirst s0 ∧ m = paceM meas ∧ thr = s.fld 0x40020008 0 16 ∧ islandsUp s = true ∧ m < thr ∧ thr ≤ s.whl.margin) ∧
    (∃ (s : State) (c : Nat), stewardRuns s = true ∧ c = s.fld 0x400E0008 0 6 ∧ s.whl.margin < 1500 ∧ c < 56) ∧
    (∃ (s : State) (c : Nat), stewardRuns s = true ∧ c = s.fld 0x400E0008 0 6 ∧ s.whl.margin < 1500 ∧ 56 ≤ c) ∧
    (∃ (s : State) (c : Nat), stewardRuns s = true ∧ c = s.fld 0x400E0008 0 6 ∧ 1500 ≤ s.whl.margin) ∧
    (∃ (s : State), stewardRuns s = false) ∧
    (∃ (s : State), ∃ e, ∃ r, s.whl.flog = e :: r) ∧
    (∃ (s : State), s.whl.flog = []) ∧
    (∃ (s : State) (i : Fin 8) (b : Nat) (sl : Slot), coreReady .whorl s ∧ s.whl.slot = some sl ∧ b = sl.profile.getD (2 + i) 0 ∧ 65536 ≤ b) ∧
    (∃ (s : State) (i : Fin 8) (b : Nat) (sl : Slot), coreReady .whorl s ∧ s.whl.slot = some sl ∧ b = sl.profile.getD (2 + i) 0 ∧ b < 65536 ∧ 512 ≤ sl.count) ∧
    (∃ (s : State) (i : Fin 8) (n b : Nat) (sl : Slot), coreReady .whorl s ∧ s.whl.slot = some sl ∧ b = sl.profile.getD (2 + i) 0 ∧ b < 65536 ∧ 512 ≤ sl.count ∧ n ≤ 9216) ∧
    (∃ (s : State) (i : Fin 8) (n b : Nat) (sl : Slot), ∃ fs, coreReady .whorl s ∧ s.whl.slot = some sl ∧ b = sl.profile.getD (2 + i) 0 ∧ b < 65536 ∧ sl.count < 512 ∧ fs = (readyFrames s sl b).take (min (min n 16) (16 - sl.granted.length))) ∧
    (∃ (s : State) (i : Fin 8) (b : Nat) (sl : Slot), coreReady .whorl s ∧ s.whl.slot = some sl ∧ b = sl.profile.getD (2 + i) 0 ∧ b < 65536 ∧ sl.count < 512) :=
  ⟨⟨{ sys := { mode := .spin } }, 0, 255, _, _, by decide, rfl, rfl, by decide⟩,
   ⟨{ sys := { mode := .spin } }, 0, 256, _, _, by decide, rfl, rfl, by decide, by decide⟩,
   ⟨{}, by decide⟩,
   ⟨{}, _, [], _, _, rfl, rfl, rfl, by decide⟩,
   ⟨{ sys := { mode := .spin }, regs := [(0x40020008, 0)] }, _, [], _, _, rfl, rfl, rfl, by decide, by change ((0 : Nat) : Int) ≤ paceM []; exact pace_nonneg⟩,
   ⟨{ sys := { mode := .spin }, regs := [(0x40020008, 0xFFFF)], whl := { margin := 65535 } }, _, [], _, _, rfl, rfl, rfl, by decide, by have := pace_le; change paceM [] < 65535; omega, by decide⟩,
   ⟨{ sys := { mode := .spin }, whl := { margin := 0 }, regs := [(0x400E0008, 55)] }, _, by decide, rfl, by decide, by decide⟩,
   ⟨{ sys := { mode := .spin } }, _, by decide, rfl, by decide, by decide⟩,
   ⟨{ sys := { mode := .spin }, whl := { margin := 1500 } }, _, by decide, rfl, by decide⟩,
   ⟨{}, by decide⟩,
   ⟨{ whl := { flog := [⟨0, 0, 0, 0⟩] } }, _, _, rfl⟩,
   ⟨{ whl := { flog := [] } }, by decide⟩,
   ⟨{ sys := { mode := .spin }, whl := { slot := some (tSlot [0, 0, 65536]) } }, 0, _, _, ⟨_, rfl, by decide, by decide⟩, rfl, rfl, by decide⟩,
   ⟨{ sys := { mode := .spin }, whl := { slot := some { tSlot [] with count := 512 } } }, 0, _, _, ⟨_, rfl, by decide, by decide⟩, rfl, rfl, by decide, by decide⟩,
   ⟨{ sys := { mode := .spin }, whl := { slot := some { tSlot [] with count := 512 } } }, 0, 0, _, _, ⟨_, rfl, by decide, by decide⟩, rfl, rfl, by decide, by decide, by decide⟩,
   ⟨tWhl, 0, 0, _, tSlot [], _, ⟨_, rfl, by decide, by decide⟩, by decide, rfl, by decide, by decide, rfl⟩,
   ⟨tWhl, 0, _, tSlot [], ⟨_, rfl, by decide, by decide⟩, by decide, rfl, by decide, by decide⟩⟩

/-- SkeinLinkCommands: the hypotheses of each clause are met. -/
theorem witness_SkeinLinkCommands :
    (∃ (s : State) (l : Nat) (u : State), u = s.setLink l (fun x => { x with txFrm := x.txFrm + 1 })) ∧
    (∃ (s u : State) (l : Fin 2) (sw : Bool), linkAllowed s l = true ∧ ((s.linkOf l).st = .training ∨ (s.linkOf l).st = .monitoring) ∧ (if s.sys.kfault then (s.linkOf l).kfOpen = true ∧ sw = true else s.sys.mode ∈ [.spin, .brace, .service, .drowse] ∨ s.sys.kstep = 7) ∧ u = ({ s with stw := { s.stw with ipend := s.stw.ipend ||| 0x400 } } : State).setLink l (fun k => { k with st := if sw then (if k.fellBack then .swiftOnly else .upSwift) else .up10g, locked := true, pathClosed := false, cred := [], mcred := [], changed := s.ply.reel })) ∧
    (∃ (s : State), s.sys.kfault = false ∧ s.skn.master = true) ∧
    (∃ (s : State), s.sys.kfault = false ∧ s.skn.master = false) ∧
    (∃ (s : State) (l o : Nat), s.sys.kfault = true ∧ o = (if txOn s l then l else 1 - l)) ∧
    (∃ (s : State) (l : Fin 2), (linkAllowed s l = false ∨ (s.linkOf l).st ≠ .training ∧ (s.linkOf l).st ≠ .monitoring)) ∧
    (∃ (s : State) (l : Fin 2), linkLive s l = true) ∧
    (∃ (s : State) (l : Fin 2), linkLive s l = false) ∧
    (∃ (s u : State) (l : Nat), u = ({ s with stw := { s.stw with ipend := s.stw.ipend ||| 0x400 } } : State).setLink l (fun k => { k with locked := false, st := .training, cred := [], mcred := [], changed := s.ply.reel }) ∧ s.sys.kfault = true) ∧
    (∃ (s u : State) (l : Nat), u = ({ s with stw := { s.stw with ipend := s.stw.ipend ||| 0x400 } } : State).setLink l (fun k => { k with locked := false, st := .training, cred := [], mcred := [], changed := s.ply.reel }) ∧ s.sys.kfault = false ∧ s.skn.master = false) ∧
    (∃ (s u : State) (l : Nat), u = ({ s with stw := { s.stw with ipend := s.stw.ipend ||| 0x400 } } : State).setLink l (fun k => { k with locked := false, st := .training, cred := [], mcred := [], changed := s.ply.reel }) ∧ s.sys.kfault = false ∧ s.skn.master = true) ∧
    (∃ (s : State) (l : Fin 2), linkAllowed s l = true ∧ ((s.linkOf l).st = .training ∨ (s.linkOf l).st = .monitoring)) ∧
    (∃ (s : State) (l : Fin 2), (s.linkOf l).st = .up10g) ∧
    (∃ (s : State) (l : Fin 2), ((s.linkOf l).st = .upSwift ∨ (s.linkOf l).st = .swiftOnly)) ∧
    (∃ (s : State) (l : Fin 2), s.sys.kfault = true ∧ linkAllowed s l = true ∧ s.pwr.ready.getLsbD 3 = true ∧ linkLive s l = false) ∧
    (∃ (s : State) (l : Fin 2), (s.sys.kfault = false ∨ linkAllowed s l = false)) :=
  ⟨⟨{}, 0, _, rfl⟩,
   ⟨{ sys := { mode := .spin }, skn := { link := [(0, { st := .training })] } }, _, 0, false, by decide, by decide, by decide, rfl⟩,
   ⟨{ sys := { kfault := false }, skn := { master := true } }, by decide, by decide⟩,
   ⟨{ sys := { kfault := false }, skn := { master := false } }, by decide, by decide⟩,
   ⟨{ sys := { kfault := true } }, 0, _, by decide, rfl⟩,
   ⟨{ skn := { link := [(0, { st := .up10g, pathClosed := false })] } }, 0, by decide⟩,
   ⟨{ skn := { link := [(0, { st := .up10g, pathClosed := false })] } }, 0, by decide⟩,
   ⟨{}, 0, by decide⟩,
   ⟨{ sys := { kfault := true } }, _, 0, rfl, by decide⟩,
   ⟨{ sys := { kfault := false }, skn := { master := false } }, _, 0, rfl, by decide, by decide⟩,
   ⟨{ sys := { kfault := false }, skn := { master := true } }, _, 0, rfl, by decide, by decide⟩,
   ⟨{ skn := { link := [(0, { st := .training })] } }, 0, by decide, by decide⟩,
   ⟨{ skn := { link := [(0, { st := .up10g })] } }, 0, by decide⟩,
   ⟨{ skn := { link := [(0, { st := .upSwift })] } }, 0, by decide⟩,
   ⟨{ sys := { kfault := true }, pwr := { ready := 8 } }, 0, by decide, by decide, by decide, by decide⟩,
   ⟨{ sys := { kfault := false } }, 0, by decide⟩⟩

/-- SkeinFrameCommands: the hypotheses of each clause are met. -/
theorem witness_SkeinFrameCommands :
    (∃ (s : State) (l : Fin 2) (h : List Byte), carries s l (hKind h) = false) ∧
    (∃ (s u : State) (l : Fin 2) (h h' : List Byte) (mine onward : Bool) (c : SkOut), carries s l (hKind h) = true ∧ h' = hSetHops h (hHops h - 1) ∧ c = .credit l (hKind h != 0) (hTc h) ∧ u = s.setLink l (fun k => { k with rxFrm := k.rxFrm + 1 }) ∧ mine = (s.skn.assigned && decide (hDev h = s.skn.dev.toNat)) ∧ onward = ((!mine || hAll h) && decide (1 < hHops h)) ∧ hGood h = false) ∧
    (∃ (s u : State) (l : Fin 2) (h h' : List Byte) (mine onward : Bool) (c : SkOut), ∃ v, carries s l (hKind h) = true ∧ h' = hSetHops h (hHops h - 1) ∧ c = .credit l (hKind h != 0) (hTc h) ∧ u = s.setLink l (fun k => { k with rxFrm := k.rxFrm + 1 }) ∧ mine = (s.skn.assigned && decide (hDev h = s.skn.dev.toNat)) ∧ onward = ((!mine || hAll h) && decide (1 < hHops h)) ∧ hGood h = true ∧ v = u.setLink l (fun k => { k with aborts := k.aborts + 1 })) ∧
    (∃ (s u : State) (l : Fin 2) (h h' pay : List Byte) (mine onward : Bool) (c : SkOut), carries s l (hKind h) = true ∧ h' = hSetHops h (hHops h - 1) ∧ c = .credit l (hKind h != 0) (hTc h) ∧ u = s.setLink l (fun k => { k with rxFrm := k.rxFrm + 1 }) ∧ mine = (s.skn.assigned && decide (hDev h = s.skn.dev.toNat)) ∧ onward = ((!mine || hAll h) && decide (1 < hHops h)) ∧ hGood h = true ∧ hKind h = 0 ∧ pay.drop (pay.length - 4) = fcsOf (pay.take (pay.length - 4)) ∧ hAll h = false ∧ mine = true) ∧
    (∃ (s u : State) (l : Fin 2) (h h' pay : List Byte) (mine onward : Bool) (c : SkOut), carries s l (hKind h) = true ∧ h' = hSetHops h (hHops h - 1) ∧ c = .credit l (hKind h != 0) (hTc h) ∧ u = s.setLink l (fun k => { k with rxFrm := k.rxFrm + 1 }) ∧ mine = (s.skn.assigned && decide (hDev h = s.skn.dev.toNat)) ∧ onward = ((!mine || hAll h) && decide (1 < hHops h)) ∧ hGood h = true ∧ hKind h = 0 ∧ pay.drop (pay.length - 4) = fcsOf (pay.take (pay.length - 4)) ∧ hAll h = false ∧ mine = false ∧ hHops h ≤ 1) ∧
    (∃ (s u : State) (l : Fin 2) (h h' pay : List Byte) (mine onward : Bool) (c : SkOut), carries s l (hKind h) = true ∧ h' = hSetHops h (hHops h - 1) ∧ c = .credit l (hKind h != 0) (hTc h) ∧ u = s.setLink l (fun k => { k with rxFrm := k.rxFrm + 1 }) ∧ mine = (s.skn.assigned && decide (hDev h = s.skn.dev.toNat)) ∧ onward = ((!mine || hAll h) && decide (1 < hHops h)) ∧ hGood h = true ∧ hKind h = 0 ∧ pay.drop (pay.length - 4) = fcsOf (pay.take (pay.length - 4)) ∧ hAll h = false ∧ mine = false ∧ 1 < hHops h) ∧
    (∃ (s : State) (l : Nat) (h : List Byte), transitMay s l h = true ∧ (s.linkOf l).transit = []) ∧
    (∃ (s : State) (l : Nat) (h : List Byte), transitMay s l h = false) ∧
    (∃ (s : State) (l : Fin 2), (s.linkOf l).transit = [] ∧ Tab.wf (fun _ => ({} : Link)) s.skn.link = true) ∧
    (∃ (s : State) (l : Fin 2), s.bob.queue = [] ∧ (s.egress (12 + l)).copyBuf = []) ∧
    (∃ (s : State) (l : Fin 2) (e : QEntry) (rest : List QEntry) (d rb : Nat), s.bob.queue = e :: rest ∧ bobEgress s e.bobbin = 12 + l.val ∧ bobMcast s e.bobbin = false ∧ remoteOf s e.bobbin = some (d, rb) ∧ reachable s 0 d = false ∧ reachable s 1 d = false ∧ onWire s e.frame = false) ∧
    (∃ (src : ReqSrc) (q : Req) (s t : State) (inner : List Byte) (d : Nat), Served 0x0703 20 anyMode src q s t ∧ relayFull src s = false ∧ inner = q.msg.drop 12 ∧ d = par q 8 2 ∧ leAt inner 0 2 = 0x0703) ∧
    (∃ (src : ReqSrc) (q : Req) (s t : State) (inner : List Byte) (d : Nat), Served 0x0703 20 anyMode src q s t ∧ relayFull src s = false ∧ inner = q.msg.drop 12 ∧ d = par q 8 2 ∧ leAt inner 0 2 ≠ 0x0703 ∧ (s.skn.assigned = false ∨ s.skn.master = false ∨ (s.skn.members.find? fun m => m.dev.toNat == d) = none)) ∧
    (∃ (src : ReqSrc) (q : Req) (s t : State) (inner : List Byte) (d : Nat), ∃ m, Served 0x0703 20 anyMode src q s t ∧ relayFull src s = false ∧ inner = q.msg.drop 12 ∧ d = par q 8 2 ∧ leAt inner 0 2 ≠ 0x0703 ∧ s.skn.assigned = true ∧ s.skn.master = true ∧ (s.skn.members.find? fun m => m.dev.toNat == d) = some m ∧ m.mode.toNat ∈ [0, 1]) ∧
    (∃ (src : ReqSrc) (q : Req) (s t : State) (inner : List Byte) (d : Nat), ∃ m, ∃ l, ∃ u, Served 0x0703 20 anyMode src q s t ∧ relayFull src s = false ∧ inner = q.msg.drop 12 ∧ d = par q 8 2 ∧ leAt inner 0 2 ≠ 0x0703 ∧ s.skn.assigned = true ∧ s.skn.master = true ∧ (s.skn.members.find? fun m => m.dev.toNat == d) = some m ∧ m.mode.toNat ∉ [0, 1, 4] ∧ l = sideTo s d ∧ u = t.setLink l (fun k => { k with txFrm := k.txFrm + 1 })) ∧
    (∃ (s : State) (l : Fin 2), carries s l 1 = false) ∧
    (∃ (s : State) (l : Fin 2) (n : Nat) (rep : List Byte), ∃ r, ∃ u, carries s l 1 = true ∧ relayOf s n = some r ∧ r.wake = false ∧ rep.length ≤ 244 ∧ u = s.setLink l (fun k => { k with rxFrm := k.rxFrm + 1 })) ∧
    (∃ (s : State) (n : Nat), ∃ r, relayOf s n = some r) ∧
    (∃ (s : State) (n : Nat), relayOf s n = none) :=
  ⟨⟨{}, 0, [], by decide⟩,
   ⟨{ sys := { mode := .spin }, skn := { link := [(0, { st := .up10g, pathClosed := false })] } }, _, 0, [], _, _, _, _, by decide, rfl, rfl, rfl, rfl, rfl, by decide⟩,
   ⟨{ sys := { mode := .spin }, skn := { link := [(0, { st := .up10g, pathClosed := false })] } }, _, 0, tHdr 1 0, _, _, _, _, _, by decide, rfl, rfl, rfl, rfl, rfl, by decide +kernel, rfl⟩,
   ⟨{ sys := { mode := .spin }, skn := { link := [(0, { st := .up10g, pathClosed := false })], assigned := true } }, _, 0, tHdr 1 0, _, fcsOf [], _, _, _, by decide, rfl, rfl, rfl, rfl, rfl, by decide +kernel, by decide +kernel, by decide +kernel, by decide +kernel, by decide +kernel⟩,
   ⟨{ sys := { mode := .spin }, skn := { link := [(0, { st := .up10g, pathClosed := false })], assigned := false } }, _, 0, tHdr 1 0, _, fcsOf [], _, _, _, by decide, rfl, rfl, rfl, rfl, rfl, by decide +kernel, by decide +kernel, by decide +kernel, by decide +kernel, by decide +kernel, by decide⟩,
   ⟨{ sys := { mode := .spin }, skn := { link := [(0, { st := .up10g, pathClosed := false })], assigned := false } }, _, 0, tHdr 2 1, _, fcsOf [], _, _, _, by decide, rfl, rfl, rfl, rfl, rfl, by decide +kernel, by decide +kernel, by decide +kernel, by decide +kernel, by decide +kernel, by decide⟩,
   ⟨{ sys := { mode := .spin }, skn := { link := [(0, { st := .up10g, pathClosed := false }), (1, { pathClosed := false })] } }, 0, [], by decide, by decide⟩,
   ⟨{}, 0, [], by decide⟩,
   ⟨{}, 0, by decide, by decide⟩,
   ⟨{ bob := { queue := [], egress := [(0, { copyBuf := ([]) })] } }, 0, by decide, by decide⟩,
   ⟨tRemote, 0, _, _, _, _, rfl, by decide, by decide, rfl, by decide, by decide, by decide⟩,
   ⟨(.mailbox 0), _, { sys := { mode := .spin }, hl := { ready := true, taken := [⟨.mailbox 0, 0, leBytes 2 0x703 ++ List.replicate 10 0 ++ leBytes 2 0x703 ++ List.replicate 6 0⟩] } }, _, _, _, ⟨⟨rfl, rfl, by decide, by decide, rfl, by decide⟩, rfl⟩, by decide, rfl, rfl, by decide⟩,
   ⟨(.mailbox 0), _, { tAsk (.mailbox 0) 0x0703 20 .spin with skn := { assigned := false } }, _, _, _, ⟨⟨rfl, rfl, by decide, by decide, rfl, by decide⟩, rfl⟩, by decide, rfl, rfl, by decide, by decide⟩,
   ⟨(.mailbox 0), _, { tAsk (.mailbox 0) 0x0703 20 .spin with skn := { assigned := true, master := true, members := [{ pos := 0, dev := 0, mode := 0 }] } }, _, _, _, _, ⟨⟨rfl, rfl, by decide, by decide, rfl, by decide⟩, rfl⟩, by decide, rfl, rfl, by decide, by decide, by decide, rfl, by decide⟩,
   ⟨(.mailbox 0), _, { tAsk (.mailbox 0) 0x0703 20 .spin with skn := { assigned := true, master := true, members := [{ pos := 0, dev := 0, mode := 2 }] } }, _, _, _, _, _, _, ⟨⟨rfl, rfl, by decide, by decide, rfl, by decide⟩, rfl⟩, by decide, rfl, rfl, by decide, by decide, by decide, rfl, by decide, rfl, rfl⟩,
   ⟨{}, 0, by decide⟩,
   ⟨{ sys := { mode := .spin }, skn := { link := [(0, { st := .up10g, pathClosed := false })], relays := [⟨0, .mailbox 0, 0, 0, false, 0⟩] } }, 0, 0, [], _, _, by decide, rfl, by decide, by decide, rfl⟩,
   ⟨{ skn := { relays := [⟨0, .mailbox 0, 0, 0, false, 0⟩] } }, 0, _, rfl⟩,
   ⟨{}, 0, by decide⟩⟩

/-- CascadeCommands: the hypotheses of each clause are met. -/
theorem witness_CascadeCommands :
    (∃ (s t : State) (b : Nat → SkOut), t = becomeMaster s ∧ (∀ l, b l = .beacon l Config.serial) ∧ s.skn.master = true ∧ s.skn.masterSerial.isSome = true) ∧
    (∃ (s t : State) (b : Nat → SkOut), t = becomeMaster s ∧ (∀ l, b l = .beacon l Config.serial) ∧ s.skn.masterSerial = none ∧ s.sys.straps.master = true ∧ s.skn.standby = false ∧ carries s 0 10 = true) ∧
    (∃ (s t : State) (b : Nat → SkOut), t = becomeMaster s ∧ (∀ l, b l = .beacon l Config.serial) ∧ s.skn.master = false ∧ s.sys.straps.master = false) ∧
    (∃ (s : State) (l : Fin 2), carries s l 10 = false) ∧
    (∃ (s : State) (l : Fin 2) (n : Tick), carries s l 10 = true ∧ n = Config.serial) ∧
    (∃ (s u : State) (l : Fin 2) (n : Tick), ∃ v, carries s l 10 = true ∧ n ≠ Config.serial ∧ u = sknTxOn (1 - l : Fin 2) 10 (.beacon (1 - l : Fin 2) n) (sknRx l s) ∧ s.sys.straps.master = false ∧ v = joinNew l n u) ∧
    (∃ (s u : State) (l : Fin 2) (n : Tick), carries s l 10 = true ∧ n ≠ Config.serial ∧ u = sknTxOn (1 - l : Fin 2) 10 (.beacon (1 - l : Fin 2) n) (sknRx l s) ∧ s.sys.straps.master = true ∧ s.skn.master = true ∧ (s.sys.mode ≠ .kindle ∨ Config.serial < n)) ∧
    (∃ (s u : State) (l : Fin 2) (n : Tick), ∃ v, ∃ w, carries s l 10 = true ∧ n ≠ Config.serial ∧ u = sknTxOn (1 - l : Fin 2) 10 (.beacon (1 - l : Fin 2) n) (sknRx l s) ∧ s.sys.straps.master = true ∧ (s.skn.master = false ∨ s.sys.mode = .kindle ∧ n < Config.serial) ∧ v = joinNew l n { u with skn := { u.skn with master := false, standby := true, conflict := true, assigned := s.skn.assigned && !s.skn.master, joined := s.skn.joined && !s.skn.master } } ∧ w = { v with skn := { v.skn with masterSerial := some n } }) ∧
    (∃ (s : State), s.skn.standby = true ∧ s.skn.master = false) ∧
    (∃ (s : State), (s.skn.standby = false ∨ s.skn.master = true)) ∧
    (∃ (s u : State) (l : Fin 2) (j : Join) (pos : Nat) (d : BitVec 10), d = assignId s pos j ∧ u = sknTxOn l 7 (.assign l { serial := j.serial, dev := d, master := s.skn.dev }) (sknRx l s) ∧ (s.skn.master = false ∨ carries s l 6 = false)) ∧
    (∃ (s u : State) (l : Fin 2) (j : Join) (pos : Nat) (d : BitVec 10), d = assignId s pos j ∧ u = sknTxOn l 7 (.assign l { serial := j.serial, dev := d, master := s.skn.dev }) (sknRx l s) ∧ s.skn.master = true ∧ carries s l 6 = true) ∧
    (∃ (s u : State) (l : Fin 2) (j : Join) (pos : Nat) (d : BitVec 10), ∃ e, d = assignId s pos j ∧ u = sknTxOn l 7 (.assign l { serial := j.serial, dev := d, master := s.skn.dev }) (sknRx l s) ∧ s.skn.known.find? (fun x => x.1 == j.serial) = some (j.serial, e)) ∧
    (∃ (s u : State) (l : Fin 2) (j : Join) (pos : Nat) (d : BitVec 10), d = assignId s pos j ∧ u = sknTxOn l 7 (.assign l { serial := j.serial, dev := d, master := s.skn.dev }) (sknRx l s) ∧ (∀ x ∈ s.skn.known, x.1 ≠ j.serial ∧ x.2 ≠ j.hint) ∧ (∀ m ∈ s.skn.members, m.dev ≠ j.hint ∨ m.pos = pos)) ∧
    (∃ (s u : State) (l : Fin 2) (a : Assign), u = sknRx l s ∧ a.serial = Config.serial ∧ s.skn.master = false ∧ carries s l 7 = true) ∧
    (∃ (s u : State) (l : Fin 2) (a : Assign), u = sknRx l s ∧ (a.serial ≠ Config.serial ∨ s.skn.master = true ∨ carries s l 7 = false)) ∧
    (∃ (s u : State) (l : Fin 2), u = sknRx l s ∧ s.skn.master = false ∧ carries s l 8 = true) ∧
    (∃ (s u : State) (l : Fin 2), u = sknRx l s ∧ (s.skn.master = true ∨ carries s l 8 = false)) :=
  ⟨⟨{ skn := { master := true, masterSerial := some 0 } }, _, (fun l => .beacon l Config.serial), rfl, fun _ => rfl, by decide, by decide⟩,
   ⟨{ sys := { mode := .spin, straps := ⟨true, 0, 0⟩ }, skn := { link := [(0, { st := .up10g, pathClosed := false })] } }, _, (fun l => .beacon l Config.serial), rfl, fun _ => rfl, by decide, by decide, by decide, by decide⟩,
   ⟨{}, _, (fun l => .beacon l Config.serial), rfl, fun _ => rfl, by decide, by decide⟩,
   ⟨{}, 0, by decide⟩,
   ⟨{ sys := { mode := .spin, straps := ⟨false, 0, 0⟩ }, skn := { link := [(0, { st := .up10g, pathClosed := false })] } }, 0, _, by decide, rfl⟩,
   ⟨{ sys := { mode := .spin, straps := ⟨false, 0, 0⟩ }, skn := { link := [(0, { st := .up10g, pathClosed := false })] } }, _, 0, Config.serial + 1, _, by decide, by simp, rfl, by decide, rfl⟩,
   ⟨{ sys := { mode := .spin, straps := ⟨true, 0, 0⟩ }, skn := { link := [(0, { st := .up10g, pathClosed := false })], master := true } }, _, 0, Config.serial + 1, by decide, by simp, rfl, by decide, by decide, by decide⟩,
   ⟨{ sys := { mode := .spin, straps := ⟨true, 0, 0⟩ }, skn := { link := [(0, { st := .up10g, pathClosed := false })] } }, _, 0, Config.serial + 1, _, _, by decide, by simp, rfl, by decide, by decide, rfl, rfl⟩,
   ⟨{ skn := { standby := true, master := false } }, by decide, by decide⟩,
   ⟨{ skn := { standby := false } }, by decide⟩,
   ⟨{ skn := { master := false } }, _, 0, ⟨0, 0, 0⟩, 0, _, rfl, rfl, by decide⟩,
   ⟨{ sys := { mode := .spin, straps := ⟨false, 0, 0⟩ }, skn := { link := [(0, { st := .up10g, pathClosed := false })], master := true } }, _, 0, ⟨0, 0, 0⟩, 0, _, rfl, rfl, by decide, by decide⟩,
   ⟨{ skn := { known := [(0, default)] } }, _, 0, ⟨0, 0, 0⟩, 0, _, _, rfl, rfl, rfl⟩,
   ⟨{}, _, 0, ⟨0, 0, 0⟩, 0, _, rfl, rfl, (fun _ h => by cases h), (fun _ h => by cases h)⟩,
   ⟨{ sys := { mode := .spin, straps := ⟨false, 0, 0⟩ }, skn := { link := [(0, { st := .up10g, pathClosed := false })] } }, _, 0, ⟨Config.serial, 0, 0⟩, rfl, rfl, by decide, by decide⟩,
   ⟨{ skn := { master := true } }, _, 0, ⟨0, 0, 0⟩, rfl, .inr (.inl rfl)⟩,
   ⟨{ sys := { mode := .spin, straps := ⟨false, 0, 0⟩ }, skn := { link := [(0, { st := .up10g, pathClosed := false })] } }, _, 0, rfl, by decide, by decide⟩,
   ⟨{ skn := { master := true } }, _, 0, rfl, by decide⟩⟩

/-- TagStateCommands: the hypotheses of each clause are met. -/
theorem witness_TagStateCommands :
    (∃ (s : State), pingsOn s = false) ∧
    (∃ (s : State), pingsOn s = true ∧ (s.tag.field = true ∨ bankOk s 0 = false)) ∧
    (∃ (s : State), pingsOn s = true ∧ s.tag.field = false ∧ bankOk s 0 = true ∧ s.tag.pings < 7) ∧
    (∃ (s : State), pingsOn s = true ∧ s.tag.field = false ∧ bankOk s 0 = true ∧ s.tag.pings = 7) ∧
    (∃ (s : State) (a : Nat), pingsOn s = true ∧ s.tag.field = false ∧ bankOk s 0 = true ∧ 8 ≤ s.tag.pings ∧ (2 * a < s.tag.kindleAmp ∨ 3 * s.tag.kindleAmp < 2 * a)) ∧
    (∃ (s : State) (a : Nat) (p : Int), pingsOn s = true ∧ s.tag.field = false ∧ bankOk s 0 = true ∧ 8 ≤ s.tag.pings ∧ s.tag.kindleAmp ≤ 2 * a ∧ 2 * a ≤ 3 * s.tag.kindleAmp ∧ pingDetects s a p = true) ∧
    (∃ (s : State) (a : Nat) (p : Int), pingsOn s = true ∧ s.tag.field = false ∧ bankOk s 0 = true ∧ 8 ≤ s.tag.pings ∧ s.tag.kindleAmp ≤ 2 * a ∧ 2 * a ≤ 3 * s.tag.kindleAmp ∧ pingDetects s a p = false) ∧
    (∃ (s : State), s.tag.field = false) ∧
    (∃ (s : State), s.tag.field = true) ∧
    (∃ (s : State) (u : Tick), s.tag.field = true ∧ u ≠ tagUid) :=
  ⟨⟨{}, by decide⟩,
   ⟨{ sys := { mode := .spin }, tag := { field := true }, pwr := { banks := 1 }, regs := [(0x400B0008, 0x80000000)] }, by decide, by decide⟩,
   ⟨{ sys := { mode := .spin }, tag := { pings := 6 }, pwr := { banks := 1 }, regs := [(0x400B0008, 0x80000000)] }, by decide, by decide, by decide, by decide⟩,
   ⟨{ sys := { mode := .spin }, tag := { pings := 7 }, pwr := { banks := 1 }, regs := [(0x400B0008, 0x80000000)] }, by decide, by decide, by decide, by decide⟩,
   ⟨{ sys := { mode := .spin }, tag := { pings := 8, kindleAmp := 1 }, pwr := { banks := 1 }, regs := [(0x400B0008, 0x80000000)] }, 0, by decide, by decide, by decide, by decide, by decide⟩,
   ⟨{ sys := { mode := .spin }, tag := { pings := 8 }, pwr := { banks := 1 }, regs := [(0x400B0008, 0x80000000)] }, 0, 0, by decide, by decide, by decide, by decide, by decide, by decide, by decide⟩,
   ⟨{ sys := { mode := .spin }, tag := { pings := 8 }, pwr := { banks := 1 }, regs := [(0x400B0008, 0x80010100)] }, 0, 0, by decide, by decide, by decide, by decide, by decide, by decide, by decide⟩,
   ⟨{ tag := { field := false } }, by decide⟩,
   ⟨{ tag := { field := true } }, by decide⟩,
   ⟨{ tag := { field := true } }, tagUid + 1, by decide, by simp⟩⟩

/-- TagAccessCommands: the hypotheses of each clause are met. -/
theorem witness_TagAccessCommands :
    (∃ (s : State) (n : Fin 256), s.tag.field = true ∧ (n.val < 40 ∨ n.val = 72 ∨ (s.tag.secured = true ∧ n.val < 72))) ∧
    (∃ (s : State) (n : Fin 256), s.tag.field = true ∧ 40 ≤ n.val ∧ n.val ≠ 72 ∧ (s.tag.secured = false ∨ 72 < n.val)) ∧
    (∃ (s : State) (blocks : List (Nat × List Byte)) (n : Nat), s.dst.running = some (.nameplate blocks) ∧ n ≠ 72) ∧
    (∃ (s : State) (n : Fin 256) (k : Fin 9), s.tag.field = true ∧ (∀ i < k.val, n.val + i < 40 ∨ n.val + i = 72 ∨ (s.tag.secured = true ∧ n.val + i < 72))) ∧
    (∃ (s : State) (n : Fin 256) (k : Fin 9) (i : Nat), s.tag.field = true ∧ i < k.val ∧ 40 ≤ n.val + i ∧ n.val + i ≠ 72 ∧ (s.tag.secured = false ∨ 72 < n.val + i)) ∧
    (∃ (s : State), s.tag.field = true ∧ s.tag.secured = true ∧ s.pwr.railOk.getLsbD 6 = true) ∧
    (∃ (s : State), s.tag.field = true ∧ s.tag.secured = false) ∧
    (∃ (s : State), s.tag.field = true ∧ s.tag.secured = true ∧ s.pwr.railOk.getLsbD 6 = false) ∧
    (∃ (s : State) (n : Fin 256), s.tag.field = true ∧ n.val ≠ 72) ∧
    (∃ (s : State) (key : BitVec 128), s.tag.field = true ∧ s.tag.backoff = false ∧ key.toNat = s.dst.nameplate.num 7940 16 ∧ key.toNat ≠ 0) ∧
    (∃ (s : State) (pwd : Word), s.tag.field = true ∧ s.tag.backoff = false ∧ pwd.toNat = s.dst.nameplate.num 7936 4 ∧ pwd.toNat ≠ 0) ∧
    (∃ (s : State) (key : BitVec 128), s.tag.field = true ∧ stewardRuns s = true ∧ (s.tag.backoff = true ∨ key.toNat ≠ s.dst.nameplate.num 7940 16 ∨ key.toNat = 0)) ∧
    (∃ (s : State) (pwd : Word), s.tag.field = true ∧ stewardRuns s = true ∧ (s.tag.backoff = true ∨ pwd.toNat ≠ s.dst.nameplate.num 7936 4 ∨ pwd.toNat = 0)) ∧
    (∃ (s : State) (key : BitVec 128), s.tag.field = true ∧ stewardRuns s = false ∧ (s.tag.backoff = true ∨ key.toNat ≠ s.dst.nameplate.num 7940 16 ∨ key.toNat = 0)) ∧
    (∃ (m : Byte), m ≠ Config.mfr) ∧
    (∃ (s : State) (c : Byte), s.tag.field = true ∧ c.toNat ∉ [0x01, 0x02, 0x20, 0x21, 0x23, 0x25, 0x26, 0x2B, 0x35, 0xB2]) ∧
    (∃ (c : Byte), c.toNat ∈ [0x01, 0x02, 0x20, 0x21, 0x23, 0x25, 0x26, 0x2B, 0x35, 0xB2]) :=
  ⟨⟨{ tag := { field := true } }, 0, by decide, by decide⟩,
   ⟨{ tag := { field := true, secured := false } }, 40, by decide, by decide, by decide, by decide⟩,
   ⟨{ dst := { running := (some (.nameplate [])) } }, [], 0, by decide, by decide⟩,
   ⟨{ tag := { field := true } }, 0, 0, by decide, by decide⟩,
   ⟨{ tag := { field := true, secured := false } }, 40, 1, 0, by decide, by decide, by decide, by decide, by decide⟩,
   ⟨{ tag := { field := true, secured := true }, pwr := { railOk := 64 } }, by decide, by decide, by decide⟩,
   ⟨{ tag := { field := true, secured := false } }, by decide, by decide⟩,
   ⟨{ tag := { field := true, secured := true } }, by decide, by decide, by decide⟩,
   ⟨{ tag := { field := true } }, 0, by decide, by decide⟩,
   ⟨{ tag := { field := true, backoff := false }, dst := { nameplate := [(7940, 1)] } }, 1, by decide, by decide, by decide, by decide⟩,
   ⟨{ tag := { field := true, backoff := false }, dst := { nameplate := [(7936, 1)] } }, 1, by decide, by decide, by decide, by decide⟩,
   ⟨{ tag := { field := true, backoff := true }, sys := { mode := .spin } }, 0, by decide, by decide, by decide⟩,
   ⟨{ tag := { field := true, backoff := true }, sys := { mode := .spin } }, 0, by decide, by decide, by decide⟩,
   ⟨{ tag := { field := true, backoff := true } }, 0, by decide, by decide, by decide⟩,
   ⟨Config.mfr + 1, by simp⟩,
   ⟨{ tag := { field := true } }, 0, by decide, by decide⟩,
   ⟨1, by decide⟩⟩

/-- RovingProgramCommands: the hypotheses of each clause are met. -/
theorem witness_RovingProgramCommands :
    (∃ (s : State), rovFetches s = false) ∧
    (∃ (s : State) (w0 w1 : Word) (n : Nat), rovFetches s = true ∧ w0 = rovW0 s ∧ w1 = rovW1 s ∧ rovLegal w0 w1 = true ∧ n = (s.rov.pc + 8) % 2 ^ 22 ∧ bitsOf w0 26 6 = 1) ∧
    (∃ (s : State) (w0 w1 : Word) (n : Nat), rovFetches s = true ∧ w0 = rovW0 s ∧ w1 = rovW1 s ∧ rovLegal w0 w1 = true ∧ n = (s.rov.pc + 8) % 2 ^ 22 ∧ bitsOf w0 26 6 = 2) ∧
    (∃ (s : State) (w0 w1 : Word) (n : Nat), rovFetches s = true ∧ w0 = rovW0 s ∧ w1 = rovW1 s ∧ rovLegal w0 w1 = true ∧ n = (s.rov.pc + 8) % 2 ^ 22 ∧ bitsOf w0 26 6 = 3 ∧ s.rov.loops.length < 8) ∧
    (∃ (s : State) (w0 w1 : Word) (n : Nat), rovFetches s = true ∧ w0 = rovW0 s ∧ w1 = rovW1 s ∧ rovLegal w0 w1 = true ∧ n = (s.rov.pc + 8) % 2 ^ 22 ∧ bitsOf w0 26 6 = 3 ∧ 8 ≤ s.rov.loops.length) ∧
    (∃ (s : State) (w0 w1 : Word) (n : Nat), rovFetches s = true ∧ w0 = rovW0 s ∧ w1 = rovW1 s ∧ rovLegal w0 w1 = true ∧ n = (s.rov.pc + 8) % 2 ^ 22 ∧ bitsOf w0 26 6 = 4 ∧ s.rov.loops = []) ∧
    (∃ (s : State) (w0 w1 : Word) (n : Nat), ∃ l, ∃ rest, rovFetches s = true ∧ w0 = rovW0 s ∧ w1 = rovW1 s ∧ rovLegal w0 w1 = true ∧ n = (s.rov.pc + 8) % 2 ^ 22 ∧ bitsOf w0 26 6 = 4 ∧ s.rov.loops = l :: rest) ∧
    (∃ (s : State) (w0 w1 : Word) (n : Nat), rovFetches s = true ∧ w0 = rovW0 s ∧ w1 = rovW1 s ∧ rovLegal w0 w1 = true ∧ n = (s.rov.pc + 8) % 2 ^ 22 ∧ bitsOf w0 26 6 = 5 ∧ s.rov.stack.length < 8) ∧
    (∃ (s : State) (w0 w1 : Word) (n : Nat), rovFetches s = true ∧ w0 = rovW0 s ∧ w1 = rovW1 s ∧ rovLegal w0 w1 = true ∧ n = (s.rov.pc + 8) % 2 ^ 22 ∧ bitsOf w0 26 6 = 5 ∧ 8 ≤ s.rov.stack.length) ∧
    (∃ (s : State) (w0 w1 : Word) (n : Nat), rovFetches s = true ∧ w0 = rovW0 s ∧ w1 = rovW1 s ∧ rovLegal w0 w1 = true ∧ n = (s.rov.pc + 8) % 2 ^ 22 ∧ bitsOf w0 26 6 = 6 ∧ s.rov.stack = []) ∧
    (∃ (s : State) (w0 w1 : Word) (n : Nat), ∃ a, ∃ rest, rovFetches s = true ∧ w0 = rovW0 s ∧ w1 = rovW1 s ∧ rovLegal w0 w1 = true ∧ n = (s.rov.pc + 8) % 2 ^ 22 ∧ bitsOf w0 26 6 = 6 ∧ s.rov.stack = a :: rest) ∧
    (∃ (s : State) (w0 w1 : Word) (n : Nat), rovFetches s = true ∧ w0 = rovW0 s ∧ w1 = rovW1 s ∧ rovLegal w0 w1 = true ∧ n = (s.rov.pc + 8) % 2 ^ 22 ∧ bitsOf w0 26 6 = 7) ∧
    (∃ (s : State) (w0 w1 : Word) (n : Nat), rovFetches s = true ∧ w0 = rovW0 s ∧ w1 = rovW1 s ∧ rovLegal w0 w1 = true ∧ n = (s.rov.pc + 8) % 2 ^ 22 ∧ bitsOf w0 26 6 = 10) ∧
    (∃ (s : State) (w0 w1 : Word) (n : Nat), rovFetches s = true ∧ w0 = rovW0 s ∧ w1 = rovW1 s ∧ rovLegal w0 w1 = true ∧ n = (s.rov.pc + 8) % 2 ^ 22 ∧ bitsOf w0 26 6 = 11) ∧
    (∃ (s : State), rovFetches s = true ∧ rovLegal (rovW0 s) (rovW1 s) = false) ∧
    (∃ (s : State), rovLegal (rovW0 s) (rovW1 s) = true) ∧
    (∃ (b : Nat), b < 7) ∧
    (∃ (s : State), s.rov.lastVec = none) ∧
    (∃ (s : State), ∃ v, s.rov.lastVec = some v) ∧
    (∃ (s : State) (b : Word), s.rov.running = true ∧ s.rov.waitr = some b) ∧
    (∃ (s : State), (s.rov.running = false ∨ s.rov.waitr = none)) :=
  ⟨⟨{}, by decide⟩,
   ⟨{ rov := { mem := [(3, 4)], ready := 1, running := true } }, _, _, _, by decide, rfl, rfl, by decide, rfl, by decide⟩,
   ⟨{ rov := { mem := [(3, 8)], ready := 1, running := true } }, _, _, _, by decide, rfl, rfl, by decide, rfl, by decide⟩,
   ⟨{ rov := { mem := [(3, 12)], ready := 1, running := true } }, _, _, _, by decide, rfl, rfl, by decide, rfl, by decide, by decide⟩,
   ⟨{ rov := { mem := [(3, 12)], ready := 1, running := true, loops := List.replicate 8 ⟨0, 1⟩ } }, _, _, _, by decide, rfl, rfl, by decide, rfl, by decide, by decide⟩,
   ⟨{ rov := { mem := [(3, 16)], ready := 1, running := true } }, _, _, _, by decide, rfl, rfl, by decide, rfl, by decide, by decide⟩,
   ⟨{ rov := { mem := [(3, 16)], ready := 1, running := true, loops := [⟨0, 1⟩] } }, _, _, _, _, _, by decide, rfl, rfl, by decide, rfl, by decide, rfl⟩,
   ⟨{ rov := { mem := [(3, 20)], ready := 1, running := true } }, _, _, _, by decide, rfl, rfl, by decide, rfl, by decide, by decide⟩,
   ⟨{ rov := { mem := [(3, 20)], ready := 1, running := true, stack := List.replicate 8 0 } }, _, _, _, by decide, rfl, rfl, by decide, rfl, by decide, by decide⟩,
   ⟨{ rov := { mem := [(3, 24)], ready := 1, running := true } }, _, _, _, by decide, rfl, rfl, by decide, rfl, by decide, by decide⟩,
   ⟨{ rov := { mem := [(3, 24)], ready := 1, running := true, stack := [0] } }, _, _, _, _, _, by decide, rfl, rfl, by decide, rfl, by decide, rfl⟩,
   ⟨{ rov := { mem := [(3, 28)], ready := 1, running := true } }, _, _, _, by decide, rfl, rfl, by decide, rfl, by decide⟩,
   ⟨{ rov := { mem := [(3, 40)], ready := 1, running := true } }, _, _, _, by decide, rfl, rfl, by decide, rfl, by decide⟩,
   ⟨{ rov := { mem := [(3, 44)], ready := 1, running := true } }, _, _, _, by decide, rfl, rfl, by decide, rfl, by decide⟩,
   ⟨{ rov := { mem := [(3, 252)], ready := 1, running := true } }, by decide, by decide⟩,
   ⟨{ rov := { mem := [(3, 4)], ready := 1, running := true } }, by decide⟩,
   ⟨0, by decide⟩,
   ⟨{ rov := { lastVec := none } }, by decide⟩,
   ⟨{ rov := { lastVec := some 0 } }, _, rfl⟩,
   ⟨{ rov := { running := true, waitr := (some 0) } }, 0, by decide, by decide⟩,
   ⟨{ rov := { running := false } }, by decide⟩⟩

/-- RovingVectorCommands: the hypotheses of each clause are met. -/
theorem witness_RovingVectorCommands :
    (∃ (s : State), s.rov.running = false) ∧
    (∃ (s u : State) (now : Nat), s.rov.running = true ∧ u = reachTick (BitVec.ofNat 64 (s.rov.next / 16)) s ∧ now = max s.rov.next (s.ply.reel.toNat * 16) ∧ s.rov.failed = true) ∧
    (∃ (s u : State) (now : Nat), s.rov.running = true ∧ u = reachTick (BitVec.ofNat 64 (s.rov.next / 16)) s ∧ now = max s.rov.next (s.ply.reel.toNat * 16) ∧ s.rov.failed = false ∧ s.rov.stopping = some false) ∧
    (∃ (s u : State) (now : Nat), s.rov.running = true ∧ u = reachTick (BitVec.ofNat 64 (s.rov.next / 16)) s ∧ now = max s.rov.next (s.ply.reel.toNat * 16) ∧ s.rov.failed = false ∧ s.rov.stopping = some true) ∧
    (∃ (s u : State) (now : Nat), s.rov.running = true ∧ u = reachTick (BitVec.ofNat 64 (s.rov.next / 16)) s ∧ now = max s.rov.next (s.ply.reel.toNat * 16) ∧ s.rov.failed = false ∧ s.rov.stopping = none) ∧
    (∃ (s : State) (p : RPlay) (v : Word) (now : Nat), s.rov.running = true ∧ s.rov.failed = false ∧ s.rov.stopping = none ∧ s.rov.play = some p ∧ s.rov.stream = [] ∧ s.rov.strmNext = [] ∧ s.rov.lastVec = none ∧ s.rov.ready.getLsbD (p.next / 131072 % 32) = true ∧ v = patWord s p.next ∧ now = max s.rov.next (s.ply.reel.toNat * 16) ∧ v &&& 0x0F00FF00 = 0) ∧
    (∃ (s : State) (p : RPlay), s.rov.play = some p ∧ s.rov.ready.getLsbD (p.next / 131072 % 32) = false) ∧
    (∃ (s : State) (p : RPlay) (now : Nat), s.rov.play = some p ∧ readyInTime s p.next now = true ∧ s.rov.stream = [] ∧ s.rov.strmNext = [] ∧ patWord s p.next &&& 0x0F00FF00 ≠ 0) ∧
    (∃ (s : State) (b v : Word), s.rov.play = none ∧ s.rov.waitr = some b ∧ s.rov.lastVec = some v) ∧
    (∃ (s : State) (w0 w1 : Word) (n c : Nat), rovFetches s = true ∧ w0 = rovW0 s ∧ w1 = rovW1 s ∧ rovLegal w0 w1 = true ∧ n = (s.rov.pc + 8) % 2 ^ 22 ∧ c = bitsOf w0 25 1 ∧ bitsOf w0 26 6 = 8) ∧
    (∃ (s : State) (w0 w1 : Word) (n c : Nat), rovFetches s = true ∧ w0 = rovW0 s ∧ w1 = rovW1 s ∧ rovLegal w0 w1 = true ∧ n = (s.rov.pc + 8) % 2 ^ 22 ∧ c = bitsOf w0 25 1 ∧ bitsOf w0 26 6 = 9 ∧ streamOf s c = none) ∧
    (∃ (s : State) (c : Fin 2) (x : RStream) (h : List Nat), streamOf s c = some x ∧ s.rov.running = true ∧ x.loop = false ∧ h = streamTaps s c x (x.count - 1)) ∧
    (∃ (s : State) (c : Fin 2), streamOf s c = none) ∧
    (∃ (s u : State) (a : Tick), s.rov.startAt = some a ∧ u = reachTick a s) ∧
    (∃ (s : State), s.rov.startAt = none) ∧
    (∃ (s u : State) (a : Nat), a = s.fld 0x400C0030 0 22 ∧ u = s.setFld 0x400C0030 0 22 (a + 4)) :=
  ⟨⟨{ rov := { running := false } }, by decide⟩,
   ⟨{ rov := { running := true, failed := true } }, _, _, by decide, rfl, rfl, by decide⟩,
   ⟨{ rov := { running := true, failed := false, stopping := (some false) } }, _, _, by decide, rfl, rfl, by decide, by decide⟩,
   ⟨{ rov := { running := true, failed := false, stopping := (some true) } }, _, _, by decide, rfl, rfl, by decide, by decide⟩,
   ⟨{ rov := { running := true, failed := false, stopping := none } }, _, _, by decide, rfl, rfl, by decide, by decide⟩,
   ⟨{ rov := { running := true, failed := false, stopping := none, play := (some ⟨0, 0, false⟩), stream := [], strmNext := [], lastVec := none, ready := 1 } }, ⟨0, 0, false⟩, _, _, by decide, by decide, by decide, by decide, by decide, by decide, by decide, by decide, rfl, rfl, by decide⟩,
   ⟨{ rov := { play := (some ⟨0, 0, false⟩) } }, ⟨0, 0, false⟩, by decide, by decide⟩,
   ⟨{ rov := { running := true, play := some ⟨0, 0, false⟩, ready := 1, mem := [(1, 255)] } }, ⟨0, 0, false⟩, 0, by decide, by decide, by decide, by decide, by decide⟩,
   ⟨{ rov := { play := none, waitr := (some 0), lastVec := (some 0) } }, 0, 0, by decide, by decide, by decide⟩,
   ⟨{ rov := { mem := [(3, 32)], ready := 1, running := true } }, _, _, _, _, by decide, rfl, rfl, by decide, rfl, rfl, by decide⟩,
   ⟨{ rov := { mem := [(3, 36)], ready := 1, running := true } }, _, _, _, _, by decide, rfl, rfl, by decide, rfl, rfl, by decide, by decide⟩,
   ⟨{ rov := { running := true, stream := [(0, some { addr := 0, count := 1, loop := false })] } }, 0, { addr := 0, count := 1, loop := false }, _, by decide, by decide, by decide, rfl⟩,
   ⟨{}, 0, by decide⟩,
   ⟨{ rov := { startAt := (some 0) } }, _, 0, by decide, rfl⟩,
   ⟨{ rov := { startAt := none } }, by decide⟩,
   ⟨{}, _, _, rfl, rfl⟩⟩

/-- ReelLowReadLatchesTheHighWord: the hypotheses of each clause are met. -/
theorem witness_ReelLowReadLatchesTheHighWord :
    (∃ (s : State), stewardRuns s = true) ∧
    (∃ (s : State) (e : Bool) (u : State), u.latch = (busRead 0x40080000 e s).2.latch) :=
  ⟨⟨{ sys := { mode := .spin } }, by decide⟩,
   ⟨{}, false, _, rfl⟩⟩

/-- EretReturns: its hypotheses are met. -/
theorem witness_EretReturns :
    ∃ (s u : State), coreReady .steward s ∧ s.stw.ext = false ∧ u = stwFetched s :=
  ⟨{ sys := { mode := .spin }, stw := { ext := false } }, _, ⟨by decide, by decide, by decide⟩, by decide, rfl⟩

end Sys2Proof.Tests
end

section
/-!
The fields of a register (R8, R10, Table 0.2): a field put into a word is read bit by bit, and what a write, a read and a
read of an RC field do to one field follows from the value each puts back.
-/

namespace Sys2Proof.Machine

/-! ### Bits of a field -/

theorem testBit_bitsOf (v : Word) (lo w i : Nat) : (bitsOf v lo w).testBit i = (decide (i < w) && bitOf v (lo + i)) := by
  rw [bitsOf, bitOf, Nat.testBit_mod_two_pow, Nat.testBit_div_two_pow, BitVec.testBit_toNat, Nat.add_comm i lo]

theorem bitOf_fieldMask (lo w i : Nat) : bitOf (fieldMask lo w) i = (decide (i < 32) && (decide (lo ≤ i) && decide (i - lo < w))) := by
  rw [bitOf, fieldMask, BitVec.getLsbD_ofNat, Nat.testBit_mul_two_pow, Nat.testBit_two_pow_sub_one]

/-- Inside the field the bits are the new value's, outside they are the old word's. -/
theorem bitOf_putField {lo w : Nat} (x : Word) (v i : Nat) (h : lo + w ≤ 32) :
    bitOf (putField x lo w v) i = if lo ≤ i ∧ i < lo + w then v.testBit (i - lo) else bitOf x i := by
  have hmask := bitOf_fieldMask lo w i
  simp only [bitOf] at hmask ⊢
  simp only [putField, BitVec.getLsbD_or, BitVec.getLsbD_and, BitVec.getLsbD_not, hmask, BitVec.getLsbD_ofNat,
    Nat.testBit_mul_two_pow, Nat.testBit_mod_two_pow]
  by_cases hi : i < 32
  · by_cases hlo : lo ≤ i
    · have hw : i - lo < w ↔ i < lo + w := by omega
      by_cases hup : i < lo + w <;> simp [hi, hlo, hw, hup]
    · simp [hi, hlo]
  · have hout : ¬(lo ≤ i ∧ i < lo + w) := by omega
    simp [hi, hout, BitVec.getLsbD_of_ge x i (by omega)]

theorem bitOf_putField_inside {lo w i : Nat} (x : Word) (v : Nat) (h : lo + w ≤ 32) (hi : i < w) :
    bitOf (putField x lo w v) (lo + i) = v.testBit i := by
  rw [bitOf_putField x v _ h, if_pos (by omega), Nat.add_sub_cancel_left]

theorem bitOf_putField_outside {lo w i : Nat} (x : Word) (v : Nat) (h : lo + w ≤ 32) (hi : i < lo ∨ lo + w ≤ i) :
    bitOf (putField x lo w v) i = bitOf x i := by
  rw [bitOf_putField x v _ h, if_neg (by omega)]

/-- A field given back its own value leaves the word as it was. -/
theorem putField_bitsOf_self {lo w : Nat} (x : Word) (h : lo + w ≤ 32) : putField x lo w (bitsOf x lo w) = x := by
  refine BitVec.eq_of_getLsbD_eq fun i _ => ?_
  change bitOf _ i = bitOf x i
  rw [bitOf_putField x _ i h]
  split
  next hin =>
    obtain ⟨hlo, hup⟩ := hin
    rw [testBit_bitsOf, decide_eq_true (by omega), Bool.true_and, Nat.add_sub_cancel' hlo]
  next => rfl

/-- A field reads as the value put into it, as far as the field's width holds it. -/
theorem bitsOf_putField {lo w : Nat} (x : Word) (v : Nat) (h : lo + w ≤ 32) : bitsOf (putField x lo w v) lo w = v % 2 ^ w := by
  refine Nat.eq_of_testBit_eq fun i => ?_
  rw [testBit_bitsOf, Nat.testBit_mod_two_pow]
  by_cases hi : i < w
  · rw [bitOf_putField_inside x v h hi]
  · simp [hi]

/-! ### The value a write stores -/

/-- Taking from `a` the bits it shares with `b`, as a W1C field does, clears those bits and no other: the subtraction never
borrows from one bit to the next. -/
theorem testBit_sub_and (a b i : Nat) : (a - (a &&& b)).testBit i = (a.testBit i && !b.testBit i) := by
  induction i generalizing a b with
  | zero =>
    have hle : a &&& b ≤ a := Nat.and_le_left
    have hlow : (a &&& b) % 2 = 1 ↔ a % 2 = 1 ∧ b % 2 = 1 := Nat.and_mod_two_eq_one
    simp only [Nat.testBit_zero]
    rw [Bool.eq_iff_iff]
    simp only [Bool.and_eq_true, Bool.not_eq_true', decide_eq_true_eq, decide_eq_false_iff_not]
    omega
  | succ i ih =>
    have hhalf : (a - (a &&& b)) / 2 = a / 2 - (a / 2 &&& b / 2) := by
      have hle : a &&& b ≤ a := Nat.and_le_left
      have hlow : (a &&& b) % 2 = 1 ↔ a % 2 = 1 ∧ b % 2 = 1 := Nat.and_mod_two_eq_one
      rw [← Nat.and_div_two]
      omega
    simp only [Nat.testBit_succ, hhalf, ih]

theorem store_of_stored {f : Fld} (old v : Nat) (h : f.acc = .rw ∨ f.acc = .wo) (hlim : f.lim = none) : f.store old v = v := by
  rcases h with h | h <;> simp only [Fld.store, h, hlim]

theorem store_w1c {f : Fld} (old v : Nat) (h : f.acc = .w1c) : f.store old v = old - (old &&& v) := by
  simp only [Fld.store, h]

theorem store_w1s {f : Fld} (old v : Nat) (h : f.acc = .w1s) : f.store old v = old ||| v := by
  simp only [Fld.store, h]

theorem store_rc {f : Fld} (old v : Nat) (h : f.acc = .rc) : f.store old v = old := by
  simp only [Fld.store, h]

/-! ### A register of one field -/

section OneField

variable {f : Fld} {i : Nat} (old v : Word)

theorem writeFields_singleton :
    writeFields [f] old v = putField old f.lo f.w (f.store (bitsOf old f.lo f.w) (bitsOf v f.lo f.w)) := rfl

theorem readFields_singleton : readFields [f] old = if f.acc = .wo then putField old f.lo f.w 0 else old := rfl

theorem readClears_singleton (e : Bool) :
    readClears [f] old e = if f.acc = .rc then putField old f.lo f.w (b2n e) else old := rfl

variable (h : f.lo + f.w ≤ 32)
include h

theorem bitOf_writeFields_outside (hi : i < f.lo ∨ f.lo + f.w ≤ i) : bitOf (writeFields [f] old v) i = bitOf old i := by
  rw [writeFields_singleton, bitOf_putField_outside _ _ h hi]

/-- A written field holds the bits of the value its access code stores. -/
theorem bitOf_writeFields_inside (hi : i < f.w) :
    bitOf (writeFields [f] old v) (f.lo + i) = (f.store (bitsOf old f.lo f.w) (bitsOf v f.lo f.w)).testBit i := by
  rw [writeFields_singleton, bitOf_putField_inside _ _ h hi]

theorem bitOf_writeFields_of_stored (ha : f.acc = .rw ∨ f.acc = .wo) (hlim : f.lim = none) (hi : i < f.w) :
    bitOf (writeFields [f] old v) (f.lo + i) = bitOf v (f.lo + i) := by
  rw [bitOf_writeFields_inside old v h hi, store_of_stored _ _ ha hlim, testBit_bitsOf, decide_eq_true hi, Bool.true_and]

theorem bitOf_writeFields_w1c (ha : f.acc = .w1c) (hi : i < f.w) :
    bitOf (writeFields [f] old v) (f.lo + i) = (bitOf old (f.lo + i) && !bitOf v (f.lo + i)) := by
  rw [bitOf_writeFields_inside old v h hi, store_w1c _ _ ha, testBit_sub_and]
  simp only [testBit_bitsOf, hi, decide_true, Bool.true_and]

theorem bitOf_writeFields_w1s (ha : f.acc = .w1s) (hi : i < f.w) :
    bitOf (writeFields [f] old v) (f.lo + i) = (bitOf old (f.lo + i) || bitOf v (f.lo + i)) := by
  rw [bitOf_writeFields_inside old v h hi, store_w1s _ _ ha, Nat.testBit_or]
  simp only [testBit_bitsOf, hi, decide_true, Bool.true_and]

theorem writeFields_rc (ha : f.acc = .rc) : writeFields [f] old v = old := by
  rw [writeFields_singleton, store_rc _ _ ha, putField_bitsOf_self old h]

theorem bitOf_readFields_wo (ha : f.acc = .wo) (hi : i < f.w) : bitOf (readFields [f] old) (f.lo + i) = false := by
  rw [readFields_singleton, if_pos ha, bitOf_putField_inside _ _ h hi, Nat.zero_testBit]

/-- R10: a read RC field is left holding the event of the same access alone. -/
theorem bitsOf_readClears_rc (e : Bool) (hw : 0 < f.w) (ha : f.acc = .rc) :
    bitsOf (readClears [f] old e) f.lo f.w = b2n e := by
  have hone : b2n e ≤ 1 := by cases e <;> decide
  have hfits : b2n e < 2 ^ f.w := Nat.lt_of_le_of_lt hone (Nat.one_lt_two_pow (Nat.ne_of_gt hw))
  rw [readClears_singleton, if_pos ha, bitsOf_putField old _ h, Nat.mod_eq_of_lt hfits]

end OneField

/-- Settles O8: each clause is the lemma for its access code. -/
theorem fieldsFollowTheirAccessCodes : Obligations.FieldsFollowTheirAccessCodes := by
  intro f old v hw h
  refine ⟨?outside, ?stored, ?w1c, ?w1s, ?rc, ?woRead, ?plainRead, ?rcRead⟩
  case outside => exact fun _ hi => bitOf_writeFields_outside old v h hi
  case stored => exact fun ha hlim _ hi => bitOf_writeFields_of_stored old v h ha hlim hi
  case w1c => exact fun ha _ hi => bitOf_writeFields_w1c old v h ha hi
  case w1s => exact fun ha _ hi => bitOf_writeFields_w1s old v h ha hi
  case rc => exact fun ha => writeFields_rc old v h ha
  case woRead => exact fun ha _ hi => bitOf_readFields_wo old h ha hi
  case plainRead => exact fun ha => (readFields_singleton old).trans (if_neg ha)
  case rcRead => exact fun ha => ⟨bitsOf_readClears_rc old h false hw ha, bitsOf_readClears_rc old h true hw ha⟩

end Sys2Proof.Machine
end

section
/-!
The Yukin divisions (R220): each value function is a division of bit vectors where the divisor is not zero, and one lemma
per core says how a division runs.
-/

namespace Sys2Proof.Machine

/-! ### The values -/

@[simp] theorem divS_zero (a : Word) : divS a 0 = 0xFFFFFFFF := if_pos rfl
@[simp] theorem divU_zero (a : Word) : divU a 0 = 0xFFFFFFFF := if_pos rfl
@[simp] theorem remS_zero (a : Word) : remS a 0 = a := if_pos rfl
@[simp] theorem remU_zero (a : Word) : remU a 0 = a := if_pos rfl

/-- The quotient 2^31 is no signed word: it wraps to the dividend. -/
theorem divS_intMin_neg_one : divS 0x80000000 0xFFFFFFFF = 0x80000000 := by decide
theorem remS_intMin_neg_one : remS 0x80000000 0xFFFFFFFF = 0 := by decide

section NonzeroDivisor

variable {b : Word} (a : Word) (hb : b ≠ 0)
include hb

theorem divS_eq_sdiv : divS a b = a.sdiv b := by
  rw [divS, if_neg hb, ← BitVec.toInt_inj, BitVec.toInt_ofInt, BitVec.toInt_sdiv]

theorem remS_eq_srem : remS a b = a.srem b := by
  rw [remS, if_neg hb, ← BitVec.toInt_srem, BitVec.ofInt_toInt]

theorem divU_eq_udiv : divU a b = a / b := by
  rw [divU, if_neg hb, ← BitVec.toNat_udiv, BitVec.ofNat_toNat, BitVec.setWidth_eq]

theorem remU_eq_umod : remU a b = a % b := by
  rw [remU, if_neg hb, ← BitVec.toNat_umod, BitVec.ofNat_toNat, BitVec.setWidth_eq]

/-- The signed quotient is truncated toward zero, but for the one that is no signed word. -/
theorem toInt_divS : a = 0x80000000 ∧ b = 0xFFFFFFFF ∨ (divS a b).toInt = a.toInt.tdiv b.toInt := by
  by_cases hcorner : a = 0x80000000 ∧ b = 0xFFFFFFFF
  · exact .inl hcorner
  · rw [divS_eq_sdiv a hb]
    exact .inr (BitVec.toInt_sdiv_of_ne_or_ne a b (Decidable.not_and_iff_not_or_not.mp hcorner))

theorem toInt_remS : (remS a b).toInt = a.toInt.tmod b.toInt := by
  rw [remS_eq_srem a hb, BitVec.toInt_srem]

theorem toNat_divU : (divU a b).toNat = a.toNat / b.toNat := by
  rw [divU_eq_udiv a hb, BitVec.toNat_udiv]

theorem toNat_remU : (remU a b).toNat = a.toNat % b.toNat := by
  rw [remU_eq_umod a hb, BitVec.toNat_umod]

end NonzeroDivisor

/-! ### The run of a division -/

theorem exec_divR (c : Core) (rd ra rb : GReg) (s : State) : exec (.divR c rd ra rb) s = .next (divOp c rd ra rb divS s) := rfl
theorem exec_divu (c : Core) (rd ra rb : GReg) (s : State) : exec (.divu c rd ra rb) s = .next (divOp c rd ra rb divU s) := rfl
theorem exec_remR (c : Core) (rd ra rb : GReg) (s : State) : exec (.remR c rd ra rb) s = .next (divOp c rd ra rb remS s) := rfl
theorem exec_remu (c : Core) (rd ra rb : GReg) (s : State) : exec (.remu c rd ra rb) s = .next (divOp c rd ra rb remU s) := rfl

theorem divOp_steward_ready (rd ra rb : GReg) (f : Word → Word → Word) {s : State} (h : coreReady .steward s) :
    divOp .steward rd ra rb f s = coreSets .steward rd (f (gGet s.stw.g ra.toNat) (gGet s.stw.g rb.toNat)) s :=
  alu2_ready .steward rd ra rb f h

/-- R249: the fault carries ILLEGAL, whatever the division. -/
theorem whlForbidden_ready {s : State} (h : coreReady .whorl s) : whlForbidden s = contract cIllegal s := by
  obtain ⟨sl, hslot, hruns, hfetch⟩ := h
  exact whlRun_ready hslot hruns hfetch

theorem divOp_whorl_ready (rd ra rb : GReg) (f : Word → Word → Word) {s : State} (h : coreReady .whorl s) :
    divOp .whorl rd ra rb f s = contract cIllegal s :=
  whlForbidden_ready h

/-- Settles O34: on the steward rd takes the value of the division's function, whose value each clause names; on the whorl
the slot raises ILLEGAL. -/
theorem yukinDivision : Obligations.YukinDivision := by
  simp only [Obligations.YukinDivision, exec_divR, exec_divu, exec_remR, exec_remu]
  refine ⟨?byZero, ?corner, ?byOther, ?whorl⟩
  case byZero =>
    rintro rd ra rb s _ hready rfl hb
    simp only [divOp_steward_ready _ _ _ _ hready, hb, divS_zero, divU_zero, remS_zero, remU_zero, and_self]
  case corner =>
    intro rd ra rb s hready ha hb
    simp only [divOp_steward_ready _ _ _ _ hready, ha, hb, divS_intMin_neg_one, remS_intMin_neg_one, and_self]
  case byOther =>
    rintro rd ra rb s a b hready ha hb hne
    simp only [divOp_steward_ready _ _ _ _ hready, ← ha, ← hb]
    exact ⟨⟨_, rfl, toInt_divS a hne⟩, ⟨_, rfl, toInt_remS a hne⟩, ⟨_, rfl, toNat_divU a hne⟩, ⟨_, rfl, toNat_remU a hne⟩⟩
  case whorl =>
    intro rd ra rb s hready
    simp only [divOp_whorl_ready _ _ _ _ hready, cIllegal, and_self]

end Sys2Proof.Machine
end

section
/-!
The return from a fault or interrupt (R234): a privileged instruction of a ready steward outside extension mode runs its body
on the state after the fetch.
-/

namespace Sys2Proof.Machine

/-- Neither PRIV (R231) nor the budget (R253) applies outside extension mode. -/
theorem privOp_ready_ok {body : State → Res State} {s t : State} (h : coreReady .steward s) (hext : s.stw.ext = false)
    (hbody : body (stwFetched s) = .ok t) : privOp .steward body s = t := by
  simp only [privOp, stwRun_ready h, stwFetched_ext, hext, Bool.false_eq_true, if_false, hbody, retire]

/-- ERET restores what the entry saved: the fetch of its word leaves YC_EPC, PIE and PEXT as they were. -/
theorem stwReturn_stwFetched (s : State) : stwReturn (stwFetched s) = { stwFetched s with
    stw := { (stwFetched s).stw with pc := s.stw.epc, ie := s.stw.pie, ext := s.stw.pext, fh := false } } := by
  obtain ⟨soft, corrected, hfetched⟩ := stwFetched_eq s
  rw [hfetched]
  rfl

theorem exec_eret_ready {s : State} (h : coreReady .steward s) (hext : s.stw.ext = false) :
    exec (.eret .steward) s = .next (stwReturn (stwFetched s)) :=
  congrArg Host.Outcome.next (privOp_ready_ok h hext rfl)

theorem fetchSeg_of_ext {s : State} (h : s.stw.ext = true) : fetchSeg s = 8 := if_pos h

theorem fetchSeg_of_not_ext {s : State} (h : s.stw.ext = false) : fetchSeg s = 0 := by
  rw [fetchSeg, h, if_neg Bool.false_ne_true]

/-- Settles O60: the state that ERET leaves is the return's, and its EXT chooses the segment of the next fetch (R213). -/
theorem eretReturns : Obligations.EretReturns := by
  rintro s _ hready hext rfl
  exact ⟨_, exec_eret_ready hready hext, stwReturn_stwFetched s, fetchSeg_of_ext, fetchSeg_of_not_ext⟩

end Sys2Proof.Machine
end

section
/-!
The reads of the Reel (R612, R196). In every state a read of PLY_REELLO latches the Reel's high word, and a read of
PLY_REELHI returns the latched word. The low word read is the Reel's where the register table holds no bit at the address
of PLY_REELLO, as at reset. O59 speaks of every state, and one that holds a bit there, which `Inv` allows, refutes it.
-/

namespace Sys2Proof

/-- A key just listed reads back, even where the table is not canonical. -/
theorem Tab.get_put_self {α : Type} (d : Nat → α) (i : Nat) (x : α) : ∀ t : Tab α, Tab.get d (t.put i x) i = x
  | [] => if_pos rfl
  | (k, v) :: t => by
    rw [Tab.put]
    split
    · exact if_pos rfl
    · next hne =>
      split
      · exact if_pos rfl
      · next hnlt =>
        rw [Tab.get, if_neg hne, if_neg hnlt]
        exact Tab.get_put_self d i x t

namespace Machine

/-! ### The values -/

/-- PLY_REELLO is read-only (R640): no field lies there, and a read returns whatever the table holds there beside the Reel. -/
theorem plainValue_reelLo (s : State) :
    plainValue s 0x40080000 = s.rd 0x40080000 ||| BitVec.ofNat 32 (s.ply.reel.toNat % 2 ^ 32) := by
  have hword : BitVec.ofNat 32 (s.ply.reel.toNat % 2 ^ 32) = BitVec.ofNat 32 s.ply.reel.toNat :=
    BitVec.eq_of_toNat_eq (Nat.mod_mod _ _)
  rw [hword]
  rfl

theorem plainValue_reelHi_of_latched {s : State} {v : Word} (h : latched s 0x40080004 = some v) :
    plainValue s 0x40080004 = v := by
  have hhigh : isPairHigh 0x40080004 = true := by decide
  simp only [plainValue, hhigh, if_true, h]

/-! ### The accesses -/

theorem busRead_reelLo (e : Bool) (s : State) : busRead 0x40080000 e s = (plainValue s 0x40080000, { s with
    latch := Tab.set (fun _ => none) s.latch 0x40080004 (some (BitVec.ofNat 32 (s.ply.reel.toNat / 2 ^ 32))) }) := rfl

theorem busRead_reelHi (e : Bool) (s : State) : (busRead 0x40080004 e s).1 = plainValue s 0x40080004 := rfl

theorem exec_latchedPairRead_reelLo {s : State} (hruns : stewardRuns s = true) :
    exec (.latchedPairRead .block ⟨0x40080000, 4⟩) s =
      .next { (busRead 0x40080000 false s).2 with rdata := (busRead 0x40080000 false s).1 } :=
  congrArg Host.Outcome.next (if_pos hruns)

theorem exec_rcFieldRead_reelHi (e : Bool) {s : State} (hruns : stewardRuns s = true) :
    exec (.rcFieldRead .block ⟨0x40080004, 4⟩ e) s =
      .next { (busRead 0x40080004 e s).2 with rdata := (busRead 0x40080004 e s).1 } :=
  congrArg Host.Outcome.next (if_pos hruns)

theorem latched_busRead_reelLo (e : Bool) (s : State) :
    latched (busRead 0x40080000 e s).2 0x40080004 = some (BitVec.ofNat 32 (s.ply.reel.toNat / 2 ^ 32)) := by
  rw [busRead_reelLo, latched, Tab.set, if_neg (Option.some_ne_none _)]
  exact Tab.get_put_self _ _ _ _

/-- R612: the high word read is the one the Reel had at the read of the low word. -/
theorem busRead_reelHi_of_latch_eq {s u : State} {e : Bool} (hlatch : u.latch = (busRead 0x40080000 e s).2.latch) (e' : Bool) :
    (busRead 0x40080004 e' u).1 = BitVec.ofNat 32 (s.ply.reel.toNat / 2 ^ 32) := by
  rw [busRead_reelHi]
  refine plainValue_reelHi_of_latched ?_
  rw [latched, hlatch]
  exact latched_busRead_reelLo e s

theorem busRead_reelLo_fst_of_rd_eq_zero {s : State} (hclear : s.rd 0x40080000 = 0) (e : Bool) :
    (busRead 0x40080000 e s).1 = BitVec.ofNat 32 (s.ply.reel.toNat % 2 ^ 32) := by
  rw [busRead_reelLo, plainValue_reelLo, hclear]
  exact BitVec.zero_or

/-! ### The obligation -/

/-- In Spin, the Reel at 0, and a bit in the register table at PLY_REELLO. -/
def strayReelLo : State := { sys := { mode := .spin }, regs := [(0x40080000, 1)] }

theorem inv_strayReelLo : Inv strayReelLo :=
  ⟨by unfold RegsWf; decide, by unfold RecorderOk; decide, by unfold FlogOk; decide⟩

/-- Refutes O59: in `strayReelLo`, which meets the invariant of O5, the core reads 1 from PLY_REELLO while the low word of
the Reel is 0. -/
theorem not_reelLowReadLatchesTheHighWord : ¬ Obligations.ReelLowReadLatchesTheHighWord := by
  intro h
  obtain ⟨_, hbus⟩ := h
  obtain ⟨hlow, _⟩ := hbus strayReelLo false
  rw [busRead_reelLo, plainValue_reelLo] at hlow
  exact absurd hlow (by decide)

theorem rd_reset_reelLo : State.reset.rd 0x40080000 = 0 := by decide

/-- R612 of the rows and of the core, where the table holds nothing at PLY_REELLO: the premise that O59 lacks. -/
theorem reelLow_read_latches_high_of_rd_eq_zero {s : State} (hclear : s.rd 0x40080000 = 0) :
    (stewardRuns s = true → ∃ t, exec (.latchedPairRead .block ⟨0x40080000, 4⟩) s = .next t ∧
      t.rdata = BitVec.ofNat 32 (s.ply.reel.toNat % 2 ^ 32) ∧
      ∀ (u : State) (e : Bool), u.latch = t.latch → stewardRuns u = true →
        ∃ v, exec (.rcFieldRead .block ⟨0x40080004, 4⟩ e) u = .next v ∧ v.rdata = BitVec.ofNat 32 (s.ply.reel.toNat / 2 ^ 32)) ∧
    (∀ e : Bool, (busRead 0x40080000 e s).1 = BitVec.ofNat 32 (s.ply.reel.toNat % 2 ^ 32) ∧
      ∀ (u : State) (e' : Bool), u.latch = (busRead 0x40080000 e s).2.latch →
        (busRead 0x40080004 e' u).1 = BitVec.ofNat 32 (s.ply.reel.toNat / 2 ^ 32)) := by
  refine ⟨fun hruns => ⟨_, exec_latchedPairRead_reelLo hruns, ?low, ?high⟩, ?bus⟩
  case low => exact busRead_reelLo_fst_of_rd_eq_zero hclear false
  case high =>
    intro u e hlatch huruns
    exact ⟨_, exec_rcFieldRead_reelHi e huruns, busRead_reelHi_of_latch_eq (e := false) hlatch e⟩
  case bus => exact fun e => ⟨busRead_reelLo_fst_of_rd_eq_zero hclear e, fun _ e' hlatch => busRead_reelHi_of_latch_eq hlatch e'⟩

end Machine
end Sys2Proof
end

section
/-!
Every command answers a next state that keeps the queue and each part of the invariant (O3 to O5). `Steady s t` says so of a state
`t` that comes of `s`; one lemma per operation of the model carries it through that operation, so that the proof about a command
follows the command's definition term by term.
-/

-- Theorems one after another: elaborated in parallel, their threads' stacks pass the check's memory limit.
set_option Elab.async false

namespace Sys2Proof.Machine

/-- `t` has the queue of `s`, and each part of the invariant that `s` meets. -/
structure Steady (s t : State) : Prop where
  pending : t.pending = s.pending
  regs : RegsWf s → RegsWf t
  recorder : RecorderOk s → RecorderOk t
  flog : FlogOk s → FlogOk t

namespace Steady

variable {s t u : State}

theorem refl (s : State) : Steady s s := ⟨rfl, id, id, id⟩

theorem trans (h : Steady s t) (h' : Steady t u) : Steady s u :=
  ⟨h'.pending.trans h.pending, h'.regs ∘ h.regs, h'.recorder ∘ h.recorder, h'.flog ∘ h.flog⟩

/-- A state built from the queue of `t`, with each part of the invariant kept, is steady. -/
theorem change {regs : Tab Word} {latch : Tab (Option Word)} {rdata rdataHi : Word} {free : Nat} {sys : Sys} {pwr : Pwr} {txn : TxnSt} {dst : Dst}
    {stw : Stw} {hl : Hl} {whl : Whl} {fly : Fly} {bob : Bob} {eth : Eth} {can : Tab Can} {ply : Plys} {skn : Skn} {pnl : Pnl} {tag : Tag} {rov : Rov}
    (h : Steady s t) (hr : RegsWf t → Tab.wf regRst regs = true) (hs : t.sys.recorder.length ≤ 8 → sys.recorder.length ≤ 8)
    (hf : t.whl.flog.length ≤ 16 → whl.flog.length ≤ 16) :
    Steady s ⟨t.pending, regs, latch, rdata, rdataHi, free, sys, pwr, txn, dst, stw, hl, whl, fly, bob, eth, can, ply, skn, pnl, tag, rov⟩ :=
  ⟨h.pending, hr ∘ h.regs, hs ∘ h.recorder, hf ∘ h.flog⟩

/-- What leaves the queue, the registers, the recorder and the whorl's log is steady. -/
theorem keep {latch : Tab (Option Word)} {rdata rdataHi : Word} {free : Nat} {sys : Sys} {pwr : Pwr} {txn : TxnSt} {dst : Dst} {stw : Stw} {hl : Hl}
    {whl : Whl} {fly : Fly} {bob : Bob} {eth : Eth} {can : Tab Can} {ply : Plys} {skn : Skn} {pnl : Pnl} {tag : Tag} {rov : Rov} (h : Steady s t)
    (hs : sys.recorder = t.sys.recorder := by rfl) (hf : whl.flog = t.whl.flog := by rfl) :
    Steady s ⟨t.pending, t.regs, latch, rdata, rdataHi, free, sys, pwr, txn, dst, stw, hl, whl, fly, bob, eth, can, ply, skn, pnl, tag, rov⟩ :=
  h.change id (hs ▸ id) (hf ▸ id)

/-- A steady change of the registers: their table stays canonical, the rest is as before. -/
theorem keepRegs {regs : Tab Word} (h : Steady s t) (hr : RegsWf t → Tab.wf regRst regs = true) : Steady s { t with regs := regs } :=
  ⟨h.pending, fun hw => hr (h.regs hw), h.recorder, h.flog⟩

theorem ite {c : Prop} {_ : Decidable c} (h : Steady s t) (h' : Steady s u) : Steady s (if c then t else u) := by
  split
  · exact h
  · exact h'

theorem foldl {α : Type} {f : State → α → State} {l : List α} (hf : ∀ u x, Steady s u → Steady s (f u x)) (h : Steady s t) :
    Steady s (l.foldl f t) := by
  induction l generalizing t with
  | nil => exact h
  | cons x l ih => exact ih (hf t x h)

theorem regWrite (h : Steady s t) {a : Nat} {v : Word} : Steady s (t.regWrite a v) := h.keepRegs (regsWf_regWrite a v)
theorem setBits (h : Steady s t) {a : Nat} {v : Word} : Steady s (t.setBits a v) := h.keepRegs (regsWf_setBits a v)
theorem setFld (h : Steady s t) {a lo w v : Nat} : Steady s (t.setFld a lo w v) := h.keepRegs (regsWf_setFld a lo w v)
theorem count (h : Steady s t) {a n : Nat} : Steady s (t.count a n) := h.keepRegs (regsWf_count a n)
theorem regsReset (h : Steady s t) {k : RKind} : Steady s (regsReset k t) := keep (h.keepRegs fun _ => regsWf_regsReset k t)

/-- The hardware sets a register. -/
theorem setReg (h : Steady s t) {a : Nat} {v : Word} : Steady s { t with regs := setReg t.regs a v } := h.keepRegs (wf_setReg a v)

theorem logFault (h : Steady s t) {code block : Nat} {d : List Byte} : Steady s (logFault code block d t) where
  pending := h.pending
  regs := h.regs
  recorder hw := recorderOk_logFault code block d (h.recorder hw)
  flog := h.flog

/-- The whorl's log takes an entry. -/
theorem pushFlog (h : Steady s t) {e : FlogEntry} {w : Whl} (hw : w.flog = t.whl.flog := by rfl) : Steady s { t with whl := pushFlog e w } :=
  h.change id id fun hl => pushFlog_le e w (hw ▸ hl)

end Steady

/-- An operation that answers a value or a fault leaves a steady state, which `f` reads from the value. -/
def SteadyRes {α : Type} (s : State) (f : α → State) : Res α → Prop
  | .ok x => Steady s (f x)
  | .error e => Steady s e.2

/-- What a slot's access answers, where it is no contract, is steady. -/
def SteadySlot {α : Type} (s : State) (f : α → State) : Except Nat α → Prop
  | .ok x => Steady s (f x)
  | .error _ => True

theorem SteadyRes.map {α β : Type} {s : State} {f : α → State} {g : β → State} {k : α → β} {r : Res α} (h : SteadyRes s f r)
    (hk : ∀ x, Steady s (f x) → Steady s (g (k x))) : SteadyRes s g (r.map k) := by
  cases r with
  | ok x => exact hk x h
  | error e => exact h

theorem SteadySlot.map {α β : Type} {s : State} {f : α → State} {g : β → State} {k : α → β} {r : Except Nat α} (h : SteadySlot s f r)
    (hk : ∀ x, Steady s (f x) → Steady s (g (k x))) : SteadySlot s g (r.map k) := by
  cases r with
  | ok x => exact hk x h
  | error e => trivial

/-- An access that leaves the state as it is. -/
theorem SteadySlot.same {α β : Type} {s t : State} {k : α → β} {g : β → State} (h : Steady s t) (r : Except Nat α) (hk : ∀ x, g (k x) = t) :
    SteadySlot s g (r.map k) := by
  cases r with
  | ok x => show Steady s (g (k x)); rw [hk]; exact h
  | error e => trivial
/-- A command answers a next state, and that is steady. -/
def Answers (s : State) : Host.Outcome State Fault Refusal → Prop
  | .next t => Steady s t
  | .fault _ => False
  | .refused _ => False

theorem Answers.ite {s : State} {c : Prop} {_ : Decidable c} {o o' : Host.Outcome State Fault Refusal} (h : Answers s o) (h' : Answers s o') :
    Answers s (if c then o else o') := by
  split
  · exact h
  · exact h'

namespace Steady

variable {s t u : State}

theorem setEport (h : Steady s t) {p : Nat} {f : EPort → EPort} : Steady s (t.setEport p f) := keep h

theorem setCan (h : Steady s t) {n : Nat} {f : Can → Can} : Steady s (t.setCan n f) := keep h

theorem setFlyer (h : Steady s t) {n : Nat} {f : Flyer → Flyer} : Steady s (t.setFlyer n f) := keep h

theorem setPin (h : Steady s t) {p : Nat} {f : Pin → Pin} : Steady s (t.setPin p f) := keep h

theorem setPly (h : Steady s t) {k : Nat} {f : Ply → Ply} : Steady s (t.setPly k f) := keep h

theorem setLink (h : Steady s t) {l : Nat} {f : Link → Link} : Steady s (t.setLink l f) := keep h

theorem setRing (h : Steady s t) {r : Nat} {f : Machine.Ring → Machine.Ring} : Steady s (t.setRing r f) := keep h

theorem setStrand (h : Steady s t) {k : Nat} {f : Strand → Strand} : Steady s (t.setStrand k f) := keep h

theorem setSpindle (h : Steady s t) {n : Nat} {f : Spindle → Spindle} : Steady s (t.setSpindle n f) := keep h

theorem setBobbin (h : Steady s t) {b : Nat} {f : Bobbin → Bobbin} : Steady s (t.setBobbin b f) := keep h

theorem setEgress (h : Steady s t) {p : Nat} {f : Egress → Egress} : Steady s (t.setEgress p f) := keep h

theorem raiseLine (h : Steady s t) {n : Nat} : Steady s (raiseLine n t) := keep h

theorem clearLine (h : Steady s t) {n : Nat} : Steady s (clearLine n t) := keep h

theorem tinEvents (h : Steady s t) {n k : Nat} : Steady s (tinEvents n k t) := by
  unfold Machine.tinEvents
  exact ite (keep h) (logFault (raiseLine (setBits (pushFlog h))))

theorem hostMsg (h : Steady s t) {n : Nat} : Steady s (hostMsg n t) := keep h

theorem ringDoorbell (h : Steady s t) {n : Nat} : Steady s (ringDoorbell n t) := by
  unfold Machine.ringDoorbell
  exact ite (setBits h) (hostMsg (setBits h))

theorem tookFree (h : Steady s t) : Steady s (tookFree t) := keep h

theorem setPwr (h : Steady s t) {f : Pwr → Pwr} : Steady s (setPwr f t) := keep h

theorem chargerNote (h : Steady s t) : Steady s (chargerNote t) := by
  unfold Machine.chargerNote
  exact ite (setPwr h) h

theorem startWake (h : Steady s t) : Steady s (startWake t) := keep h

theorem wakeFire (h : Steady s t) {src : BitVec 6} : Steady s (wakeFire src t) := by
  unfold Machine.wakeFire
  exact ite h (ite (keep (setBits h)) (startWake (keep (setBits h))))

theorem queueUnit (h : Steady s t) {u : GUnit} : Steady s (queueUnit u t) := keep h

theorem setFrame (h : Steady s t) {id : Nat} {g : Frame → Frame} : Steady s (t.setFrame id g) := keep h

theorem canEvent (h : Steady s t) {n src : Nat} : Steady s (canEvent n src t) := by
  unfold Machine.canEvent
  exact ite (tinEvents h) h

theorem canFlag (h : Steady s t) {n i : Nat} : Steady s (canFlag n i t) := by
  unfold Machine.canFlag
  exact raiseLine (setBits h)

theorem canCounters (h : Steady s t) {n : Nat} {ec : CanErr} : Steady s (canCounters n ec t) := by
  unfold Machine.canCounters
  exact ite h (ite (setCan h) (canEvent (setCan h)))

theorem canTxEvent (h : Steady s t) {n : Nat} {e : CanEvent} : Steady s (canTxEvent n e t) := by
  unfold Machine.canTxEvent
  exact ite (canEvent (setCan h)) (canFlag h)

theorem canStore (h : Steady s t) {n : Nat} {fifo1 : Bool} {e : CanEntry} : Steady s (canStore n fifo1 e t) := by
  unfold Machine.canStore
  exact ite (canEvent (setCan h)) (canFlag (setCan h))

theorem canReceive (h : Steady s t) {n : Nat} {f : CanFrame} {sof : Tick} : Steady s (canReceive n f sof t) := by
  unfold Machine.canReceive
  split
  next act idx _ =>
  have hfree : Steady s (if (idx.isNone && (act == 1 || act == 2)) = true then Machine.tookFree t else t) := ite (tookFree h) h
  exact ite (canStore hfree) (ite (canStore hfree) hfree)

theorem canLoadCtrl (h : Steady s t) {n : Nat} : Steady s (canLoadCtrl n t) := by
  unfold Machine.canLoadCtrl
  exact setCan h

theorem canEnable (h : Steady s t) {n : Nat} : Steady s (canEnable n t) := by
  unfold Machine.canEnable
  exact ite h (canLoadCtrl (setCan h))

theorem canDisable (h : Steady s t) {n : Nat} : Steady s (canDisable n t) := by
  unfold Machine.canDisable
  exact setCan h

theorem canCtrlWrite (h : Steady s t) {n : Nat} {v : Word} : Steady s (canCtrlWrite n v t) := by
  unfold Machine.canCtrlWrite
  exact ite (canEnable (regWrite h)) (ite (canDisable (regWrite h)) (regWrite h))

theorem canTxreq (h : Steady s t) {n : Nat} {v : Word} : Steady s (canTxreq n v t) := by
  unfold Machine.canTxreq
  exact setCan h

theorem canCancel (h : Steady s t) {n : Nat} {v : Word} : Steady s (canCancel n v t) := by
  unfold Machine.canCancel
  exact setCan h

theorem canPopFifos (h : Steady s t) {n : Nat} {v : Word} : Steady s (canPopFifos n v t) := by
  unfold Machine.canPopFifos
  exact setCan h

theorem canOwned (h : Steady s t) {n : Nat} {who : Owner} {g : State → State} (hg : ∀ u, Steady s u → Steady s (g u)) :
    Steady s (canOwned n who g t) := by
  unfold Machine.canOwned
  exact ite (hg _ h) h

theorem canLoadTiming (h : Steady s t) {n : Nat} {nbt dbt tdc : Word} : Steady s (canLoadTiming n nbt dbt tdc t) := by
  unfold Machine.canLoadTiming
  exact setCan h

theorem canWinWrite (h : Steady s t) {n off : Nat} {who : Owner} {v : Word} : Steady s (canWinWrite n off who v t) := by
  unfold Machine.canWinWrite
  refine canOwned h fun u hu => ?_
  split
  · exact keep hu
  split
  · exact canTxreq hu
  split
  · exact canCancel hu
  split
  · exact canPopFifos hu
  · exact hu

theorem bobCount (h : Steady s t) {b avg : Nat} {r : Adm} {mark : Bool} : Steady s (bobCount b avg r mark t) := by
  unfold Machine.bobCount
  exact setBobbin h

theorem enqueueFrame (h : Steady s t) {id b cells colour : Nat} {ce : Bool} : Steady s (enqueueFrame id b cells colour ce t) := by
  unfold Machine.enqueueFrame
  exact keep (setFrame h)

theorem turnAway (h : Steady s t) {id : Nat} : Steady s (turnAway id t) := keep h

theorem ite_admission {c : Prop} {_ : Decidable c} {a b : Adm × Nat × Bool × State} (ha : Steady s a.2.2.2) (hb : Steady s b.2.2.2) :
    Steady s (if c then a else b).2.2.2 := by
  split
  · exact ha
  · exact hb

theorem admission (q : AdmReq) (h : Steady s t) : Steady s (admission q t).2.2.2 := by
  unfold Machine.admission
  exact ite_admission (bobCount h) (ite_admission (bobCount (ite (keep (ite (keep h) h)) (ite (keep h) h)))
    (bobCount (ite (keep (ite (keep h) h)) (ite (keep h) h))))

theorem offerFrame (id : Nat) (q : AdmReq) (h : Steady s t) : Steady s (offerFrame id q t) := by
  have ha : Steady s (Machine.admission q t).2.2.2 := admission q h
  unfold Machine.offerFrame
  split
  · next heq => rw [heq] at ha; exact enqueueFrame ha
  · next heq => rw [heq] at ha; exact turnAway ha

theorem endRefusalIfEmpty (h : Steady s t) {b : Nat} : Steady s (endRefusalIfEmpty b t) := by
  unfold Machine.endRefusalIfEmpty
  exact ite (keep (setBobbin h)) h

theorem reapFrame (h : Steady s t) {id : Nat} : Steady s (reapFrame id t) := by
  unfold Machine.reapFrame
  exact ite h (ite (setFrame h) (keep h))

theorem dropEntry (h : Steady s t) {b id : Nat} : Steady s (dropEntry b id t) := by
  unfold Machine.dropEntry
  exact endRefusalIfEmpty (reapFrame (keep h))

theorem removeFrame (h : Steady s t) {id : Nat} : Steady s (removeFrame id t) := by
  unfold Machine.removeFrame
  exact foldl (fun _ _ h => endRefusalIfEmpty h) (reapFrame (keep h))

theorem wireCopy (h : Steady s t) {id : Nat} {f : Frame} {p : Nat} : Steady s (wireCopy id f p t) := by
  unfold Machine.wireCopy
  exact ite (count h) (ite (setEgress h) (setEgress h))

theorem placeRef (h : Steady s t) {id : Nat} {f : Frame} {b : Nat} : Steady s (placeRef id f b t) := by
  have ha := admission { bobbin := b, need := f.cells, len := 0, meter := 0, pre := 0, tx := false, ect := ectOf f.bytes, isRef := true, colour := f.colour } h
  unfold Machine.placeRef
  dsimp only
  split
  · next heq => rw [heq] at ha; exact keep ha
  · next heq => rw [heq] at ha; exact ha

theorem launchTrain (h : Steady s t) {e : QEntry} {f : Frame} : Steady s (launchTrain e f t) := by
  unfold Machine.launchTrain
  dsimp only
  generalize hu : List.foldl _ (List.foldl _ t _) _ = u
  have hs : Steady s u := hu ▸ foldl (fun _ _ hv => placeRef hv) (foldl (fun _ _ hv => wireCopy hv) h)
  exact ite (keep (keep hs)) (endRefusalIfEmpty (reapFrame (keep (keep hs))))

theorem cellsRead (h : Steady s t) {id : Nat} : Steady s (cellsRead id t) := by
  simp only [Machine.cellsRead]
  split
  · exact h
  · exact ite (setBits (setFrame (ite h (keep (setFrame h))))) (ite h (keep (setFrame h)))

theorem reachTick (h : Steady s t) {t' : Tick} : Steady s (reachTick t' t) := by
  unfold Machine.reachTick
  exact ite (keep h) h

theorem postChange (h : Steady s t) {k : Nat} {c : PlyChange} : Steady s (postChange k c t) := by
  unfold Machine.postChange
  exact ite h (setPly h)

theorem applyChange (h : Steady s t) {k : Nat} : Steady s (applyChange k t) := by
  unfold Machine.applyChange
  split
  · exact h
  · exact ite (logFault (raiseLine (setBits (setPly (reachTick h))))) (setPly (reachTick h))

theorem ledgerSkein (h : Steady s t) {l kind : Nat} {tick : Tick} : Steady s (ledgerSkein l kind tick t) := keep h

theorem ledgerTx (h : Steady s t) {p : Nat} {tick : Tick} {bobbin tag : Nat} : Steady s (ledgerTx p tick bobbin tag t) := keep h

theorem ledgerPin (h : Steady s t) {b pin : Nat} {rising : Bool} {frac : Nat} {tick : Tick} :
    Steady s (ledgerPin b pin rising frac tick t) := keep h

theorem endArriving (h : Steady s t) {f : Frame} {bytes : List Byte} {bad trunc : Bool} : Steady s (endArriving f bytes bad trunc t) := by
  simp only [Machine.endArriving]
  split
  · exact keep h
  · exact setFrame h

theorem thruEnd (h : Steady s t) {p : Nat} {bytes : List Byte} {bad : Bool} : Steady s (thruEnd p bytes bad t) := by
  unfold Machine.thruEnd
  exact ite h (ite (ite (ledgerTx (setEport (setEgress (setEport h)))) (setEport (setEgress (setEport h)))) (setEport h))

theorem thruEdit (h : Steady s t) {p seq off : Nat} {b : Byte} : Steady s (thruEdit p seq off b t) := by
  unfold Machine.thruEdit
  exact ite h (ite (setEgress (setEport h)) (ite (setEgress (setEport h)) (setEport h)))

theorem linkDrop (h : Steady s t) {p : Nat} : Steady s (linkDrop p t) := by
  simp only [Machine.linkDrop]
  split
  · exact setEport h
  · exact setEport (thruEnd (setEgress (setEport (endArriving h))))

theorem ethPhyOff (h : Steady s t) {p : Nat} : Steady s (ethPhyOff p t) := by
  unfold Machine.ethPhyOff
  exact setEport (ite (linkDrop h) h)

theorem ethPhyOn (h : Steady s t) {p : Nat} : Steady s (ethPhyOn p t) := by
  unfold Machine.ethPhyOn
  exact ite h (setEport h)

theorem bypeInline (h : Steady s t) {n : Nat} : Steady s (bypeInline n t) := by
  unfold Machine.bypeInline
  exact setPwr h

theorem bypeRelease (h : Steady s t) {n : Nat} : Steady s (bypeRelease n t) := by
  unfold Machine.bypeRelease
  exact setPwr h

theorem portBring (h : Steady s t) {p : Nat} : Steady s (portBring p t) := by
  unfold Machine.portBring
  exact ite h (ite (setEport (ite (bypeRelease h) h)) (ite (ite (ite h (ethPhyOn h)) (bypeInline h)) (ethPhyOn (ite (bypeRelease h) h))))

theorem startEgress (h : Steady s t) {p id : Nat} {g : Egress} : Steady s (startEgress p id g t) := by
  unfold Machine.startEgress
  exact ite (ledgerTx (ite (setEport (cellsRead (setEgress h))) (cellsRead (setEgress h)))) (ite (setEport (cellsRead (setEgress h)))
    (cellsRead (setEgress h)))

theorem endEgress (h : Steady s t) {p id : Nat} : Steady s (endEgress p id t) := by
  simp only [Machine.endEgress]
  split
  · exact setEgress h
  · split
    · exact ite (reapFrame (setEgress h)) (dropEntry (setEgress h))
    · exact reapFrame (setEgress h)

theorem flyFlag (h : Steady s t) {f i : Nat} : Steady s (flyFlag f i t) := by
  unfold Machine.flyFlag
  exact ite h (ite (raiseLine (logFault (setBits h))) (logFault (setBits h)))

theorem flyEvent (h : Steady s t) {f line : Nat} : Steady s (flyEvent f line t) := by
  unfold Machine.flyEvent
  exact ite (tinEvents h) h

theorem flyWritePin (h : Steady s t) {f p : Nat} {lvl : Bool} : Steady s (flyWritePin f p lvl t) := by
  unfold Machine.flyWritePin
  exact ite (setPin h) h

theorem flyWriteDir (h : Steady s t) {f p : Nat} {out : Bool} : Steady s (flyWriteDir f p out t) := by
  unfold Machine.flyWriteDir
  exact ite (setPin h) h

theorem flyToPins (h : Steady s t) {f : Nat} {dirs : Bool} {bits : List Bool} : Steady s (flyToPins f dirs bits t) := by
  unfold Machine.flyToPins
  exact foldl (fun _ _ h => ite (flyWriteDir h) (flyWritePin h)) h

theorem flySideSet (h : Steady s t) {f : Nat} {w : Word} : Steady s (flySideSet f w t) := by
  unfold Machine.flySideSet
  exact ite (foldl (fun _ _ h => flyWritePin h) h) h

theorem flyNext (h : Steady s t) {f : Nat} : Steady s (flyNext f t) := by
  unfold Machine.flyNext
  exact setFlyer h

theorem flyStall (h : Steady s t) {f : Nat} : Steady s (flyStall f t) := by
  unfold Machine.flyStall
  exact setFlyer h

theorem flyUnstall (h : Steady s t) {f : Nat} : Steady s (flyUnstall f t) := by
  unfold Machine.flyUnstall
  exact setFlyer h

theorem actEnter (h : Steady s t) {f : Nat} {w0 w1 : Word} : Steady s (actEnter f w0 w1 t) := by
  unfold Machine.actEnter
  exact setFlyer (ite (flyFlag (ite (flyFlag h) h)) (ite (flyFlag h) h))

theorem actPost (h : Steady s t) {f : Nat} {w0 w1 : Word} : Steady s (actPost f w0 w1 t) := by
  unfold Machine.actPost
  exact ite (flyFlag (ite (flyFlag h) h)) (ite (ite (flyFlag h) h) (actEnter h))

theorem actDue (h : Steady s t) {f : Nat} : Steady s (actDue f t) := by
  simp only [Machine.actDue]
  split
  · exact h
  · exact ite (setFlyer (reachTick h)) (foldl (fun _ _ h => by
      split
      · exact h
      · exact ite (ite (flyFlag (flyWritePin h)) (flyWritePin h)) h) (setFlyer (setFlyer (reachTick h))))

theorem actFix (h : Steady s t) {f : Nat} : Steady s (actFix f t) := by
  simp only [Machine.actFix]
  split
  · exact h
  · exact ite (flyFlag (setFlyer (reachTick h))) (setFlyer (reachTick h))

theorem pinSafe (h : Steady s t) {p : Nat} : Steady s (pinSafe p t) := by
  unfold Machine.pinSafe
  exact setPin h

theorem flyHalt (h : Steady s t) {f : Nat} : Steady s (flyHalt f t) := by
  unfold Machine.flyHalt
  exact foldl (fun _ _ h => pinSafe h) (setFlyer h)

theorem flyStart (h : Steady s t) {f : Nat} : Steady s (flyStart f t) := by
  unfold Machine.flyStart
  exact ite (setFlyer h) (setFlyer h)

theorem flyersStart (h : Steady s t) : Steady s (flyersStart t) := by
  unfold Machine.flyersStart
  exact foldl (fun _ _ h => ite (flyStart h) h) h

theorem flyIrqWrite (h : Steady s t) {f : Nat} {v : Word} : Steady s (flyIrqWrite f v t) := by
  unfold Machine.flyIrqWrite
  exact ite (regWrite h) (raiseLine (regWrite h))

theorem flyCtrlWrite (h : Steady s t) {f : Nat} {v : Word} : Steady s (flyCtrlWrite f v t) := by
  unfold Machine.flyCtrlWrite
  exact ite (flyHalt (regWrite h)) (ite (flyStart (regWrite h)) (regWrite h))

theorem flyLoadSettings (h : Steady s t) {f : Nat} : Steady s (flyLoadSettings f t) := by
  unfold Machine.flyLoadSettings
  exact flyIrqWrite (foldl (fun _ _ h => regWrite h) h)

theorem flyLoadPage (h : Steady s t) {b : Nat} {page : Bool} {m : Mem} : Steady s (flyLoadPage b page m t) := keep h

theorem flyBankSwap (h : Steady s t) {b : Nat} : Steady s (flyBankSwap b t) := by
  unfold Machine.flyBankSwap
  exact foldl (fun _ _ h => ite (flyStart (flyLoadSettings h)) (flyHalt (flyLoadSettings h))) (keep h)

theorem flyPush (h : Steady s t) {f : Nat} {v : Word} : Steady s (flyPush f v t) := by
  unfold Machine.flyPush
  exact ite (setFlyer h) (flyFlag h)

theorem flyPop (h : Steady s t) {f : Nat} : Steady s (flyPop f t) := by
  unfold Machine.flyPop
  exact setFlyer h

theorem sknSend (h : Steady s t) {o : SkOut} : Steady s (sknSend o t) := keep h

theorem sknTx (h : Steady s t) {l : Nat} {o : SkOut} : Steady s (sknTx l o t) := by
  unfold Machine.sknTx
  exact sknSend (setLink h)

theorem sknTxOn (h : Steady s t) {l kind : Nat} {o : SkOut} : Steady s (sknTxOn l kind o t) := by
  unfold Machine.sknTxOn
  exact ite (sknTx h) h

theorem sknTxVia (h : Steady s t) {l kind : Nat} {o : Nat → SkOut} : Steady s (sknTxVia l kind o t) := by
  unfold Machine.sknTxVia
  exact ite (sknTx h) (sknTxOn h)

theorem sknRx (h : Steady s t) {l : Nat} : Steady s (sknRx l t) := by
  unfold Machine.sknRx
  exact setLink h

theorem pushDue (h : Steady s t) {src : ReqSrc} {seq : Nat} {msg : List Byte} : Steady s (pushDue src seq msg t) := by
  simp only [Machine.pushDue]
  split
  · exact keep h
  · exact sknTx h

theorem setTxn (h : Steady s t) {h' : Nat} {f : Txn → Txn} : Steady s (setTxn h' f t) := keep h

theorem commitBack (h : Steady s t) {h' : Nat} {st : Status} {detail : Nat} : Steady s (commitBack h' st detail t) := by
  simp only [Machine.commitBack]
  split
  · exact h
  · split
    · exact pushDue (setTxn h)
    · exact setTxn h

theorem commitDurable (h : Steady s t) {h' seq : Nat} : Steady s (commitDurable h' seq t) := by
  unfold Machine.commitDurable
  exact setTxn h

theorem noteApplied (h : Steady s t) {h' item inst : Nat} {ok : Bool} : Steady s (noteApplied h' item inst ok t) := by
  unfold Machine.noteApplied
  exact setTxn h

theorem canWait (h : Steady s t) {h' n : Nat} : Steady s (canWait h' n t) := by
  unfold Machine.canWait
  exact setCan h

theorem portReconfigure (h : Steady s t) {h' p : Nat} : Steady s (portReconfigure h' p t) := by
  unfold Machine.portReconfigure
  exact setTxn (ite (noteApplied (ite (noteApplied (portBring (ethPhyOff h))) (portBring (ethPhyOff h)))) (ite (noteApplied (portBring
    (ethPhyOff h))) (portBring (ethPhyOff h))))

theorem canStep (h : Steady s t) {h' : Nat} : Steady s (canStep h' t) := by
  simp only [Machine.canStep]
  split
  · exact ite (foldl (fun _ _ h => canWait h) (setTxn h)) h
  · exact h

theorem portStep (h : Steady s t) {h' : Nat} : Steady s (portStep h' t) := by
  simp only [Machine.portStep]
  split
  · exact ite (setTxn (foldl (fun _ _ h => portReconfigure h) h)) h
  · exact h

theorem txnAdvance (h : Steady s t) {h' : Nat} : Steady s (txnAdvance h' t) := by
  unfold Machine.txnAdvance
  exact foldl (fun _ _ h => portStep (canStep h)) (portStep (canStep h))

theorem canMeasure (h : Steady s t) {n b d : Nat} : Steady s (canMeasure n b d t) := by
  unfold Machine.canMeasure
  exact ite (ite (canFlag (setCan h)) (setCan h)) h

theorem canRxError (h : Steady s t) {n : Nat} {ec : CanErr} : Steady s (canRxError n ec t) := by
  unfold Machine.canRxError
  exact canCounters (setCan h)

theorem mdioWrite (h : Steady s t) {v : Word} : Steady s (mdioWrite v t) := by
  unfold Machine.mdioWrite
  exact ite (ite h (regWrite h)) (keep (regWrite h))

theorem holdSample (h : Steady s t) {l : HoldupSample} : Steady s (holdSample l t) := keep h

theorem spareWarn (h : Steady s t) {before : Nat} : Steady s (spareWarn before t) := by
  unfold Machine.spareWarn
  exact ite (logFault (ite (logFault h) h)) (ite (logFault h) h)

theorem retireIfWorn (h : Steady s t) {p : Nat} : Steady s (retireIfWorn p t) := by
  unfold Machine.retireIfWorn
  exact ite (spareWarn (keep h)) h

theorem levelSeg (h : Steady s t) {p : Nat} : Steady s (levelSeg p t) := by
  simp only [Machine.levelSeg]
  split
  · split
    · exact queueUnit h
    · exact h
  · exact h

theorem programmed (h : Steady s t) {ps : List Nat} : Steady s (programmed ps t) := by
  unfold Machine.programmed
  exact foldl (fun _ _ h => levelSeg (retireIfWorn h)) (keep h)

theorem changeCtl (h : Steady s t) {f : SlotCtl → SlotCtl} : Steady s (changeCtl f t) := by
  unfold Machine.changeCtl
  exact queueUnit (keep h)

theorem joinCtl (h : Steady s t) {f : SlotCtl → SlotCtl} : Steady s (joinCtl f t) := by
  unfold Machine.joinCtl
  exact ite (keep h) (changeCtl h)

theorem startUnit (h : Steady s t) {u : GUnit} : Steady s (startUnit u t) := by
  simp only [Machine.startUnit]
  split
  · exact keep h
  · exact keep h

theorem setDst (h : Steady s t) {f : Dst → Dst} : Steady s (setDst f t) := keep h

theorem putPages (h : Steady s t) {c : Commit} {ps : List JPage} : Steady s (putPages c ps t) := by
  unfold Machine.putPages
  exact programmed (setDst h)

theorem cutUnit (h : Steady s t) {pages : Nat} : Steady s (cutUnit pages t) := by
  simp only [Machine.cutUnit]
  split
  · exact putPages h
  · exact programmed h
  · exact h

theorem commitFails (h : Steady s t) {c : Commit} {page : Nat} : Steady s (commitFails c page t) := by
  unfold Machine.commitFails
  exact commitBack (logFault (raiseLine (setDst h)))

theorem commitDone (h : Steady s t) {c : Commit} : Steady s (commitDone c t) := by
  unfold Machine.commitDone
  exact queueUnit (commitDurable (raiseLine (keep h)))

theorem unitFails (h : Steady s t) {c : Commit} : Steady s (unitFails c t) := by
  unfold Machine.unitFails
  exact commitFails (setDst h)

theorem dropUnstarted (h : Steady s t) : Steady s (dropUnstarted t) := by
  simp only [Machine.dropUnstarted]
  split
  · exact setDst h
  · split
    · exact setDst h
    · exact setDst h
    · exact setDst h

theorem scrubBad (h : Steady s t) {p : Nat} : Steady s (scrubBad p t) := by
  unfold Machine.scrubBad
  lift_lets
  intro header inactive u v w
  have hu : Steady s u := logFault (raiseLine (setDst h))
  have hv : Steady s v := ite (setDst hu) hu
  have hw : Steady s w := ite (changeCtl hv) hv
  refine ite (setDst hu) (ite hu (ite hw ?_))
  split
  · exact queueUnit hw
  · exact spareWarn (setDst hw)

theorem setKey (h : Steady s t) {k : Nat} {f : Key → Key} : Steady s (t.setKey k f) := keep h

theorem pnlEnter (h : Steady s t) {key kind ms : Nat} : Steady s (pnlEnter key kind ms t) := by
  unfold Machine.pnlEnter
  exact ite (keep h) (keep h)

theorem keyPress (h : Steady s t) {k ms : Nat} : Steady s (keyPress k ms t) := by
  unfold Machine.keyPress
  exact ite (setKey h) (wakeFire (pnlEnter (setKey h)))

theorem keyRelease (h : Steady s t) {k ms : Nat} : Steady s (keyRelease k ms t) := by
  unfold Machine.keyRelease
  exact ite (setKey h) (pnlEnter (setKey h))

theorem keySample (h : Steady s t) {k : Nat} {closed : Bool} {ms : Nat} : Steady s (keySample k closed ms t) := by
  unfold Machine.keySample
  exact ite (setKey h) (ite (ite (keyPress h) (keyRelease h)) (setKey h))

theorem colScan (h : Steady s t) {idle : BitVec 16} : Steady s (colScan idle t) := by
  unfold Machine.colScan
  exact ite (keep h) (logFault (raiseLine (setBits (keep h))))

theorem scanRow (h : Steady s t) {row : Nat} {cols idle : BitVec 16} {btns : BitVec 8} : Steady s (scanRow row cols idle btns t) := by
  unfold Machine.scanRow
  exact ite (foldl (fun _ _ h => keySample h) (foldl (fun _ _ h => ite h (keySample h)) (colScan h))) (foldl (fun _ _ h => ite h
    (keySample h)) (colScan h))

theorem reachMs (h : Steady s t) {ms : Nat} : Steady s (reachMs ms t) := by
  unfold Machine.reachMs
  exact ite (reachTick h) h

theorem setEnc (h : Steady s t) {e : Nat} {x : Enc} : Steady s (t.setEnc e x) := keep h

theorem encStep (h : Steady s t) {e : Nat} {up : Bool} {ms : Nat} : Steady s (encStep e up ms t) := by
  unfold Machine.encStep
  exact wakeFire (ite (pnlEnter (setEnc h)) (setEnc h))

theorem encMove (h : Steady s t) {e : Nat} {ahead : Bool} {ms : Nat} : Steady s (encMove e ahead ms t) := by
  unfold Machine.encMove
  exact ite h (ite (setEnc h) (encStep h))

theorem encSample (h : Steady s t) {e : Nat} {na nb : Bool} {ms : Nat} : Steady s (encSample e na nb ms t) := by
  simp only [Machine.encSample]
  split
  · exact ite (raiseLine (setBits (setEnc h))) (ite (setEnc h) (encMove (setEnc h)))
  · exact setEnc h

theorem pnlPop (h : Steady s t) : Steady s (pnlPop t) := by
  simp only [Machine.pnlPop]
  split
  · exact keep h
  · exact keep h

theorem modesChanged (h : Steady s t) {before : State} : Steady s (modesChanged before t) := by
  unfold Machine.modesChanged
  exact foldl (fun _ _ h => ite (setKey h) h) h

theorem panelToAlwaysOn (h : Steady s t) : Steady s (panelToAlwaysOn t) := keep h

theorem setRov (h : Steady s t) {f : Rov → Rov} : Steady s (setRov f t) := keep h

theorem rovFlag (h : Steady s t) {bit : Nat} : Steady s (rovFlag bit t) := by
  unfold Machine.rovFlag
  exact ite (raiseLine (setBits h)) (logFault (raiseLine (setBits h)))

theorem rovHold (h : Steady s t) : Steady s (rovHold t) := by
  unfold Machine.rovHold
  exact setRov h

theorem rovError (h : Steady s t) {bit : Nat} : Steady s (rovError bit t) := by
  unfold Machine.rovError
  exact rovFlag (rovHold h)

theorem rovFail (h : Steady s t) {bit : Nat} : Steady s (rovFail bit t) := by
  unfold Machine.rovFail
  exact ite (rovError h) (rovFlag (setRov h))

theorem rovIdle (h : Steady s t) : Steady s (rovIdle t) := by
  unfold Machine.rovIdle
  exact setRov h

theorem rovStopIdle (h : Steady s t) : Steady s (rovStopIdle t) := by
  unfold Machine.rovStopIdle
  exact rovIdle (rovHold h)

theorem rovStopAt (h : Steady s t) {err : Bool} : Steady s (rovStopAt err t) := by
  unfold Machine.rovStopAt
  exact ite (setRov h) (rovStopIdle h)

theorem rovBrace (h : Steady s t) : Steady s (rovBrace t) := by
  unfold Machine.rovBrace
  exact ite (rovFlag (rovStopAt h)) (rovStopIdle h)

theorem setReady (h : Steady s t) {m : BitVec 32} : Steady s (setReady m t) := by
  unfold Machine.setReady
  exact setRov h

theorem streamStop (h : Steady s t) {c k ph : Nat} {x : RStream} : Steady s (streamStop c k ph x t) := by
  unfold Machine.streamStop
  exact setRov h

theorem streamBegin (h : Steady s t) {now c : Nat} : Steady s (streamBegin now c t) := by
  simp only [Machine.streamBegin]
  split
  · exact h
  · exact setRov h

theorem rovRun (h : Steady s t) {op : Nat} {f : Word → Word → State → State} (hf : ∀ a0 a1 u, Steady s u → Steady s (f a0 a1 u)) :
    Steady s (rovRun op f t) := by
  unfold Machine.rovRun
  exact ite (hf _ _ _ h) h

theorem rovGo (h : Steady s t) {a : Nat} : Steady s (rovGo a t) := by
  unfold Machine.rovGo
  exact setRov h

theorem rovNext (h : Steady s t) : Steady s (rovNext t) := by
  unfold Machine.rovNext
  exact rovGo h

theorem rovPlayAct (h : Steady s t) {w0 w1 : Word} : Steady s (rovPlayAct w0 w1 t) := by
  unfold Machine.rovPlayAct
  exact rovNext (setRov h)

theorem rovLoopAct (h : Steady s t) {w1 : Word} : Steady s (rovLoopAct w1 t) := by
  unfold Machine.rovLoopAct
  exact ite (rovNext (setRov h)) (rovFail h)

theorem rovEndlAct (h : Steady s t) : Steady s (rovEndlAct t) := by
  simp only [Machine.rovEndlAct]
  split
  · exact rovFail h
  · exact ite (rovNext (setRov h)) (rovGo (setRov h))

theorem rovCallAct (h : Steady s t) {w0 : Word} : Steady s (rovCallAct w0 t) := by
  unfold Machine.rovCallAct
  exact ite (rovGo (setRov h)) (rovFail h)

theorem rovRetAct (h : Steady s t) : Steady s (rovRetAct t) := by
  simp only [Machine.rovRetAct]
  split
  · exact rovFail h
  · exact rovGo (setRov h)

theorem rovWaitrAct (h : Steady s t) {w1 : Word} : Steady s (rovWaitrAct w1 t) := by
  unfold Machine.rovWaitrAct
  exact ite (rovNext h) (setRov (rovNext h))

theorem rovAstartAct (h : Steady s t) {w0 w1 : Word} : Steady s (rovAstartAct w0 w1 t) := by
  unfold Machine.rovAstartAct
  exact rovNext (setRov h)

theorem streamHalt (h : Steady s t) {c : Nat} : Steady s (streamHalt c t) := by
  simp only [Machine.streamHalt]
  split
  · exact setRov h
  · exact ite (setRov (setRov h)) (streamStop (setRov h))

theorem vecCycle (h : Steady s t) {v : Word} {now : Nat} : Steady s (vecCycle v now t) := by
  unfold Machine.vecCycle
  exact streamBegin (streamBegin (setRov h))

theorem holdCycle (h : Steady s t) {v : Word} {now : Nat} : Steady s (holdCycle v now t) := by
  unfold Machine.holdCycle
  exact setRov h

theorem playOn (h : Steady s t) {p : RPlay} : Steady s (playOn p t) := by
  unfold Machine.playOn
  exact setRov h

theorem boundary (h : Steady s t) {now : Nat} : Steady s (boundary now t) := by
  simp only [Machine.boundary]
  split
  · exact ite (rovError h) (ite (rovError h) (playOn (vecCycle h)))
  · split
    · exact holdCycle h
    · exact h
    · split
      · exact rovError h
      · split
        · exact holdCycle (setRov h)
        · exact h

theorem boundaryOrHalt (h : Steady s t) {now : Nat} : Steady s (boundaryOrHalt now t) := by
  simp only [Machine.boundaryOrHalt]
  split
  · exact rovHold h
  · split
    · exact boundary h
    · exact rovStopIdle h
    · exact ite (rovStopIdle h) (boundary h)

theorem rovBegin (h : Steady s t) {entry : Nat} : Steady s (rovBegin entry t) := by
  unfold Machine.rovBegin
  exact setRov (setFld h)

theorem hdataAccess (h : Steady s t) {w : Option Word} : Steady s (hdataAccess w t) := by
  simp only [Machine.hdataAccess]
  split
  · exact keep (setFld h)
  · exact ite (rovFlag (setFld h)) (setRov (setFld h))

theorem sendOn (h : Steady s t) {l : Nat} {hdr payload : List Byte} {transit : Bool} : Steady s (sendOn l hdr payload transit t) := by
  unfold Machine.sendOn
  exact ite (ledgerSkein (sknSend (setLink h))) (sknSend (setLink h))

theorem transitGo (h : Steady s t) {l : Nat} {hdr payload : List Byte} : Steady s (transitGo l hdr payload t) := by
  unfold Machine.transitGo
  exact ite (sknSend (sendOn h)) (sendOn h)

theorem forward (h : Steady s t) {l : Nat} {hdr payload : List Byte} : Steady s (forward l hdr payload t) := by
  unfold Machine.forward
  exact ite (transitGo h) (setLink h)

theorem drainTransit (h : Steady s t) {l : Nat} : Steady s (drainTransit l t) := by
  simp only [Machine.drainTransit]
  split
  · exact h
  · exact sknSend (transitGo (setLink h))

theorem inject (h : Steady s t) {p src id : Nat} : Steady s (inject p src id t) := by
  simp only [Machine.inject]
  split
  · exact ite (reapFrame (setEgress (setLink h))) (dropEntry (setLink h))
  · exact sendOn (keep (setEgress (cellsRead h)))

theorem skeinEnded (h : Steady s t) {p : Nat} : Steady s (skeinEnded p t) := by
  simp only [Machine.skeinEnded]
  split
  · exact sknSend (setEgress h)
  · exact drainTransit h

theorem setHops (h : Steady s t) : Steady s (setHops t) := keep h

theorem sendTopology (h : Steady s t) : Steady s (sendTopology t) := by
  unfold Machine.sendTopology
  exact sknTxOn (sknTxOn (count (setHops h)))

theorem becomeMaster (h : Steady s t) : Steady s (becomeMaster t) := keep h

theorem closePath (h : Steady s t) {l : Nat} : Steady s (closePath l t) := by
  unfold Machine.closePath
  exact setLink h

theorem linkLost (h : Steady s t) {l : Nat} : Steady s (linkLost l t) := by
  unfold Machine.linkLost
  exact ite (closePath h) (ite (sendTopology (keep (setLink (raiseLine h)))) (sknTxOn (setLink (raiseLine h))))

theorem plyFirst (h : Steady s t) {k : Nat} : Steady s (plyFirst k t) := by
  simp only [Machine.plyFirst]
  split
  · exact ite (applyChange h) h
  · exact h

theorem setWhl (h : Steady s t) {f : Whl → Whl} (hf : (f t.whl).flog = t.whl.flog := by rfl) : Steady s (setWhl f t) := keep h rfl hf

theorem newFrame (p : Nat) (ledger : Tick) (h : Steady s t) : Steady s (newFrame p ledger t).2 := keep h

theorem offerInner (port b : Nat) (bytes : List Byte) (tx : Bool) (h : Steady s t) : Steady s (offerInner port b bytes tx t).2.2 := by
  have ho : Steady s (Machine.offerFrame (Machine.newFrame port 0 t).1 (innerReq b bytes tx)
      ((Machine.newFrame port 0 t).2.setFrame (Machine.newFrame port 0 t).1 fun f => { f with bytes := bytes ++ fcsOf bytes })) :=
    offerFrame _ _ (setFrame (newFrame port 0 h))
  unfold Machine.offerInner
  dsimp only
  split
  · exact ho
  · exact keep ho

theorem innerWhole (h : Steady s t) {id : Nat} : Steady s (innerWhole id t) := by
  unfold Machine.innerWhole
  exact keep (setFrame h)

theorem pushRelease (h : Steady s t) {t' : Tick} {n : Nat} {es : List Staged} : Steady s (pushRelease t' n es t) := by
  unfold Machine.pushRelease
  exact setWhl h

theorem dropReservations (h : Steady s t) {es : List Staged} : Steady s (dropReservations es t) := by
  unfold Machine.dropReservations
  exact foldl (fun _ _ h => by
    split
    · exact removeFrame h
    · exact h) h

theorem slotFail (h : Steady s t) {kind sub : Nat} {sl : Slot} : Steady s (slotFail kind sub sl t) := by
  unfold Machine.slotFail
  exact pushRelease (setWhl (logFault (pushFlog (setSpindle (dropReservations h)))))

theorem contract (h : Steady s t) {sub : Nat} : Steady s (contract sub t) := by
  simp only [Machine.contract]
  split
  · exact h
  · exact slotFail h

theorem slotCommit (h : Steady s t) {sl : Slot} : Steady s (slotCommit sl t) := by
  unfold Machine.slotCommit
  exact pushRelease (setWhl (setSpindle h))

theorem releaseOne (h : Steady s t) {e : Staged} : Steady s (releaseOne e t) := by
  unfold Machine.releaseOne
  dsimp only
  split
  · exact ite (setWhl h) h
  · exact ite (flyPush h) h
  · exact ite (flyPop h) h
  · exact ite (actPost h) h
  · exact flyHalt h
  · exact ite (flyStart h) h
  · exact canCancel h
  · exact canWinWrite h
  · exact ite (innerWhole (offerInner _ _ _ _ h)) (offerInner _ _ _ _ h)
  · exact innerWhole h
  · exact regWrite h
  · exact tinEvents h
  · exact setWhl h
  · exact thruEdit h
  · exact dropEntry h

theorem releaseNext (h : Steady s t) : Steady s (releaseNext t) := by
  simp only [Machine.releaseNext]
  split
  · exact h
  · exact foldl (fun _ _ h => releaseOne h) (reachTick (setWhl h))

theorem braceSpindle (h : Steady s t) {n : Nat} : Steady s (braceSpindle n t) := by
  unfold Machine.braceSpindle
  exact ite (ite (setSpindle h) (pushRelease (setSpindle h))) h

theorem braceWhorl (h : Steady s t) : Steady s (braceWhorl t) := by
  unfold Machine.braceWhorl
  exact foldl (fun _ _ h => braceSpindle h) h

theorem startStrands (h : Steady s t) : Steady s (startStrands t) := by
  unfold Machine.startStrands
  exact foldl (fun _ _ h => ite (setStrand h) (ite (setStrand h) h)) h

theorem stopStrands (h : Steady s t) : Steady s (stopStrands t) := by
  unfold Machine.stopStrands
  exact foldl (fun _ _ h => ite (setStrand h) h) h

theorem strandStop (h : Steady s t) {k : Nat} : Steady s (strandStop k t) := by
  unfold Machine.strandStop
  exact foldl (fun _ _ h => ite (pushRelease h) h) (setStrand h)

theorem whlRun (h : Steady s t) {body : State → Slot → Except Nat (Slot × State)} (hb : ∀ u sl, Steady s u → SteadySlot s Prod.snd (body u sl)) :
    Steady s (whlRun body t) := by
  unfold Machine.whlRun
  split
  · exact h
  · next sl _ =>
    refine ite h ?_
    split
    · exact contract h
    · have hbody := hb t sl h
      split
      · next heq => rw [heq] at hbody; exact keep hbody
      · exact contract h

theorem setSys (h : Steady s t) {f : Sys → Sys} (hf : (f t.sys).recorder = t.sys.recorder := by rfl) : Steady s (setSys f t) := keep h hf

theorem islandsLost (h : Steady s t) : Steady s (islandsLost t) := change h id id fun _ => Nat.zero_le 16

theorem blocksCleared (h : Steady s t) {wake cold : Bool} : Steady s (blocksCleared wake cold t) := by
  unfold Machine.blocksCleared
  exact keep (islandsLost h)

theorem coldReset (h : Steady s t) {rails : BitVec 8} {banks : BitVec 13} {rail : Nat} {pg : Bool} : Steady s (coldReset rails banks rail pg t) :=
  change (regsReset (blocksCleared (keep (dropUnstarted h)))) id (fun _ => Nat.zero_le 8) id

theorem warmReset (h : Steady s t) {c : KCause} : Steady s (warmReset c t) where
  pending := (dropUnstarted h).pending
  regs _ := wf_resetRegs .warm _
  recorder := h.recorder
  flog _ := Nat.zero_le 16

theorem cmdReset (h : Steady s t) : Steady s (cmdReset t) := by
  unfold Machine.cmdReset
  exact setSys (warmReset h)

theorem tick (h : Steady s t) : Steady s (tick t) := by
  unfold Machine.tick
  exact ite (cmdReset h) (keep h)

theorem pinReset (h : Steady s t) : Steady s (pinReset t) := by
  unfold Machine.pinReset
  exact setSys (warmReset h)

theorem refuseCommits (h : Steady s t) : Steady s (refuseCommits t) := by
  unfold Machine.refuseCommits
  exact foldl (fun _ _ h => commitBack h) (dropUnstarted h)

theorem enterBrace (h : Steady s t) {ret : Mode} : Steady s (enterBrace ret t) := by
  unfold Machine.enterBrace
  exact rovBrace (braceWhorl (raiseLine (logFault (setSys (refuseCommits h)))))

theorem nextRail (h : Steady s t) {pg : Bool} {pos : Nat} : Steady s (nextRail pg pos t) := by
  simp only [Machine.nextRail]
  split
  · exact setSys h
  · exact setPwr (setSys h)

theorem noteLate (h : Steady s t) {n us : Nat} : Steady s (noteLate n us t) := by
  unfold Machine.noteLate
  exact ite (logFault (setSys h)) h

theorem enterStep3 (h : Steady s t) {us : Nat} {pg : Bool} : Steady s (enterStep3 us pg t) := by
  unfold Machine.enterStep3
  exact nextRail (setSys (noteLate h))

theorem endStep3 (h : Steady s t) {us : Nat} : Steady s (endStep3 us t) := by
  unfold Machine.endStep3
  exact ite (setSys (noteLate h)) h

theorem kindleFault (h : Steady s t) {code rail : Nat} : Steady s (kindleFault code rail t) := by
  unfold Machine.kindleFault
  exact keep (setSys (setPwr (closePath (closePath h))))

theorem canDrowse (h : Steady s t) {n : Nat} : Steady s (canDrowse n t) := by
  unfold Machine.canDrowse
  exact setCan (canDisable h)

theorem releaseAll (n : Nat) (h : Steady s t) : Steady s (releaseAll n t) := by
  induction n generalizing t with
  | zero => exact h
  | succ n ih => exact ih (releaseNext h)

theorem enterDrowse (h : Steady s t) : Steady s (enterDrowse t) := by
  unfold Machine.enterDrowse
  dsimp only
  generalize hu : Machine.islandsLost _ = u
  have hs : Steady s u := hu ▸ islandsLost (panelToAlwaysOn (setLink (setLink (rovStopIdle
    (foldl (fun _ _ hv => canDrowse hv) (foldl (fun _ _ hv => ite (ethPhyOff hv) hv) (releaseAll _ h)))))))
  exact ite (startWake (setSys (setPwr hs))) (setSys (setPwr hs))

theorem measurePhase (h : Steady s t) {k b : Nat} : Steady s (measurePhase k b t) := by
  unfold Machine.measurePhase
  split
  · split
    · exact h
    · exact ite (logFault (raiseLine (pushFlog (setBits (setStrand h))))) (setStrand h)
  · exact h

theorem leaNoted (h : Steady s t) {k b : Nat} : Steady s (leaNoted k b t) := by
  unfold Machine.leaNoted
  exact foldl (fun _ _ h => txnAdvance (ite (setTxn h) (noteApplied (setTxn h)))) h

theorem switchLea (h : Steady s t) {k b : Nat} : Steady s (switchLea k b t) := by
  simp only [Machine.switchLea]
  split
  · exact h
  · exact ite h (foldl (fun _ _ h => ite (setSpindle (setFld h)) h) (setWhl (leaNoted (setStrand h))))

theorem resumeHeld (h : Steady s t) {k : Nat} : Steady s (resumeHeld k t) := by
  unfold Machine.resumeHeld
  exact ite h (foldl (fun _ _ h => ite (setSpindle h) h) h)

theorem clearHold (h : Steady s t) {n : Nat} : Steady s (clearHold n t) := by
  unfold Machine.clearHold
  exact ite (ite (setSpindle (setFld h)) (setFld h)) h

theorem slotBegin (h : Steady s t) {k i : Nat} {d : SlotDef} {at' : Nat} : Steady s (slotBegin k i d at' t) := by
  unfold Machine.slotBegin
  exact setSpindle (setWhl h)

theorem slackNow (h : Steady s t) : Steady s (slackNow t) := by
  unfold Machine.slackNow
  exact logFault (setFld (raiseLine (pushFlog (setBits h))))

theorem overrunFirst (h : Steady s t) : Steady s (overrunFirst t) := by
  simp only [Machine.overrunFirst]
  split
  · exact ite (slotFail h) h
  · exact h

theorem holdClear (h : Steady s t) {mask : Nat} : Steady s (holdClear mask t) := by
  unfold Machine.holdClear
  exact setBits (setBits h)

theorem reachTimeZero (h : Steady s t) : Steady s (reachTimeZero t) := by
  simp only [Machine.reachTimeZero]
  split
  · exact h
  · split
    · exact h
    · exact setSys h

theorem drowseDenied (h : Steady s t) : Steady s (drowseDenied t) := by
  simp only [Machine.drowseDenied]
  split
  · exact startStrands (setSys (keep h))
  · exact startStrands (setSys (keep h))
  · exact startStrands (setSys h)

theorem vidWrite (h : Steady s t) {v : Word} : Steady s (vidWrite v t) := by
  unfold Machine.vidWrite
  exact ite (regWrite h) (setPwr (regWrite h))

theorem bypeSet (h : Steady s t) {n : Nat} : Steady s (bypeSet n t) := by
  unfold Machine.bypeSet
  exact ite h (ite (bypeInline (ethPhyOff (setFld h))) (setFld h))

theorem bypeClear (h : Steady s t) {n : Nat} : Steady s (bypeClear n t) := by
  unfold Machine.bypeClear
  exact ite (ite (ethPhyOn (bypeRelease (ethPhyOff (setFld h)))) (setFld h)) h

theorem recordCause (h : Steady s t) {c : KCause} : Steady s (recordCause c t) := by
  unfold Machine.recordCause
  cases c with
  | cold => exact keep (setReg h)
  | pin => exact setBits h
  | cmd => exact setBits h
  | wake => exact setBits h

theorem recordPg (h : Steady s t) : Steady s (recordPg t) := by
  simp only [Machine.recordPg]
  split
  · exact ite (logFault (setSys h)) h
  · exact h

theorem setTag (h : Steady s t) {f : Tag → Tag} : Steady s (setTag f t) := keep h

theorem pingMeasured (h : Steady s t) {amp : Nat} {phase : Int} : Steady s (pingMeasured amp phase t) := by
  unfold Machine.pingMeasured
  exact ite (setTag h) (ite (logFault (setTag (setTag h))) (ite (wakeFire (raiseLine (setBits (setTag h)))) (setTag (setTag h))))

theorem oemKept (h : Steady s t) {is : List Nat} : Steady s (oemKept is t) := by
  unfold Machine.oemKept
  exact ite h (queueUnit h)

theorem tagError (h : Steady s t) {code : Nat} : Steady s (tagError code t) := by
  unfold Machine.tagError
  exact setTag h

theorem tagData (h : Steady s t) {d : List Byte} : Steady s (tagData d t) := by
  unfold Machine.tagData
  exact setTag h

theorem inField (h : Steady s t) {f : State → State} (hf : ∀ u, Steady s u → Steady s (f u)) : Steady s (inField f t) := by
  unfold Machine.inField
  exact ite (hf _ h) h

theorem countRead (h : Steady s t) : Steady s (countRead t) := by
  unfold Machine.countRead
  exact ite (setTag h) h

theorem tagRead (h : Steady s t) {n count : Nat} : Steady s (tagRead n count t) := by
  unfold Machine.tagRead
  exact ite (tagData (countRead h)) (tagError h)

theorem tagWrite (h : Steady s t) {n : Nat} {data : List Byte} : Steady s (tagWrite n data t) := by
  unfold Machine.tagWrite
  exact ite (tagError h) (ite (tagError h) (ite (tagError h) (queueUnit (tagData (setTag h)))))

theorem authFails (h : Steady s t) {code : Nat} : Steady s (authFails code t) := by
  unfold Machine.authFails
  exact ite (logFault (setTag (tagError (setTag h)))) (tagError (setTag h))

theorem authAttempt (h : Steady s t) {good : Bool} : Steady s (authAttempt good t) := by
  unfold Machine.authAttempt
  exact ite (authFails h) (ite (tagData (setTag h)) (authFails h))

theorem setHl (h : Steady s t) {f : Hl → Hl} : Steady s (setHl f t) := keep h

theorem msgs (h : Steady s t) {m : Word} : Steady s (msgs m t) := by
  unfold Machine.msgs
  exact foldl (fun _ _ h => ite (hostMsg h) h) h

theorem doorbellClear (h : Steady s t) {mask setNow : Word} : Steady s (doorbellClear mask setNow t) := by
  unfold Machine.doorbellClear
  exact msgs (setReg h)

theorem dbMaskWrite (h : Steady s t) {v : Word} : Steady s (dbMaskWrite v t) := by
  unfold Machine.dbMaskWrite
  exact msgs (regWrite h)

theorem devBytes (h : Steady s t) {n o : Nat} {bs : List Byte} : Steady s (devBytes n o bs t) := by
  unfold Machine.devBytes
  exact ite (setBits h) (ite (raiseLine (setHl (setHl h))) (setHl h))

theorem devWrite (h : Steady s t) {n o : Nat} {v : Word} : Steady s (devWrite n o v t) := by
  unfold Machine.devWrite
  exact devBytes h

theorem hostTailRead (h : Steady s t) {n : Nat} : Steady s (hostTailRead n t) := by
  unfold Machine.hostTailRead
  exact setHl h

theorem devTailRead (h : Steady s t) {n : Nat} : Steady s (devTailRead n t) := by
  unfold Machine.devTailRead
  exact ite (clearLine (setHl h)) (setHl h)

theorem hostFull (h : Steady s t) {n : Nat} : Steady s (hostFull n t) := by
  unfold Machine.hostFull
  exact ite (ringDoorbell (setHl h)) (setHl h)

theorem hstWrite (h : Steady s t) {n o : Nat} {v : Word} : Steady s (hstWrite n o v t) := by
  unfold Machine.hstWrite
  exact ite (hostFull (setHl h)) (setHl h)

theorem hstMessage (h : Steady s t) {n seq : Nat} {msg : List Byte} : Steady s (hstMessage n seq msg t) := by
  unfold Machine.hstMessage
  exact hostFull (setHl h)

theorem hostReset (h : Steady s t) {v : Word} : Steady s (hostReset v t) := by
  unfold Machine.hostReset
  exact ite (cmdReset h) h

theorem ringErr (h : Steady s t) {r bit : Nat} : Steady s (ringErr r bit t) := by
  unfold Machine.ringErr
  exact setBits h

theorem ringCfgWrite (h : Steady s t) {r off : Nat} {v : Word} : Steady s (ringCfgWrite r off v t) := by
  unfold Machine.ringCfgWrite
  exact ite (regWrite h) (ite (ite (regWrite h) (ringErr (regWrite h))) (ringErr h))

theorem unstall (h : Steady s t) {r : Nat} : Steady s (unstall r t) := by
  unfold Machine.unstall
  exact ite h (setRing h)

theorem ringTailWrite (h : Steady s t) {r : Nat} {v : Word} : Steady s (ringTailWrite r v t) := by
  unfold Machine.ringTailWrite
  exact unstall (ite (ringErr (regWrite h)) (regWrite h))

theorem msixWrite (h : Steady s t) {o : Nat} {v : Word} : Steady s (msixWrite o v t) := by
  unfold Machine.msixWrite
  exact ite (hostMsg (setHl (setHl h))) (setHl h)

theorem bar0Write (h : Steady s t) {o : Nat} {v : Word} : Steady s (bar0Write o v t) := by
  unfold Machine.bar0Write
  exact ite h (ite (hostReset h) (ite (doorbellClear h) (ite (dbMaskWrite h) (ite (msixWrite h) (ite (devWrite h) (regWrite h))))))

theorem bar2Write (h : Steady s t) {o : Nat} {v : Word} : Steady s (bar2Write o v t) := by
  unfold Machine.bar2Write
  exact ite h (ite (unstall (ringCfgWrite h)) (ite (ringTailWrite h) (ite (setHl h) (regWrite h))))

theorem servo (h : Steady s t) {k : Nat} {y : SyncSample} : Steady s (servo k y t) := by
  simp only [Machine.servo]
  split
  · exact h
  · exact ite (logFault (postChange (setPly (setPly h)))) (ite (setPly h) (postChange (setPly (setPly h))))

theorem timeTx (h : Steady s t) {l : Nat} {b : TimeBlock} : Steady s (timeTx l b t) := by
  unfold Machine.timeTx
  exact ite (ledgerSkein (sknTx h)) h

theorem sendJoin (h : Steady s t) {l : Nat} : Steady s (sendJoin l t) := by
  unfold Machine.sendJoin
  exact sknTxVia h

theorem joinOn (h : Steady s t) {l : Nat} : Steady s (joinOn l t) := by
  unfold Machine.joinOn
  exact ite (sknTx h) (ite (sendTopology (keep h)) (ite (sendJoin h) h))

theorem linkBack (h : Steady s t) {l : Nat} : Steady s (linkBack l t) := keep h

theorem deliverData (h : Steady s t) {l : Nat} {h' payload : List Byte} : Steady s (deliverData l h' payload t) := by
  unfold Machine.deliverData
  exact offerFrame _ _ (setEgress (setFrame (newFrame _ _ h)))

theorem deliver (h : Steady s t) {l : Nat} {h' payload : List Byte} : Steady s (deliver l h' payload t) := by
  unfold Machine.deliver
  exact ite (deliverData h) (ite (wakeFire (sknTx h)) (ite (logFault h) h))

theorem abortOn (h : Steady s t) {l : Nat} {h' payload : List Byte} : Steady s (abortOn l h' payload t) := by
  unfold Machine.abortOn
  exact ite (sknSend (transitGo h)) h

theorem joinNew (h : Steady s t) {l : Nat} {serial : Tick} : Steady s (joinNew l serial t) := by
  unfold Machine.joinNew
  exact ite (sendJoin h) h

theorem topologyOn (h : Steady s t) {l : Nat} {t' : Topology} : Steady s (topologyOn l t' t) := by
  unfold Machine.topologyOn
  exact ite (sknTxOn h) h

theorem skeinAged (h : Steady s t) {l b : Nat} : Steady s (skeinAged l b t) := by
  unfold Machine.skeinAged
  exact setBobbin (setLink h)

theorem bypWrite (h : Steady s t) {v : Word} : Steady s (bypWrite v t) := by
  unfold Machine.bypWrite
  exact foldl (fun _ _ h => ite (bypeSet h) (bypeClear h)) (regWrite h)

theorem gpioApply (h : Steady s t) {b : Nat} : Steady s (gpioApply b t) := by
  unfold Machine.gpioApply
  exact foldl (fun _ _ h => ite (setPin h) h) h

theorem pageWrite (h : Steady s t) {b o : Nat} {v : Word} : Steady s (pageWrite b o v t) := by
  unfold Machine.pageWrite
  exact ite h (keep h)

theorem flyBusWrite (h : Steady s t) {o : Nat} {v : Word} : Steady s (flyBusWrite o v t) := by
  simp only [Machine.flyBusWrite]
  split
  · split
    · exact flyCtrlWrite h
    · exact ite (regWrite h) h
    · exact ite (actPost h) h
    · exact ite (flyPush h) h
    · exact flyIrqWrite h
    · exact regWrite h
  · exact ite (ite (gpioApply (regWrite h)) h) (ite (pageWrite h) (regWrite h))

theorem canBusWrite (h : Steady s t) {o : Nat} {v : Word} : Steady s (canBusWrite o v t) := by
  unfold Machine.canBusWrite
  exact ite h (ite (canCtrlWrite h) (ite (canWinWrite h) (regWrite h)))

theorem lcfgWrite (h : Steady s t) {l : Nat} {v : Word} : Steady s (lcfgWrite l v t) := by
  unfold Machine.lcfgWrite
  exact ite (setLink (ite (linkLost (regWrite h)) (regWrite h))) (ite (setLink (regWrite h)) (regWrite h))

theorem chggoWrite (h : Steady s t) {k : Nat} {v : Word} : Steady s (chggoWrite k v t) := by
  unfold Machine.chggoWrite
  exact ite (postChange h) h

theorem oemWrite (h : Steady s t) {o : Nat} {v : Word} : Steady s (oemWrite o v t) := by
  unfold Machine.oemWrite
  exact oemKept (regWrite h)

theorem busWrite (h : Steady s t) {a : Nat} {v : Word} : Steady s (busWrite a v t) := by
  simp only [Machine.busWrite]
  split
  · exact ite (holdClear h) (ite (holdClear h) (regWrite h))
  · exact flyBusWrite h
  · exact ite (mdioWrite h) (regWrite h)
  · exact canBusWrite h
  · exact ite (chggoWrite h) (regWrite h)
  · exact ite (lcfgWrite h) (ite (lcfgWrite h) (regWrite h))
  · exact ite (modesChanged (regWrite h)) (regWrite h)
  · exact ite (oemWrite h) (regWrite h)
  · exact ite (hdataAccess h) (regWrite h)
  · exact ite (hstWrite h) h
  · exact ite (vidWrite h) (ite (bypWrite h) (ite (chargerNote (regWrite h)) (regWrite h)))
  · exact regWrite h

theorem rxStart (h : Steady s t) {r : Nat} : Steady s (rxStart r t) := by
  simp only [Machine.rxStart]
  split
  · exact h
  · split
    · exact ringErr h
    · split
      · exact ite (ringErr h) (setHl h)
      · exact setHl h

theorem txOffer (h : Steady s t) {r : Nat} {bytes : List Byte} : Steady s (txOffer r bytes t) := by
  unfold Machine.txOffer
  refine ite h (ite (ringErr h) ?_)
  split
  · exact h
  · exact ite (keep (setRing (setFrame (offerInner _ _ _ _ h)))) (setRing h)

theorem fillDesc (h : Steady s t) {r i : Nat} {f : Frame} {bs : List Byte} {sof eof : Bool} : Steady s (fillDesc r i f bs sof eof t) := by
  unfold Machine.fillDesc
  exact setHl h

theorem fillFrames {r : Nat} (ids : List Nat) {i : Nat} (h : Steady s t) : Steady s (fillFrames r ids i t) := by
  induction ids generalizing t i with
  | nil => exact h
  | cons id ids ih =>
    unfold Machine.fillFrames
    split
    · exact ih h
    · exact ih (foldl (fun _ _ hu => fillDesc hu) h)

theorem clearOwn (h : Steady s t) {r n status : Nat} : Steady s (clearOwn r n status t) := by
  unfold Machine.clearOwn
  exact foldl (fun _ _ h => setHl h) h

theorem burstRecord (h : Steady s t) {r n count : Nat} {irq : Bool} : Steady s (burstRecord r n count irq t) := by
  unfold Machine.burstRecord
  exact ite (ringDoorbell (setHl (setRing h))) (setHl (setRing h))

theorem txWhole (h : Steady s t) {id : Nat} : Steady s (txWhole id t) := by
  unfold Machine.txWhole
  exact setFrame (innerWhole h)

theorem refusalEnds (h : Steady s t) {r b : Nat} : Steady s (refusalEnds r b t) := by
  unfold Machine.refusalEnds
  exact setRing (setBobbin h)

theorem burstDone (h : Steady s t) {r : Nat} : Steady s (burstDone r t) := by
  unfold Machine.burstDone
  split
  · exact h
  · exact ite h (ite (refusalEnds (foldl (fun _ _ hu => dropEntry hu) (burstRecord (fillFrames _ (setHl h)))))
      (burstRecord (foldl (fun _ _ hu => txWhole hu) (clearOwn (setHl h)))))

theorem abandon (h : Steady s t) {r : Nat} : Steady s (abandon r t) := by
  unfold Machine.abandon
  exact setRing (foldl (fun _ _ h => removeFrame h) (setHl h))

theorem refusalStart (h : Steady s t) {b : Nat} : Steady s (refusalStart b t) := by
  simp only [Machine.refusalStart]
  split
  · split
    · exact setBobbin h
    · exact setRing (setBobbin h)
  · exact h

theorem loadSpin (h : Steady s t) {m : BitVec 64} {p : CSpin} : Steady s (loadSpin m p t) := by
  unfold Machine.loadSpin
  exact setSpindle h

theorem loadLea (h : Steady s t) {k : Nat} {bs : List Byte} : Steady s (loadLea k bs t) := by
  unfold Machine.loadLea
  exact ite (setWhl (setStrand h)) h

theorem loadWhorl (h : Steady s t) {x : CertIn} {m : BitVec 64} : Steady s (loadWhorl x m t) := by
  unfold Machine.loadWhorl
  exact foldl (fun _ _ h => loadLea h) (foldl (fun _ _ h => ite (setSpindle h) h) (foldl (fun _ _ h => loadSpin h) (setWhl h)))

theorem withConf (h : Steady s t) {c : Conf} : Steady s (withConf c t) := keep h

theorem rovSet (h : Steady s t) {c : Conf} : Steady s (rovSet c t) := by
  unfold Machine.rovSet
  exact foldl (fun _ _ h => regWrite h) h

theorem setTxns (h : Steady s t) {f : TxnSt → TxnSt} : Steady s (setTxns f t) := keep h

theorem txnEnd (h : Steady s t) {h' : Nat} {st : TxnState} : Steady s (txnEnd h' st t) := by
  simp only [Machine.txnEnd]
  split
  · exact h
  · exact setTxns h

theorem stageRecs (h : Steady s t) {h' : Nat} {rs : List Rec} : Steady s (stageRecs h' rs t) := by
  unfold Machine.stageRecs
  exact setTxn h

theorem pageStaged (h : Steady s t) {t' : Txn} {b : Nat} : Steady s (pageStaged t' b t) := by
  unfold Machine.pageStaged
  exact setTxn (flyLoadPage h)

theorem pagesStaged (h : Steady s t) : Steady s (pagesStaged t) := by
  unfold Machine.pagesStaged
  exact foldl (fun _ _ h => by
    split
    · exact ite h (pageStaged h)
    · exact h) h

theorem commitAccept (h : Steady s t) {h' : Nat} {src : ReqSrc} {seq : Nat} {q : CommitReq} : Steady s (commitAccept h' src seq q t) := by
  simp only [Machine.commitAccept]
  split
  · exact h
  · exact ite (keep (pagesStaged (setTxns h))) (pagesStaged (setTxns h))

theorem pendLea (h : Steady s t) {k e : Nat} : Steady s (pendLea k e t) := by
  simp only [Machine.pendLea]
  split
  · exact h
  · exact ite (switchLea (setStrand h)) (ite (setStrand h) (switchLea (setStrand h)))

theorem clipMeters (h : Steady s t) : Steady s (clipMeters t) := keep h

theorem refusalsEnd (h : Steady s t) : Steady s (refusalsEnd t) := by
  unfold Machine.refusalsEnd
  generalize hu : List.foldl _ t _ = u
  have hs : Steady s u := hu ▸ foldl (fun _ _ hv => ite (setSpindle hv) hv) h
  exact keep hs

theorem bankSwapped (h : Steady s t) {h' b : Nat} : Steady s (bankSwapped h' b t) := by
  unfold Machine.bankSwapped
  exact setTxns (flyBankSwap (ite h (flyLoadPage h)))

theorem shadowSwap (h : Steady s t) {h' e : Nat} {rs : List Rec} : Steady s (shadowSwap h' e rs t) := by
  unfold Machine.shadowSwap
  exact foldl (fun _ _ h => pendLea h) (ite (setTxn (ite (foldl (fun _ _ h => bankSwapped h) (ite (setTxns h) (keep (setTxns h))))
    (clipMeters (foldl (fun _ _ h => bankSwapped h) (ite (setTxns h) (keep (setTxns h))))))) (refusalsEnd (setTxn (ite (foldl
    (fun _ _ h => bankSwapped h) (ite (setTxns h) (keep (setTxns h)))) (clipMeters (foldl (fun _ _ h => bankSwapped h) (ite (setTxns h)
    (keep (setTxns h)))))))))

theorem settingWrite (h : Steady s t) {w : Nat × Word} : Steady s (settingWrite w t) := by
  unfold Machine.settingWrite
  exact ite (setReg h) (ite (regWrite h) (busWrite h))

theorem settingsApply (h : Steady s t) {rs : List Rec} : Steady s (settingsApply rs t) := by
  unfold Machine.settingsApply
  exact ite (oemKept (foldl (fun _ _ h => settingWrite h) h)) (foldl (fun _ _ h => settingWrite h) h)

theorem settingsStep (h : Steady s t) {h' : Nat} {rs : List Rec} : Steady s (settingsStep h' rs t) := by
  unfold Machine.settingsStep
  exact ite h (setTxn (tookFree (settingsApply h)))

theorem seamStep (h : Steady s t) {h' e : Nat} {rs : List Rec} : Steady s (seamStep h' e rs t) := by
  unfold Machine.seamStep
  exact setTxn (setTxns h)

theorem volatileApplied (h : Steady s t) : Steady s (volatileApplied t) := by
  unfold Machine.volatileApplied
  exact keep (setTxns h)

theorem commitSwap (h : Steady s t) {h' e : Nat} : Steady s (commitSwap h' e t) := by
  simp only [Machine.commitSwap]
  split
  · exact h
  · exact ite (shadowSwap (setTxn h)) (volatileApplied (shadowSwap (setTxn h)))

theorem commitRest (h : Steady s t) {h' e : Nat} : Steady s (commitRest h' e t) := by
  simp only [Machine.commitRest]
  split
  · exact h
  · exact txnAdvance (seamStep (settingsStep h))

theorem commitStopped (h : Steady s t) {h' : Nat} {t' : Txn} : Steady s (commitStopped h' t' t) := by
  simp only [Machine.commitStopped]
  split
  · exact pushDue (pagesStaged (txnEnd h))
  · exact pagesStaged (txnEnd h)

theorem epochReached (h : Steady s t) {h' : Nat} : Steady s (epochReached h' t) := by
  simp only [Machine.epochReached]
  split
  · exact h
  · split
    · exact ite (plyFirst h) h
    · split
      · exact commitStopped (ite (plyFirst h) h)
      · exact pagesStaged (foldl (fun _ _ h => commitRest h) (foldl (fun _ _ h => commitSwap h) (reachTick (ite (plyFirst h) h))))

theorem commitReplied (h : Steady s t) {h' : Nat} : Steady s (commitReplied h' t) := by
  simp only [Machine.commitReplied]
  split
  · exact h
  · split
    · split
      · exact keep (setTxn h)
      · exact pushDue (txnEnd h)
      · exact h
    · exact h

theorem replyWritten (h : Steady s t) {d : Due} : Steady s (replyWritten d t) := by
  simp only [Machine.replyWritten]
  split
  · exact txnEnd h
  · exact h

theorem txnAbort (h : Steady s t) {h' : Nat} {t' : Txn} : Steady s (txnAbort h' t' t) := by
  simp only [Machine.txnAbort]
  split
  · exact pushDue (pagesStaged (txnEnd (keep h)))
  · exact pagesStaged (txnEnd (keep h))

theorem dropTaken (h : Steady s t) {q : Req} : Steady s (dropTaken q t) := by
  unfold Machine.dropTaken
  exact setHl h

theorem answer (h : Steady s t) {q : Req} {st : Status} {detail : Nat} {pay : List Byte} : Steady s (answer q st detail pay t) := by
  unfold Machine.answer
  exact pushDue h

theorem answerOk (h : Steady s t) {q : Req} {pay : List Byte} : Steady s (answerOk q pay t) := by
  unfold Machine.answerOk
  exact answer h

theorem refuse (h : Steady s t) {q : Req} {st : Status} {detail : Nat} : Steady s (refuse q st detail t) := by
  unfold Machine.refuse
  exact answer h

theorem serve (h : Steady s t) {code need : Nat} {modes : Mode → Bool} {src : ReqSrc} {body : Req → State → State} (hbody : ∀ a0 u, Steady s u → Steady s (body a0 u)) :
    Steady s (serve code need modes src body t) := by
  simp only [Machine.serve]
  split
  · exact h
  · exact ite h (ite (refuse (dropTaken h)) (ite (refuse (dropTaken h)) (ite (refuse (dropTaken h)) (hbody _ _ (dropTaken h)))))

theorem needPcie (h : Steady s t) {q : Req} {body : State → State} (hbody : ∀ u, Steady s u → Steady s (body u)) :
    Steady s (needPcie q body t) := by
  unfold Machine.needPcie
  exact ite (refuse h) (hbody _ h)

theorem hostData (h : Steady s t) {q : Req} {data : Option (List Byte)} {body : List Byte → State → State} (hbody : ∀ a0 u, Steady s u → Steady s (body a0 u)) :
    Steady s (hostData q data body t) := by
  simp only [Machine.hostData]
  split
  · exact refuse h
  · exact hbody _ _ h

theorem drowseSet (h : Steady s t) {q : Req} : Steady s (drowseSet q t) := by
  unfold Machine.drowseSet
  exact ite (refuse h) (ite (refuse h) (answerOk (rovStopAt (stopStrands (setSys h)))))

theorem serviceSet (h : Steady s t) {q : Req} : Steady s (serviceSet q t) := by
  unfold Machine.serviceSet
  exact ite (refuse h) (answerOk (stopStrands (setSys h)))

theorem spinSet (h : Steady s t) {q : Req} : Steady s (spinSet q t) := by
  unfold Machine.spinSet
  exact ite (refuse h) (answerOk (startStrands (setSys h)))

theorem modeSet (h : Steady s t) {q : Req} : Steady s (modeSet q t) := by
  unfold Machine.modeSet
  exact ite (refuse h) (ite (answerOk h) (ite (ite (answerOk h) (refuse h)) (ite (drowseSet h) (ite (serviceSet h) (spinSet h)))))

theorem onTxn (h : Steady s t) {q : Req} {expired : Bool} {body : Txn → State → State} (hbody : ∀ a0 u, Steady s u → Steady s (body a0 u)) :
    Steady s (onTxn q expired body t) := by
  simp only [Machine.onTxn]
  split
  · exact refuse h
  · exact ite (refuse h) (hbody _ _ h)

theorem onOpen (h : Steady s t) {q : Req} {body : Txn → State → State} (hbody : ∀ a0 u, Steady s u → Steady s (body a0 u)) :
    Steady s (onOpen q body t) := by
  unfold Machine.onOpen
  exact onTxn h (fun _ _ h1 => ite (hbody _ _ h1) (refuse h1))

theorem stageBody (h : Steady s t) {q : Req} {bs : List Byte} {t' : Txn} : Steady s (stageBody q bs t' t) := by
  simp only [Machine.stageBody]
  split
  · exact refuse h
  · exact answerOk (stageRecs h)

theorem commitServe (h : Steady s t) {q : Req} {t' : Txn} : Steady s (commitServe q t' t) := by
  simp only [Machine.commitServe]
  split
  · exact refuse h
  · exact commitAccept h

theorem confGet (h : Steady s t) {q : Req} : Steady s (confGet q t) := by
  unfold Machine.confGet
  exact ite (refuse h) (ite (refuse h) (ite (refuse h) (ite (refuse h) (answerOk h))))

theorem imgBegin (h : Steady s t) {q : Req} : Steady s (imgBegin q t) := by
  unfold Machine.imgBegin
  exact ite (refuse h) (answerOk (changeCtl (setDst h)))

theorem imgPut (h : Steady s t) {q : Req} {bs : List Byte} : Steady s (imgPut q bs t) := by
  simp only [Machine.imgPut]
  split
  · exact refuse h
  · exact ite (refuse h) (answerOk (setDst h))

theorem imgEnd (h : Steady s t) {q : Req} : Steady s (imgEnd q t) := by
  simp only [Machine.imgEnd]
  split
  · exact refuse h
  · exact ite (refuse h) (ite (answerOk (setSys (changeCtl (setDst h)))) (refuse (changeCtl (setDst h))))

theorem imgConfirm (h : Steady s t) {q : Req} : Steady s (imgConfirm q t) := by
  simp only [Machine.imgConfirm]
  split
  · exact ite (answerOk (changeCtl h)) (refuse h)
  · exact refuse h

theorem onPort (h : Steady s t) {q : Req} {body : Nat → Nat → State → State} (hbody : ∀ a0 a1 u, Steady s u → Steady s (body a0 a1 u)) :
    Steady s (onPort q body t) := by
  unfold Machine.onPort
  exact ite (refuse h) (ite (refuse h) (hbody _ _ _ h))

theorem portStatus (h : Steady s t) {q : Req} {kind i : Nat} : Steady s (portStatus q kind i t) := by
  simp only [Machine.portStatus]
  split
  · exact answerOk h
  · exact answerOk h
  · exact answerOk (tookFree h)

theorem onPly (h : Steady s t) {q : Req} {body : Nat → State → State} (hbody : ∀ a0 u, Steady s u → Steady s (body a0 u)) :
    Steady s (onPly q body t) := by
  unfold Machine.onPly
  exact ite (refuse h) (hbody _ _ h)

theorem plyIncr (h : Steady s t) {q : Req} {k : Nat} : Steady s (plyIncr q k t) := by
  unfold Machine.plyIncr
  exact ite (refuse h) (ite (refuse h) (answerOk (postChange h)))

theorem plyStep (h : Steady s t) {q : Req} {k : Nat} : Steady s (plyStep q k t) := by
  simp only [Machine.plyStep]
  split
  · exact refuse h
  · split
    · exact refuse h
    · split
      · exact refuse h
      · split
        · exact refuse h
        · exact ite (refuse h) (answerOk (postChange h))

theorem relayGo (h : Steady s t) {q : Req} {target : BitVec 10} {inner : List Byte} {wake : Bool} : Steady s (relayGo q target inner wake t) := by
  unfold Machine.relayGo
  exact sknTx (keep h)

theorem cascRelay (h : Steady s t) {q : Req} : Steady s (cascRelay q t) := by
  simp only [Machine.cascRelay]
  split
  · exact refuse h
  · split
    · exact refuse h
    · split
      · exact refuse h
      · exact ite (relayGo h) (ite (refuse h) (relayGo h))

theorem relayEnd (h : Steady s t) {r : Relay} {st : Status} {detail : Nat} {pay : List Byte} : Steady s (relayEnd r st detail pay t) := by
  unfold Machine.relayEnd
  exact pushDue (keep h)

theorem pnlEvents (h : Steady s t) {q : Req} : Steady s (pnlEvents q t) := by
  unfold Machine.pnlEvents
  exact ite (refuse h) (answerOk (keep h))

theorem hankPut (h : Steady s t) {q : Req} {bs : List Byte} : Steady s (hankPut q bs t) := by
  unfold Machine.hankPut
  exact setRov h

theorem hankReadySet (h : Steady s t) {q : Req} : Steady s (hankReadySet q t) := by
  unfold Machine.hankReadySet
  exact ite (answerOk (setReady h)) (refuse h)

theorem rovStart (h : Steady s t) {q : Req} : Steady s (rovStart q t) := by
  simp only [Machine.rovStart]
  split
  · exact refuse h
  · split
    · exact refuse h
    · exact ite (refuse h) (ite (answerOk (rovBegin h)) (answerOk (setRov h)))

theorem warmNow (h : Steady s t) {q : Req} : Steady s (warmNow q t) := by
  simp only [Machine.warmNow]
  split
  · exact hstMessage (setSys h)
  · exact answerOk (setSys h)

theorem txnOpened (h : Steady s t) {q : Req} : Steady s (txnOpened q t) := by
  unfold Machine.txnOpened
  exact ite (refuse h) (answerOk (setTxns h))

theorem txnDma (h : Steady s t) {data : Option (List Byte)} {q : Req} : Steady s (txnDma data q t) := by
  unfold Machine.txnDma
  exact needPcie h (fun _ h1 => ite (refuse h1) (onOpen h1 (fun _ _ h3 => hostData h3 (fun _ _ h5 => stageBody h5))))

theorem txnCommitted (h : Steady s t) {q : Req} : Steady s (txnCommitted q t) := by
  unfold Machine.txnCommitted
  exact ite (refuse h) (ite (refuse h) (ite (refuse h) (onOpen h (fun _ _ h1 => commitServe h1))))

theorem txnAborted (h : Steady s t) {q : Req} : Steady s (txnAborted q t) := by
  unfold Machine.txnAborted
  exact onTxn h (fun _ _ h1 => ite (answerOk (txnAbort h1)) (refuse h1))

theorem imgDma (h : Steady s t) {data : Option (List Byte)} {q : Req} : Steady s (imgDma data q t) := by
  unfold Machine.imgDma
  exact needPcie h (fun _ h1 => ite (refuse h1) (ite (refuse h1) (hostData h1 (fun _ _ h3 => imgPut h3))))

theorem tickConverted (h : Steady s t) {q : Req} {k : Nat} : Steady s (tickConverted q k t) := by
  simp only [Machine.tickConverted]
  split
  · exact refuse h
  · exact answerOk h

theorem readerScanned (h : Steady s t) {card : Option (List Byte)} {q : Req} : Steady s (readerScanned card q t) := by
  unfold Machine.readerScanned
  exact ite (refuse h) (ite (refuse h) (ite (refuse h) (answerOk h)))

theorem hankWrite (h : Steady s t) {data : Option (List Byte)} {q : Req} : Steady s (hankWrite data q t) := by
  unfold Machine.hankWrite
  exact needPcie h (fun _ h1 => by
    split
    · exact refuse h1
    · exact ite (refuse h1) (hostData h1 (fun _ _ h3 => answerOk (hankPut h3))))

theorem ageOne (h : Steady s t) {p : Nat} : Steady s (ageOne p t) := by
  simp only [Machine.ageOne]
  split
  · exact h
  · exact ite (reapFrame (setBobbin (setEgress h))) (dropEntry (setBobbin (setEgress h)))

theorem flyRun (h : Steady s t) {f op : Nat} {act : State → Word → State → State} (hact : ∀ a0 a1 u, Steady s u → Steady s (act a0 a1 u)) :
    Steady s (flyRun f op act t) := by
  unfold Machine.flyRun
  exact ite (hact _ _ _ (flySideSet h)) h

theorem flyBraAct (h : Steady s t) {f : Nat} {p : State} {w : Word} : Steady s (flyBraAct f p w t) := by
  unfold Machine.flyBraAct
  exact setFlyer h

theorem awaitEnd (h : Steady s t) {f : Nat} {w : Word} : Steady s (awaitEnd f w t) := by
  unfold Machine.awaitEnd
  exact ite (setFlyer h) h

theorem flyAwaitAct (h : Steady s t) {f : Nat} {p : State} {w : Word} : Steady s (flyAwaitAct f p w t) := by
  unfold Machine.flyAwaitAct
  exact ite (flyNext (awaitEnd h)) (flyStall h)

theorem flyTakeAct (h : Steady s t) {f : Nat} {p : State} {w : Word} : Steady s (flyTakeAct f p w t) := by
  unfold Machine.flyTakeAct
  exact flyNext (setFlyer h)

theorem flyGiveAct (h : Steady s t) {f : Nat} {p : State} {w : Word} : Steady s (flyGiveAct f p w t) := by
  unfold Machine.flyGiveAct
  refine flyNext ?_
  split
  · exact flyToPins (setFlyer h)
  · exact setFlyer (setFlyer h)
  · exact setFlyer (setFlyer h)
  · exact flyToPins (setFlyer h)
  · exact setFlyer h

theorem loadWord (h : Steady s t) {f : Nat} : Steady s (loadWord f t) := by
  unfold Machine.loadWord
  exact setFlyer h

theorem flyLoadAct (h : Steady s t) {f : Nat} {x1 : State} {w : Word} : Steady s (flyLoadAct f x1 w t) := by
  unfold Machine.flyLoadAct
  exact ite (flyNext (loadWord h)) (ite (flyStall h) (flyNext (flyFlag h)))

theorem storeWord (h : Steady s t) {f : Nat} : Steady s (storeWord f t) := by
  unfold Machine.storeWord
  exact setFlyer h

theorem flyStoreAct (h : Steady s t) {f : Nat} {x1 : State} {w : Word} : Steady s (flyStoreAct f x1 w t) := by
  unfold Machine.flyStoreAct
  exact ite (flyNext (storeWord h)) (ite (flyStall (flyFlag h)) (flyNext (setFlyer (flyFlag h))))

theorem flyXferAct (h : Steady s t) {f : Nat} {p : State} {w : Word} : Steady s (flyXferAct f p w t) := by
  simp only [Machine.flyXferAct]
  split
  · exact flyNext (flyToPins h)
  · exact flyNext (setFlyer h)
  · exact flyNext (setFlyer h)
  · exact flyNext (setFlyer h)
  · exact flyNext (flyToPins h)

theorem flyPutAct (h : Steady s t) {f : Nat} {x1 : State} {w : Word} : Steady s (flyPutAct f x1 w t) := by
  simp only [Machine.flyPutAct]
  split
  · exact flyNext (flyToPins h)
  · exact flyNext (setFlyer h)
  · exact flyNext (setFlyer h)
  · exact flyNext (flyToPins h)

theorem flyHuntAct (h : Steady s t) {f : Nat} {x1 : State} {x2 : Word} : Steady s (flyHuntAct f x1 x2 t) := by
  unfold Machine.flyHuntAct
  exact setFlyer h

theorem flyAtAct (h : Steady s t) {f : Nat} {x1 : State} {x2 : Word} : Steady s (flyAtAct f x1 x2 t) := by
  unfold Machine.flyAtAct
  exact ite (flyNext (flyFlag h)) (ite (flyStall h) (flyNext (actEnter h)))

theorem actsLeave (h : Steady s t) {p : Nat} : Steady s (actsLeave p t) := by
  unfold Machine.actsLeave
  exact ite (setFlyer h) h

theorem pinHandover (h : Steady s t) {p : Nat} {cfg : Word} : Steady s (pinHandover p cfg t) := by
  unfold Machine.pinHandover
  exact setPin (setFld (actsLeave h))

theorem seamPin (h : Steady s t) {p : SeamPin} : Steady s (seamPin p t) := by
  unfold Machine.seamPin
  exact noteApplied (pinHandover h)

theorem epochFirst (h : Steady s t) {t' : Tick} : Steady s (epochFirst t' t) := by
  simp only [Machine.epochFirst]
  split
  · exact epochReached h
  · exact h

theorem spiEnd (h : Steady s t) {out : List Byte} {err : Bool} : Steady s (spiEnd out err t) := by
  unfold Machine.spiEnd
  exact setHl h

theorem spiWords (k : Nat) {o : Nat} {bs : List Byte} (h : Steady s t) : Steady s (spiWords k o bs t) := by
  induction k generalizing t o bs with
  | zero => exact h
  | succ k ih => exact ih (bar0Write h)

theorem perst (h : Steady s t) : Steady s (perst t) := by
  unfold Machine.perst
  exact logFault (setHl (foldl (fun _ _ hu => setReg hu) (foldl (fun _ _ hu => setFld (abandon hu)) h)))

theorem stepDone (h : Steady s t) {n us : Nat} : Steady s (stepDone n us t) := by
  unfold Machine.stepDone
  exact setSys (noteLate h)

theorem setKrec (h : Steady s t) {f : KRec → KRec} : Steady s (setKrec f t) := by
  unfold Machine.setKrec
  exact setSys h

theorem bootRepair (h : Steady s t) {c : SlotCtl} : Steady s (bootRepair c t) := by
  unfold Machine.bootRepair
  exact ite (queueUnit (ite (queueUnit h) h)) (ite (queueUnit h) h)

theorem slotControl (h : Steady s t) : Steady s (slotControl t) := by
  simp only [Machine.slotControl]
  split
  · exact changeCtl (bootRepair (setDst (setSys h)))
  · exact queueUnit (setSys (setDst h))

theorem replayed (h : Steady s t) {r : Replay} : Steady s (replayed r t) := by
  simp only [Machine.replayed]
  split
  · exact logFault (setKrec (setDst h))
  · exact setDst h

theorem kindleEnd (h : Steady s t) {target : Mode} : Steady s (kindleEnd target t) := by
  unfold Machine.kindleEnd
  exact keep (logFault (ite (enterBrace (setSys h)) (setSys (setSys h))))

theorem imagePicked (h : Steady s t) {p : BootPick} : Steady s (imagePicked p t) := by
  simp only [Machine.imagePicked]
  split
  · split
    · exact logFault (setKrec (logFault (setKrec (ite (joinCtl (setDst h)) (setDst h)))))
    · exact logFault (setKrec (ite (joinCtl (setDst h)) (setDst h)))
  · split
    · exact logFault (setKrec (ite (joinCtl (setDst h)) (setDst h)))
    · exact ite (joinCtl (setDst h)) (setDst h)

theorem confDefaulted (h : Steady s t) : Steady s (confDefaulted t) := by
  unfold Machine.confDefaulted
  exact logFault (setTxns (setKrec (setDst h)))

theorem loadExts (h : Steady s t) {bs : List Byte} : Steady s (loadExts bs t) := by
  unfold Machine.loadExts
  exact ite (keep h) h

theorem whorlLoaded (h : Steady s t) {x : CertIn} {none_ : Bool} : Steady s (whorlLoaded x none_ t) := by
  unfold Machine.whorlLoaded
  exact ite (loadWhorl h) (logFault (setKrec (loadWhorl h)))

theorem confLoaded (h : Steady s t) {c : Conf} : Steady s (confLoaded c t) := by
  unfold Machine.confLoaded
  exact keep (foldl (fun _ _ h => ite h (foldl (fun _ _ h1 => flyLoadSettings h1) (flyLoadPage h))) (settingsApply (foldl
    (fun _ _ h => ite h (canLoadTiming h)) (setPwr (setTxns h)))))

theorem pinStart (h : Steady s t) {p : Nat} : Steady s (pinStart p t) := by
  unfold Machine.pinStart
  exact ite h (ite (pinSafe (pinHandover h)) (pinHandover h))

theorem step7a (h : Steady s t) : Steady s (step7a t) := by
  unfold Machine.step7a
  exact rovIdle (foldl (fun _ _ h => pinStart h) (foldl (fun _ _ h => ite (canEnable h) h) (foldl (fun _ _ h => portBring h) h)))

theorem stewardLoaded (h : Steady s t) {img : Mem} : Steady s (stewardLoaded img t) := keep h

theorem identityKept (h : Steady s t) : Steady s (identityKept t) := by
  unfold Machine.identityKept
  exact ite h (queueUnit h)

theorem setAfter (h : Steady s t) {a : Nat} {setNow : Word} : Steady s (setAfter a setNow t) := by
  unfold Machine.setAfter
  exact ite h (setBits h)

theorem bar0Word (h : Steady s t) {o : Nat} {v setNow : Word} : Steady s (bar0Word o v setNow t) := by
  unfold Machine.bar0Word
  exact ite (doorbellClear h) (setAfter (bar0Write h))

theorem bar0Put (h : Steady s t) {a : Nat} {bs : List Byte} {setNow : BitVec 64} : Steady s (bar0Put a bs setNow t) := by
  unfold Machine.bar0Put
  exact ite (devBytes h) (ite (foldl (fun _ _ h => bar0Word h) h) h)

theorem bar0Get (h : Steady s t) {a n : Nat} : Steady s (bar0Get a n t) := by
  simp only [Machine.bar0Get]
  split
  · split
    · exact hostTailRead (keep h)
    · exact keep h
  · exact keep h

theorem bar2Put (h : Steady s t) {a : Nat} {bs : List Byte} {setNow : BitVec 64} : Steady s (bar2Put a bs setNow t) := by
  unfold Machine.bar2Put
  exact foldl (fun _ _ h => setAfter (bar2Write h)) h

theorem bar2Get (h : Steady s t) {a n : Nat} : Steady s (bar2Get a n t) := keep h

theorem flogRead (h : Steady s t) : Steady s (flogRead t).2 := by
  unfold Machine.flogRead
  split
  · exact h
  · next e rest heq =>
    exact change h id id fun hl => by rw [heq] at hl; exact Nat.le_of_succ_le hl

theorem pairRead (a : Nat) (h : Steady s t) : Steady s (pairRead a t).2 := by
  unfold Machine.pairRead
  split
  · exact keep h
  · exact keep h

theorem rcRead (a : Nat) (event : Bool) (h : Steady s t) : Steady s (rcRead a event t).2 := by
  unfold Machine.rcRead
  dsimp only
  split
  · exact keep h
  · exact setReg h

theorem busRead (a : Nat) (event : Bool) (h : Steady s t) : Steady s (busRead a event t).2 := by
  unfold Machine.busRead
  dsimp only
  split
  · exact pairRead a h
  split
  · exact flogRead h
  split
  · exact keep (pnlPop h)
  split
  · exact keep (hdataAccess h)
  split
  · split
    · exact flyPop h
    · exact h
  split
  · dsimp only
    split
    · exact devTailRead h
    · exact h
  · exact rcRead a event h

theorem registerRead (h : Steady s t) {sp : Space} {a n : Nat} {event : Bool} : Steady s (registerRead sp a n event t) := by
  unfold Machine.registerRead
  split
  · exact ite (keep (busRead _ event h)) h
  · exact ite (bar0Get h) h
  · exact ite (bar2Get h) h
  · exact ite (keep h) h

theorem setStw (h : Steady s t) {f : Stw → Stw} : Steady s (setStw f t) := keep h

theorem eccFix (h : Steady s t) {pa size : Nat} : Steady s (eccFix pa size t) := keep h

theorem memWrite (h : Steady s t) {e : SbEntry} : Steady s (memWrite e t) := by
  unfold Machine.memWrite
  exact ite (setStw h) (busWrite h)

theorem drainOne (h : Steady s t) : Steady s (drainOne t) := by
  simp only [Machine.drainOne]
  split
  · exact h
  · exact memWrite (setStw h)

theorem drainN (n : Nat) (h : Steady s t) : Steady s (drainN n t) := by
  induction n generalizing t with
  | zero => exact h
  | succ n ih => exact ih (drainOne h)

theorem drainAll (h : Steady s t) : Steady s (drainAll t) := drainN _ h

theorem sbPush (h : Steady s t) {e : SbEntry} : Steady s (sbPush e t) := by
  unfold Machine.sbPush
  exact setStw (ite (drainOne h) h)

theorem stwEnter (h : Steady s t) {f : Flt} {fh : Bool} {epc : Word} : Steady s (stwEnter f fh epc t) := by
  unfold Machine.stwEnter
  exact setStw h

theorem stwReturn (h : Steady s t) : Steady s (stwReturn t) := by
  unfold Machine.stwReturn
  exact setStw h

theorem doubleFault (h : Steady s t) {f : Flt} : Steady s (doubleFault f t) := by
  unfold Machine.doubleFault
  exact cmdReset (logFault (setSys h))

theorem extEnd (h : Steady s t) : Steady s (extEnd t) := by
  unfold Machine.extEnd
  exact setStw h

theorem extFaulted (h : Steady s t) {f : Flt} : Steady s (extFaulted f t) := by
  unfold Machine.extFaulted
  exact extEnd (setStw (logFault (setSys h)))

theorem stwFault (h : Steady s t) {f : Flt} : Steady s (stwFault f t) := by
  unfold Machine.stwFault
  exact ite (doubleFault h) (ite (extFaulted (stwEnter h)) (stwEnter h))

theorem stwFetched (h : Steady s t) : Steady s (stwFetched t) := by
  simp only [Machine.stwFetched]
  split
  · exact h
  · exact eccFix h

theorem retire (h : Steady s t) {ext : Bool} : Steady s (retire ext t) := by
  unfold Machine.retire
  exact ite (setStw h) h

theorem memRead (pa size : Nat) (h : Steady s t) : Steady s (memRead pa size t).2 := by
  unfold Machine.memRead
  split
  · exact h
  split
  · exact busRead pa false h
  · exact h

theorem stwLoad (sg : Nat) (off : Word) (size : Nat) (h : Steady s t) : SteadyRes s Prod.snd (stwLoad sg off size t) := by
  have read {u : State} {pa : Nat} (hu : Steady s u) : SteadyRes s Prod.snd
      (if eccHit u.stw pa size then .error ({ cause := cEcc, seg := sg, kind := some .read, addr := off }, u)
        else .ok (Machine.memRead pa size (Machine.eccFix pa size u))) := by
    split
    · exact hu
    · exact memRead pa size (eccFix hu)
  unfold Machine.stwLoad
  split
  · exact h
  dsimp only
  split
  · exact read (drainAll h)
  split
  · exact read h
  split
  · exact h
  · exact read (drainN _ h)

theorem stwStore (sg : Nat) (off : Word) (size : Nat) (v : Word) (h : Steady s t) : SteadyRes s id (stwStore sg off size v t) := by
  unfold Machine.stwStore
  split
  · exact h
  · exact sbPush h

theorem stwRun {body : State → Res State} (h : Steady s t) (hb : ∀ u, Steady s u → SteadyRes s id (body u)) : Steady s (stwRun body t) := by
  have hbody := hb _ (stwFetched h)
  unfold Machine.stwRun
  refine ite h ?_
  split
  · exact stwFault h
  refine ite (stwFault (stwFetched h)) ?_
  split
  · next heq => rw [heq] at hbody; exact retire hbody
  · next heq => rw [heq] at hbody; exact stwFault hbody

theorem whlForbidden (h : Steady s t) : Steady s (whlForbidden t) := whlRun h fun _ _ _ => trivial

theorem coreRun (h : Steady s t) {c : Core} {f : RegFn} : Steady s (coreRun c f t) := by
  unfold Machine.coreRun
  cases c with
  | steward =>
    refine stwRun h fun u hu => ?_
    split
    · exact setStw hu
    · exact hu
  | whorl =>
    refine whlRun h fun u sl hu => ?_
    split
    · exact hu
    · trivial

theorem alu (h : Steady s t) {c : Core} {rd : GReg} {f : Tab Word → Word} : Steady s (alu c rd f t) := by
  unfold Machine.alu
  exact coreRun h

theorem alu2 (h : Steady s t) {c : Core} {rd ra rb : GReg} {f : Word → Word → Word} : Steady s (alu2 c rd ra rb f t) := by
  unfold Machine.alu2
  exact alu h

theorem alu1 (h : Steady s t) {c : Core} {rd ra : GReg} {f : Word → Word} : Steady s (alu1 c rd ra f t) := by
  unfold Machine.alu1
  exact alu h

theorem divOp (h : Steady s t) {c : Core} {rd ra rb : GReg} {f : Word → Word → Word} : Steady s (divOp c rd ra rb f t) := by
  simp only [Machine.divOp]
  split
  · exact alu2 h
  · exact whlForbidden h

theorem branch (h : Steady s t) {c : Core} {ra rb : GReg} {d : BitVec 16} {cond : Word → Word → Bool} : Steady s (branch c ra rb d cond t) := by
  unfold Machine.branch
  exact coreRun h

theorem loadOp (h : Steady s t) {c : Core} {r rb : GReg} {sg : BitVec 4} {imm : BitVec 12} {size : Nat} {signed : Bool} :
    Steady s (loadOp c r rb sg imm size signed t) := by
  unfold Machine.loadOp
  cases c with
  | steward => exact stwRun h fun _ hu => (stwLoad _ _ _ hu).map fun _ hx => setStw hx
  | whorl => exact whlRun h fun _ _ hu => .same hu _ fun _ => rfl

theorem winEnqueue (h : Steady s t) {i len : Nat} {sl : Slot} : SteadySlot s Prod.snd (winEnqueue i len t sl) := by
  unfold Machine.winEnqueue
  split
  · exact h
  split
  · split
    · trivial
    · exact h
  split
  · trivial
  dsimp only
  split
  · trivial
  · exact offerInner _ _ _ _ h

theorem winStore (h : Steady s t) {o size : Nat} {v : Word} {sl : Slot} : SteadySlot s Prod.snd (winStore o size v t sl) := by
  unfold Machine.winStore
  split
  · split
    · trivial
    · exact h
  split
  · trivial
  split
  · exact .same h _ fun _ => rfl
  split
  · exact winEnqueue h
  split
  · split
    · trivial
    · exact .same h _ fun _ => rfl
  · trivial

theorem slotStore (h : Steady s t) {sg pa size : Nat} {v : Word} {sl : Slot} : SteadySlot s Prod.snd (slotStore sg pa size v t sl) := by
  unfold Machine.slotStore
  split
  · split
    · exact .same h _ fun _ => rfl
    · trivial
  · exact winStore h
  · exact .same h _ fun _ => rfl
  · exact .same h _ fun _ => rfl
  · trivial

theorem whlStore (h : Steady s t) {sg size : Nat} {off v : Word} {sl : Slot} : SteadySlot s Prod.snd (whlStore sg off size v t sl) := by
  unfold Machine.whlStore
  dsimp only
  split
  · trivial
  · exact slotStore h

theorem storeOp (h : Steady s t) {c : Core} {r rb : GReg} {sg : BitVec 4} {imm : BitVec 12} {size : Nat} :
    Steady s (storeOp c r rb sg imm size t) := by
  unfold Machine.storeOp
  cases c with
  | steward => exact stwRun h fun _ hu => (stwStore _ _ _ _ hu).map fun _ hx => setStw hx
  | whorl => exact whlRun h fun _ _ hu => (whlStore hu).map fun _ hx => hx

theorem privOp (h : Steady s t) {c : Core} {body : State → Res State} (hb : ∀ u, Steady s u → SteadyRes s id (body u)) :
    Steady s (privOp c body t) := by
  unfold Machine.privOp
  cases c with
  | steward =>
    refine stwRun h fun u hu => ?_
    split
    · exact hu
    · exact hb u hu
  | whorl => exact whlForbidden h

theorem longOp (h : Steady s t) {used : List Nat} {elem : Nat → State → Res State} (he : ∀ n u, Steady s u → SteadyRes s id (elem n u)) :
    Steady s (longOp used elem t) := by
  refine stwRun h fun u hu => ?_
  dsimp only
  split
  · exact setStw hu
  · exact (he _ u hu).map fun _ hx => setStw hx

theorem svcTrap (h : Steady s t) {code : Nat} : Steady s (svcTrap code t) := by
  unfold Machine.svcTrap
  exact ite (stwReturn (setStw (stwEnter h))) (stwEnter h)

theorem svcDone (h : Steady s t) {rs : List (Nat × Word)} : Steady s (svcDone rs t) := by
  unfold Machine.svcDone
  exact stwReturn (setStw h)

theorem idle (h : Steady s t) : Steady s (idle t) := by
  unfold Machine.idle
  exact tick h

theorem coreAfter (h : Steady s t) {x0 : Core} {x1 : Tab Word} {x2 : Word} : Steady s (coreAfter x0 x1 x2 t) := by
  simp only [Machine.coreAfter]
  split
  · exact keep h
  · exact keep h

theorem coreDid (h : Steady s t) {x0 : Core} {x1 : Tab Word} {x2 : Word} : Steady s (coreDid x0 x1 x2 t) := by
  simp only [Machine.coreDid]
  split
  · exact coreAfter (stwFetched h)
  · exact coreAfter h

theorem coreSets (h : Steady s t) {c : Core} {rd : GReg} {v : Word} : Steady s (coreSets c rd v t) := by
  unfold Machine.coreSets
  exact coreDid h

/-! ### The commands -/

theorem execCanTxStart {n : Fin 8} {sofTick : Tick} {loopDelay : Option Nat} (s : State) : Answers s (execCanTxStart n sofTick loopDelay s) := by
  simp only [Machine.execCanTxStart]
  split
  · exact refl s
  · split
    · exact refl s
    · split
      · exact setCan (refl s)
      · exact canMeasure (setCan (refl s))

theorem execCanTxDone {n : Fin 8} {res : CanTxResult} {ec : CanErr} (s : State) : Answers s (execCanTxDone n res ec s) := by
  simp only [Machine.execCanTxDone]
  split
  · exact refl s
  · exact canCounters (ite (canTxEvent (setCan (refl s))) (setCan (refl s)))

theorem execCanFrameRx {n : Fin 8} {f : CanSamples} {sofTick : Tick} {res : CanRxResult} {ec : CanErr} (s : State) : Answers s (execCanFrameRx n f sofTick res ec s) := by
  simp only [Machine.execCanFrameRx]
  split
  · exact refl s
  · split
    · exact .ite (canRxError (refl s)) (canCounters (canReceive (refl s)))
    · exact canRxError (refl s)
    · exact .ite (setCan (refl s)) (canRxError (refl s))

theorem execCanBusoffRecovery {n : Fin 8} (s : State) : Answers s (execCanBusoffRecovery n s) := by
  unfold Machine.execCanBusoffRecovery
  exact .ite (canEvent (setCan (refl s))) (refl s)

theorem execCanIntegrate {n : Fin 8} (s : State) : Answers s (execCanIntegrate n s) := by
  unfold Machine.execCanIntegrate
  exact .ite (setCan (refl s)) (refl s)

theorem execCanCtrlApply {n : Fin 8} (s : State) : Answers s (execCanCtrlApply n s) := by
  unfold Machine.execCanCtrlApply
  exact .ite (canLoadCtrl (refl s)) (refl s)

theorem execCanTimingReload {n : Fin 8} {forced : Bool} (s : State) : Answers s (execCanTimingReload n forced s) := by
  simp only [Machine.execCanTimingReload]
  split
  · exact refl s
  · exact .ite (refl s) (txnAdvance (setTxn (noteApplied (canLoadTiming (refl s)))))

theorem execCanWakeDominant {n : Fin 8} (s : State) : Answers s (execCanWakeDominant n s) := by
  unfold Machine.execCanWakeDominant
  exact .ite (wakeFire (refl s)) (refl s)

theorem execCanWakeFrame {n : Fin 8} {f : CanFrame} (s : State) : Answers s (execCanWakeFrame n f s) := by
  unfold Machine.execCanWakeFrame
  exact .ite (.ite (wakeFire (setCan (refl s))) (setCan (refl s))) (refl s)

theorem execCanWakeFec {n : Fin 8} {errors good : Nat} (s : State) : Answers s (execCanWakeFec n errors good s) := by
  unfold Machine.execCanWakeFec
  exact .ite (.ite (setCan (refl s)) (wakeFire (setCan (refl s)))) (refl s)

theorem execFrameRxStart {p : Fin 12} (s : State) : Answers s (execFrameRxStart p s) := by
  have hn : Steady s (Machine.newFrame p s.reel s).2 := newFrame _ _ (refl s)
  unfold Machine.execFrameRxStart
  exact .ite (refl s) (.ite (setEport (refl s)) (.ite (setEport hn) (tinEvents (setEport (setFrame (setEport hn))))))

theorem execLaneDeal {p : Fin 12} {bytes : List Byte} (s : State) : Answers s (execLaneDeal p bytes s) := by
  unfold Machine.execLaneDeal
  split
  · exact refl s
  · refine .ite (setFrame (setEport (refl s))) ?_
    split
    · exact setFrame (setEport (refl s))
    · split
      exact keep (setEport (setFrame (setEport (refl s))))

theorem execLaneDecision {l : Fin 16} (s : State) : Answers s (execLaneDecision l s) := by
  simp only [Machine.execLaneDecision]
  split
  · exact refl s
  · split
    · exact keep (refl s)
    · split
      · exact setEport (keep (refl s))
      · exact keep (setEport (keep (refl s)))

theorem execFrameRxEnd {p : Fin 12} {bytes : List Byte} {fcsOk symErr : Bool} (s : State) : Answers s (execFrameRxEnd p bytes fcsOk symErr s) := by
  simp only [Machine.execFrameRxEnd]
  split
  · exact refl s
  · exact .ite (thruEnd (keep (setEport (refl s)))) (thruEnd (setEgress (setEport (endArriving (refl s)))))

theorem execFrameAdmission {p : Fin 12} {len : Nat} (s : State) : Answers s (execFrameAdmission p len s) := by
  unfold Machine.execFrameAdmission
  split
  · exact refl s
  · split
    · exact .ite (turnAway (setEport (refl s))) (.ite (refl s) (offerFrame _ _ (setFrame (setEport (refl s)))))
    · exact refl s

theorem execLinkUp {p : Fin 12} {speed : Fin 5} {fullDup : Bool} (s : State) : Answers s (execLinkUp p speed fullDup s) := by
  simp only [Machine.execLinkUp]
  split
  · exact setEport (raiseLine (refl s))
  · exact refl s

theorem execLinkDown {p : Fin 12} (s : State) : Answers s (execLinkDown p s) := by
  unfold Machine.execLinkDown
  exact .ite (setEport (raiseLine (linkDrop (refl s)))) (refl s)

theorem execAnTimeout {p : Fin 12} (s : State) : Answers s (execAnTimeout p s) := by
  unfold Machine.execAnTimeout
  exact .ite (setEport (refl s)) (refl s)

theorem execLpiEntry {p : Fin 12} (s : State) : Answers s (execLpiEntry p s) := by
  unfold Machine.execLpiEntry
  exact .ite (setEport (refl s)) (refl s)

theorem execMdioComplete {resp : Option (BitVec 16)} (s : State) : Answers s (execMdioComplete resp s) := by
  simp only [Machine.execMdioComplete]
  split
  · split
    · exact ite (setFld (keep (refl s))) (keep (refl s))
    · exact setBits (ite (setFld (keep (refl s))) (keep (refl s)))
  · exact refl s

theorem execHoldupTakeover (s : State) : Answers s (execHoldupTakeover s) := by
  unfold Machine.execHoldupTakeover
  exact .ite (setDst (setPwr (refl s))) (refl s)

theorem execDistaffDomainStop (s : State) : Answers s (execDistaffDomainStop s) := by
  unfold Machine.execDistaffDomainStop
  exact .ite (keep (cutUnit (refl s))) (refl s)

theorem execHoldupSlow {mv : Nat} (s : State) : Answers s (execHoldupSlow mv s) := by
  unfold Machine.execHoldupSlow
  exact .ite (logFault (raiseLine (setPwr (refl s)))) (refl s)

theorem execHoldupLeak {fallMv : Nat} (s : State) : Answers s (execHoldupLeak fallMv s) := by
  unfold Machine.execHoldupLeak
  exact .ite (logFault (raiseLine (setPwr (refl s)))) (refl s)

theorem execCapMeasure {us dvMv : Nat} (s : State) : Answers s (execCapMeasure us dvMv s) := by
  unfold Machine.execCapMeasure
  exact .ite (setPwr (refl s)) (refl s)

theorem execLedgerRecalibration {w : LedgerWindow} (s : State) : Answers s (execLedgerRecalibration w s) := by
  unfold Machine.execLedgerRecalibration
  exact .ite (refl s) (.ite (holdSample (refl s)) (setPwr (ite (logFault (raiseLine (setBits (holdSample (reachTick (refl s))))))
    (holdSample (reachTick (refl s))))))

theorem execGatedUnitStart {l : HoldupSample} (s : State) : Answers s (execGatedUnitStart l s) := by
  simp only [Machine.execGatedUnitStart]
  split
  · split
    · split
      · exact .ite (commitFails (startUnit (holdSample (refl s)))) (startUnit (holdSample (refl s)))
      · exact holdSample (refl s)
    · exact startUnit (holdSample (refl s))
    · exact holdSample (refl s)
  · exact holdSample (refl s)

theorem execCommitUnitEnd {bad reads : List Nat} (s : State) : Answers s (execCommitUnitEnd bad reads s) := by
  simp only [Machine.execCommitUnitEnd]
  split
  · exact .ite (commitDone (setTxn (putPages (refl s)))) (unitFails (putPages (refl s)))
  · exact refl s

theorem execCheckpointChunkEnd {bad : List Nat} (s : State) : Answers s (execCheckpointChunkEnd bad s) := by
  simp only [Machine.execCheckpointChunkEnd]
  split
  · exact .ite (setTxn (setDst (putPages (refl s)))) (unitFails (putPages (refl s)))
  · exact refl s

theorem execGateClosed {staged : Bool} (s : State) : Answers s (execGateClosed staged s) := by
  simp only [Machine.execGateClosed]
  split
  · split
    · exact commitBack (raiseLine (setDst (refl s)))
    · exact refl s
  · split
    · exact .ite (commitBack (raiseLine (setDst (refl s)))) (refl s)
    · exact refl s

theorem execBootCopyWriteEnd (s : State) : Answers s (execBootCopyWriteEnd s) := by
  simp only [Machine.execBootCopyWriteEnd]
  split
  · exact .ite (setDst (ite (logFault (programmed (setDst (refl s)))) (programmed (setDst (refl s))))) (.ite (setDst (ite (logFault
    (programmed (setDst (refl s)))) (programmed (setDst (refl s))))) (queueUnit (setDst (ite (logFault (programmed (setDst (refl s))))
    (programmed (setDst (refl s)))))))
  · exact refl s

theorem execLogCopyEnd (s : State) : Answers s (execLogCopyEnd s) := by
  unfold Machine.execLogCopyEnd
  split
  · next e rest _ heq =>
    have hpop : s.sys.recorder.length ≤ 8 → rest.length ≤ 8 := by
      rw [heq]
      exact Nat.le_of_succ_le
    exact .ite (programmed (change (refl s) id hpop id)) (queueUnit (programmed (change (refl s) id hpop id)))
  · exact setDst (refl s)
  · exact refl s

theorem execNameplateUpdateEnd (s : State) : Answers s (execNameplateUpdateEnd s) := by
  simp only [Machine.execNameplateUpdateEnd]
  split
  · exact keep (programmed (setDst (refl s)))
  · exact refl s

theorem execImageChunkEnd (s : State) : Answers s (execImageChunkEnd s) := by
  simp only [Machine.execImageChunkEnd]
  split
  · exact setDst (programmed (refl s))
  · exact refl s

theorem execMigrationEnd {failed : Option (Fin 64)} (s : State) : Answers s (execMigrationEnd failed s) := by
  simp only [Machine.execMigrationEnd]
  split
  · split
    · exact programmed (spareWarn (setDst (setDst (refl s))))
    · exact programmed (setDst (setDst (refl s)))
  · exact refl s

theorem execScrubPassStart (s : State) : Answers s (execScrubPassStart s) := by
  unfold Machine.execScrubPassStart
  exact .ite (setDst (refl s)) (refl s)

theorem execScrubPageRead {bits : Nat} (s : State) : Answers s (execScrubPageRead bits s) := by
  have ht : Steady s (if 8 < bits then Machine.scrubBad s.dst.scrubPage s
      else if 4 ≤ bits then Machine.queueUnit (.scrub s.dst.scrubPage) s else s) := ite (scrubBad (refl s)) (ite (queueUnit (refl s)) (refl s))
  unfold Machine.execScrubPageRead
  exact .ite (.ite (setDst ht) (setDst ht)) (refl s)

theorem execScrubRewriteEnd (s : State) : Answers s (execScrubRewriteEnd s) := by
  simp only [Machine.execScrubRewriteEnd]
  split
  · exact programmed (setDst (refl s))
  · exact refl s

theorem execKeyRepeat {k : Fin 136} (s : State) : Answers s (execKeyRepeat k s) := by
  unfold Machine.execKeyRepeat
  exact .ite (pnlEnter (setKey (reachMs (refl s)))) (refl s)

theorem execKeyStuck {k : Fin 136} (s : State) : Answers s (execKeyStuck k s) := by
  unfold Machine.execKeyStuck
  exact .ite (pnlEnter (setKey (reachMs (refl s)))) (refl s)

theorem execEncoderSample {phases : BitVec 8} (s : State) : Answers s (execEncoderSample phases s) := by
  unfold Machine.execEncoderSample
  exact .ite (foldl (fun _ _ h => encSample h) (refl s)) (refl s)

theorem execRovWaitrExpiry (s : State) : Answers s (execRovWaitrExpiry s) := by
  simp only [Machine.execRovWaitrExpiry]
  split
  · exact .ite (setRov (reachTick (refl s))) (refl s)
  · exact refl s

theorem execAnalogStreamEnd {c : Fin 2} (s : State) : Answers s (execAnalogStreamEnd c s) := by
  simp only [Machine.execAnalogStreamEnd]
  split
  · exact .ite (streamStop (refl s)) (refl s)
  · exact refl s

theorem execRovBadop (s : State) : Answers s (execRovBadop s) := by
  unfold Machine.execRovBadop
  exact .ite (rovFail (refl s)) (refl s)

theorem execVectorCycle (s : State) : Answers s (execVectorCycle s) := by
  unfold Machine.execVectorCycle
  exact .ite (boundaryOrHalt (reachTick (refl s))) (refl s)

theorem execRovStartTick (s : State) : Answers s (execRovStartTick s) := by
  simp only [Machine.execRovStartTick]
  split
  · exact rovBegin (reachTick (refl s))
  · exact refl s

theorem execLeaBoundary {k : Fin 4} (s : State) : Answers s (execLeaBoundary k s) := by
  simp only [Machine.execLeaBoundary]
  split
  · exact plyFirst (refl s)
  · split
    · exact plyFirst (refl s)
    · exact .ite (strandStop (reachTick (plyFirst (refl s)))) (measurePhase (setStrand (resumeHeld (switchLea (reachTick (plyFirst (refl s)))))))

theorem execSlotStart {k : Fin 4} (s : State) : Answers s (execSlotStart k s) := by
  simp only [Machine.execSlotStart]
  split
  · exact refl s
  · exact .ite (refl s) (.ite (.ite (reachTick (refl s)) (setStrand (count (reachTick (refl s))))) (.ite (slotBegin (setStrand (clearHold
    (reachTick (refl s))))) (setStrand (clearHold (reachTick (refl s))))))

theorem execTinNextRead {rd : GReg} (s : State) : Answers s (execTinNextRead rd s) := by
  unfold Machine.execTinNextRead
  exact whlRun (refl s) fun _ _ hu => .same hu _ fun _ => rfl

theorem execSlotComplete (s : State) : Answers s (execSlotComplete s) := by
  simp only [Machine.execSlotComplete]
  split
  · exact refl s
  · exact .ite (slotCommit (refl s)) (refl s)

theorem execOverrun (s : State) : Answers s (execOverrun s) := by
  simp only [Machine.execOverrun]
  split
  · exact refl s
  · exact .ite (refl s) (slotFail (reachTick (refl s)))

theorem execTaskInputEvent {n : Fin 256} {k : Nat} (s : State) : Answers s (execTaskInputEvent n k s) := by
  unfold Machine.execTaskInputEvent
  exact .ite (tinEvents (refl s)) (refl s)

theorem execPaceUpdate {meas : List Nat} (s : State) : Answers s (execPaceUpdate meas s) := by
  unfold Machine.execPaceUpdate
  exact .ite (overrunFirst (refl s)) (ite (slackNow (setWhl (keep (overrunFirst (refl s))))) (setWhl (keep (overrunFirst (refl s)))))

theorem execVcoreTrim (s : State) : Answers s (execVcoreTrim s) := by
  unfold Machine.execVcoreTrim
  exact .ite (refl s) (.ite (.ite (setFld (refl s)) (.ite (refl s) (logFault (setBits (refl s))))) (.ite (setFld (refl s)) (refl s)))

theorem execWhlFlogRead (s : State) : Answers s (execWhlFlogRead s) := by
  have hf : Steady s (Machine.flogRead s).2 := flogRead (refl s)
  unfold Machine.execWhlFlogRead
  exact keep hf

theorem execWhorlBurstReq {i : Fin 8} {n : Nat} (s : State) : Answers s (execWhorlBurstReq i n s) := by
  unfold Machine.execWhorlBurstReq
  exact whlRun (refl s) fun _ _ hu => .same hu _ fun _ => rfl

theorem execWhorlEnqueue {i : Fin 8} {len : Nat} (s : State) : Answers s (execWhorlEnqueue i len s) := by
  unfold Machine.execWhorlEnqueue
  exact whlRun (refl s) fun _ _ hu => (winEnqueue hu).map fun _ hx => hx

theorem execValidSupply (s : State) : Answers s (execValidSupply s) := by
  unfold Machine.execValidSupply
  exact .ite (reachTimeZero (chargerNote (setPwr (refl s)))) (refl s)

theorem execColdReset {lost : Supplies} {byPg : Bool} (s : State) : Answers s (execColdReset lost byPg s) := by
  unfold Machine.execColdReset
  exact .ite (refl s) (coldReset (refl s))

theorem execRailPgMismatch {rail : Fin 4} (s : State) : Answers s (execRailPgMismatch rail s) := by
  unfold Machine.execRailPgMismatch
  exact .ite (coldReset (refl s)) (refl s)

theorem execPwrsenseWarn (s : State) : Answers s (execPwrsenseWarn s) := by
  simp only [Machine.execPwrsenseWarn]
  split
  · exact .ite (.ite (enterBrace (drowseDenied (setPwr (refl s)))) (setPwr (refl s))) (enterBrace (setPwr (refl s)))
  · exact .ite (.ite (enterBrace (drowseDenied (setPwr (refl s)))) (setPwr (refl s))) (enterBrace (setPwr (refl s)))
  · exact setSys (setPwr (refl s))
  · exact setPwr (refl s)
  · exact setPwr (refl s)
  · exact setPwr (refl s)

theorem execPwrsenseRecover (s : State) : Answers s (execPwrsenseRecover s) := by
  unfold Machine.execPwrsenseRecover
  exact .ite (raiseLine (setSys (setPwr (refl s)))) (setPwr (refl s))

theorem execBraceRecovered {us : Nat} (s : State) : Answers s (execBraceRecovered us s) := by
  unfold Machine.execBraceRecovered
  exact .ite (chargerNote (ite (startStrands (raiseLine (logFault (ite (keep (flyersStart (setSys (refl s)))) (setSys (refl s))))))
    (raiseLine (logFault (ite (keep (flyersStart (setSys (refl s)))) (setSys (refl s))))))) (refl s)

theorem execResetNLow (s : State) : Answers s (execResetNLow s) := by
  unfold Machine.execResetNLow
  exact .ite (refl s) (pinReset (refl s))

theorem execResetNRise (s : State) : Answers s (execResetNRise s) := by
  unfold Machine.execResetNRise
  exact .ite (reachTimeZero (setSys (refl s))) (setSys (refl s))

theorem execWarmOffTimeEnd (s : State) : Answers s (execWarmOffTimeEnd s) := by
  unfold Machine.execWarmOffTimeEnd
  exact .ite (.ite (reachTimeZero (setSys (refl s))) (setSys (refl s))) (refl s)

theorem execVidStep (s : State) : Answers s (execVidStep s) := by
  unfold Machine.execVidStep
  exact .ite (setPwr (refl s)) (refl s)

theorem execBypeSettleDone {n : Fin 4} (s : State) : Answers s (execBypeSettleDone n s) := by
  unfold Machine.execBypeSettleDone
  exact .ite (ethPhyOn (setPwr (refl s))) (refl s)

theorem execKindleStart {straps : Straps} {us : Nat} {pg : Bool} (s : State) : Answers s (execKindleStart straps us pg s) := by
  simp only [Machine.execKindleStart]
  split
  · exact refl s
  · exact .ite (refl s) (ite (enterStep3 (ite (setSys (ite (recordPg (setSys (recordCause (setPwr (ite (regsReset (blocksCleared
    (refl s))) (refl s)))))) (setSys (recordCause (setPwr (ite (regsReset (blocksCleared (refl s))) (refl s))))))) (noteLate (setSys (ite
    (recordPg (setSys (recordCause (setPwr (ite (regsReset (blocksCleared (refl s))) (refl s)))))) (setSys (recordCause (setPwr (ite
    (regsReset (blocksCleared (refl s))) (refl s)))))))))) (ite (setSys (ite (recordPg (setSys (recordCause (setPwr (ite (regsReset
    (blocksCleared (refl s))) (refl s)))))) (setSys (recordCause (setPwr (ite (regsReset (blocksCleared (refl s))) (refl s)))))))
    (noteLate (setSys (ite (recordPg (setSys (recordCause (setPwr (ite (regsReset (blocksCleared (refl s))) (refl s)))))) (setSys
    (recordCause (setPwr (ite (regsReset (blocksCleared (refl s))) (refl s))))))))))

theorem execCrystalReady {us : Nat} {pg : Bool} (s : State) : Answers s (execCrystalReady us pg s) := by
  unfold Machine.execCrystalReady
  exact .ite (enterStep3 (refl s)) (refl s)

theorem execCrystalTimeout {us : Nat} {pg : Bool} (s : State) : Answers s (execCrystalTimeout us pg s) := by
  unfold Machine.execCrystalTimeout
  exact .ite (enterStep3 (logFault (setSys (refl s)))) (refl s)

theorem execXtalLate (s : State) : Answers s (execXtalLate s) := by
  unfold Machine.execXtalLate
  exact .ite (logFault (setSys (refl s))) (refl s)

theorem execRailReady {us : Nat} {pg : Bool} (s : State) : Answers s (execRailReady us pg s) := by
  simp only [Machine.execRailReady]
  split
  · exact refl s
  · exact .ite (endStep3 (nextRail (setPwr (refl s)))) (refl s)

theorem execRailTimeout (s : State) : Answers s (execRailTimeout s) := by
  simp only [Machine.execRailTimeout]
  split
  · exact refl s
  · exact .ite (.ite (logFault (setSys (setPwr (refl s)))) (logFault (kindleFault (refl s)))) (refl s)

theorem execRailRetry (s : State) : Answers s (execRailRetry s) := by
  simp only [Machine.execRailRetry]
  split
  · exact refl s
  · exact .ite (setPwr (setSys (refl s))) (refl s)

theorem execPllLock {steps us : Nat} (s : State) : Answers s (execPllLock steps us s) := by
  unfold Machine.execPllLock
  exact .ite (endStep3 (keep (refl s))) (refl s)

theorem execPllLockTimeout (s : State) : Answers s (execPllLockTimeout s) := by
  unfold Machine.execPllLockTimeout
  exact .ite (.ite (logFault (setSys (refl s))) (logFault (kindleFault (refl s)))) (refl s)

theorem execKindleLate {step : Fin 8} {us : Nat} (s : State) : Answers s (execKindleLate step us s) := by
  unfold Machine.execKindleLate
  exact .ite (noteLate (refl s)) (refl s)

theorem execDrowseEntry (s : State) : Answers s (execDrowseEntry s) := by
  unfold Machine.execDrowseEntry
  exact .ite (enterDrowse (refl s)) (refl s)

theorem execWakeSourceFire {src : BitVec 6} (s : State) : Answers s (execWakeSourceFire src s) := by
  unfold Machine.execWakeSourceFire
  exact .ite (.ite (wakeFire (keep (refl s))) (wakeFire (refl s))) (wakeFire (refl s))

theorem execWakeHoldEnd (s : State) : Answers s (execWakeHoldEnd s) := by
  unfold Machine.execWakeHoldEnd
  exact .ite (startWake (refl s)) (refl s)

theorem execUnwatchedBankLoss {bank : Fin 13} (s : State) : Answers s (execUnwatchedBankLoss bank s) := by
  unfold Machine.execUnwatchedBankLoss
  exact .ite (setPwr (refl s)) (refl s)

theorem execUnwatchedBankReturn {bank : Fin 13} (s : State) : Answers s (execUnwatchedBankReturn bank s) := by
  unfold Machine.execUnwatchedBankReturn
  exact .ite (chargerNote (setPwr (refl s))) (refl s)

theorem execPcieLinkUp (s : State) : Answers s (execPcieLinkUp s) := by
  unfold Machine.execPcieLinkUp
  exact .ite (keep (refl s)) (refl s)

theorem execDetunePing {amp : Nat} {phase : Int} (s : State) : Answers s (execDetunePing amp phase s) := by
  unfold Machine.execDetunePing
  exact .ite (.ite (setTag (refl s)) (pingMeasured (refl s))) (refl s)

theorem execTagPowerUp (s : State) : Answers s (execTagPowerUp s) := by
  unfold Machine.execTagPowerUp
  exact .ite (refl s) (setTag (refl s))

theorem execPlyChangePost {k : Fin 8} {v : Word} (s : State) : Answers s (execPlyChangePost k v s) := by
  unfold Machine.execPlyChangePost
  exact .ite (postChange (refl s)) (refl s)

theorem execTimeSync {k : Fin 8} {y : SyncSample} (s : State) : Answers s (execTimeSync k y s) := by
  unfold Machine.execTimeSync
  exact .ite (servo (reachTick (refl s))) (refl s)

theorem execTimeServiceSend {k : Fin 8} (s : State) : Answers s (execTimeServiceSend k s) := by
  unfold Machine.execTimeServiceSend
  exact .ite (ledgerTx (setEgress (tookFree (refl s)))) (refl s)

theorem execHoldover {k : Fin 8} (s : State) : Answers s (execHoldover k s) := by
  unfold Machine.execHoldover
  exact .ite (logFault (raiseLine (setPly (refl s)))) (refl s)

theorem execCascadeTimeBlock (s : State) : Answers s (execCascadeTimeBlock s) := by
  simp only [Machine.execCascadeTimeBlock]
  split
  · exact refl s
  · split
    · exact timeTx (timeTx (refl s))
    · exact timeTx (timeTx (postChange (refl s)))

theorem execCascadeTimeReceive {l : Fin 2} {b : TimeBlock} {arrival : Tick} (s : State) : Answers s (execCascadeTimeReceive l b arrival s) := by
  unfold Machine.execCascadeTimeReceive
  exact .ite (refl s) (.ite (ledgerSkein (reachTick (sknRx (refl s)))) (timeTx (keep (ite (ledgerSkein (reachTick (sknRx (refl s))))
    (servo (ledgerSkein (reachTick (sknRx (refl s)))))))))

theorem execLinkDelayExchange {l : Fin 2} {delayNs : Nat} (s : State) : Answers s (execLinkDelayExchange l delayNs s) := by
  unfold Machine.execLinkDelayExchange
  exact .ite (ledgerSkein (ledgerSkein (setLink (refl s)))) (refl s)

theorem execSkeinLock {l : Fin 2} {atSwift : Bool} (s : State) : Answers s (execSkeinLock l atSwift s) := by
  unfold Machine.execSkeinLock
  exact .ite (refl s) (joinOn (linkBack (setLink (raiseLine (refl s)))))

theorem execSkeinLinkDown {l : Fin 2} {lostFrames : Nat} (s : State) : Answers s (execSkeinLinkDown l lostFrames s) := by
  unfold Machine.execSkeinLinkDown
  exact .ite (linkLost (setLink (refl s))) (refl s)

theorem execSwiftFallback {l : Fin 2} (s : State) : Answers s (execSwiftFallback l s) := by
  unfold Machine.execSwiftFallback
  exact .ite (setLink (refl s)) (refl s)

theorem execSwiftonlyRetry {l : Fin 2} (s : State) : Answers s (execSwiftonlyRetry l s) := by
  unfold Machine.execSwiftonlyRetry
  exact .ite (setLink (refl s)) (refl s)

theorem execSkeinRateFollow {l : Fin 2} {toSwift : Bool} (s : State) : Answers s (execSkeinRateFollow l toSwift s) := by
  unfold Machine.execSkeinRateFollow
  exact .ite (setLink (refl s)) (.ite (setLink (refl s)) (refl s))

theorem execSkeinFrameReceive {l : Fin 2} {hdr payload : List Byte} {good : Bool} (s : State) : Answers s (execSkeinFrameReceive l hdr payload good s) := by
  unfold Machine.execSkeinFrameReceive
  exact .ite (refl s) (.ite (setLink (sknRx (refl s))) (.ite (sknSend (ite (abortOn (setLink (sknRx (refl s)))) (setLink (sknRx
    (refl s))))) (.ite (sknSend (ite (abortOn (setLink (sknRx (refl s)))) (setLink (sknRx (refl s))))) (.ite (forward (ite (deliver (ite
    (ledgerSkein (sknRx (refl s))) (sknRx (refl s)))) (ite (ledgerSkein (sknRx (refl s))) (sknRx (refl s))))) (.ite (sknSend (ite (deliver
    (ite (ledgerSkein (sknRx (refl s))) (sknRx (refl s)))) (ite (ledgerSkein (sknRx (refl s))) (sknRx (refl s))))) (sknSend (setLink (ite
    (deliver (ite (ledgerSkein (sknRx (refl s))) (sknRx (refl s)))) (ite (ledgerSkein (sknRx (refl s))) (sknRx (refl s)))))))))))

theorem execSknCredstall {l : Fin 2} (s : State) : Answers s (execSknCredstall l s) := by
  unfold Machine.execSknCredstall
  exact .ite (linkLost (setLink (refl s))) (refl s)

theorem execBeaconSend (s : State) : Answers s (execBeaconSend s) := by
  unfold Machine.execBeaconSend
  exact .ite (sknTxOn (sknTxOn (ite (becomeMaster (refl s)) (refl s)))) (ite (becomeMaster (refl s)) (refl s))

theorem execBeaconReceive {l : Fin 2} {serial : Tick} (s : State) : Answers s (execBeaconReceive l serial s) := by
  unfold Machine.execBeaconReceive
  exact .ite (refl s) (.ite (sknRx (refl s)) (.ite (keep (joinNew (sknTxOn (sknRx (refl s))))) (.ite (sknTxOn (sknRx (refl s))) (.ite
    (keep (joinNew (keep (sknTxOn (sknRx (refl s)))))) (logFault (keep (joinNew (keep (sknTxOn (sknRx (refl s)))))))))))

theorem execMasterTakeover (s : State) : Answers s (execMasterTakeover s) := by
  unfold Machine.execMasterTakeover
  exact .ite (sendTopology (logFault (becomeMaster (refl s)))) (refl s)

theorem execJoinReceive {l : Fin 2} {j : Join} {pos : Nat} (s : State) : Answers s (execJoinReceive l j pos s) := by
  unfold Machine.execJoinReceive
  exact .ite (refl s) (sendTopology (keep (sknTxOn (sknRx (refl s)))))

theorem execAssignReceive {l : Fin 2} {a : Assign} (s : State) : Answers s (execAssignReceive l a s) := by
  unfold Machine.execAssignReceive
  exact .ite (setFld (keep (sknRx (refl s)))) (refl s)

theorem execTopologyReceive {l : Fin 2} {t' : Topology} (s : State) : Answers s (execTopologyReceive l t' s) := by
  unfold Machine.execTopologyReceive
  exact .ite (refl s) (topologyOn (count (setHops (keep (sknRx (refl s))))))

theorem execKfaultSwiftCheck {l : Fin 2} {sees10g : Bool} (s : State) : Answers s (execKfaultSwiftCheck l sees10g s) := by
  unfold Machine.execKfaultSwiftCheck
  exact .ite (setLink (refl s)) (refl s)

theorem execRelayRequest {l : Fin 2} {src : BitVec 10} {seq : Nat} {req : List Byte} (s : State) : Answers s (execRelayRequest l src seq req s) := by
  unfold Machine.execRelayRequest
  exact .ite (keep (sknRx (refl s))) (refl s)

theorem execSkeinAgeout {l : Fin 2} (s : State) : Answers s (execSkeinAgeout l s) := by
  unfold Machine.execSkeinAgeout
  lift_lets
  intro p lost
  split
  · exact dropEntry (skeinAged (refl s))
  · split
    · exact .ite (reapFrame (setEgress (skeinAged (refl s)))) (refl s)
    · exact refl s

theorem execTxnExpired {h' : Nat} (s : State) : Answers s (execTxnExpired h' s) := by
  simp only [Machine.execTxnExpired]
  split
  · exact refl s
  · exact .ite (logFault (txnEnd (setTxn (refl s)))) (refl s)

theorem execUnknownCmd {src : ReqSrc} (s : State) : Answers s (execUnknownCmd src s) := by
  simp only [Machine.execUnknownCmd]
  split
  · exact refl s
  · exact .ite (refl s) (refuse (dropTaken (refl s)))

theorem execResetWarm {src : ReqSrc} (s : State) : Answers s (execResetWarm src s) := by
  unfold Machine.execResetWarm
  exact .ite (refl s) (serve (refl s) (fun _ _ h1 => warmNow h1))

theorem execImgEnd {src : ReqSrc} (s : State) : Answers s (execImgEnd src s) := by
  unfold Machine.execImgEnd
  exact .ite (refl s) (serve (refl s) (fun _ _ h1 => imgEnd h1))

theorem execCascRelay {src : ReqSrc} (s : State) : Answers s (execCascRelay src s) := by
  unfold Machine.execCascRelay
  exact .ite (refl s) (serve (refl s) (fun _ _ h1 => cascRelay h1))

theorem execRelayReply {l : Fin 2} {seq : Nat} {rep : List Byte} (s : State) : Answers s (execRelayReply l seq rep s) := by
  simp only [Machine.execRelayReply]
  split
  · exact refl s
  · split
    · exact sknRx (refl s)
    · exact relayEnd (sknRx (refl s))

theorem execCascadeTimeout {seq : Nat} (s : State) : Answers s (execCascadeTimeout seq s) := by
  simp only [Machine.execCascadeTimeout]
  split
  · exact refl s
  · exact relayEnd (refl s)

theorem execFrameEnd {n : Nat} (s : State) : Answers s (execFrameEnd n s) := by
  simp only [Machine.execFrameEnd]
  split
  · exact refl s
  · exact .ite (refl s) (.ite (refl s) (.ite (removeFrame (refl s)) (.ite (setEgress (removeFrame (refl s))) (keep (setFrame (refl s))))))

theorem execCutThroughStart {n : Nat} (s : State) : Answers s (execCutThroughStart n s) := by
  simp only [Machine.execCutThroughStart]
  split
  · exact refl s
  · split
    · exact refl s
    · split
      · exact setFrame (refl s)
      · split
        · exact .ite (startEgress (setFrame (refl s))) (setFrame (refl s))
        · exact setFrame (refl s)

theorem execFrameStomp {n : Nat} (s : State) : Answers s (execFrameStomp n s) := by
  simp only [Machine.execFrameStomp]
  split
  · exact refl s
  · exact .ite (refl s) (ite (ite (removeFrame (keep (refl s))) (sknSend (removeFrame (keep (refl s))))) (sknSend (ite (removeFrame (keep
    (refl s))) (sknSend (removeFrame (keep (refl s)))))))

theorem execEgressFrameStart {p : Fin 14} (s : State) : Answers s (execEgressFrameStart p s) := by
  simp only [Machine.execEgressFrameStart]
  split
  · split
    · exact inject (refl s)
    · exact refl s
  · split
    · exact refl s
    · split
      · exact startEgress (refl s)
      · exact refl s

theorem execEgressFrameEnd {p : Fin 14} (s : State) : Answers s (execEgressFrameEnd p s) := by
  simp only [Machine.execEgressFrameEnd]
  split
  · exact refl s
  · exact .ite (refl s) (.ite (skeinEnded (endEgress (refl s))) (endEgress (refl s)))

theorem execTrainLaunch (s : State) : Answers s (execTrainLaunch s) := by
  simp only [Machine.execTrainLaunch]
  split
  · exact refl s
  · split
    · exact refl s
    · exact .ite (removeFrame (cellsRead (refl s))) (launchTrain (cellsRead (refl s)))

theorem execAgeoutStart {p : Fin 12} (s : State) : Answers s (execAgeoutStart p s) := by
  unfold Machine.execAgeoutStart
  exact .ite (refl s) (setEport (refl s))

theorem execAgeoutDiscard {p : Fin 12} (s : State) : Answers s (execAgeoutDiscard p s) := by
  unfold Machine.execAgeoutDiscard
  exact .ite (ageOne (refl s)) (refl s)

theorem execFlyDlyExpiry {f : Fin 48} (s : State) : Answers s (execFlyDlyExpiry f s) := by
  unfold Machine.execFlyDlyExpiry
  exact .ite (setFlyer (refl s)) (refl s)

theorem execFlyIllop {f : Fin 48} (s : State) : Answers s (execFlyIllop f s) := by
  unfold Machine.execFlyIllop
  exact .ite (refl s) (flyHalt (flyFlag (refl s)))

theorem execFlyStallEnd {f : Fin 48} (s : State) : Answers s (execFlyStallEnd f s) := by
  simp only [Machine.execFlyStallEnd]
  split
  · exact refl s
  · split
    · exact .ite (flyUnstall (awaitEnd (refl s))) (refl s)
    · exact .ite (refl s) (flyUnstall (loadWord (refl s)))
    · exact .ite (flyUnstall (storeWord (refl s))) (refl s)
    · exact .ite (flyUnstall (actEnter (refl s))) (refl s)
    · exact refl s

theorem execFlyHuntLock {f : Fin 48} {bits : List Bool} (s : State) : Answers s (execFlyHuntLock f bits s) := by
  simp only [Machine.execFlyHuntLock]
  split
  · exact refl s
  · split
    · exact flyUnstall (setFlyer (refl s))
    · exact setFlyer (refl s)

theorem execFlySyncLoss {f : Fin 48} {bits : List Bool} (s : State) : Answers s (execFlySyncLoss f bits s) := by
  unfold Machine.execFlySyncLoss
  refine .ite (refl s) ?_
  lift_lets
  intro hunt period
  split
  exact ite (flyFlag (setFlyer (refl s))) (setFlyer (refl s))

theorem execFlyActPost {f : Fin 48} {who : Owner} {w1 : Word} (s : State) : Answers s (execFlyActPost f who w1 s) := by
  unfold Machine.execFlyActPost
  exact .ite (actPost (refl s)) (refl s)

theorem execFlyIfifoRead {f : Fin 48} {who : Owner} (s : State) : Answers s (execFlyIfifoRead f who s) := by
  unfold Machine.execFlyIfifoRead
  exact .ite (keep (flyPop (refl s))) (keep (refl s))

theorem execFlyOfifoWrite {f : Fin 48} {who : Owner} {v : Word} (s : State) : Answers s (execFlyOfifoWrite f who v s) := by
  unfold Machine.execFlyOfifoWrite
  exact .ite (flyPush (refl s)) (refl s)

theorem execFlyCtrlWrite {f : Fin 48} {v : Word} (s : State) : Answers s (execFlyCtrlWrite f v s) := by
  unfold Machine.execFlyCtrlWrite
  exact .ite (flyCtrlWrite (refl s)) (refl s)

theorem execSeamHandover (s : State) : Answers s (execSeamHandover s) := by
  simp only [Machine.execSeamHandover]
  split
  · exact refl s
  · exact foldl (fun _ _ h => txnAdvance (setTxn h)) (foldl (fun _ _ h => seamPin h) (reachTick (keep (epochFirst (refl s)))))

theorem execPinEdge {b : Fin 6} {pin : Fin 24} {rising : Bool} {frac : BitVec 4} {second : Bool} (s : State) : Answers s (execPinEdge b pin rising frac second s) := by
  unfold Machine.execPinEdge
  exact .ite (ite (flyEvent (ite (keep (setPin (refl s))) (ledgerPin (setPin (refl s))))) (ite (keep (setPin (refl s))) (ledgerPin (setPin
    (refl s))))) (setPin (refl s))

theorem execMailboxTailWrite {n : Fin 32} {tail : Word} (s : State) : Answers s (execMailboxTailWrite n tail s) := by
  unfold Machine.execMailboxTailWrite
  exact .ite (devWrite (refl s)) (refl s)

theorem execMailboxTailRead {n : Fin 32} (s : State) : Answers s (execMailboxTailRead n s) := by
  unfold Machine.execMailboxTailRead
  exact .ite (keep (hostTailRead (refl s))) (refl s)

theorem execStewardCommandTake {n : Fin 32} (s : State) : Answers s (execStewardCommandTake n s) := by
  unfold Machine.execStewardCommandTake
  exact .ite (devTailRead (setHl (refl s))) (refl s)

theorem execStewardReplyWrite {n : Fin 32} (s : State) : Answers s (execStewardReplyWrite n s) := by
  simp only [Machine.execStewardReplyWrite]
  split
  · exact refl s
  · exact .ite (refl s) (hstMessage (replyWritten (setHl (refl s))))

theorem execDoorbellClear {mask setNow : Word} (s : State) : Answers s (execDoorbellClear mask setNow s) := by
  unfold Machine.execDoorbellClear
  exact .ite (doorbellClear (refl s)) (refl s)

theorem execDbMaskWrite {v : Word} (s : State) : Answers s (execDbMaskWrite v s) := by
  unfold Machine.execDbMaskWrite
  exact .ite (dbMaskWrite (refl s)) (refl s)

theorem execHostResetWrite {v : Word} (s : State) : Answers s (execHostResetWrite v s) := by
  unfold Machine.execHostResetWrite
  exact .ite (hostReset (refl s)) (refl s)

theorem execHeartbeat (s : State) : Answers s (execHeartbeat s) := by
  unfold Machine.execHeartbeat
  exact .ite (setHl (refl s)) (refl s)

theorem execSpiWriteFrame {off : Nat} {data : List Byte} (s : State) : Answers s (execSpiWriteFrame off data s) := by
  unfold Machine.execSpiWriteFrame
  exact .ite (refl s) (.ite (spiEnd (refl s)) (spiEnd (spiWords _ (refl s))))

theorem spiBytes (k o n : Nat) (h : Steady s t) : Steady s (spiBytes k o n t).2 := by
  induction k generalizing t o n with
  | zero => exact h
  | succ k ih =>
    unfold Machine.spiBytes
    split
    · exact h
    · refine ih _ _ ?_
      split
      · exact ite (hostTailRead h) h
      · exact h

theorem execSpiReadFrame {off len : Nat} (s : State) : Answers s (execSpiReadFrame off len s) := by
  unfold Machine.execSpiReadFrame
  exact .ite (refl s) (.ite (spiEnd (refl s)) (spiEnd (spiBytes _ _ _ (refl s))))

theorem execSpiStatusFrame (s : State) : Answers s (execSpiStatusFrame s) := by
  unfold Machine.execSpiStatusFrame
  exact .ite (spiEnd (refl s)) (refl s)

theorem execSpiBadFrame (s : State) : Answers s (execSpiBadFrame s) := by
  unfold Machine.execSpiBadFrame
  exact .ite (spiEnd (refl s)) (refl s)

theorem execPerstAssert (s : State) : Answers s (execPerstAssert s) := by
  unfold Machine.execPerstAssert
  exact .ite (refl s) (perst (refl s))

theorem execRingCtrlWrite {r : Fin 64} {off : Nat} {v : Word} (s : State) : Answers s (execRingCtrlWrite r off v s) := by
  unfold Machine.execRingCtrlWrite
  exact .ite (unstall (ringCfgWrite (refl s))) (refl s)

theorem execRingTailWrite {r : Fin 64} {v : Word} (s : State) : Answers s (execRingTailWrite r v s) := by
  unfold Machine.execRingTailWrite
  exact .ite (ringTailWrite (refl s)) (refl s)

theorem execDmaReadFault {r : Fin 64} {cto : Bool} (s : State) : Answers s (execDmaReadFault r cto s) := by
  unfold Machine.execDmaReadFault
  exact .ite (ringErr (refl s)) (refl s)

theorem execJournalReplay {us : Nat} (s : State) : Answers s (execJournalReplay us s) := by
  unfold Machine.execJournalReplay
  exact .ite (stepDone (replayed (slotControl (refl s)))) (refl s)

theorem execImageAuthentication {us : Nat} (s : State) : Answers s (execImageAuthentication us s) := by
  simp only [Machine.execImageAuthentication]
  split
  · split
    · exact setKrec (stepDone (imagePicked (refl s)))
    · exact kindleEnd (logFault (setKrec (stepDone (imagePicked (refl s)))))
  · exact refl s

theorem execScheduleLoad {us : Nat} (s : State) : Answers s (execScheduleLoad us s) := by
  simp only [Machine.execScheduleLoad]
  split
  · exact refl s
  · exact .ite (step7a (stepDone (stewardLoaded (loadExts (whorlLoaded (confLoaded (ite (confDefaulted (refl s)) (refl s)))))))) (refl s)

theorem execStep7End {us : Nat} {cond : Step7Cond} (s : State) : Answers s (execStep7End us cond s) := by
  unfold Machine.execStep7End
  exact .ite (ite (startStrands (ite (flyersStart (kindleEnd (ite (identityKept (stepDone (refl s))) (logFault (setKrec (identityKept
    (stepDone (refl s)))))))) (keep (kindleEnd (ite (identityKept (stepDone (refl s))) (logFault (setKrec (identityKept (stepDone
    (refl s)))))))))) (ite (flyersStart (kindleEnd (ite (identityKept (stepDone (refl s))) (logFault (setKrec (identityKept (stepDone
    (refl s)))))))) (keep (kindleEnd (ite (identityKept (stepDone (refl s))) (logFault (setKrec (identityKept (stepDone (refl s)))))))))) (refl s)

theorem execRegisterWrite {sp : Space} {addr : Nat} {data : WriteData} (s : State) : Answers s (execRegisterWrite sp addr data s) := by
  simp only [Machine.execRegisterWrite]
  split
  · exact .ite (setAfter (busWrite (refl s))) (refl s)
  · exact .ite (bar0Put (refl s)) (refl s)
  · exact .ite (bar2Put (refl s)) (refl s)
  · exact refl s

theorem segldBody (n sg : Nat) (off : Word) (h : Steady s t) : SteadyRes s id (segldBody n sg off t) := by
  have hl := stwLoad sg off 16 h
  unfold Machine.segldBody
  split
  · next heq => rw [heq] at hl; exact hl
  · next heq =>
    rw [heq] at hl
    dsimp only
    split
    · exact hl
    · exact setStw hl

theorem execSegld {c : Core} {r rb : GReg} {seg : BitVec 4} {imm : BitVec 12} (s : State) : Answers s (execSegld c r rb seg imm s) := by
  unfold Machine.execSegld
  exact ite (coreRun (refl s)) (privOp (refl s) fun _ hu => segldBody _ _ _ hu)

theorem segstBody (n sg : Nat) (off : Word) (h : Steady s t) : SteadyRes s id (segstBody n sg off t) := by
  unfold Machine.segstBody
  split
  · exact h
  · exact setStw (foldl (fun _ _ hu => sbPush hu) h)

theorem execSegst {c : Core} {r rb : GReg} {seg : BitVec 4} {imm : BitVec 12} (s : State) : Answers s (execSegst c r rb seg imm s) := by
  unfold Machine.execSegst
  exact ite (coreRun (refl s)) (privOp (refl s) fun _ hu => segstBody _ _ _ hu)

theorem bmoveElem (segd segs n : Nat) (h : Steady s t) : SteadyRes s id (bmoveElem segd segs n t) := by
  unfold Machine.bmoveElem
  split
  · split
    · exact h
    · exact h
  · exact (stwLoad _ _ _ h).map fun _ hx => sbPush hx

theorem execBmove {c : Core} {segd segs : BitVec 4} (s : State) : Answers s (execBmove c segd segs s) := by
  unfold Machine.execBmove
  cases c with
  | steward => exact longOp (refl s) fun n _ hu => bmoveElem _ _ n hu
  | whorl => exact whlForbidden (refl s)

theorem execBfill {c : Core} {segd : BitVec 4} (s : State) : Answers s (execBfill c segd s) := by
  unfold Machine.execBfill
  cases c with
  | steward => exact longOp (refl s) fun n _ hu => stwStore _ _ n _ hu
  | whorl => exact whlForbidden (refl s)

theorem execCrc32 {c : Core} {segs : BitVec 4} (s : State) : Answers s (execCrc32 c segs s) := by
  unfold Machine.execCrc32
  cases c with
  | steward => exact longOp (refl s) fun n _ hu => (stwLoad _ _ n hu).map fun _ hx => setStw hx
  | whorl =>
    refine whlRun (refl s) fun u sl hu => ?_
    unfold whlCrc
    dsimp only
    split
    · trivial
    split
    · exact hu
    · exact .same hu _ fun _ => rfl

theorem execSync {c : Core} (s : State) : Answers s (execSync c s) := by
  unfold Machine.execSync
  cases c with
  | steward => exact stwRun (refl s) fun _ hu => setStw (drainAll hu)
  | whorl => exact coreRun (refl s)

theorem execSvc {c : Core} {code : BitVec 10} (s : State) : Answers s (execSvc c code s) := by
  unfold Machine.execSvc
  cases c with
  | steward => exact stwRun (refl s) fun _ hu => svcTrap hu
  | whorl => exact whlForbidden (refl s)

theorem execBrk {c : Core} (s : State) : Answers s (execBrk c s) := by
  unfold Machine.execBrk
  cases c with
  | steward => exact stwRun (refl s) fun _ hu => stwEnter hu
  | whorl => exact whlForbidden (refl s)

theorem execEret {c : Core} (s : State) : Answers s (execEret c s) := by
  unfold Machine.execEret
  exact privOp (refl s) fun _ hu => stwReturn hu

theorem execMfc {c : Core} {rd : GReg} {idx : BitVec 5} (s : State) : Answers s (execMfc c rd idx s) := by
  unfold Machine.execMfc
  exact privOp (refl s) fun _ hu => setStw hu

theorem execMtc {c : Core} {idx : BitVec 5} {rb : GReg} (s : State) : Answers s (execMtc c idx rb s) := by
  unfold Machine.execMtc
  exact privOp (refl s) fun _ hu => setStw hu

theorem execWaitI {c : Core} (s : State) : Answers s (execWaitI c s) := by
  unfold Machine.execWaitI
  exact privOp (refl s) fun _ hu => setStw hu

theorem execInterruptEntry (s : State) : Answers s (execInterruptEntry s) := by
  simp only [Machine.execInterruptEntry]
  split
  · split
    · exact refl s
    · exact ite (stwEnter (setStw (refl s))) (clearLine (stwEnter (setStw (refl s))))
  · exact refl s

theorem execWaitResume (s : State) : Answers s (execWaitResume s) := by
  unfold Machine.execWaitResume
  exact .ite (setStw (refl s)) (refl s)

theorem execStoreBufferDrain (s : State) : Answers s (execStoreBufferDrain s) := by
  unfold Machine.execStoreBufferDrain
  exact .ite (drainOne (refl s)) (refl s)

theorem execStewardTimer (s : State) : Answers s (execStewardTimer s) := by
  unfold Machine.execStewardTimer
  exact .ite (raiseLine (reachTick (refl s))) (refl s)

theorem execExtensionInvoke {idx : Nat} {record : List Byte} (s : State) : Answers s (execExtensionInvoke idx record s) := by
  unfold Machine.execExtensionInvoke
  exact .ite (keep (setStw (drainAll (refl s)))) (refl s)

theorem execExtExit (s : State) : Answers s (execExtExit s) := by
  unfold Machine.execExtExit
  exact .ite (extEnd (refl s)) (refl s)

theorem execExtLog (s : State) : Answers s (execExtLog s) := by
  unfold Machine.execExtLog
  exact .ite (svcDone (logFault (refl s))) (refl s)

theorem execExtReel (s : State) : Answers s (execExtReel s) := by
  unfold Machine.execExtReel
  exact .ite (svcDone (refl s)) (refl s)

theorem execExtPly (s : State) : Answers s (execExtPly s) := by
  unfold Machine.execExtPly
  exact .ite (ite (svcDone (refl s)) (svcDone (refl s))) (refl s)

theorem execExtPost (s : State) : Answers s (execExtPost s) := by
  unfold Machine.execExtPost
  exact .ite (ite (svcDone (drainAll (refl s))) (ite (svcDone (drainAll (refl s))) (svcDone (hstMessage (drainAll (refl s)))))) (refl s)

/-- Every command answers, and its answer is steady. -/
theorem exec_answers (c : Instr) (s : State) : Answers s (exec c s) := by
  cases c with
  | registerWrite => exact execRegisterWrite s
  | rcFieldRead => exact registerRead (refl s)
  | latchedPairRead => exact registerRead (refl s)
  | validSupply => exact execValidSupply s
  | coldReset => exact execColdReset s
  | railPgMismatch => exact execRailPgMismatch s
  | skeinBypassClose => exact closePath (closePath (refl s))
  | holdupTakeover => exact execHoldupTakeover s
  | distaffDomainStop => exact execDistaffDomainStop s
  | holdupCharged => exact setPwr (refl s)
  | holdupSlow => exact execHoldupSlow s
  | holdupLeak => exact execHoldupLeak s
  | capMeasure => exact execCapMeasure s
  | ledgerRecalibration => exact execLedgerRecalibration s
  | pwrVidWrite => exact vidWrite (refl s)
  | vidStep => exact execVidStep s
  | bypeDriveSet => exact bypeSet (refl s)
  | bypeDriveClear => exact bypeClear (refl s)
  | bypeSettleDone => exact execBypeSettleDone s
  | pwrsenseWarn => exact execPwrsenseWarn s
  | pwrsenseRecover => exact execPwrsenseRecover s
  | braceRecovered => exact execBraceRecovered s
  | resetNLow => exact execResetNLow s
  | resetNRise => exact execResetNRise s
  | warmOffTimeEnd => exact execWarmOffTimeEnd s
  | kindleStart => exact execKindleStart s
  | crystalReady => exact execCrystalReady s
  | crystalTimeout => exact execCrystalTimeout s
  | xtalLate => exact execXtalLate s
  | railReady => exact execRailReady s
  | railTimeout => exact execRailTimeout s
  | railRetry => exact execRailRetry s
  | pllLock => exact execPllLock s
  | pllLockTimeout => exact execPllLockTimeout s
  | journalReplay => exact execJournalReplay s
  | imageAuthentication => exact execImageAuthentication s
  | scheduleLoad => exact execScheduleLoad s
  | step7End => exact execStep7End s
  | kindleLate => exact execKindleLate s
  | drowseEntry => exact execDrowseEntry s
  | wakeSourceFire => exact execWakeSourceFire s
  | wakeHoldEnd => exact execWakeHoldEnd s
  | gatedUnitStart => exact execGatedUnitStart s
  | commitUnitEnd => exact execCommitUnitEnd s
  | checkpointChunkEnd => exact execCheckpointChunkEnd s
  | gateClosed => exact execGateClosed s
  | bootCopyWriteEnd => exact execBootCopyWriteEnd s
  | logCopyEnd => exact execLogCopyEnd s
  | nameplateUpdateEnd => exact execNameplateUpdateEnd s
  | imageChunkEnd => exact execImageChunkEnd s
  | migrationEnd => exact execMigrationEnd s
  | scrubPassStart => exact execScrubPassStart s
  | scrubPageRead => exact execScrubPageRead s
  | scrubRewriteEnd => exact execScrubRewriteEnd s
  | addR => exact alu2 (refl s)
  | subR => exact alu2 (refl s)
  | andR => exact alu2 (refl s)
  | orR => exact alu2 (refl s)
  | xorR => exact alu2 (refl s)
  | sll => exact alu2 (refl s)
  | srl => exact alu2 (refl s)
  | sra => exact alu2 (refl s)
  | slt => exact alu2 (refl s)
  | sltu => exact alu2 (refl s)
  | mul => exact alu2 (refl s)
  | mulh => exact alu2 (refl s)
  | mulhu => exact alu2 (refl s)
  | divR => exact divOp (refl s)
  | divu => exact divOp (refl s)
  | remR => exact divOp (refl s)
  | remu => exact divOp (refl s)
  | clz => exact alu1 (refl s)
  | slli => exact alu1 (refl s)
  | srli => exact alu1 (refl s)
  | srai => exact alu1 (refl s)
  | addi => exact alu1 (refl s)
  | andi => exact alu1 (refl s)
  | ori => exact alu1 (refl s)
  | xori => exact alu1 (refl s)
  | slti => exact alu1 (refl s)
  | sltiu => exact alu1 (refl s)
  | lui => exact alu (refl s)
  | bfx => exact ite (coreRun (refl s)) (alu1 (refl s))
  | bfi => exact ite (coreRun (refl s)) (alu (refl s))
  | perm => exact ite (coreRun (refl s)) (alu1 (refl s))
  | lb => exact loadOp (refl s)
  | lbu => exact loadOp (refl s)
  | lh => exact loadOp (refl s)
  | lhu => exact loadOp (refl s)
  | lw => exact loadOp (refl s)
  | sb => exact storeOp (refl s)
  | sh => exact storeOp (refl s)
  | sw => exact storeOp (refl s)
  | segld => exact execSegld s
  | segst => exact execSegst s
  | beq => exact branch (refl s)
  | bne => exact branch (refl s)
  | blt => exact branch (refl s)
  | bge => exact branch (refl s)
  | bltu => exact branch (refl s)
  | bgeu => exact branch (refl s)
  | j => exact coreRun (refl s)
  | jal => exact coreRun (refl s)
  | jalr => exact coreRun (refl s)
  | bmove => exact execBmove s
  | bfill => exact execBfill s
  | crc32 => exact execCrc32 s
  | sync => exact execSync s
  | svc => exact execSvc s
  | eret => exact execEret s
  | mfc => exact execMfc s
  | mtc => exact execMtc s
  | waitI => exact execWaitI s
  | brk => exact execBrk s
  | illegalInstruction => exact ite (refl s) (coreRun (refl s))
  | interruptEntry => exact execInterruptEntry s
  | waitResume => exact execWaitResume s
  | storeBufferDrain => exact execStoreBufferDrain s
  | stewardTimer => exact execStewardTimer s
  | extensionInvoke => exact execExtensionInvoke s
  | extExit => exact execExtExit s
  | extLog => exact execExtLog s
  | extReel => exact execExtReel s
  | extPly => exact execExtPly s
  | extPost => exact execExtPost s
  | mailboxTailWrite => exact execMailboxTailWrite s
  | mailboxTailRead => exact execMailboxTailRead s
  | stewardCommandTake => exact execStewardCommandTake s
  | stewardReplyWrite => exact execStewardReplyWrite s
  | doorbellClear => exact execDoorbellClear s
  | dbMaskWrite => exact execDbMaskWrite s
  | hostResetWrite => exact execHostResetWrite s
  | heartbeat => exact execHeartbeat s
  | spiWriteFrame => exact execSpiWriteFrame s
  | spiReadFrame => exact execSpiReadFrame s
  | spiStatusFrame => exact execSpiStatusFrame s
  | spiBadFrame => exact execSpiBadFrame s
  | perstAssert => exact execPerstAssert s
  | ringCtrlWrite => exact execRingCtrlWrite s
  | ringTailWrite => exact execRingTailWrite s
  | txRingOffer => exact txOffer (refl s)
  | rxBurstStart => exact rxStart (refl s)
  | dmaBurstComplete => exact burstDone (refl s)
  | dmaReadFault => exact execDmaReadFault s
  | unknownCmd => exact execUnknownCmd s
  | idGet => exact serve (refl s) (fun _ _ h1 => answerOk h1)
  | kindleReport => exact serve (refl s) (fun _ _ h1 => answerOk h1)
  | modeGet => exact serve (refl s) (fun _ _ h1 => answerOk h1)
  | modeSet => exact serve (refl s) (fun _ _ h1 => modeSet h1)
  | resetWarm => exact execResetWarm s
  | wakeSet => exact serve (refl s) (fun _ _ h1 => answerOk (regWrite (regWrite (regWrite h1))))
  | txnOpen => exact serve (refl s) (fun _ _ h1 => txnOpened h1)
  | txnStage => exact serve (refl s) (fun _ _ h1 => onOpen h1 (fun _ _ h3 => stageBody h3))
  | txnStageDma => exact serve (refl s) (fun _ _ h1 => txnDma h1)
  | txnCommit => exact serve (refl s) (fun _ _ h1 => txnCommitted h1)
  | txnAbort => exact serve (refl s) (fun _ _ h1 => txnAborted h1)
  | txnStatus => exact serve (refl s) (fun _ _ h1 => onTxn h1 (fun _ _ h3 => answerOk h3))
  | confGet => exact serve (refl s) (fun _ _ h1 => confGet h1)
  | txnExpired => exact execTxnExpired s
  | commitEpoch => exact epochReached (refl s)
  | commitReply => exact commitReplied (refl s)
  | imgStatus => exact serve (refl s) (fun _ _ h1 => answerOk h1)
  | imgBegin => exact serve (refl s) (fun _ _ h1 => imgBegin h1)
  | imgWrite => exact serve (refl s) (fun _ _ h1 => imgPut h1)
  | imgWriteDma => exact serve (refl s) (fun _ _ h1 => imgDma h1)
  | imgEnd => exact execImgEnd s
  | imgConfirm => exact serve (refl s) (fun _ _ h1 => imgConfirm h1)
  | imgRefusals => exact serve (refl s) (fun _ _ h1 => answerOk h1)
  | portStatus => exact serve (refl s) (fun _ _ h1 => onPort h1 (fun _ _ _ h3 => portStatus h3))
  | portCounters => exact serve (refl s) (fun _ _ h1 => onPort h1 (fun _ _ _ h3 => answerOk h3))
  | bobStatus => exact serve (refl s) (fun _ _ h1 => answerOk h1)
  | plyGet => exact serve (refl s) (fun _ _ h1 => onPly h1 (fun _ _ h3 => answerOk h3))
  | plyIncr => exact serve (refl s) (fun _ _ h1 => onPly h1 (fun _ _ h3 => plyIncr h3))
  | plyStep => exact serve (refl s) (fun _ _ h1 => onPly h1 (fun _ _ h3 => plyStep h3))
  | reelGet => exact serve (refl s) (fun _ _ h1 => answerOk h1)
  | tickToPly => exact serve (refl s) (fun _ _ h1 => onPly h1 (fun _ _ h3 => tickConverted h3))
  | cascStatus => exact serve (refl s) (fun _ _ h1 => answerOk h1)
  | cascMap => exact serve (refl s) (fun _ _ h1 => ite (answerOk h1) (refuse h1))
  | cascRelay => exact execCascRelay s
  | pnlEvents => exact serve (refl s) (fun _ _ h1 => pnlEvents h1)
  | pnlStatus => exact serve (refl s) (fun _ _ h1 => answerOk h1)
  | tagStatus => exact serve (refl s) (fun _ _ h1 => answerOk h1)
  | tagAuthSet => exact serve (refl s) (fun _ _ h1 => answerOk (queueUnit h1))
  | readerScan => exact serve (refl s) (fun _ _ h1 => readerScanned h1)
  | rovHankWrite => exact serve (refl s) (fun _ _ h1 => hankWrite h1)
  | rovHankReady => exact serve (refl s) (fun _ _ h1 => hankReadySet h1)
  | rovStart => exact serve (refl s) (fun _ _ h1 => rovStart h1)
  | rovStop => exact serve (refl s) (fun _ _ h1 => answerOk (rovStopAt h1))
  | rovStatus => exact serve (refl s) (fun _ _ h1 => answerOk h1)
  | logRead => exact serve (refl s) (fun _ _ h1 => answerOk h1)
  | wearGet => exact serve (refl s) (fun _ _ h1 => answerOk h1)
  | gateGet => exact serve (refl s) (fun _ _ h1 => answerOk h1)
  | leaBoundary => exact execLeaBoundary s
  | slotStart => exact execSlotStart s
  | tinNextRead => exact execTinNextRead s
  | slotComplete => exact execSlotComplete s
  | overrun => exact execOverrun s
  | slotRelease => exact releaseNext (refl s)
  | taskInputEvent => exact execTaskInputEvent s
  | paceUpdate => exact execPaceUpdate s
  | vcoreTrim => exact execVcoreTrim s
  | holdClear => exact holdClear (refl s)
  | whlFlogRead => exact execWhlFlogRead s
  | flyBra => exact flyRun (refl s) (fun _ _ _ h1 => flyBraAct h1)
  | flyAwait => exact flyRun (refl s) (fun _ _ _ h1 => flyAwaitAct h1)
  | flyTake => exact flyRun (refl s) (fun _ _ _ h1 => flyTakeAct h1)
  | flyGive => exact flyRun (refl s) (fun _ _ _ h1 => flyGiveAct h1)
  | flyLoad => exact flyRun (refl s) (fun _ _ _ h1 => flyLoadAct h1)
  | flyStore => exact flyRun (refl s) (fun _ _ _ h1 => flyStoreAct h1)
  | flyXfer => exact flyRun (refl s) (fun _ _ _ h1 => flyXferAct h1)
  | flyPut => exact flyRun (refl s) (fun _ _ _ h1 => flyPutAct h1)
  | flyHunt => exact flyRun (refl s) (fun _ _ _ h1 => flyHuntAct h1)
  | flyAt => exact flyRun (refl s) (fun _ _ _ h1 => flyAtAct h1)
  | flyEvt => exact flyRun (refl s) (fun _ _ _ h1 => flyNext (flyEvent h1))
  | flyDly => exact flyRun (refl s) (fun _ _ _ h1 => setFlyer h1)
  | flyDlyExpiry => exact execFlyDlyExpiry s
  | flyIllop => exact execFlyIllop s
  | flyStallEnd => exact execFlyStallEnd s
  | flyHuntLock => exact execFlyHuntLock s
  | flySyncLoss => exact execFlySyncLoss s
  | flyActPost => exact execFlyActPost s
  | plyActionFix => exact actFix (refl s)
  | timedActionDue => exact actDue (refl s)
  | flyIfifoRead => exact execFlyIfifoRead s
  | flyOfifoWrite => exact execFlyOfifoWrite s
  | flyCtrlWrite => exact execFlyCtrlWrite s
  | seamHandover => exact execSeamHandover s
  | pinEdge => exact execPinEdge s
  | frameRxStart => exact execFrameRxStart s
  | laneDeal => exact execLaneDeal s
  | laneDecision => exact execLaneDecision s
  | frameRxEnd => exact execFrameRxEnd s
  | frameAdmission => exact execFrameAdmission s
  | frameEnd => exact execFrameEnd s
  | cutThroughStart => exact execCutThroughStart s
  | frameStomp => exact execFrameStomp s
  | egressFrameStart => exact execEgressFrameStart s
  | trainLaunch => exact execTrainLaunch s
  | whorlBurstReq => exact execWhorlBurstReq s
  | whorlEnqueue => exact execWhorlEnqueue s
  | gateWrite => exact regWrite (refl s)
  | linkUp => exact execLinkUp s
  | linkDown => exact execLinkDown s
  | anTimeout => exact execAnTimeout s
  | lpiEntry => exact execLpiEntry s
  | mdioAccess => exact mdioWrite (refl s)
  | mdioComplete => exact execMdioComplete s
  | canTxreqWrite => exact canOwned (refl s) (fun _ h1 => canTxreq h1)
  | canTxcancel => exact canOwned (refl s) (fun _ h1 => canCancel h1)
  | canPop => exact canOwned (refl s) (fun _ h1 => canPopFifos h1)
  | canTxStart => exact execCanTxStart s
  | canTxDone => exact execCanTxDone s
  | canFrameRx => exact execCanFrameRx s
  | canBusoffRecovery => exact execCanBusoffRecovery s
  | canIntegrate => exact execCanIntegrate s
  | canCtrlApply => exact execCanCtrlApply s
  | canTimingReload => exact execCanTimingReload s
  | canWakeDominant => exact execCanWakeDominant s
  | canWakeFrame => exact execCanWakeFrame s
  | canWakeFec => exact execCanWakeFec s
  | plyChangePost => exact execPlyChangePost s
  | plyChangeApply => exact applyChange (refl s)
  | plySecloRead => exact keep (keep (refl s))
  | timeSync => exact execTimeSync s
  | timeServiceSend => exact execTimeServiceSend s
  | holdover => exact execHoldover s
  | cascadeTimeBlock => exact execCascadeTimeBlock s
  | cascadeTimeReceive => exact execCascadeTimeReceive s
  | linkDelayExchange => exact execLinkDelayExchange s
  | skeinLock => exact execSkeinLock s
  | skeinLinkDown => exact execSkeinLinkDown s
  | swiftFallback => exact execSwiftFallback s
  | swiftonlyRetry => exact execSwiftonlyRetry s
  | skeinRateFollow => exact execSkeinRateFollow s
  | skeinFrameReceive => exact execSkeinFrameReceive s
  | creditReturn => exact drainTransit (setLink (refl s))
  | sknCredstall => exact execSknCredstall s
  | beaconSend => exact execBeaconSend s
  | beaconReceive => exact execBeaconReceive s
  | masterTakeover => exact execMasterTakeover s
  | joinReceive => exact execJoinReceive s
  | assignReceive => exact execAssignReceive s
  | topologyReceive => exact execTopologyReceive s
  | kfaultSwiftCheck => exact execKfaultSwiftCheck s
  | relayRequest => exact execRelayRequest s
  | relayReply => exact execRelayReply s
  | cascadeTimeout => exact execCascadeTimeout s
  | skeinAgeout => exact execSkeinAgeout s
  | panelRowScan => exact ite (scanRow (refl s)) (refl s)
  | keyRepeat => exact execKeyRepeat s
  | keyStuck => exact execKeyStuck s
  | encoderSample => exact execEncoderSample s
  | pnlQpopRead => exact pnlPop (refl s)
  | detunePing => exact execDetunePing s
  | tagPowerUp => exact execTagPowerUp s
  | tagFieldLoss => exact setTag (refl s)
  | tagSecureExpiry => exact setTag (refl s)
  | tagBackoffEnd => exact setTag (refl s)
  | tagInventory => exact inField (refl s) (fun _ h1 => ite h1 (tagData h1))
  | tagStayQuiet => exact inField (refl s) (fun _ h1 => setTag h1)
  | tagSelect => exact inField (refl s) (fun _ h1 => ite (tagData (setTag h1)) (setTag h1))
  | tagResetToReady => exact inField (refl s) (fun _ h1 => tagData (setTag h1))
  | tagGetSystemInformation => exact inField (refl s) (fun _ h1 => tagData h1)
  | tagReadSingleBlock => exact inField (refl s) (fun _ h1 => tagRead h1)
  | tagReadMultipleBlocks => exact inField (refl s) (fun _ h1 => tagRead h1)
  | tagWriteSingleBlock => exact inField (refl s) (fun _ h1 => tagWrite h1)
  | tagAuthenticate => exact inField (refl s) (fun _ h1 => authAttempt h1)
  | securePwd => exact inField (refl s) (fun _ h1 => ite (authAttempt h1) h1)
  | tagUnknownCommand => exact inField (refl s) (fun _ h1 => ite h1 (tagError h1))
  | rovHdataAccess => exact hdataAccess (refl s)
  | rovStartTick => exact execRovStartTick s
  | vectorCycle => exact execVectorCycle s
  | rovPlay => exact rovRun (refl s) (fun _ _ _ h1 => rovPlayAct h1)
  | rovJump => exact rovRun (refl s) (fun _ _ _ h1 => rovGo h1)
  | rovLoop => exact rovRun (refl s) (fun _ _ _ h1 => rovLoopAct h1)
  | rovEndl => exact rovRun (refl s) (fun _ _ _ h1 => rovEndlAct h1)
  | rovCall => exact rovRun (refl s) (fun _ _ _ h1 => rovCallAct h1)
  | rovRet => exact rovRun (refl s) (fun _ _ _ h1 => rovRetAct h1)
  | rovWaitr => exact rovRun (refl s) (fun _ _ _ h1 => rovWaitrAct h1)
  | rovWaitrExpiry => exact execRovWaitrExpiry s
  | rovAstart => exact rovRun (refl s) (fun _ _ _ h1 => rovAstartAct h1)
  | rovAstop => exact rovRun (refl s) (fun _ _ _ h1 => rovNext (streamHalt h1))
  | rovEvt => exact rovRun (refl s) (fun _ _ _ h1 => rovNext (tinEvents h1))
  | rovHalt => exact rovRun (refl s) (fun _ _ _ h1 => rovStopAt h1)
  | rovBadop => exact execRovBadop s
  | ageoutStart => exact execAgeoutStart s
  | ageoutDiscard => exact execAgeoutDiscard s
  | stallRefusalStart => exact refusalStart (refl s)
  | ledgerUntrusted => exact holdSample (refl s)
  | egressFrameEnd => exact execEgressFrameEnd s
  | pcieLinkUp => exact execPcieLinkUp s
  | unwatchedBankLoss => exact execUnwatchedBankLoss s
  | unwatchedBankReturn => exact execUnwatchedBankReturn s
  | analogStreamEnd => exact execAnalogStreamEnd s

end Steady

/-! ### The obligations -/

theorem Answers.exists_next {s : State} {o : Host.Outcome State Fault Refusal} (h : Answers s o) : ∃ t, o = .next t ∧ Steady s t := by
  cases o with
  | next t => exact ⟨t, rfl, h⟩
  | fault _ => exact h.elim
  | refused _ => exact h.elim

theorem Steady.inv {s t : State} (h : Steady s t) (hi : Inv s) : Inv t := ⟨h.regs hi.regs, h.recorder hi.recorder, h.flog hi.flog⟩

/-- Settles O3: every command's answer is a steady state, whose queue is the one before. -/
theorem everyCommandAnswersAndKeepsTheQueue : Obligations.EveryCommandAnswersAndKeepsTheQueue := by
  intro c s
  obtain ⟨t, hnext, hsteady⟩ := (Steady.exec_answers c s).exists_next
  exact ⟨t, hnext, hsteady.pending⟩

/-- A step with commands waiting takes one off the queue. -/
theorem step_of_cons {c : Instr} {rest : List Instr} {s : State} (h : s.pending = c :: rest) :
    ∃ t, step s = .next t ∧ t.pending = rest := by
  obtain ⟨t, hnext, hqueue⟩ := everyCommandAnswersAndKeepsTheQueue c { s with pending := rest }
  refine ⟨t, ?_, hqueue⟩
  rw [step, h]
  exact hnext

theorem run_succ {M : Host.Core} {n : Nat} {s t : M.State} (h : M.step s = .next t) : M.run (n + 1) s = M.run n t := by
  rw [Host.Core.run, h]

theorem run_drains (n : Nat) (s : State) (h : s.pending.length = n) : ∃ t : State, Sys2Proof.core.run n s = .next t ∧ t.pending = [] := by
  induction n generalizing s with
  | zero => exact ⟨s, rfl, List.eq_nil_of_length_eq_zero h⟩
  | succ n ih =>
    obtain ⟨c, rest, hcons⟩ := List.exists_cons_of_length_eq_add_one h
    obtain ⟨u, hstep, hrest⟩ := step_of_cons hcons
    have hlen : u.pending.length = n := by simpa [hrest, hcons] using h
    obtain ⟨t, hrun, hempty⟩ := ih u hlen
    exact ⟨t, (run_succ hstep).trans hrun, hempty⟩

/-- Settles O4, by induction on the number of commands that wait. -/
theorem everyQueueDrains : Obligations.EveryQueueDrains := fun s => run_drains _ s rfl

/-- Settles O5: an idle step and every command are steady, and the invariant does not look at the queue. -/
theorem everyStepKeepsTheInvariant : Obligations.EveryStepKeepsTheInvariant := by
  intro s t hinv hstep
  unfold step at hstep
  split at hstep
  · cases hstep
    exact (Steady.idle (.refl s)).inv hinv
  · next c rest _ =>
    obtain ⟨u, hnext, hsteady⟩ := (Steady.exec_answers c { s with pending := rest }).exists_next
    rw [hnext] at hstep
    cases hstep
    exact hsteady.inv ⟨hinv.regs, hinv.recorder, hinv.flog⟩

end Sys2Proof.Machine
end

section
/-!
The step and what it starts from (O1, O2, O6, O58), and read after write of tables and memories (O7, O32).
-/

set_option Elab.async false

namespace Sys2Proof.Machine

/-! ### The step -/

/-- Settles O1. -/
theorem stepRunsFrontCommand : Obligations.StepRunsFrontCommand := by
  intro c rest s h
  rw [step, h]

theorem step_nil {s : State} (h : s.pending = []) : step s = .next (tick s) := by
  rw [step, h]
  rfl

theorem tick_due {s : State} (h : s.sys.resetDue = true) : tick s = cmdReset s := if_pos h

theorem tick_not_due {s : State} (h : s.sys.resetDue = false) : tick s = { s with ply := nsPasses s.ply } :=
  if_neg (Bool.eq_false_iff.mp h)

theorem nsPasses_running {p : Plys} (h : p.running = true) : nsPasses p = { p with reel := p.reel + 1 } := if_pos h

theorem nsPasses_halted {p : Plys} (h : p.running = false) (hc : p.cont = false) : nsPasses p = p := by
  simp [nsPasses, h, hc]

theorem nsPasses_cont {p : Plys} (h : p.running = false) (hc : p.cont = true) :
    nsPasses p = if p.sub + 1 < 40 then { p with sub := p.sub + 1 } else { p with sub := 0, reel := p.reel + 40 } := by
  simp [nsPasses, h, hc]

/-- The charger's note changes one flag: the leak of a charger that runs is logged anew (R76). -/
theorem chargerNote_eq (s : State) :
    chargerNote s = { s with pwr := { s.pwr with leakLogged := s.pwr.leakLogged && !chargerRuns s } } := by
  unfold chargerNote
  split
  · next h => simp [setPwr, h]
  · next h => simp [h]

/-- Settles O2: an idle step is `tick`, which takes the announced reset or lets `nsPasses` count. -/
theorem idleStepCountsTheReel : Obligations.IdleStepCountsTheReel := by
  refine ⟨?running, ?halted, ?cont, ?due⟩
  case running =>
    intro s hq hdue hrun
    rw [step_nil hq, tick_not_due hdue, nsPasses_running hrun]
  case halted =>
    intro s hq hdue hrun hcont
    rw [step_nil hq, tick_not_due hdue, nsPasses_halted hrun hcont]
  case cont =>
    intro s hq hdue hrun hcont
    rw [step_nil hq, tick_not_due hdue, nsPasses_cont hrun hcont]
  case due =>
    intro s hq hdue
    refine ⟨cmdReset s, by rw [step_nil hq, tick_due hdue], ?_, rfl, rfl, rfl, rfl, ?_⟩
    · rw [(Steady.cmdReset (.refl s)).pending, hq]
    · simp only [cmdReset, setSys, warmReset, chargerNote_eq]
      rfl

/-! ### Reset -/

/-- Settles O6. -/
theorem resetMeetsTheInvariant : Obligations.ResetMeetsTheInvariant := ⟨rfl, Nat.zero_le 8, Nat.zero_le 16⟩

/-- Settles O58: `State.reset` is a constant, so that each value is computed. -/
theorem resetLeavesTheSpecsValues : Obligations.ResetLeavesTheSpecsValues := by
  have hsupply : exec .validSupply State.reset = .next { State.reset with
      sys := { State.reset.sys with mode := .kindle, kstep := 1, timeZero := true }
      pwr := { State.reset.pwr with railOk := 0x40, banks := 0x1FFF, senseWarn := false } } := by
    congr
  unfold Obligations.ResetLeavesTheSpecsValues
  iterate 51 refine ⟨by decide, ?_⟩
  exact hsupply

/-! ### Read after write -/

/-- A list of bytes written reads back inside it; outside it every byte is as before. -/
theorem Mem.byte_write_ite {m : Mem} (a b : Nat) (vs : List Byte) (h : m.wf = true) :
    (m.write a vs).byte b = if a ≤ b ∧ b < a + vs.length then vs.getD (b - a) 0 else m.byte b := by
  split
  · next hin =>
    obtain ⟨i, rfl⟩ := Nat.exists_eq_add_of_le hin.1
    rw [Mem.byte_write vs m a i h (by omega), Nat.add_sub_cancel_left]
  · next hout => exact Mem.byte_write_outside vs m a b h (by omega)

/-- Settles O7. -/
theorem writtenValuesReadBack : Obligations.WrittenValuesReadBack :=
  ⟨fun _ a b v h => ⟨wf_setReg a v h, get_setReg a b v h⟩,
    fun _ a b v h => ⟨Mem.wf_setByte a v h, Mem.byte_setByte a b v h⟩,
    fun m a b vs h => ⟨Mem.wf_write vs m a h, Mem.byte_write_ite a b vs h⟩⟩

/-- Settles O32. -/
theorem generalRegisterAccess : Obligations.GeneralRegisterAccess := by
  refine ⟨fun _ => rfl, fun _ _ => rfl, fun g r q v hg hr => ⟨?_, ?_⟩⟩
  · simp [gGet_gSet r q v hg, hr]
  · rw [gSet, if_neg hr]
    exact Tab.wf_set r v hg

end Sys2Proof.Machine
end

section
/-!
The Yukin instructions that touch the general registers and the program counter alone: the register group (O33), the
immediates, bit fields and PERM (O35), the branches and jumps (O36).
-/

set_option Elab.async false

namespace Sys2Proof.Machine

/-! ### Words of the register group -/

theorem boolWord_slt (a b : Word) : boolWord (a.slt b) = if a.toInt < b.toInt then 1 else 0 := by
  simp [boolWord, BitVec.slt_eq_decide]

theorem boolWord_ult (a b : Word) : boolWord (a.ult b) = if a.toNat < b.toNat then 1 else 0 := by
  simp [boolWord, BitVec.ult_eq_decide]

/-- The bits that CLZ counts: from bit 31 down to the first one set. -/
def leadZeros (a : Word) : List Nat := (List.range 32).reverse.takeWhile fun i => !bitOf a i

theorem clzW_toNat (a : Word) : (clzW a).toNat = (leadZeros a).length := by
  have hle : (leadZeros a).length ≤ 32 := by
    simpa [leadZeros] using (List.takeWhile_sublist (p := fun i => !bitOf a i) (l := (List.range 32).reverse)).length_le
  rw [clzW, BitVec.toNat_ofNat]
  exact Nat.mod_eq_of_lt (by rw [← leadZeros]; omega)

theorem getElem_down {n i : Nat} (h : i < (List.range n).reverse.length) : (List.range n).reverse[i] = n - 1 - i := by
  simp

/-- A bit that CLZ counts is clear. -/
theorem bitOf_of_lt_clzW {a : Word} {i : Nat} (h : i < (clzW a).toNat) : bitOf a (31 - i) = false := by
  rw [clzW_toNat] at h
  have hp : leadZeros a <+: (List.range 32).reverse := List.takeWhile_prefix fun i => !bitOf a i
  have hi : (leadZeros a)[i] = 31 - i := (hp.getElem h).trans (getElem_down _)
  have hall : (leadZeros a).all (fun i => !bitOf a i) = true := List.all_takeWhile
  have hclear := List.all_eq_true.mp hall _ (List.getElem_mem h)
  rw [hi] at hclear
  simpa using hclear

/-- The entry that ends a run does not belong to it. -/
theorem getElem_takeWhile_length (p : Nat → Bool) : ∀ (l : List Nat) (h : (l.takeWhile p).length < l.length), p l[(l.takeWhile p).length] = false
  | [], h => absurd h (Nat.not_lt_zero _)
  | x :: l, h => by
    cases hx : p x with
    | false => simp [hx]
    | true =>
      have hl : (l.takeWhile p).length < l.length := by simpa [hx] using h
      simpa [hx] using getElem_takeWhile_length p l hl

/-- The bit after those that CLZ counts is set. -/
theorem bitOf_at_clzW {a : Word} (h : (clzW a).toNat < 32) : bitOf a (31 - (clzW a).toNat) = true := by
  rw [clzW_toNat] at h ⊢
  have hlen : (leadZeros a).length < (List.range 32).reverse.length := by
    rw [List.length_reverse, List.length_range]
    exact h
  have hset : (!bitOf a (List.range 32).reverse[(leadZeros a).length]) = false :=
    getElem_takeWhile_length (fun i => !bitOf a i) (List.range 32).reverse hlen
  rw [getElem_down] at hset
  exact Bool.not_eq_eq_eq_not.mp hset

theorem clzW_lt {a : Word} (h : a ≠ 0) : (clzW a).toNat < 32 := by
  refine Nat.lt_of_not_le fun hn => h (BitVec.eq_of_getLsbD_eq fun i hi => ?_)
  have hbit := bitOf_of_lt_clzW (a := a) (i := 31 - i) (by omega)
  have hi' : 31 - (31 - i) = i := by omega
  rw [hi', bitOf] at hbit
  rw [hbit]
  exact BitVec.getLsbD_zero.symm

/-! ### A core that is not ready -/

theorem coreRun_idle (f : RegFn) {s : State} (h : stwGoes s = false) : coreRun .steward f s = s := by
  rw [coreRun, stwRun_idle h]

theorem coreRun_none (f : RegFn) {s : State} (h : s.whl.slot = none) : coreRun .whorl f s = s := by
  rw [coreRun, whlRun_none h]

theorem coreRun_fetch (f : RegFn) {s : State} {e : Flt} (h : stwGoes s = true) (hf : stwFetch s = some e) :
    coreRun .steward f s = stwFault e s := by
  rw [coreRun, stwRun_fetch h hf]

theorem coreRun_budget (f : RegFn) {s : State} (h : stwGoes s = true) (hf : stwFetch s = none) (he : s.stw.ext = true)
    (hb : s.stw.xbudget = 0) : coreRun .steward f s = stwFault { cause := cBudget } (stwFetched s) := by
  rw [coreRun, stwRun_budget h hf he hb]

/-- Settles O33. -/
theorem yukinRegisterGroup : Obligations.YukinRegisterGroup := by
  have next_alu1 {c rd ra s a} (f : Word → Word) (hc : coreReady c s) (ha : a = gGet (coreG c s) ra.toNat) :
      (.next (alu1 c rd ra f s) : Host.Outcome State Fault Refusal) = .next (coreSets c rd (f a) s) := by
    rw [alu1_ready c rd ra f hc, ha]
  have next_alu2 {c rd ra rb s a b} (f : Word → Word → Word) (hc : coreReady c s) (ha : a = gGet (coreG c s) ra.toNat)
      (hb : b = gGet (coreG c s) rb.toNat) :
      (.next (alu2 c rd ra rb f s) : Host.Outcome State Fault Refusal) = .next (coreSets c rd (f a b) s) := by
    rw [alu2_ready c rd ra rb f hc, ha, hb]
  refine ⟨?two, ?one, by decide, fun a h => ⟨clzW_lt h, bitOf_at_clzW (clzW_lt h), fun i hi => bitOf_of_lt_clzW hi⟩, ?_⟩
  case two =>
    intro c rd ra rb s a b hc ha hb
    refine ⟨next_alu2 _ hc ha hb, next_alu2 _ hc ha hb, next_alu2 _ hc ha hb, next_alu2 _ hc ha hb, next_alu2 _ hc ha hb,
      next_alu2 _ hc ha hb, next_alu2 _ hc ha hb, next_alu2 _ hc ha hb, ?_, ?_, next_alu2 _ hc ha hb, next_alu2 _ hc ha hb,
      next_alu2 _ hc ha hb⟩
    · rw [← boolWord_slt]
      exact next_alu2 (fun a b => boolWord (a.slt b)) hc ha hb
    · rw [← boolWord_ult]
      exact next_alu2 (fun a b => boolWord (a.ult b)) hc ha hb
  case one =>
    intro c rd ra sh s a hc ha
    exact ⟨next_alu1 _ hc ha, next_alu1 _ hc ha, next_alu1 _ hc ha, next_alu1 _ hc ha⟩
  have exec_addR (c : Core) (rd ra rb : GReg) (s : State) : exec (.addR c rd ra rb) s =
      .next (coreRun c (aluFn rd fun g => gGet g ra.toNat + gGet g rb.toNat) s) := rfl
  refine ⟨?idle, ?none, ?fetch, ?budget⟩
  case idle =>
    intro rd ra rb s h
    rw [exec_addR, coreRun_idle _ h]
  case none =>
    intro rd ra rb s h
    rw [exec_addR, coreRun_none _ h]
  case fetch =>
    intro rd ra rb s e h hf
    rw [exec_addR, coreRun_fetch _ h hf]
  case budget =>
    intro rd ra rb s h hf he hb
    rw [exec_addR, coreRun_budget _ h hf he hb, cBudget]

/-! ### Bit fields, PERM -/

theorem bitOf_of_ge {v : Word} {i : Nat} (h : 32 ≤ i) : bitOf v i = false := BitVec.getLsbD_of_ge v i h

/-- A bit of a field extracted. -/
theorem bitOf_bfxW {a : Word} {pos w : Nat} (sg : Bool) (hw : 0 < w) (h : pos + w ≤ 32) {i : Nat} (hi : i < 32) :
    bitOf (bfxW a pos w sg) i = if i < w then bitOf a (pos + i) else sg && bitOf a (pos + w - 1) := by
  have hfield (j : Nat) (hj : j < 32) : bitOf ((a >>> pos) &&& fieldMask 0 w) j = (bitOf a (pos + j) && decide (j < w)) := by
    have := bitOf_fieldMask 0 w j
    rw [bitOf, BitVec.getLsbD_and, BitVec.getLsbD_ushiftRight, ← bitOf, ← bitOf, this]
    simp [hj]
  have hmask : bitOf (~~~ fieldMask 0 w) i = !decide (i < w) := by
    have := bitOf_fieldMask 0 w i
    simp_all [bitOf]
  have hor (x y : Word) : bitOf (x ||| y) i = (bitOf x i || bitOf y i) := by simp [bitOf]
  have hsign := hfield (w - 1) (by omega)
  rw [show pos + (w - 1) = pos + w - 1 by omega, decide_eq_true (by omega : w - 1 < w), Bool.and_true] at hsign
  simp only [bfxW, hsign]
  by_cases hc : (sg && bitOf a (pos + w - 1)) = true
  · rw [if_pos hc, hor, hfield i hi, hmask, hc]
    by_cases hiw : i < w <;> simp [hiw]
  · rw [if_neg hc, hfield i hi, Bool.eq_false_iff.mpr hc]
    by_cases hiw : i < w <;> simp [hiw]

theorem bitOf_fieldMask_zero (w i : Nat) : bitOf (fieldMask 0 w) i = (decide (i < 32) && decide (i < w)) := by
  simpa using bitOf_fieldMask 0 w i

/-- A bit of a word with a field inserted. -/
theorem bitOf_bfiW {d a : Word} {pos w : Nat} (h : pos + w ≤ 32) (i : Nat) :
    bitOf (bfiW d a pos w) i = if pos ≤ i ∧ i < pos + w then bitOf a (i - pos) else bitOf d i := by
  rcases Nat.lt_or_ge i 32 with hi | hi
  · have hmask := bitOf_fieldMask_zero w (i - pos)
    simp only [bitOf] at hmask
    simp only [bitOf, bfiW, BitVec.getLsbD_or, BitVec.getLsbD_and, BitVec.getLsbD_not, BitVec.getLsbD_shiftLeft, hmask]
    rcases Nat.lt_or_ge i pos with h1 | h1
    · rw [if_neg (by omega)]
      simp [hi, h1]
    · have hin : i - pos < w ↔ i < pos + w := by omega
      by_cases h2 : i < pos + w <;> simp [hi, h1, Nat.not_lt.mpr h1, hin, h2, show i - pos < 32 by omega]
  · rw [bitOf_of_ge hi, if_neg (by omega), bitOf_of_ge hi]

theorem bitsOf_lt (v : Word) (lo w : Nat) : bitsOf v lo w < 2 ^ w := Nat.mod_lt _ (Nat.two_pow_pos w)

theorem permLane_lt (a : Word) (k : Nat) : permLane a k < 256 := by
  have := bitsOf_lt a (8 * (k % 4)) 8
  simp only [permLane]
  split
  · exact this
  · split
    · split <;> omega
    · omega

theorem foldl_four_powers (x : Nat → Nat) (m : Nat) : (List.range 4).foldl (fun v i => v + x i * m ^ i) 0 =
    x 0 + x 1 * m + x 2 * m ^ 2 + x 3 * m ^ 3 := by
  simp [List.range_succ]

theorem four_bytes_lt {a b c d : Nat} (ha : a < 256) (hb : b < 256) (hc : c < 256) (hd : d < 256) :
    a + b * 256 + c * 65536 + d * 16777216 < 2 ^ 32 := by
  omega

theorem byte_of_four_bytes {a b c d i : Nat} (ha : a < 256) (hb : b < 256) (hc : c < 256) (hd : d < 256) (hi : i < 4) :
    (a + b * 256 + c * 65536 + d * 16777216) / 2 ^ (8 * i) % 2 ^ 8 =
      if i = 0 then a else if i = 1 then b else if i = 2 then c else d := by
  obtain rfl | rfl | rfl | rfl : i = 0 ∨ i = 1 ∨ i = 2 ∨ i = 3 := by omega
  · rw [if_pos rfl]
    omega
  · rw [if_neg (by decide), if_pos rfl]
    omega
  · rw [if_neg (by decide), if_neg (by decide), if_pos rfl]
    omega
  · rw [if_neg (by decide), if_neg (by decide), if_neg (by decide)]
    omega

/-- Four bytes put together come apart again. -/
theorem bitsOf_four_bytes {x : Nat → Nat} (hx : ∀ i, x i < 256) {i : Nat} (hi : i < 4) :
    bitsOf (BitVec.ofNat 32 ((List.range 4).foldl (fun v i => v + x i * 256 ^ i) 0)) (8 * i) 8 = x i := by
  rw [bitsOf, foldl_four_powers x 256, BitVec.toNat_ofNat, show (256 : Nat) ^ 2 = 65536 from rfl,
    show (256 : Nat) ^ 3 = 16777216 from rfl, Nat.mod_eq_of_lt (four_bytes_lt (hx 0) (hx 1) (hx 2) (hx 3)),
    byte_of_four_bytes (hx 0) (hx 1) (hx 2) (hx 3) hi]
  obtain rfl | rfl | rfl | rfl : i = 0 ∨ i = 1 ∨ i = 2 ∨ i = 3 := by omega
  · rfl
  · rfl
  · rfl
  · rfl

/-- Byte `i` of PERM's result is the lane that its code selects. -/
theorem bitsOf_permW (a : Word) (sel : BitVec 16) {i : Nat} (hi : i < 4) :
    bitsOf (permW a sel) (8 * i) 8 = permLane a (permCode sel i) :=
  bitsOf_four_bytes (x := fun i => permLane a (permCode sel i)) (fun _ => permLane_lt a _) hi

theorem permBad_iff (sel : BitVec 16) : permBad sel = true ↔ ∃ i < 4, sel.toNat / 16 ^ i % 16 / 4 = 3 := by
  simp only [permBad, permCode, List.any_eq_true, List.mem_range]
  exact exists_congr fun _ => and_congr_right fun _ => decide_eq_true_iff

theorem coreRun_illegal {c : Core} {s : State} (hc : coreReady c s) :
    coreRun c illegalFn s = coreFaults c { cause := 1 } s := coreRun_ready c _ hc

/-- Settles O35. -/
theorem yukinImmediateGroup : Obligations.YukinImmediateGroup := by
  refine ⟨?imm, ?bfx, ?bfi, ?perm, ?field, ?lane⟩
  case imm =>
    intro c rd ra imm s a hc ha
    have next_alu1 (f : Word → Word) :
        (.next (alu1 c rd ra f s) : Host.Outcome State Fault Refusal) = .next (coreSets c rd (f a) s) := by
      rw [alu1_ready c rd ra f hc, ha]
    refine ⟨next_alu1 _, next_alu1 _, next_alu1 _, next_alu1 _, ?_, ?_, congrArg _ (alu_ready c rd _ hc)⟩
    · rw [show imm.toInt = (sext16 imm).toInt from (BitVec.toInt_signExtend_of_le (by omega)).symm, ← boolWord_slt]
      exact next_alu1 fun a => boolWord (a.slt (sext16 imm))
    · rw [← sext16, ← boolWord_ult]
      exact next_alu1 fun a => boolWord (a.ult (sext16 imm))
  case bfx =>
    intro c rd ra pos wm1 sg s a hc ha hw
    refine ⟨bfxW a pos.toNat (wm1.toNat + 1) sg, ?_, fun i hi hle => ?_, fun i hi hlt => ?_⟩
    · show Host.Outcome.next _ = _
      rw [if_neg (by omega), alu1_ready c rd ra _ hc, ha]
    · rw [bitOf_bfxW sg (Nat.succ_pos _) (by omega) hi, if_pos (by omega)]
    · rw [bitOf_bfxW sg (Nat.succ_pos _) (by omega) hi, if_neg (by omega)]
      rfl
  case bfi =>
    intro c rd ra pos wm1 s a d hc ha hd hw
    refine ⟨bfiW d a pos.toNat (wm1.toNat + 1), ?_, fun i hi => ?_, fun i hi => ?_⟩
    · show Host.Outcome.next _ = _
      rw [if_neg (by omega), alu_ready c rd _ hc, ha, hd]
    · rw [bitOf_bfiW (by omega), if_pos (by omega), Nat.add_sub_cancel_left]
    · rw [bitOf_bfiW (by omega), if_neg (by omega)]
  case perm =>
    intro c rd ra sel s a hc ha hsel
    have hok : ¬ permBad sel = true := fun hbad => by
      obtain ⟨i, hi, h⟩ := (permBad_iff sel).mp hbad
      exact hsel i hi h
    refine ⟨permW a sel, ?_, fun i hi b hb => ?_⟩
    · show Host.Outcome.next _ = _
      rw [if_neg hok, alu1_ready c rd ra _ hc, ha]
    · have hlane : permCode sel i % 4 = sel.toNat / 16 ^ i % 4 := Nat.mod_mod_of_dvd _ (by decide)
      rw [bitsOf_permW a sel hi, permLane, hlane, ← hb, ← permCode]
      refine ⟨fun h => ?_, fun h => ?_, fun h => ?_⟩ <;> simp [h]
  case field =>
    intro c rd ra pos wm1 sg s hc hw
    constructor <;> exact congrArg Host.Outcome.next ((if_pos hw).trans (coreRun_illegal hc))
  case lane =>
    intro c rd ra sel s i hc hi h
    exact congrArg Host.Outcome.next ((if_pos ((permBad_iff sel).mpr ⟨i, hi, h⟩)).trans (coreRun_illegal hc))

/-! ### Branches and jumps -/

theorem disp16_eq (d : BitVec 16) : disp16 d = d.signExtend 32 * 4 := by
  rw [disp16, BitVec.shiftLeft_eq_mul_twoPow]
  rfl

theorem disp26_eq (d : BitVec 26) : disp26 d = d.signExtend 32 * 4 := by
  rw [disp26, BitVec.shiftLeft_eq_mul_twoPow]
  rfl

theorem target_aligned {pc : Word} (x : Word) (h : pc.toNat % 4 = 0) : (pc + 4 + x * 4).toNat % 4 = 0 := by
  rw [BitVec.toNat_add, BitVec.toNat_add, BitVec.toNat_mul, show (4 : Word).toNat = 4 from rfl]
  omega

theorem goTo_aligned {x : Word} (g : Tab Word) (h : x.toNat % 4 = 0) : goTo x g = .ok (g, x) := if_pos h

theorem goTo_misaligned {x : Word} (g : Tab Word) (h : x.toNat % 4 ≠ 0) :
    goTo x g = .error { cause := cAlign, kind := some .fetch, addr := x } := if_neg h

/-- Settles O36. -/
theorem yukinBranches : Obligations.YukinBranches := by
  refine ⟨?branches, ?jumps, ?jalr, ?align⟩
  case branches =>
    intro c ra rb d s a b goal hc ha hb hgoal hpc
    rw [← disp16_eq] at hgoal
    have next_branch (cond : Word → Word → Bool) : (.next (branch c ra rb d cond s) : Host.Outcome State Fault Refusal) =
        .next (coreDid c (coreG c s) (if cond a b then goal else corePc c s + 4) s) := by
      rw [branch_ready c ra rb d cond hc (disp16_eq d ▸ target_aligned _ hpc), ← ha, ← hb, ← hgoal]
    refine ⟨?_, ?_, ?_, ?_, ?_, ?_⟩ <;> refine (next_branch _).trans (congrArg (fun pc => Host.Outcome.next (coreDid c (coreG c s) pc s)) ?_)
    · simp
    · simp
    · simp [BitVec.slt_eq_decide]
    · simp [BitVec.slt_eq_decide]
    · simp [BitVec.ult_eq_decide]
    · simp [BitVec.ult_eq_decide]
  case jumps =>
    intro c d s goal hc hgoal hpc
    have ha : goal.toNat % 4 = 0 := hgoal ▸ target_aligned _ hpc
    rw [← disp26_eq] at hgoal
    constructor
    · refine congrArg Host.Outcome.next ((coreRun_ready c _ hc).trans ?_)
      simp only [← hgoal, goTo_aligned _ ha]
    · refine congrArg Host.Outcome.next ((coreRun_ready c _ hc).trans ?_)
      simp only [← hgoal, goTo_aligned _ ha]
  case jalr =>
    intro c rd ra imm s goal hc hgoal ha
    refine congrArg Host.Outcome.next ((coreRun_ready c _ hc).trans ?_)
    simp only [sext16, ← hgoal, goTo_aligned _ ha]
  case align =>
    intro c rd ra imm s goal hc hgoal ha
    refine congrArg Host.Outcome.next ((coreRun_ready c _ hc).trans ?_)
    simp only [sext16, ← hgoal, goTo_misaligned _ ha]
    rfl

end Sys2Proof.Machine
end

section
/-!
The steward's faults, interrupts and timer (O41), and its extensions (O42).
-/

set_option Elab.async false

namespace Sys2Proof.Machine

/-! ### Faults -/

theorem stwFault_double (f : Flt) {s : State} (h : s.stw.fh = true) : stwFault f s = doubleFault f s := by
  rw [stwFault, if_pos h]

theorem stwFault_extension (f : Flt) {s : State} {i : Nat} (hfh : s.stw.fh = false) (hext : s.stw.ext = true)
    (hi : s.stw.extIdx = some i) : stwFault f s = extFaulted f (stwEnter f true s.stw.pc s) := by
  simp [stwFault, hfh, hext, hi]

theorem stwFault_entry (f : Flt) {s : State} (hfh : s.stw.fh = false) (hext : s.stw.ext = false) :
    stwFault f s = stwEnter f true s.stw.pc s := by
  simp [stwFault, hfh, hext]

theorem ecauseWord_cause {c : Nat} (h : c < 256) : ecauseWord { cause := c } = BitVec.ofNat 32 c := by
  simp [ecauseWord, fieldAt, b2n, Nat.mod_eq_of_lt h]

/-- The lowest line that is enabled and pending is the one an interrupt takes. -/
theorem find_lowest_line {p : Nat → Bool} {n : Nat} (hn : n < 32) (hp : p n = true) (hlow : ∀ m < n, p m = false) :
    (List.range 32).find? p = some n := by
  rw [List.find?_range_eq_some]
  exact ⟨by simpa using hp, by simpa using hn, by simpa using hlow⟩

theorem find_no_line {v : Word} (h : v = 0) : ((List.range 32).find? fun n => bitOf v n) = none := by
  simp [h, bitOf]

/-- The Reel's next tick with the low word `v`. -/
theorem setWidth_add_ahead (r : BitVec 64) (v : Word) : (r + (v - r.setWidth 32).setWidth 64).setWidth 32 = v := by
  apply BitVec.eq_of_toNat_eq
  simp only [BitVec.toNat_setWidth, BitVec.toNat_add, BitVec.toNat_sub]
  omega

theorem ahead_add {r : BitVec 64} (v : Word) (h : r.toNat + 2 ^ 32 ≤ 2 ^ 64) :
    (r + (v - r.setWidth 32).setWidth 64).toNat = r.toNat + (v - r.setWidth 32).toNat := by
  have := (v - r.setWidth 32).isLt
  rw [BitVec.toNat_add, BitVec.toNat_setWidth]
  omega

/-- How far ahead of the Reel's low word the timer lies. -/
def timerAhead (s : State) : Word := s.stw.timer - s.reel.setWidth 32

/-- Settles O41. -/
theorem stewardInterruptCommands : Obligations.StewardInterruptCommands := by
  refine ⟨?fault, ?double, ?taken, ?notTaken, ?resume, ?notResume, ?timer, ?notTimer⟩
  case fault =>
    intro f s hfh hext
    rw [stwFault_entry f hfh hext]
    simp only [stwEnter, setStw, hfh, hext, Bool.false_or]
  case double =>
    intro f s hfh
    rw [stwFault_double f hfh]
    rfl
  case taken =>
    intro s n hruns hie hfh hn hp hlow
    have hfind := find_lowest_line (p := fun n => bitOf (s.stw.ipend &&& s.stw.imask) n) hn hp hlow
    have hcause : ecauseWord { cause := 0x40 + n } = BitVec.ofNat 32 (0x40 + n) := ecauseWord_cause (by omega)
    show execInterruptEntry s = _
    simp only [execInterruptEntry, hruns, hie, hfh, Bool.not_false, Bool.and_true, if_true, hfind]
    by_cases hline : n = 14 ∨ n = 15 <;>
      simp only [hline, if_true, if_false, stwEnter, setStw, clearLine, hcause, hie, hfh, Bool.or_false]
  case notTaken =>
    intro s h
    show execInterruptEntry s = _
    rw [execInterruptEntry]
    split
    · next hgo =>
      obtain ⟨⟨hruns, hie⟩, hfh⟩ : (stewardRuns s = true ∧ s.stw.ie = true) ∧ s.stw.fh = false := by simpa using hgo
      have hnone : s.stw.ipend &&& s.stw.imask = 0 := by simpa [hruns, hie, hfh] using h
      rw [find_no_line hnone]
    · rfl
  case resume =>
    intro s hw hl
    exact if_pos (by simpa [linePending, hw] using hl)
  case notResume =>
    intro s h
    refine if_neg ?_
    rcases h with h | h
    · simp [h]
    · simp [linePending, h]
  case timer =>
    intro s hruns hreel hroom
    refine ⟨raiseLine 15 (reachTick (s.reel + (timerAhead s).setWidth 64) s), if_pos (by rw [hruns, hreel]; rfl), ?_⟩
    have hsum : (s.reel + (timerAhead s).setWidth 64).toNat = s.reel.toNat + (timerAhead s).toNat := ahead_add s.stw.timer hroom
    have hat : (reachTick (s.reel + (timerAhead s).setWidth 64) s).ply.reel = s.reel + (timerAhead s).setWidth 64 := by
      rw [reachTick_eq]
      by_cases hlt : s.ply.reel < s.reel + (timerAhead s).setWidth 64
      · exact if_pos ⟨hreel, hlt⟩
      · refine (if_neg fun h => hlt h.2).trans (BitVec.eq_of_toNat_eq ?_)
        have hle : (s.reel + (timerAhead s).setWidth 64).toNat ≤ s.ply.reel.toNat := Nat.not_lt.mp hlt
        have : s.reel.toNat = s.ply.reel.toNat := rfl
        omega
    have hpend : (reachTick (s.reel + (timerAhead s).setWidth 64) s).stw = s.stw := by rw [reachTick_eq]
    refine ⟨?_, ?_, ?_, ?_⟩
    · simp [raiseLine, bitOf]
    · exact (congrArg (BitVec.setWidth 32) hat).trans (setWidth_add_ahead _ _)
    · have : (s.reel + (timerAhead s).setWidth 64 - s.reel).toNat = (timerAhead s).toNat := by
        rw [BitVec.add_comm, BitVec.add_sub_cancel, BitVec.toNat_setWidth]
        have := (timerAhead s).isLt
        omega
      exact Nat.lt_of_le_of_lt (Nat.le_of_eq ((congrArg (fun r => (r - s.ply.reel).toNat) hat).trans this)) (timerAhead s).isLt
    · rw [reachTick_eq]
      rfl
  case notTimer =>
    intro s h
    refine if_neg ?_
    rcases h with h | h
    · simp [h]
    · simp [h]

/-! ### Extensions -/

/-- The steward core as EXTENSION_INVOKE leaves it in the state `t`, whose store buffer is empty (Table 4.12a). -/
def invokedStw (idx code data budget : Nat) (rec : List Byte) (t : State) : Stw :=
  { t.stw with
    sram := (t.stw.sram.write 0xE0000 (Config.sect2Code t.stw.sect2 idx)).write 0xFFC00 ((rec ++ List.replicate 256 0).take 256)
    seg := extSegs code data t.stw.seg, extIdx := some idx, extSaved := (t.stw.g, t.stw.pc, t.stw.ie), g := freeRegs t.free
    pc := Config.extEntry t.stw.sect2 idx, ext := true, ie := true, xbudget := budget }

theorem svcOpen_false_of_ended {s : State} (c : Nat) (h : s.stw.ext = true ∨ s.stw.extIdx = none) : svcOpen c s = false := by
  rcases h with h | h <;> simp [svcOpen, h]

theorem drainAll_of_nil {s : State} (h : s.stw.sb = []) : drainAll s = s := by
  rw [drainAll, h]
  rfl

theorem extLogCode_mem : extLogCode ∈ logCodes := by
  have hlt : Config.extLogPick % logCodes.length < logCodes.length := Nat.mod_lt _ (by decide)
  rw [extLogCode, List.getD_eq_getElem?_getD, List.getElem?_eq_getElem hlt, Option.getD_some]
  exact List.getElem_mem hlt

theorem pushFault_extFaults (r : FaultRec) (y : Sys) : (pushFault r y).extFaults = y.extFaults := by
  unfold pushFault
  split <;> rfl

/-- EXT_POST with nothing left in the store buffer. -/
theorem exec_extPost {s : State} (hopen : svcOpen 5 s = true) (hsb : s.stw.sb = []) :
    exec .extPost s = .next (let len := (gGet s.stw.g 2).toNat
      let n := (gGet s.stw.g 3).toNat
      if len < 1 ∨ 244 < len ∨ 32 ≤ n then svcDone [(1, 1)] s
      else if bitOf s.hl.hfull n || replyDue s n then svcDone [(1, 2)] s
      else svcDone [(1, 0)] (hstMessage n 0xFFFF (replyMsg 0x0BF0 .ok (s.stw.extIdx.getD 0) (s.stw.sram.bytes 0xFFE00 len)) s)) := by
  show execExtPost s = _
  rw [execExtPost, if_pos hopen, drainAll_of_nil hsb]

/-- Settles O42. -/
theorem extensionCommands : Obligations.ExtensionCommands := by
  refine ⟨?invoke, ?notInvoke, ?exit, ?log, ?reel, ?ply, ?noPly, ?post, ?fault, ?closed⟩
  case invoke =>
    intro s t idx code data budget rec hgo hext hidx hentry hcode hfaults ht
    refine ⟨invokedStw idx code data budget rec t, ?_, rfl, rfl, rfl, rfl⟩
    show execExtensionInvoke idx rec s = _
    simp only [execExtensionInvoke, hgo, hext, hidx, hentry, hcode, hfaults, ← ht]
    rfl
  case notInvoke =>
    intro s idx rec h
    refine if_neg ?_
    simp only [Bool.and_eq_true, Bool.not_eq_true', decide_eq_true_eq, Option.isNone_iff_eq_none]
    rintro ⟨⟨⟨⟨hgo, hext⟩, hidx⟩, hcode⟩, hfaults⟩
    simp [hgo, hext, hidx] at h
    omega
  case exit =>
    intro s g pc ie hopen hsaved
    refine (if_pos hopen).trans ?_
    simp only [extEnd, setStw, hsaved]
  case log =>
    intro s hopen
    exact ⟨extLogCode, extLogCode_mem, if_pos hopen⟩
  case reel =>
    intro s hopen
    exact if_pos hopen
  case ply =>
    intro s k hopen hk hlt
    refine (if_pos hopen).trans ?_
    rw [← hk, if_pos hlt]
    rfl
  case noPly =>
    intro s hopen hle
    refine (if_pos hopen).trans ?_
    rw [if_neg (by omega)]
    rfl
  case post =>
    intro s len n hopen hsb hlen hn
    rw [exec_extPost hopen hsb, ← hlen, ← hn]
    refine ⟨fun h => ?_, fun h1 h2 h3 hbusy => ?_, fun h1 h2 h3 hfull hdue => ?_⟩
    · rw [if_pos h]
      rfl
    · rw [if_neg (by omega), if_pos (by simpa using hbusy)]
      rfl
    · rw [if_neg (by omega), if_neg (by simp [hfull, hdue])]
  case fault =>
    intro s f i hfh hext hi
    refine ⟨_, stwFault_extension f hfh hext hi, ?_⟩
    simp only [extFaulted, hi, logFault, setSys, setStw, extEnd, stwEnter, pushFault_extFaults, Option.getD_some]
    simp only [and_self]
  case closed =>
    intro s h
    exact ⟨if_neg (by simp [svcOpen_false_of_ended 1 h]), if_neg (by simp [svcOpen_false_of_ended 2 h]),
      if_neg (by simp [svcOpen_false_of_ended 3 h]), if_neg (by simp [svcOpen_false_of_ended 4 h]),
      if_neg (by simp [svcOpen_false_of_ended 5 h])⟩

end Sys2Proof.Machine
end

section
/-!
The system group of Yukin (O40).
-/

set_option Elab.async false

namespace Sys2Proof.Machine

/-! ### One instruction of the ready steward core -/

theorem stwRun_ok {body : State → Res State} {s t : State} (h : coreReady .steward s) (hb : body (stwFetched s) = .ok t) :
    stwRun body s = retire s.stw.ext t := by
  rw [stwRun_ready h, hb]

theorem stwRun_error {body : State → Res State} {s t : State} {f : Flt} (h : coreReady .steward s)
    (hb : body (stwFetched s) = .error (f, t)) : stwRun body s = stwFault f t := by
  rw [stwRun_ready h, hb]

theorem retire_of_not_ext (s : State) : retire false s = s := rfl

/-- An instruction retired, as an update of the budget. -/
theorem retire_eq (e : Bool) (s : State) :
    retire e s = { s with stw := { s.stw with xbudget := if e then s.stw.xbudget - 1 else s.stw.xbudget } } := by
  cases e <;> rfl

theorem privOp_ready_ext {body : State → Res State} {s : State} (h : coreReady .steward s) (hext : s.stw.ext = true) :
    privOp .steward body s = stwFault { cause := 2 } (stwFetched s) := by
  rw [privOp, stwRun_error (f := { cause := 2 }) (t := stwFetched s) h]
  simp only [stwFetched_ext, hext, if_true]
  rfl

theorem privOp_whorl {body : State → Res State} {s : State} (h : coreReady .whorl s) :
    privOp .whorl body s = contract 1 s := whlForbidden_ready h

/-! ### SVC -/

theorem svcTrap_of_known {code : Nat} {s : State} (h : s.stw.ext = false ∨ 1 ≤ code ∧ code ≤ 5) :
    svcTrap code s = stwEnter { cause := cSvc, svc := code } true (s.stw.pc + 4) s := by
  refine if_neg ?_
  rcases h with h | h <;> simp [h, svcKnown]

theorem svcTrap_of_unknown {code : Nat} {s : State} (hext : s.stw.ext = true) (h : code = 0 ∨ 5 < code) :
    svcTrap code s = stwReturn (setStw (fun w => { w with g := gSet w.g 1 0xFFFFFFFF })
      (stwEnter { cause := cSvc, svc := code } true (s.stw.pc + 4) s)) := by
  refine if_pos ?_
  simp [hext, svcKnown]
  omega

/-! ### The status register -/

theorem bitOf_ycStatus (w : Stw) : bitOf (BitVec.ofNat 32 (ycStatus w)) 4 = w.fh ∧ bitOf (BitVec.ofNat 32 (ycStatus w)) 3 = w.pext ∧
    bitOf (BitVec.ofNat 32 (ycStatus w)) 2 = w.pie ∧ bitOf (BitVec.ofNat 32 (ycStatus w)) 1 = w.ext ∧
    bitOf (BitVec.ofNat 32 (ycStatus w)) 0 = w.ie ∧ (BitVec.ofNat 32 (ycStatus w)).toNat < 32 := by
  unfold ycStatus
  generalize w.fh = a, w.pext = b, w.pie = c, w.ext = d, w.ie = e
  revert a b c d e
  decide

/-! ### The instructions on the ready steward -/

section
variable {s : State} (hc : coreReady .steward s)
include hc

theorem exec_sync_ready : exec (.sync .steward) s =
    .next (retire s.stw.ext (setStw (fun w => { w with pc := w.pc + 4 }) (drainAll (stwFetched s)))) :=
  congrArg Host.Outcome.next (stwRun_ok hc rfl)

theorem exec_brk_ready : exec (.brk .steward) s =
    .next (retire s.stw.ext (stwEnter { cause := cBrk } true (stwFetched s).stw.pc (stwFetched s))) :=
  congrArg Host.Outcome.next (stwRun_ok hc rfl)

theorem exec_svc_ready (code : BitVec 10) : exec (.svc .steward code) s =
    .next (retire s.stw.ext (svcTrap code.toNat (stwFetched s))) :=
  congrArg Host.Outcome.next (stwRun_ok hc rfl)

theorem exec_waitI_ready (hext : s.stw.ext = false) : exec (.waitI .steward) s =
    .next (setStw (fun w => { w with pc := w.pc + 4, waiting := !linePending w }) (stwFetched s)) :=
  congrArg Host.Outcome.next (privOp_ready_ok hc hext rfl)

theorem exec_mfc_ready (hext : s.stw.ext = false) (rd : GReg) (i : BitVec 5) : exec (.mfc .steward rd i) s =
    .next (setStw (fun w => { w with g := gSet w.g rd.toNat (ctlRead w i.toNat), pc := w.pc + 4 }) (stwFetched s)) :=
  congrArg Host.Outcome.next (privOp_ready_ok hc hext rfl)

theorem exec_mtc_ready (hext : s.stw.ext = false) (i : BitVec 5) (rb : GReg) : exec (.mtc .steward i rb) s =
    .next (setStw (fun w => { ctlWrite i.toNat (gGet w.g rb.toNat) w with pc := w.pc + 4 }) (stwFetched s)) :=
  congrArg Host.Outcome.next (privOp_ready_ok hc hext rfl)

end

/-- An index outside Table 4.17 reads 0. -/
theorem ctlRead_of_gt (w : Stw) {i : Nat} (h : 10 < i) : ctlRead w i = 0 := by
  match i, h with
  | i + 11, _ => rfl

theorem ctlWrite_of_gt (v : Word) (w : Stw) {i : Nat} (h : 10 < i) : ctlWrite i v w = w := by
  match i, h with
  | i + 11, _ => rfl

/-- The fetch leaves every control register as it was. -/
theorem ctlRead_stwFetched (s : State) (i : Nat) : ctlRead (stwFetched s).stw i = ctlRead s.stw i := by
  obtain ⟨m, n, hf⟩ := stwFetched_eq s
  rw [hf]
  unfold ctlRead
  split <;> rfl

/-- Settles O40. -/
theorem yukinSystemGroup : Obligations.YukinSystemGroup := by
  refine ⟨?traps, ?svc, ?mfc, ?mtc, ?priv, ?whorl, ?illegal, fun _ => rfl⟩
  case traps =>
    rintro s t hc rfl
    obtain ⟨m, n, hf⟩ := stwFetched_eq s
    refine ⟨exec_sync_ready hc, fun hsb => ?_, ?_, fun hext => ?_, fun hext => ?_⟩
    · rw [exec_sync_ready hc, drainAll_of_nil (by rw [hf]; exact hsb), retire_eq, coreDid, coreAfter, hf]
      rfl
    · rw [exec_brk_ready hc, retire_eq, hf]
      simp only [stwEnter, Bool.or_true]
      rfl
    · rw [exec_eret_ready hc hext, stwReturn_stwFetched]
    · rw [exec_waitI_ready hc hext, hf]
      simp only [setStw, linePending, ne_eq, decide_not, Bool.not_not]
  case svc =>
    rintro code s t hc rfl
    obtain ⟨m, n, hf⟩ := stwFetched_eq s
    refine ⟨fun h => ?_, fun hext h => ?_⟩
    · rw [exec_svc_ready hc, svcTrap_of_known (by rw [hf]; exact h), retire_eq, hf]
      simp only [stwEnter, setStw, Bool.or_true]
      rfl
    · rw [exec_svc_ready hc, svcTrap_of_unknown (by rw [hf]; exact hext) h, retire_eq, hf]
      simp only [stwEnter, stwReturn, setStw, hext]
      rfl
  case mfc =>
    rintro rd i s w hc hext rfl
    refine ⟨ctlRead s.stw i.toNat, ?_, ?_⟩
    · rw [exec_mfc_ready hc hext]
      simp only [setStw, coreSets, coreDid, coreAfter, ctlRead_stwFetched, stwFetched_g, stwFetched_pc, stwFetched_ext, hext]
      rfl
    · refine ⟨?_, ?_, ?_, ?_, ?_, ?_, ?_, ?_, ?_, ?_, ctlRead_of_gt s.stw, ?status⟩
      case status =>
        rintro rfl
        exact bitOf_ycStatus s.stw
      all_goals
        rintro rfl
        rfl
  case mtc =>
    rintro i rb s t v hc hext rfl rfl
    refine ⟨ctlWrite i.toNat (gGet s.stw.g rb.toNat) (stwFetched s).stw, ?_, ?_⟩
    · rw [exec_mtc_ready hc hext]
      simp only [setStw, stwFetched_g, stwFetched_pc]
    · refine ⟨?_, ?_, ?_, ?_, ?_, ?_, ?_, ?_, ?undefined⟩
      case undefined =>
        rintro (rfl | rfl | rfl | h)
        · rfl
        · rfl
        · rfl
        · exact ctlWrite_of_gt _ _ h
      all_goals
        rintro rfl
        rfl
  case priv =>
    rintro i r s t hc hext rfl
    exact ⟨congrArg Host.Outcome.next (privOp_ready_ext hc hext), congrArg Host.Outcome.next (privOp_ready_ext hc hext),
      congrArg Host.Outcome.next (privOp_ready_ext hc hext), congrArg Host.Outcome.next (privOp_ready_ext hc hext)⟩
  case whorl =>
    rintro i r code s t hc rfl
    exact ⟨congrArg Host.Outcome.next (coreRun_ready .whorl _ hc), congrArg Host.Outcome.next (privOp_whorl hc),
      congrArg Host.Outcome.next (privOp_whorl hc), congrArg Host.Outcome.next (privOp_whorl hc),
      congrArg Host.Outcome.next (privOp_whorl hc), congrArg Host.Outcome.next (whlForbidden_ready hc),
      congrArg Host.Outcome.next (whlForbidden_ready hc)⟩
  case illegal =>
    refine fun c w s => ⟨fun hc hw => ?_, fun hw => congrArg Host.Outcome.next (if_pos hw)⟩
    exact congrArg Host.Outcome.next ((if_neg (by simp [hw])).trans (coreRun_illegal hc))

end Sys2Proof.Machine
end

section
/-!
The stores and the segment registers of Yukin (O38), and its long instructions (O39).
-/

set_option Elab.async false

namespace Sys2Proof.Machine

/-! ### Numbers in memory -/

theorem ofLE_append (a b : List Byte) : ofLE (a ++ b) = ofLE a + 256 ^ a.length * ofLE b := by
  induction a with
  | nil => simp [ofLE]
  | cons x a ih =>
    simp only [ofLE, List.cons_append, List.length_cons] at ih ⊢
    rw [ih, Nat.mul_add, Nat.pow_succ, Nat.mul_comm (256 ^ a.length) 256, Nat.mul_assoc, Nat.add_assoc]

theorem ofLE_lt (a : List Byte) : ofLE a < 256 ^ a.length := by
  induction a with
  | nil => simp [ofLE]
  | cons x a ih =>
    have := x.isLt
    simp only [ofLE, List.length_cons, Nat.pow_succ]
    omega

theorem Mem.num_lt (m : Mem) (a n : Nat) : m.num a n < 256 ^ n := by
  simpa [Mem.num, Mem.bytes] using ofLE_lt (m.bytes a n)

theorem Mem.bytes_add (m : Mem) (a n k : Nat) : m.bytes a (n + k) = m.bytes a n ++ m.bytes (a + n) k := by
  simp [Mem.bytes, List.range_add, Nat.add_assoc]

/-- A number in memory, cut in two. -/
theorem Mem.num_add (m : Mem) (a n k : Nat) : m.num a (n + k) = m.num a n + 256 ^ n * m.num (a + n) k := by
  rw [Mem.num, Mem.bytes_add, ofLE_append]
  simp [Mem.num, Mem.bytes]

/-- The first three words of a descriptor of 16 bytes. -/
theorem Mem.descriptor_words (m : Mem) (a : Nat) : BitVec.ofNat 32 (m.num a 16) = BitVec.ofNat 32 (m.num a 4) ∧
    BitVec.ofNat 32 (m.num a 16 / 2 ^ 32) = BitVec.ofNat 32 (m.num (a + 4) 4) ∧
    BitVec.ofNat 32 (m.num a 16 / 2 ^ 64) = BitVec.ofNat 32 (m.num (a + 8) 4) := by
  have hcut : m.num a 16 = m.num a 4 + 2 ^ 32 * (m.num (a + 4) 4 + 2 ^ 32 * (m.num (a + 8) 4 + 2 ^ 32 * m.num (a + 12) 4)) := by
    rw [Mem.num_add m a 4 12, Mem.num_add m (a + 4) 4 8, Mem.num_add m (a + 8) 4 4] <;> rfl
  have h0 : m.num a 4 < 2 ^ 32 := Mem.num_lt m a 4
  have h1 : m.num (a + 4) 4 < 2 ^ 32 := Mem.num_lt m (a + 4) 4
  have h2 : m.num (a + 8) 4 < 2 ^ 32 := Mem.num_lt m (a + 8) 4
  rw [hcut]
  refine ⟨?_, ?_, ?_⟩ <;> apply BitVec.eq_of_toNat_eq <;> simp only [BitVec.toNat_ofNat] <;> omega

/-! ### The fetch leaves what the checks and the buffer look at -/

theorem stwCheck_stwFetched (s : State) (sg : Nat) (off : Word) (size : Nat) (k : Access) :
    stwCheck (stwFetched s) sg off size k = stwCheck s sg off size k := by
  obtain ⟨m, n, hf⟩ := stwFetched_eq s
  rw [hf]
  rfl

theorem stwFetched_sb (s : State) : (stwFetched s).stw.sb = s.stw.sb := by
  obtain ⟨m, n, hf⟩ := stwFetched_eq s
  rw [hf]

theorem stwFetched_seg (s : State) : (stwFetched s).stw.seg = s.stw.seg := by
  obtain ⟨m, n, hf⟩ := stwFetched_eq s
  rw [hf]

theorem effOff_stwFetched (s : State) (rb : GReg) (imm : BitVec 12) :
    effOff (stwFetched s).stw.g rb imm = gGet s.stw.g rb.toNat + imm.signExtend 32 := by
  rw [effOff, stwFetched_g]
  rfl

/-! ### Stores -/

/-- The stores: instruction, size, the bits of the register that are stored. -/
def storeRows : List ((Core → GReg → GReg → BitVec 4 → BitVec 12 → Instr) × Nat × Word) :=
  [(.sb, 1, 0xFF), (.sh, 2, 0xFFFF), (.sw, 4, 0xFFFFFFFF)]

theorem exec_storeRow {op : (Core → GReg → GReg → BitVec 4 → BitVec 12 → Instr) × Nat × Word} (h : op ∈ storeRows) :
    op.2.2 = fieldMask 0 (8 * op.2.1) ∧ ∀ (c : Core) (r rb : GReg) (sg : BitVec 4) (imm : BitVec 12) (s : State),
      exec (op.1 c r rb sg imm) s = .next (storeOp c r rb sg imm op.2.1 s) := by
  simp only [storeRows, List.mem_cons, List.not_mem_nil, or_false] at h
  rcases h with rfl | rfl | rfl <;> exact ⟨by decide, fun _ _ _ _ _ _ => rfl⟩

section
variable {s : State} {sg : BitVec 4} {imm : BitVec 12} {r rb : GReg} {off : Word} {size : Nat} (hc : coreReady .steward s)
  (hoff : off = gGet s.stw.g rb.toNat + imm.signExtend 32)
include hc hoff

/-- A store whose check passes enters the buffer. -/
theorem storeOp_ready {pa : Nat} (h : stwCheck s sg.toNat off size .write = .ok pa) : storeOp .steward r rb sg imm size s =
    retire s.stw.ext (setStw (fun w => { w with pc := w.pc + 4 })
      (sbPush ⟨pa, size, gGet s.stw.g r.toNat &&& fieldMask 0 (8 * size)⟩ (stwFetched s))) := by
  rw [storeOp]
  refine stwRun_ok hc ?_
  rw [effOff_stwFetched, ← hoff, stwFetched_g, stwStore, stwCheck_stwFetched, h]
  rfl

theorem storeOp_fault {f : Flt} (h : stwCheck s sg.toNat off size .write = .error f) :
    storeOp .steward r rb sg imm size s = stwFault f (stwFetched s) := by
  rw [storeOp]
  refine stwRun_error hc ?_
  rw [effOff_stwFetched, ← hoff, stwStore, stwCheck_stwFetched, h]
  rfl

end

theorem sbPush_of_room {e : SbEntry} {s : State} (h : s.stw.sb.length < 8) :
    sbPush e s = setStw (fun w => { w with sb := w.sb ++ [e] }) s := by
  rw [sbPush, if_neg (by omega)]

theorem sbPush_of_full {e : SbEntry} {s : State} (h : 8 ≤ s.stw.sb.length) :
    sbPush e s = setStw (fun w => { w with sb := w.sb ++ [e] }) (drainOne s) := by
  rw [sbPush, if_pos h]

theorem leBytes_getD {n v i : Nat} (h : i < n) : (leBytes n v).getD i 0 = BitVec.ofNat 8 (v / 256 ^ i) := by
  simp [leBytes, byteOf, h, Nat.pow_mul]

theorem leBytes_length (n v : Nat) : (leBytes n v).length = n := by
  simp [leBytes]

/-! ### Segment registers -/

theorem segIllegal_of_ge {r : GReg} (h : 16 ≤ r.toNat) : segIllegal r = true := by simpa [segIllegal] using h
theorem segIllegal_of_lt {r : GReg} (h : r.toNat < 16) : segIllegal r = false := by simpa [segIllegal] using h
theorem segNum_of_lt {r : GReg} (h : r.toNat < 16) : segNum r = r.toNat := Nat.mod_eq_of_lt h

theorem exec_segld_of_lt {r : GReg} (h : r.toNat < 16) (c : Core) (rb : GReg) (sg : BitVec 4) (imm : BitVec 12) (s : State) :
    exec (.segld c r rb sg imm) s =
      .next (privOp c (fun t => segldBody r.toNat sg.toNat (effOff t.stw.g rb imm) t) s) := by
  show execSegld c r rb sg imm s = _
  rw [execSegld, segIllegal_of_lt h, segNum_of_lt h]
  rfl

theorem exec_segst_of_lt {r : GReg} (h : r.toNat < 16) (c : Core) (rb : GReg) (sg : BitVec 4) (imm : BitVec 12) (s : State) :
    exec (.segst c r rb sg imm) s =
      .next (privOp c (fun t => segstBody r.toNat sg.toNat (effOff t.stw.g rb imm) t) s) := by
  show execSegst c r rb sg imm s = _
  rw [execSegst, segIllegal_of_lt h, segNum_of_lt h]
  rfl

theorem privOp_ready_error {body : State → Res State} {s t : State} {f : Flt} (h : coreReady .steward s) (hext : s.stw.ext = false)
    (hb : body (stwFetched s) = .error (f, t)) : privOp .steward body s = stwFault f t := by
  rw [privOp]
  refine stwRun_error h ?_
  rw [stwFetched_ext, hext]
  exact hb

/-- Entries enter a buffer with room for them all. -/
theorem foldl_sbPush : ∀ (es : List SbEntry) (s : State), s.stw.sb.length + es.length ≤ 8 →
    es.foldl (fun u e => sbPush e u) s = setStw (fun w => { w with sb := w.sb ++ es }) s
  | [], s, _ => by simp [setStw]
  | e :: es, s, h => by
    rw [List.length_cons] at h
    rw [List.foldl_cons, sbPush_of_room (by omega), foldl_sbPush es _ (by simp [setStw]; omega)]
    simp [setStw]

/-- The four words of SEGST enter a buffer with room for them. -/
theorem segst_pushes {s : State} (h : s.stw.sb.length ≤ 4) (pa : Nat) (a b c d : Word) :
    ([a, b, c, d].zipIdx).foldl (fun u y => sbPush { pa := pa + 4 * y.2, size := 4, val := y.1 } u) s =
      setStw (fun w => { w with sb := w.sb ++ [⟨pa, 4, a⟩, ⟨pa + 4, 4, b⟩, ⟨pa + 8, 4, c⟩, ⟨pa + 12, 4, d⟩] }) s := by
  have hpush := foldl_sbPush ([a, b, c, d].zipIdx.map fun y => ⟨pa + 4 * y.2, 4, y.1⟩) s
    (by rw [List.length_map, List.length_zipIdx]; exact Nat.add_le_add_right h 4)
  rw [List.foldl_map] at hpush
  exact hpush

/-- A load of SRAM that no buffered store overlaps. -/
theorem stwLoad_sram {sg : Nat} {off : Word} {size pa : Nat} {s : State} (hok : stwCheck s sg off size .read = .ok pa)
    (hdv : segDv s sg = false) (hover : s.stw.sb.reverse.find? (sbOverlaps pa size) = none) (hpa : pa < 0x100000)
    (hecc : eccHit s.stw pa size = false) :
    stwLoad sg off size s = .ok (s.stw.sram.num pa size, eccFix pa size s) := by
  simp only [stwLoad, hok, hdv, hover, hecc, memRead, hpa, if_true]
  rfl

theorem segDv_stwFetched (s : State) (sg : Nat) : segDv (stwFetched s) sg = segDv s sg := by
  rw [segDv, stwFetched_seg]
  rfl

theorem eccHit_stwFetched (s : State) (pa size : Nat) : eccHit (stwFetched s).stw pa size = eccHit s.stw pa size := by
  obtain ⟨m, n, hf⟩ := stwFetched_eq s
  rw [hf]
  rfl

theorem stwFetched_sram (s : State) : (stwFetched s).stw.sram = s.stw.sram := by
  obtain ⟨m, n, hf⟩ := stwFetched_eq s
  rw [hf]

/-- The base or the rights of a descriptor are not those of a segment (R224). -/
theorem descriptor_bad_iff {b k : Nat} (hb : b < 2 ^ 32) (hk : k < 2 ^ 32) :
    ((BitVec.ofNat 32 b).toNat % 4 ≠ 0 ∨ 64 ≤ (BitVec.ofNat 32 k).toNat) ↔ ¬ (b % 4 = 0 ∧ k < 64) := by
  rw [BitVec.toNat_ofNat, BitVec.toNat_ofNat, Nat.mod_eq_of_lt hb, Nat.mod_eq_of_lt hk]
  omega

/-- Settles O38. -/
theorem yukinStores : Obligations.YukinStores := by
  refine ⟨?stw, ?whl, ?drain, fun s h => ?_, ?segs, ?illegal⟩
  case stw =>
    intro op hop r rb sg imm s off v hc hoff hv
    obtain ⟨hmask, hexec⟩ := exec_storeRow hop
    rw [hmask] at hv
    refine ⟨?_, ?_, fun f hf => ?_⟩
    · rintro pa t hok hroom rfl
      rw [hexec, storeOp_ready hc hoff hok, ← hv, sbPush_of_room (by rw [stwFetched_sb]; exact hroom), retire_eq]
      simp only [setStw, coreDid, coreAfter, stwFetched_sb, stwFetched_g, stwFetched_pc, stwFetched_ext]
    · rintro pa u hok hfull rfl
      rw [hexec, storeOp_ready hc hoff hok, ← hv, sbPush_of_full (by rw [stwFetched_sb]; exact hfull)]
      rfl
    · rw [hexec, storeOp_fault hc hoff hf]
  case whl =>
    rintro op hop r rb sg imm s sl off v hc hsl rfl hv
    obtain ⟨sl', h0, h1, h2⟩ := hc
    obtain rfl : sl' = sl := Option.some.inj (h0.symm.trans hsl)
    obtain ⟨hmask, hexec⟩ := exec_storeRow hop
    rw [hmask] at hv
    refine ⟨fun u t h => ?_, fun c h => ?_⟩ <;> rw [hexec, storeOp, whlRun_ready h0 h1 h2] <;> simp only [effOff, sext12, ← hv, h] <;> rfl
  case drain =>
    intro s e rest hruns hsb
    have hexec : exec .storeBufferDrain s = .next (memWrite e (setStw (fun w => { w with sb := rest }) s)) := by
      show execStoreBufferDrain s = _
      rw [execStoreBufferDrain, if_pos hruns, drainOne, hsb]
    refine ⟨fun hpa hwf => ⟨s.stw.sram.write e.pa (leBytes e.size e.val.toNat), ?_, fun i hi => ?_, fun a ha => ?_⟩, fun hpa => ?_⟩
    · rw [hexec, memWrite, if_pos hpa]
      rfl
    · rw [Mem.byte_write _ _ _ _ hwf (by rw [leBytes_length]; exact hi), leBytes_getD hi]
    · exact Mem.byte_write_outside _ _ _ _ hwf (by rw [leBytes_length]; exact ha)
    · rw [hexec, memWrite, if_neg (by omega)]
      rfl
  case segs =>
    rintro r rb sg imm s t off hc hr hoff rfl
    have hoff' := (effOff_stwFetched s rb imm).trans hoff.symm
    refine ⟨?ld, ?st, ?fault, fun hext => ?priv⟩
    case ld =>
      rintro pa b l k u hext hok hdv hsb hpa hecc rfl rfl rfl rfl
      have hload : stwLoad sg.toNat off 16 (stwFetched s) = .ok (s.stw.sram.num pa 16, eccFix pa 16 (stwFetched s)) := by
        rw [← stwFetched_sram]
        exact stwLoad_sram ((stwCheck_stwFetched ..).trans hok) ((segDv_stwFetched ..).trans hdv)
          (by rw [stwFetched_sb, hsb]; rfl) hpa ((eccHit_stwFetched ..).trans hecc)
      obtain ⟨hbase, hlimit, hrights⟩ := Mem.descriptor_words s.stw.sram pa
      have hbad := descriptor_bad_iff (Mem.num_lt s.stw.sram pa 4) (Mem.num_lt s.stw.sram (pa + 8) 4)
      rw [exec_segld_of_lt hr]
      refine congrArg Host.Outcome.next ?_
      by_cases hgood : s.stw.sram.num pa 4 % 4 = 0 ∧ s.stw.sram.num (pa + 8) 4 < 64
      · rw [if_pos hgood]
        refine privOp_ready_ok hc hext ?_
        simp only [hoff', segldBody, hload, hbase, hlimit, hrights]
        rw [if_neg (by rw [hbad]; exact fun h => h hgood)]
        simp only [setStw, eccFix, stwFetched_seg, stwFetched_pc]
      · rw [if_neg hgood]
        refine privOp_ready_error hc hext ?_
        simp only [hoff', segldBody, hload, hbase, hlimit, hrights]
        rw [if_pos (hbad.mpr hgood)]
        rfl
    case st =>
      rintro pa x hext hok hroom rfl
      rw [exec_segst_of_lt hr]
      refine congrArg Host.Outcome.next (privOp_ready_ok hc hext ?_)
      rw [hoff', segstBody, stwCheck_stwFetched, hok]
      refine congrArg Except.ok ?_
      rw [segst_pushes (by rw [stwFetched_sb]; exact hroom), stwFetched_seg]
      simp only [setStw, stwFetched_sb, stwFetched_pc]
    case fault =>
      intro f hext hf
      rw [exec_segst_of_lt hr]
      refine congrArg Host.Outcome.next (privOp_ready_error hc hext ?_)
      rw [hoff', segstBody, stwCheck_stwFetched, hf]
    case priv =>
      rw [exec_segld_of_lt hr, exec_segst_of_lt hr, privOp_ready_ext hc hext, privOp_ready_ext hc hext]
      exact ⟨rfl, rfl⟩
  case illegal =>
    intro c r rb sg imm s hc hr
    rcases Nat.lt_or_ge r.toNat 16 with hlt | hge
    · obtain rfl : c = .whorl := hr.resolve_left (by omega)
      rw [exec_segld_of_lt hlt, exec_segst_of_lt hlt, privOp_whorl hc, privOp_whorl hc]
      exact ⟨rfl, rfl⟩
    · have hill := segIllegal_of_ge hge
      exact ⟨congrArg Host.Outcome.next ((if_pos hill).trans (coreRun_illegal hc)),
        congrArg Host.Outcome.next ((if_pos hill).trans (coreRun_illegal hc))⟩
  · show execStoreBufferDrain s = _
    rw [execStoreBufferDrain, drainOne, h]
    split <;> rfl

/-! ### Long instructions -/

/-- The bytes that a long instruction moves at once (R225). -/
theorem elemSize_one (o g3 : Word) : elemSize [o] g3 = if o.toNat % 4 = 0 ∧ 4 ≤ g3.toNat then 4 else 1 := by
  simp [elemSize]

theorem elemSize_two (o p g3 : Word) :
    elemSize [o, p] g3 = if o.toNat % 4 = 0 ∧ p.toNat % 4 = 0 ∧ 4 ≤ g3.toNat then 4 else 1 := by
  simp [elemSize, and_assoc]

section
variable {used : List Nat} {elem : Nat → State → Res State} {s : State} (hc : coreReady .steward s)
include hc

theorem longOp_done (h : gGet s.stw.g 3 = 0) : longOp used elem s = coreDid .steward s.stw.g (s.stw.pc + 4) s := by
  rw [longOp, stwRun_ok (t := setStw (fun w => { w with pc := w.pc + 4 }) (stwFetched s)) hc, retire_eq]
  · simp only [setStw, coreDid, coreAfter, stwFetched_g, stwFetched_pc, stwFetched_ext]
  · simp only [stwFetched_g, h, if_true]

/-- The general registers after an element of `n` bytes: `g` with g3 and the offsets in `used` moved on. -/
def longRegs (used : List Nat) (g3 : Word) (n : Nat) (g : Tab Word) : Tab Word :=
  used.foldl (fun m r => gSet m r (gGet m r + BitVec.ofNat 32 n)) (gSet g 3 (g3 - BitVec.ofNat 32 n))

theorem longOp_elem {n : Nat} {u : State} (h : gGet s.stw.g 3 ≠ 0) (hn : n = elemSize (used.map (gGet s.stw.g)) (gGet s.stw.g 3))
    (helem : elem n (stwFetched s) = .ok u) : longOp used elem s = retire s.stw.ext (setStw (fun w => { w with
      g := longRegs used (gGet s.stw.g 3) n w.g, pc := if (gGet s.stw.g 3).toNat = n then w.pc + 4 else w.pc }) u) := by
  refine stwRun_ok hc ?_
  simp only [stwFetched_g, h, if_false, ← hn, helem]
  rfl

theorem longOp_fault {n : Nat} {f : Flt} {u : State} (h : gGet s.stw.g 3 ≠ 0)
    (hn : n = elemSize (used.map (gGet s.stw.g)) (gGet s.stw.g 3)) (helem : elem n (stwFetched s) = .error (f, u)) :
    longOp used elem s = stwFault f u := by
  refine stwRun_error hc ?_
  simp only [stwFetched_g, h, if_false, ← hn, helem]
  rfl

end

theorem stwLoad_fault {sg : Nat} {off : Word} {size : Nat} {s : State} {f : Flt} (h : stwCheck s sg off size .read = .error f) :
    stwLoad sg off size s = .error (f, s) := by
  rw [stwLoad, h]

theorem byteOf_div (v i j : Nat) : byteOf (v / 2 ^ (8 * i)) j = byteOf v (i + j) := by
  rw [byteOf, byteOf, Nat.div_div_eq_div_mul, ← Nat.pow_add, Nat.mul_add]

/-- A word folded is its four bytes folded singly. -/
theorem crcFold_four (c : Word) (v : Nat) :
    crcFold c v 4 = crcFold (crcFold (crcFold (crcFold c v 1) (v / 256) 1) (v / 65536) 1) (v / 16777216) 1 := by
  have h1 : byteOf (v / 256) 0 = byteOf v 1 := byteOf_div v 1 0
  have h2 : byteOf (v / 65536) 0 = byteOf v 2 := byteOf_div v 2 0
  have h3 : byteOf (v / 16777216) 0 = byteOf v 3 := byteOf_div v 3 0
  simp [crcFold, crc32Fold, leBytes, List.range_succ, h1, h2, h3]

theorem wf_gSet {g : Tab Word} (r : Nat) (v : Word) (h : Tab.wf (fun _ => 0) g = true) : Tab.wf (fun _ => 0) (gSet g r v) = true := by
  unfold gSet
  split
  · exact h
  · exact Tab.wf_set r v h

theorem fillWord_eq (g : Tab Word) (n : Nat) :
    fillWord g n = BitVec.ofNat 32 (bitsOf (gGet g 4) 0 8 * if n = 4 then 0x1010101 else 1) := by
  rw [fillWord]
  split
  · rfl
  · rw [Nat.mul_one]

/-- The general registers after an element of one offset register. -/
theorem gGet_longRegs_one {g : Tab Word} (hwf : Tab.wf (fun _ => 0) g = true) {r : Nat} (hr : r ≠ 0) (hr3 : r ≠ 3) (g3 : Word) (n q : Nat) :
    gGet (longRegs [r] g3 n g) q =
      if q = r then gGet g r + BitVec.ofNat 32 n else if q = 3 then g3 - BitVec.ofNat 32 n else gGet g q := by
  rw [longRegs, List.foldl_cons, List.foldl_nil, gGet_gSet r q _ (wf_gSet 3 _ hwf), gGet_gSet 3 r _ hwf, gGet_gSet 3 q _ hwf]
  simp only [hr, hr3, ne_eq, not_false_eq_true, and_true, if_false, show ¬ 3 = 0 by decide]

/-- Settles O39. -/
theorem yukinLongInstructions : Obligations.YukinLongInstructions := by
  refine ⟨?done, ?bmove, ?bfill, ?crc, crcFold_four, ?whorl, ?whorlCrc⟩
  case done =>
    intro sd ss s hc h
    exact ⟨congrArg Host.Outcome.next (longOp_done hc h), congrArg Host.Outcome.next (longOp_done hc h),
      congrArg Host.Outcome.next (longOp_done hc h)⟩
  case bmove =>
    rintro sd ss s t n hc rfl h hn
    rw [← elemSize_two] at hn
    have hexec : exec (.bmove .steward sd ss) s = .next (longOp [1, 2] (bmoveElem sd.toNat ss.toNat) s) := rfl
    refine ⟨?_, fun f hf => ?_⟩
    · rintro u g pw v hw hload hroom hg hpc rfl
      have helem : bmoveElem sd.toNat ss.toNat n (stwFetched s) = .ok (sbPush ⟨pw, n, BitVec.ofNat 32 v⟩ u) := by
        rw [bmoveElem, stwCheck_stwFetched, stwFetched_g, hw, hload]
        rfl
      rw [hexec, longOp_elem hc h hn helem, sbPush_of_room hroom]
      simp only [setStw, hg, hpc]
      rfl
    · have helem : bmoveElem sd.toNat ss.toNat n (stwFetched s) = .error (f, stwFetched s) := by
        have hf' := (stwCheck_stwFetched s ss.toNat (gGet s.stw.g 1) n .read).trans hf
        rw [bmoveElem, stwFetched_g, stwLoad_fault hf', hf']
        cases stwCheck (stwFetched s) sd.toNat (gGet s.stw.g 2) n .write <;> rfl
      rw [hexec, longOp_fault hc h hn helem]
  case bfill =>
    intro sd s n hc h hn
    rw [← elemSize_one] at hn
    have hexec : exec (.bfill .steward sd) s =
      .next (longOp [2] (fun n t => stwStore sd.toNat (gGet t.stw.g 2) n (fillWord t.stw.g n) t) s) := rfl
    refine ⟨fun pa hok hroom => ?_, fun f hf => ?_⟩
    · have helem : stwStore sd.toNat (gGet (stwFetched s).stw.g 2) n (fillWord (stwFetched s).stw.g n) (stwFetched s) =
          .ok (sbPush ⟨pa, n, fillWord s.stw.g n⟩ (stwFetched s)) := by
        rw [stwStore, stwCheck_stwFetched, stwFetched_g, hok]
      refine ⟨_, longRegs [2] (gGet s.stw.g 3) n s.stw.g, ?_, rfl, fun hwf => ⟨?_, ?_, fun r h2 h3 => ?_⟩⟩
      · rw [hexec, longOp_elem hc h hn helem, sbPush_of_room (by rw [stwFetched_sb]; exact hroom), retire_eq]
        simp only [setStw, coreDid, coreAfter, stwFetched_sb, stwFetched_g, stwFetched_pc, stwFetched_ext, fillWord_eq]
      · rw [gGet_longRegs_one hwf (by decide) (by decide), if_pos rfl]
      · rw [gGet_longRegs_one hwf (by decide) (by decide), if_neg (by decide), if_pos rfl]
      · rw [gGet_longRegs_one hwf (by decide) (by decide), if_neg h2, if_neg h3]
    · have helem : stwStore sd.toNat (gGet (stwFetched s).stw.g 2) n (fillWord (stwFetched s).stw.g n) (stwFetched s) =
          .error (f, stwFetched s) := by
        rw [stwStore, stwCheck_stwFetched, stwFetched_g, hf]
      rw [hexec, longOp_fault hc h hn helem]
  case crc =>
    intro ss s u n v hc h hn hload hg hpc hext
    rw [← elemSize_one] at hn
    have hexec : exec (.crc32 .steward ss) s = .next (longOp [1] (crcElem ss.toNat) s) := rfl
    have helem : crcElem ss.toNat n (stwFetched s) = .ok (setStw (fun w => { w with g := gSet w.g 5 (crcFold (gGet w.g 5) v n) }) u) := by
      rw [crcElem, stwFetched_g, hload]
      rfl
    refine ⟨longRegs [1] (gGet s.stw.g 3) n (gSet s.stw.g 5 (crcFold (gGet s.stw.g 5) v n)), ?_, fun hwf => ⟨?_, ?_, ?_, fun r h1 h3 h5 => ?_⟩⟩
    · rw [hexec, longOp_elem hc h hn helem, retire_eq]
      simp only [setStw, coreAfter, hg, hpc, hext]
    all_goals rw [gGet_longRegs_one (wf_gSet _ _ hwf) (by decide) (by decide), gGet_gSet _ _ _ hwf]
    · rfl
    · rfl
    · rw [if_neg (by decide), if_neg (by decide), gGet_gSet _ _ _ hwf, if_pos (by decide)]
    · rw [if_neg h1, if_neg h3, gGet_gSet _ _ _ hwf, if_neg (fun h => h5 h.1)]
  case whorl =>
    intro sd ss s hc
    have hc' := hc
    obtain ⟨sl, h0, h1, h2⟩ := hc'
    have hexec : exec (.crc32 .whorl ss) s = .next (whlRun (fun t sl => whlCrc ss.toNat t sl) s) := rfl
    have hg : coreG .whorl s = sl.g := by simp only [coreG, h0]; rfl
    refine ⟨congrArg Host.Outcome.next (whlForbidden_ready hc), congrArg Host.Outcome.next (whlForbidden_ready hc), fun h => ?_, fun h => ?_⟩
    · rw [hg] at h
      rw [hexec, whlRun_ready h0 h1 h2, whlCrc, if_pos h]
      rfl
    · have hpc : corePc .whorl s = sl.pc := by simp only [corePc, h0]; rfl
      rw [hg] at h
      rw [hexec, whlRun_ready h0 h1 h2, whlCrc, h, hg, hpc, coreDid, coreAfter, h0]
      rfl
  case whorlCrc =>
    intro ss s sl u n v hc hsl h hle hn hload
    obtain ⟨sl', h0, h1, h2⟩ := hc
    obtain rfl : sl' = sl := Option.some.inj (h0.symm.trans hsl)
    rw [← elemSize_one] at hn
    have hexec : exec (.crc32 .whorl ss) s = .next (whlRun (fun t sl => whlCrc ss.toNat t sl) s) := rfl
    let g5 := gSet u.g 5 (crcFold (gGet u.g 5) v n)
    refine ⟨gSet (gSet g5 1 (gGet g5 1 + BitVec.ofNat 32 n)) 3 (gGet sl'.g 3 - BitVec.ofNat 32 n), ?_⟩
    rw [hexec, whlRun_ready h0 h1 h2, whlCrc, if_neg (by omega), if_neg h]
    simp only [← hn, hload]
    rfl

end Sys2Proof.Machine
end

section
/-!
The loads of Yukin (O37). A load through a device segment drains the store buffer, so that the section first shows that no
write of a block register touches the count of corrected words.
-/

set_option Elab.async false

namespace Sys2Proof.Machine

/-! ### A write of a block register leaves the count of corrected words -/

theorem foldl_eccCorr {α : Type} {f : State → α → State} (hf : ∀ t x, (f t x).sys.eccCorr = t.sys.eccCorr) :
    ∀ (l : List α) (s : State), (l.foldl f s).sys.eccCorr = s.sys.eccCorr
  | [], _ => rfl
  | x :: l, s => (foldl_eccCorr hf l (f s x)).trans (hf s x)

theorem pushFault_eccCorr (r : FaultRec) (y : Sys) : (pushFault r y).eccCorr = y.eccCorr := by
  unfold pushFault
  split <;> rfl

@[simp] theorem logFault_eccCorr (c b : Nat) (d : List Byte) (s : State) : (logFault c b d s).sys.eccCorr = s.sys.eccCorr :=
  pushFault_eccCorr _ _

@[simp] theorem flyHalt_eccCorr (f : Nat) (s : State) : (flyHalt f s).sys.eccCorr = s.sys.eccCorr :=
  (foldl_eccCorr (f := fun t p => pinSafe p t) (fun _ _ => rfl) _ _).trans rfl

@[simp] theorem flyStart_eccCorr (f : Nat) (s : State) : (flyStart f s).sys.eccCorr = s.sys.eccCorr := by
  unfold flyStart
  lift_lets
  intro e
  split <;> rfl

@[simp] theorem flyCtrlWrite_eccCorr (f : Nat) (v : Word) (s : State) : (flyCtrlWrite f v s).sys.eccCorr = s.sys.eccCorr := by
  unfold flyCtrlWrite
  lift_lets
  intro was s1
  have h : s1.sys.eccCorr = s.sys.eccCorr := rfl
  split
  · simp [h]
  · split <;> simp [h]

@[simp] theorem flyFlag_eccCorr (f i : Nat) (s : State) : (flyFlag f i s).sys.eccCorr = s.sys.eccCorr := by
  unfold flyFlag
  lift_lets
  intro w s1
  have h : s1.sys.eccCorr = s.sys.eccCorr := logFault_eccCorr ..
  split
  · rfl
  · split <;> exact h

@[simp] theorem actEnter_eccCorr (f : Nat) (w0 w1 : Word) (s : State) : (actEnter f w0 w1 s).sys.eccCorr = s.sys.eccCorr := by
  unfold actEnter
  dsimp only
  rw [setFlyer_sys]
  split
  · rw [flyFlag_eccCorr]
    split
    · rw [flyFlag_eccCorr]
    · rfl
  · split
    · rw [flyFlag_eccCorr]
    · rfl

@[simp] theorem actPost_eccCorr (f : Nat) (w0 w1 : Word) (s : State) : (actPost f w0 w1 s).sys.eccCorr = s.sys.eccCorr := by
  unfold actPost
  dsimp only
  split
  · rw [flyFlag_eccCorr]
    split <;> simp
  · split <;> simp

@[simp] theorem flyPush_eccCorr (f : Nat) (v : Word) (s : State) : (flyPush f v s).sys.eccCorr = s.sys.eccCorr := by
  unfold flyPush
  split <;> simp

@[simp] theorem flyIrqWrite_eccCorr (f : Nat) (v : Word) (s : State) : (flyIrqWrite f v s).sys.eccCorr = s.sys.eccCorr := by
  unfold flyIrqWrite
  dsimp only
  split <;> rfl

@[simp] theorem gpioApply_eccCorr (b : Nat) (s : State) : (gpioApply b s).sys.eccCorr = s.sys.eccCorr := by
  refine foldl_eccCorr (fun t i => ?_) _ _
  dsimp only
  split <;> rfl

@[simp] theorem pageWrite_eccCorr (b o : Nat) (v : Word) (s : State) : (pageWrite b o v s).sys.eccCorr = s.sys.eccCorr := by
  unfold pageWrite
  dsimp only
  split <;> rfl

@[simp] theorem flyBusWrite_eccCorr (o : Nat) (v : Word) (s : State) : (flyBusWrite o v s).sys.eccCorr = s.sys.eccCorr := by
  unfold flyBusWrite
  dsimp only
  split
  · split
    · simp
    · split <;> rfl
    · split <;> simp
    · split <;> simp
    · simp
    · rfl
  · split
    · split <;> simp
    · split <;> simp

@[simp] theorem mdioWrite_eccCorr (v : Word) (s : State) : (mdioWrite v s).sys.eccCorr = s.sys.eccCorr := by
  unfold mdioWrite
  split
  · split <;> rfl
  · rfl

@[simp] theorem canEnable_eccCorr (n : Nat) (s : State) : (canEnable n s).sys.eccCorr = s.sys.eccCorr := by
  unfold canEnable
  split <;> rfl

@[simp] theorem canCtrlWrite_eccCorr (n : Nat) (v : Word) (s : State) : (canCtrlWrite n v s).sys.eccCorr = s.sys.eccCorr := by
  unfold canCtrlWrite
  dsimp only
  split
  · exact canEnable_eccCorr ..
  · split <;> rfl

@[simp] theorem canWinWrite_eccCorr (n off : Nat) (who : Owner) (v : Word) (s : State) :
    (canWinWrite n off who v s).sys.eccCorr = s.sys.eccCorr := by
  unfold canWinWrite canOwned
  dsimp only
  split
  · split
    · rfl
    · split
      · rfl
      · split
        · rfl
        · split <;> rfl
  · rfl

@[simp] theorem canBusWrite_eccCorr (o : Nat) (v : Word) (s : State) : (canBusWrite o v s).sys.eccCorr = s.sys.eccCorr := by
  unfold canBusWrite
  dsimp only
  split
  · rfl
  · split
    · simp
    · split
      · simp
      · rfl

@[simp] theorem postChange_eccCorr (k : Nat) (c : PlyChange) (s : State) : (postChange k c s).sys.eccCorr = s.sys.eccCorr := by
  unfold postChange
  split <;> rfl

@[simp] theorem chggoWrite_eccCorr (k : Nat) (v : Word) (s : State) : (chggoWrite k v s).sys.eccCorr = s.sys.eccCorr := by
  unfold chggoWrite
  split <;> simp

@[simp] theorem sknTxOn_eccCorr (l kind : Nat) (o : SkOut) (s : State) : (sknTxOn l kind o s).sys.eccCorr = s.sys.eccCorr := by
  unfold sknTxOn
  split <;> rfl

@[simp] theorem sendTopology_eccCorr (s : State) : (sendTopology s).sys.eccCorr = s.sys.eccCorr := by
  simp only [sendTopology, sknTxOn_eccCorr]
  rfl

@[simp] theorem linkLost_eccCorr (l : Nat) (s : State) : (linkLost l s).sys.eccCorr = s.sys.eccCorr := by
  unfold linkLost
  dsimp only
  split
  · rfl
  · split
    · rw [sendTopology_eccCorr]
      rfl
    · rw [sknTxOn_eccCorr]
      rfl

@[simp] theorem lcfgWrite_eccCorr (l : Nat) (v : Word) (s : State) : (lcfgWrite l v s).sys.eccCorr = s.sys.eccCorr := by
  unfold lcfgWrite
  dsimp only
  split
  · rw [setLink_sys]
    split
    · rw [linkLost_eccCorr]
      rfl
    · rfl
  · split <;> rfl

@[simp] theorem modesChanged_eccCorr (b s : State) : (modesChanged b s).sys.eccCorr = s.sys.eccCorr := by
  refine foldl_eccCorr (fun t k => ?_) _ _
  split <;> rfl

@[simp] theorem oemWrite_eccCorr (o : Nat) (v : Word) (s : State) : (oemWrite o v s).sys.eccCorr = s.sys.eccCorr := by
  unfold oemWrite oemKept
  dsimp only
  split <;> rfl

@[simp] theorem rovFlag_eccCorr (bit : Nat) (s : State) : (rovFlag bit s).sys.eccCorr = s.sys.eccCorr := by
  unfold rovFlag
  dsimp only
  split
  · rfl
  · rw [logFault_eccCorr]
    rfl

@[simp] theorem hdataAccess_eccCorr (w : Option Word) (s : State) : (hdataAccess w s).sys.eccCorr = s.sys.eccCorr := by
  unfold hdataAccess
  dsimp only
  split
  · rfl
  · split
    · rw [rovFlag_eccCorr]
      rfl
    · rfl

@[simp] theorem ringDoorbell_eccCorr (n : Nat) (s : State) : (ringDoorbell n s).sys.eccCorr = s.sys.eccCorr := by
  unfold ringDoorbell
  dsimp only
  split <;> rfl

@[simp] theorem hstWrite_eccCorr (n o : Nat) (v : Word) (s : State) : (hstWrite n o v s).sys.eccCorr = s.sys.eccCorr := by
  unfold hstWrite hostFull
  dsimp only
  split
  · split
    · rw [ringDoorbell_eccCorr]
      rfl
    · rfl
  · rfl

@[simp] theorem vidWrite_eccCorr (v : Word) (s : State) : (vidWrite v s).sys.eccCorr = s.sys.eccCorr := by
  unfold vidWrite
  dsimp only
  split <;> rfl

@[simp] theorem endArriving_eccCorr (f : Frame) (bytes : List Byte) (bad trunc : Bool) (s : State) :
    (endArriving f bytes bad trunc s).sys.eccCorr = s.sys.eccCorr := by
  unfold endArriving
  split <;> rfl

@[simp] theorem thruEnd_eccCorr (p : Nat) (bytes : List Byte) (bad : Bool) (s : State) :
    (thruEnd p bytes bad s).sys.eccCorr = s.sys.eccCorr := by
  unfold thruEnd
  dsimp only
  split
  · rfl
  · split
    · split <;> rfl
    · rfl

@[simp] theorem linkDrop_eccCorr (p : Nat) (s : State) : (linkDrop p s).sys.eccCorr = s.sys.eccCorr := by
  unfold linkDrop
  dsimp only
  rw [setEport_sys]
  split <;> simp

@[simp] theorem ethPhyOff_eccCorr (p : Nat) (s : State) : (ethPhyOff p s).sys.eccCorr = s.sys.eccCorr := by
  unfold ethPhyOff
  dsimp only
  rw [setEport_sys]
  split <;> simp

@[simp] theorem ethPhyOn_eccCorr (p : Nat) (s : State) : (ethPhyOn p s).sys.eccCorr = s.sys.eccCorr := by
  unfold ethPhyOn
  split <;> rfl

@[simp] theorem bypeSet_eccCorr (n : Nat) (s : State) : (bypeSet n s).sys.eccCorr = s.sys.eccCorr := by
  unfold bypeSet
  dsimp only
  split
  · rfl
  · split
    · exact ethPhyOff_eccCorr ..
    · rfl

@[simp] theorem bypeClear_eccCorr (n : Nat) (s : State) : (bypeClear n s).sys.eccCorr = s.sys.eccCorr := by
  unfold bypeClear
  dsimp only
  split
  · split
    · rw [ethPhyOn_eccCorr]
      exact ethPhyOff_eccCorr ..
    · rfl
  · rfl

@[simp] theorem bypWrite_eccCorr (v : Word) (s : State) : (bypWrite v s).sys.eccCorr = s.sys.eccCorr := by
  refine (foldl_eccCorr (fun t n => ?_) _ _).trans rfl
  split <;> simp

@[simp] theorem chargerNote_eccCorr (s : State) : (chargerNote s).sys.eccCorr = s.sys.eccCorr := by
  rw [chargerNote_eq]

@[simp] theorem busWrite_eccCorr (a : Nat) (v : Word) (s : State) : (busWrite a v s).sys.eccCorr = s.sys.eccCorr := by
  unfold busWrite
  dsimp only
  split
  · split
    · rfl
    · split <;> rfl
  · simp
  · split <;> simp
  · simp
  · split <;> simp
  · split
    · simp
    · split <;> simp
  · split <;> simp
  · split <;> simp
  · split <;> simp
  · split <;> simp
  · split
    · simp
    · split
      · simp
      · split <;> simp
  · simp

/-! ### The drains, the reads of memory -/

theorem drainOne_eccCorr (s : State) : (drainOne s).sys.eccCorr = s.sys.eccCorr := by
  unfold drainOne
  split
  · rfl
  · unfold memWrite
    split
    · rfl
    · exact busWrite_eccCorr ..

theorem drainN_eccCorr : ∀ (n : Nat) (s : State), (drainN n s).sys.eccCorr = s.sys.eccCorr
  | 0, _ => rfl
  | n + 1, s => (drainN_eccCorr n (drainOne s)).trans (drainOne_eccCorr s)

/-- The fetch of a word leaves the count of corrected words within its 16 bits. -/
theorem eccCorr_stwFetched_le {s : State} (h : stwFetch s = none) : (stwFetched s).sys.eccCorr ≤ 0xFFFF := by
  unfold stwFetch at h
  unfold stwFetched
  cases hchk : stwCheck s (fetchSeg s) s.stw.pc 4 .fetch with
  | error f => simp [hchk] at h
  | ok pa => exact Nat.min_le_left _ _

/-- An address outside SRAM holds no word to correct. -/
theorem eccFix_outside {pa : Nat} (size : Nat) {s : State} (hpa : 0x100000 ≤ pa) (hcorr : s.sys.eccCorr ≤ 0xFFFF) :
    eccFix pa size s = s := by
  simp only [eccFix, if_neg (Nat.not_lt.mpr hpa), List.filter_nil, List.foldl_nil, List.length_nil, Nat.add_zero, Nat.min_eq_right hcorr]

theorem eccHit_outside {pa : Nat} (size : Nat) (w : Stw) (hpa : 0x100000 ≤ pa) : eccHit w pa size = false := by
  simp [eccHit, Nat.not_lt.mpr hpa]

/-! ### The check of an access -/

/-- The right that an access needs. -/
theorem segFault_none_iff (ext : Bool) (sg : Nat) (x : Seg) (off size : Nat) (k : Access) :
    segFault ext sg x off size k = none ↔ (ext = true → 8 ≤ sg ∧ bitOf x.rights 4 = true) ∧ bitOf x.rights 0 = true ∧
      bitOf x.rights (rightBit k) = true ∧ off % size = 0 ∧ off + size ≤ x.limit.toNat ∧ x.base.toNat + off < 2 ^ 32 := by
  unfold segFault
  split
  · next h =>
    simp only [Bool.and_eq_true, Bool.or_eq_true, decide_eq_true_eq, Bool.not_eq_true'] at h
    refine ⟨nofun, fun ⟨hext, _⟩ => ?_⟩
    obtain ⟨h8, h4⟩ := hext h.1
    rcases h.2 with hlow | hbit
    · omega
    · exact absurd (hbit.symm.trans h4) Bool.false_ne_true
  · next h =>
    have hext : ext = true → 8 ≤ sg ∧ bitOf x.rights 4 = true := by
      intro he
      simpa [he] using h
    split
    · next hvalid => exact ⟨nofun, fun ⟨_, h0, _⟩ => by simp [h0] at hvalid⟩
    · next hvalid =>
      split
      · next hright => exact ⟨nofun, fun ⟨_, _, h1, _⟩ => by simp [h1] at hright⟩
      · next hright =>
        split
        · next halign => exact ⟨nofun, fun ⟨_, _, _, h2, _⟩ => absurd h2 halign⟩
        · next halign =>
          split
          · next hlimit => exact ⟨nofun, fun ⟨_, _, _, _, h3, _⟩ => absurd hlimit (Nat.not_lt.mpr h3)⟩
          · next hlimit =>
            split
            · next hspace => exact ⟨nofun, fun ⟨_, _, _, _, _, h4⟩ => absurd h4 (Nat.not_lt.mpr hspace)⟩
            · next hspace =>
              refine ⟨fun _ => ⟨hext, ?_, ?_, Decidable.not_not.mp halign, Nat.not_lt.mp hlimit, Nat.not_le.mp hspace⟩, fun _ => rfl⟩
              · simpa using hvalid
              · simpa using hright

theorem stwCheck_ok_iff (s : State) (sg : Nat) (off : Word) (size pa : Nat) (k : Access) :
    stwCheck s sg off size k = .ok pa ↔
      segFault s.stw.ext sg (Tab.get (fun _ => {}) s.stw.seg sg) off.toNat size k = none ∧ mapped pa size k = true ∧
        pa = (Tab.get (fun _ => ({} : Seg)) s.stw.seg sg).base.toNat + off.toNat := by
  unfold stwCheck
  dsimp only
  split
  · next c h => simp only [h, reduceCtorEq, false_and]
  · next h =>
    split
    · next hm =>
      simp only [Except.ok.injEq, h, true_and]
      constructor
      · rintro rfl
        exact ⟨hm, rfl⟩
      · exact fun h => h.2.symm
    · next hm =>
      simp only [reduceCtorEq, h, true_and, false_iff, not_and]
      rintro hm' rfl
      exact hm hm'

/-! ### What a load of the steward gives -/

section
variable {sg : Nat} {off : Word} {size pa : Nat} {s : State} (hok : stwCheck s sg off size .read = .ok pa)
include hok

/-- The youngest store that overlaps holds every byte: it is forwarded. -/
theorem stwLoad_forwarded (hdv : segDv s sg = false) {e : SbEntry} (he : s.stw.sb.reverse.find? (sbOverlaps pa size) = some e)
    (hholds : e.pa ≤ pa ∧ pa + size ≤ e.pa + e.size) :
    stwLoad sg off size s = .ok (e.val.toNat / 2 ^ (8 * (pa - e.pa)) % 2 ^ (8 * size), s) := by
  have h : sbHolds pa size e = true := by simpa [sbHolds] using hholds
  simp only [stwLoad, hok, hdv, he, h, if_true]
  rfl

/-- It does not hold them all: the buffer drains up to it first. -/
theorem stwLoad_drained (hdv : segDv s sg = false) {e : SbEntry} (he : s.stw.sb.reverse.find? (sbOverlaps pa size) = some e)
    (hholds : ¬ (e.pa ≤ pa ∧ pa + size ≤ e.pa + e.size)) {u : State} (hu : u = drainN (sbUpTo pa size s.stw.sb) s)
    (hpa : pa < 0x100000) (hecc : eccHit u.stw pa size = false) :
    stwLoad sg off size s = .ok (u.stw.sram.num pa size, eccFix pa size u) := by
  have h : sbHolds pa size e = false := by simpa [sbHolds] using hholds
  simp only [stwLoad, hok, hdv, he, h, ← hu, hecc, memRead, hpa, if_true]
  rfl

theorem stwLoad_ecc (hdv : segDv s sg = false) (hsb : s.stw.sb = []) (hecc : eccHit s.stw pa size = true) :
    stwLoad sg off size s = .error ({ cause := cEcc, seg := sg, kind := some .read, addr := off }, s) := by
  simp only [stwLoad, hok, hdv, hsb, List.reverse_nil, List.find?_nil, hecc, if_true]
  rfl

/-- Through a device segment the whole buffer drains first. -/
theorem stwLoad_device (hdv : segDv s sg = true) {u : State} (hu : u = drainAll s) (hcorr : u.sys.eccCorr ≤ 0xFFFF)
    (hlo : 0x40000000 ≤ pa) (hhi : pa < 0xFFFF0000) :
    stwLoad sg off size s = .ok ((busRead pa false u).1.toNat, (busRead pa false u).2) := by
  have hout : 0x100000 ≤ pa := by omega
  simp only [stwLoad, hok, hdv, if_true, ← hu, eccHit_outside size u.stw hout, eccFix_outside size hout hcorr, memRead,
    if_neg (Nat.not_lt.mpr hout), hhi]
  rfl

end

/-! ### The load instructions -/

/-- The loads: instruction, size, sign extension. -/
def loadRows : List ((Core → GReg → GReg → BitVec 4 → BitVec 12 → Instr) × Nat × Bool) :=
  [(.lb, 1, true), (.lbu, 1, false), (.lh, 2, true), (.lhu, 2, false), (.lw, 4, false)]

theorem exec_loadRow {op : (Core → GReg → GReg → BitVec 4 → BitVec 12 → Instr) × Nat × Bool} (h : op ∈ loadRows)
    (c : Core) (r rb : GReg) (sg : BitVec 4) (imm : BitVec 12) (s : State) :
    exec (op.1 c r rb sg imm) s = .next (loadOp c r rb sg imm op.2.1 op.2.2 s) := by
  simp only [loadRows, List.mem_cons, List.not_mem_nil, or_false] at h
  rcases h with rfl | rfl | rfl | rfl | rfl <;> rfl

section
variable {s : State} {sg : BitVec 4} {imm : BitVec 12} {r rb : GReg} {off : Word} {size : Nat} {signed : Bool}
  (hc : coreReady .steward s) (hoff : off = gGet s.stw.g rb.toNat + imm.signExtend 32)
include hc hoff

theorem loadOp_ready {v : Nat} {u : State} (h : stwLoad sg.toNat off size (stwFetched s) = .ok (v, u)) :
    loadOp .steward r rb sg imm size signed s = retire s.stw.ext (setStw (fun w => { w with
      g := gSet w.g r.toNat (extendLoad v size signed), pc := w.pc + 4 }) u) := by
  rw [loadOp]
  refine stwRun_ok hc ?_
  rw [effOff_stwFetched, ← hoff, h]
  rfl

theorem loadOp_fault {f : Flt} {u : State} (h : stwLoad sg.toNat off size (stwFetched s) = .error (f, u)) :
    loadOp .steward r rb sg imm size signed s = stwFault f u := by
  rw [loadOp]
  refine stwRun_error hc ?_
  rw [effOff_stwFetched, ← hoff, h]
  rfl

end

/-! ### Task inputs -/

theorem tinNext_none {s : State} {sl : Slot} (h : ∀ n < 256, (sl.profile.getD 12 0).testBit n = true → tinTested s sl n = 0) :
    tinNext s sl = .ok (0, sl) := by
  have hfind : ((List.range 256).find? fun n => (profAt sl 12).testBit n && decide (tinTested s sl n ≠ 0)) = none := by
    rw [List.find?_eq_none]
    intro n hn hp
    simp only [Bool.and_eq_true, decide_eq_true_eq] at hp
    exact hp.2 (h n (List.mem_range.mp hn) hp.1)
  rw [tinNext, hfind]

theorem tinNext_some {s : State} {sl : Slot} {n : Nat} (hn : n < 256) (hmask : (sl.profile.getD 12 0).testBit n = true)
    (hcount : tinTested s sl n ≠ 0) (hlow : ∀ m < n, (sl.profile.getD 12 0).testBit m = true → tinTested s sl m = 0)
    (hroom : sl.count < 512) :
    tinNext s sl = .ok (2 ^ 31 + n, { sl with staged := sl.staged ++ [.tin n], count := sl.count + 1 }) := by
  have hfind : ((List.range 256).find? fun n => (profAt sl 12).testBit n && decide (tinTested s sl n ≠ 0)) = some n := by
    rw [List.find?_range_eq_some]
    refine ⟨?_, List.mem_range.mpr hn, fun m hm => ?_⟩
    · simp only [Bool.and_eq_true, decide_eq_true_eq]
      exact ⟨hmask, hcount⟩
    · cases hbit : (profAt sl 12).testBit m with
      | false => rfl
      | true =>
        rw [decide_eq_false (not_not_intro (hlow m hm hbit))]
        rfl
  simp only [tinNext, hfind, stage, hroom, if_true]

/-- Settles O37. -/
theorem yukinLoads : Obligations.YukinLoads := by
  refine ⟨?check, ?stw, ?whl, ?tin⟩
  case check =>
    rintro s sg off size pa k x rfl
    rw [stwCheck_ok_iff, segFault_none_iff]
    constructor
    · rintro ⟨⟨hext, hvalid, hright, halign, hlimit, hspace⟩, hmapped, hpa⟩
      exact ⟨hext, hvalid, by cases k <;> exact hright, halign, hlimit, hspace, hmapped, hpa⟩
    · rintro ⟨hext, hvalid, hright, halign, hlimit, hspace, hmapped, hpa⟩
      exact ⟨⟨hext, hvalid, by cases k <;> exact hright, halign, hlimit, hspace⟩, hmapped, hpa⟩
  case stw =>
    rintro op hop r rb sg imm s t off hc hoff rfl
    have hexec := exec_loadRow hop .steward r rb sg imm s
    refine ⟨fun f hf => ?fault, fun pa hok hdv => ⟨?sram, fun e he => ⟨?forwarded, ?drained⟩, ?ecc⟩, ?device⟩
    case fault =>
      rw [hexec, loadOp_fault hc hoff (stwLoad_fault ((stwCheck_stwFetched ..).trans hf))]
    case sram =>
      intro hpa hover hecc
      have hload := stwLoad_sram ((stwCheck_stwFetched ..).trans hok) ((segDv_stwFetched ..).trans hdv)
        (by rw [stwFetched_sb]; exact hover) hpa ((eccHit_stwFetched ..).trans hecc)
      rw [hexec, loadOp_ready hc hoff hload, retire_eq, stwFetched_sram]
      simp only [setStw, coreAfter, eccFix, stwFetched_g, stwFetched_pc, stwFetched_ext]
    case forwarded =>
      intro h1 h2
      have hload := stwLoad_forwarded ((stwCheck_stwFetched ..).trans hok) ((segDv_stwFetched ..).trans hdv)
        (by rw [stwFetched_sb]; exact he) ⟨h1, h2⟩
      rw [hexec, loadOp_ready hc hoff hload, retire_eq]
      simp only [setStw, coreSets, coreDid, coreAfter, coreG, corePc, stwFetched_g, stwFetched_pc, stwFetched_ext]
    case drained =>
      intro u hholds hu hpa hecc
      have hload := stwLoad_drained ((stwCheck_stwFetched ..).trans hok) ((segDv_stwFetched ..).trans hdv)
        (by rw [stwFetched_sb]; exact he) hholds (by rw [stwFetched_sb]; exact hu) hpa hecc
      rw [hexec, loadOp_ready hc hoff hload]
      rfl
    case ecc =>
      intro hsb hecc
      have hload := stwLoad_ecc ((stwCheck_stwFetched ..).trans hok) ((segDv_stwFetched ..).trans hdv)
        (by rw [stwFetched_sb]; exact hsb) ((eccHit_stwFetched ..).trans hecc)
      rw [hexec, loadOp_fault hc hoff hload, cEcc]
    case device =>
      intro pa u hok hdv hu hlo hhi
      have hcorr : u.sys.eccCorr ≤ 0xFFFF := by
        rw [hu, drainAll, drainN_eccCorr]
        exact eccCorr_stwFetched_le hc.2.1
      have hload := stwLoad_device ((stwCheck_stwFetched ..).trans hok) ((segDv_stwFetched ..).trans hdv) hu hcorr hlo hhi
      rw [hexec, loadOp_ready hc hoff hload]
  case whl =>
    intro op hop r rb sg imm s sl hc hsl
    obtain ⟨sl', h0, h1, h2⟩ := hc
    obtain rfl : sl' = sl := Option.some.inj (h0.symm.trans hsl)
    have hexec := exec_loadRow hop .whorl r rb sg imm s
    refine ⟨fun v u h => ?_, fun c h => ?_⟩ <;> rw [hexec, loadOp, whlRun_ready h0 h1 h2, effOff, sext12, h] <;> rfl
  case tin =>
    intro s rd sl hc hsl
    have hc' := hc
    obtain ⟨sl', h0, h1, h2⟩ := hc'
    obtain rfl : sl' = sl := Option.some.inj (h0.symm.trans hsl)
    have hexec : exec (.tinNextRead rd) s = .next (whlRun (fun u sl => (tinNext u sl).map fun r =>
      ({ r.2 with g := gSet r.2.g rd.toNat (BitVec.ofNat 32 r.1), pc := r.2.pc + 4 }, u)) s) := rfl
    refine ⟨fun hnone => ?_, fun n hn hmask hcount hlow hroom => ?_⟩
    · rw [hexec, whlRun_ready h0 h1 h2, tinNext_none hnone]
      simp only [coreSets, coreDid, coreAfter, coreG, corePc, h0]
      rfl
    · rw [hexec, whlRun_ready h0 h1 h2, tinNext_some hn hmask hcount hlow hroom]
      rfl

end Sys2Proof.Machine
end

section
/-!
The supplies and BYPASS (O10).
-/

set_option Elab.async false

namespace Sys2Proof.Machine

/-! ### PWR_VID -/

/-- PWR_VID: one field of six bits, held at 56. -/
theorem fieldsAt_pwrVid : fieldsAt 0x400E0008 = [⟨0, 6, .rw, .kindle, 56, some (0, 56)⟩] := by
  decide

theorem regWrite_pwrVid (s : State) (v : Word) : s.regWrite 0x400E0008 v =
    { s with regs := setReg s.regs 0x400E0008 (putField (s.rd 0x400E0008) 0 6 (min 56 (bitsOf v 0 6))) } := by
  have hclamp : clampNat 0 56 (bitsOf v 0 6) = min 56 (bitsOf v 0 6) := by
    rw [clampNat, if_neg (Nat.not_lt_zero _), Nat.min_def]
    split <;> split <;> omega
  rw [State.regWrite, fieldsAt_pwrVid, ← hclamp]
  rfl

/-- The code read back is the one stored. -/
theorem fld_regWrite_pwrVid {s : State} (v : Word) (h : RegsWf s) :
    (s.regWrite 0x400E0008 v).fld 0x400E0008 0 6 = min 56 (bitsOf v 0 6) := by
  rw [regWrite_pwrVid, State.fld, State.rd, get_setReg _ _ _ h, if_pos rfl, bitsOf_putField _ _ (by decide)]
  exact Nat.mod_eq_of_lt (by omega)

/-! ### The time zero of a kindle -/

theorem reachTimeZero_due {s : State} (hdue : s.sys.due.isSome = true) (hzero : s.sys.timeZero = false) :
    reachTimeZero s = { s with
      sys := if s.sys.resetNLow || s.sys.offTime then s.sys else { s.sys with mode := .kindle, kstep := 1, timeZero := true } } := by
  obtain ⟨c, hc⟩ := Option.isSome_iff_exists.mp hdue
  rw [reachTimeZero, hzero, Bool.false_or, hc]
  split <;> rfl

/-! ### The bypass bits -/

theorem bypeDrive_eq (s : State) (n : Nat) : bypeDrive s n = bitOf (s.rd 0x400E000C) n := rfl

theorem ethPhyOn_of_mode {s : State} {n : Nat} (hmode : (s.conf 0x0203 n).num 0 1 ≠ 0) (hlimp : s.sys.limp = false) :
    ethPhyOn n s = s.setEport n fun e => { e with
      enabled := true, inTrans := true, mode := (s.conf 0x0203 n).num 0 1, speed := (s.conf 0x0204 n).num 0 1, changed := s.ply.reel } := by
  rw [ethPhyOn, if_neg]
  · rfl
  · simp [phyMode, hmode, hlimp]

/-- Settles O10. -/
theorem supplyCommands : Obligations.SupplyCommands := by
  refine ⟨?valid, ?vidHeld, ?vidNow, ?step, ?isSet, ?setOff, ?setOn, ?clearOff, ?clearOn, ?settled, ?recover⟩
  case valid =>
    intro s hdue hzero
    show execValidSupply s = _
    refine (if_pos (by rw [hdue, hzero]; rfl)).trans (congrArg Host.Outcome.next ?_)
    have hrail : (s.pwr.railOk ||| 0x40).getLsbD 6 = true := by simp
    have hruns : chargerRuns (setPwr (fun p => { p with railOk := p.railOk ||| 0x40, banks := 0x1FFF, senseWarn := false, distaffUp := true, hucAct := false }) s) =
        (bitOf (s.rd 0x400E0010) 8 && s.sys.mode != .brace) := by
      simp only [chargerRuns, bankOk, setPwr, hrail, Bool.and_true]
      exact Bool.and_true _
    rw [chargerNote_eq, hruns, reachTimeZero_due (by exact hdue) (by exact hzero)]
    rfl
  case vidHeld =>
    intro s v hen
    show Host.Outcome.next (vidWrite v s) = _
    rw [vidWrite, if_pos hen, pwrVid, regWrite_pwrVid]
  case vidNow =>
    intro s v hwf hen
    show Host.Outcome.next (vidWrite v s) = _
    rw [vidWrite, if_neg (Bool.eq_false_iff.mp hen), pwrVid, fld_regWrite_pwrVid v hwf, regWrite_pwrVid]
    rfl
  case step =>
    intro s hen
    refine (if_pos hen).trans (congrArg Host.Outcome.next ?_)
    have hstep (v c : Nat) : (if v < c then v + 1 else if c < v then v - 1 else c) =
        if v < c then v + 1 else if c < v then v - 1 else v := by
      split
      · rfl
      · split
        · rfl
        · omega
    exact congrArg (fun v => { s with pwr := { s.pwr with vidOut := v } }) (hstep s.pwr.vidOut (s.fld 0x400E0008 0 6))
  case isSet =>
    intro s n h
    exact congrArg Host.Outcome.next (if_pos h)
  case setOff =>
    intro s n h hoff
    refine congrArg Host.Outcome.next ((if_neg (by simp [bypeDrive_eq, h])).trans ?_)
    rw [if_neg (by simp [hoff])]
    rfl
  case setOn =>
    intro s n h hon
    refine ⟨_, _, congrArg Host.Outcome.next ((if_neg (by simp [bypeDrive_eq, h])).trans (if_pos hon)), rfl, rfl⟩
  case clearOff =>
    intro s n h hoff hset
    refine congrArg Host.Outcome.next ((if_pos h).trans ?_)
    rw [if_neg (by rw [hoff, hset]; exact Bool.false_ne_true)]
    rfl
  case clearOn =>
    intro s n h hon
    refine ⟨_, _, congrArg Host.Outcome.next ((if_pos h).trans (if_pos (by simpa using hon))), rfl, rfl⟩
  case settled =>
    intro s n hset hmode hlimp
    exact (if_pos hset).trans (congrArg Host.Outcome.next (ethPhyOn_of_mode hmode hlimp))
  case recover =>
    intro s
    show execPwrsenseRecover s = _
    rw [execPwrsenseRecover]
    split <;> rfl

end Sys2Proof.Machine
end

section
/-!
The registers after a reset (R12): each field of a reset kind at its reset value, in every register, listed in the table or not.
-/

set_option Elab.async false

namespace Sys2Proof

/-! ### A pass over a table -/

section
variable {α : Type} [DecidableEq α] {d : Nat → α}

/-- No key of a canonical table lies at or below the bound that its keys exceed. -/
theorem any_key_below (j : Nat) : ∀ (t : Tab α) (k : Nat), Tab.okFrom d (some k) t = true → j ≤ k → (t.any fun e => e.1 == j) = false
  | [], _, _, _ => rfl
  | (k', v) :: t, k, h, hj => by
    have htail := okFrom_tail h
    simp only [Tab.okFrom, Bool.and_eq_true, decide_eq_true_eq] at h
    obtain ⟨⟨hlt, -⟩, -⟩ := h
    rw [List.any_cons, any_key_below j t k' htail (by omega), Bool.or_false, beq_eq_false_iff_ne]
    omega

theorem Tab.get_setAll (f : Nat → α → α) (j : Nat) : ∀ (t : Tab α) (lo : Option Nat) (acc : Tab α), Tab.okFrom d lo t = true →
    Tab.wf d acc = true → Tab.get d (t.foldl (fun acc e => Tab.set d acc e.1 (f e.1 e.2)) acc) j =
      if (t.any fun e => e.1 == j) then f j (Tab.get d t j) else Tab.get d acc j
  | [], _, _, _, _ => rfl
  | (k, v) :: t, lo, acc, h, hacc => by
    have htail := okFrom_tail h
    rw [List.foldl_cons, Tab.get_setAll f j t (some k) _ htail (Tab.wf_set k (f k v) hacc), List.any_cons, Tab.get]
    rcases Nat.lt_trichotomy j k with hj | rfl | hj
    · rw [any_key_below j t k htail (Nat.le_of_lt hj), Tab.get_set k j _ hacc, if_neg (Nat.ne_of_lt hj)]
      simp [Ne.symm (Nat.ne_of_lt hj)]
    · rw [any_key_below j t j htail (Nat.le_refl j), Tab.get_set j j _ hacc]
      simp
    · have hne : j ≠ k := Nat.ne_of_gt hj
      rw [Tab.get_set k j _ hacc, if_neg hne, if_neg hne, if_neg (Nat.lt_asymm hj), beq_false_of_ne (Ne.symm hne), Bool.false_or]

omit [DecidableEq α] in
theorem Tab.get_of_not_any {j : Nat} : ∀ t : Tab α, (t.any fun e => e.1 == j) = false → Tab.get d t j = d j
  | [], _ => rfl
  | (k, v) :: t, hnot => by
    rw [List.any_cons, Bool.or_eq_false_iff, beq_eq_false_iff_ne] at hnot
    rw [Tab.get, if_neg (Ne.symm hnot.1), Tab.get_of_not_any t hnot.2, ite_self]

/-- A table passed through a function that keeps the default: every key reads as the function's value. -/
theorem Tab.get_mapVals {f : Nat → α → α} {t : Tab α} {j : Nat} (h : Tab.wf d t = true) (hd : f j (d j) = d j) :
    Tab.get d (t.mapVals d f) j = f j (Tab.get d t j) := by
  rw [Tab.mapVals, Tab.get_setAll f j t none [] h rfl]
  split
  · rfl
  · next hnot => rw [Tab.get, Tab.get_of_not_any t (Bool.eq_false_iff.mpr hnot), hd]

end

namespace Machine

/-! ### The fields of a register lie apart -/

/-- Two fields share no bit. -/
def Fld.Apart (f g : Fld) : Prop := f.lo + f.w ≤ g.lo ∨ g.lo + g.w ≤ f.lo

/-- The fields lie inside the word and apart. -/
def FieldsApart (fs : List Fld) : Prop := (∀ f ∈ fs, f.lo + f.w ≤ 32) ∧ fs.Pairwise Fld.Apart

theorem putField_comm {f g : Fld} (hf : f.lo + f.w ≤ 32) (hg : g.lo + g.w ≤ 32) (h : Fld.Apart f g) (x : Word) (u v : Nat) :
    putField (putField x f.lo f.w u) g.lo g.w v = putField (putField x g.lo g.w v) f.lo f.w u := by
  refine BitVec.eq_of_getLsbD_eq fun i _ => ?_
  change bitOf _ i = bitOf _ i
  simp only [bitOf_putField _ _ _ hf, bitOf_putField _ _ _ hg]
  by_cases hfi : f.lo ≤ i ∧ i < f.lo + f.w
  · have hgi : ¬ (g.lo ≤ i ∧ i < g.lo + g.w) := by
      unfold Fld.Apart at h
      omega
    rw [if_neg hgi, if_pos hfi, if_pos hfi]
  · rw [if_neg hfi, if_neg hfi]

theorem putField_twice {f : Fld} (hf : f.lo + f.w ≤ 32) (x : Word) (u : Nat) :
    putField (putField x f.lo f.w u) f.lo f.w u = putField x f.lo f.w u := by
  refine BitVec.eq_of_getLsbD_eq fun i _ => ?_
  change bitOf _ i = bitOf _ i
  simp only [bitOf_putField _ _ _ hf]
  split <;> rfl

/-- The word with a field at its reset value. -/
def putRst (x : Word) (f : Fld) : Word := putField x f.lo f.w f.rst

theorem putRst_foldl {f : Fld} (hf : f.lo + f.w ≤ 32) : ∀ (gs : List Fld), (∀ g ∈ gs, g.lo + g.w ≤ 32 ∧ Fld.Apart f g) →
    ∀ x : Word, putRst x f = x → putRst (gs.foldl putRst x) f = gs.foldl putRst x
  | [], _, _, h => h
  | g :: gs, hgs, x, h => by
    obtain ⟨hg, hap⟩ := hgs g (List.mem_cons_self ..)
    refine putRst_foldl hf gs (fun k hk => hgs k (List.mem_cons_of_mem _ hk)) _ ?_
    calc putRst (putRst x g) f = putRst (putRst x f) g := (putField_comm hf hg hap x f.rst g.rst).symm
      _ = putRst x g := by rw [h]

/-- A word of reset values already holds the reset value of each of its fields. -/
theorem putRst_of_mem : ∀ (fs : List Fld), FieldsApart fs → ∀ (x : Word), ∀ f ∈ fs, putRst (fs.foldl putRst x) f = fs.foldl putRst x
  | [], _, _, _, hf => absurd hf List.not_mem_nil
  | g :: gs, ⟨hfit, hap⟩, x, f, hf => by
    obtain ⟨hhead, htail⟩ := List.pairwise_cons.mp hap
    rcases List.mem_cons.mp hf with rfl | hmem
    · have hf32 := hfit f (List.mem_cons_self ..)
      exact putRst_foldl hf32 gs (fun k hk => ⟨hfit k (List.mem_cons_of_mem _ hk), hhead k hk⟩) _ (putField_twice hf32 x f.rst)
    · exact putRst_of_mem gs ⟨fun k hk => hfit k (List.mem_cons_of_mem _ hk), htail⟩ _ f hmem

theorem foldl_fixed {α β : Type} {g : α → β → α} {x : α} : ∀ (l : List β), (∀ b ∈ l, g x b = x) → l.foldl g x = x
  | [], _ => rfl
  | b :: l, h => by
    rw [List.foldl_cons, h b (List.mem_cons_self ..)]
    exact foldl_fixed l fun c hc => h c (List.mem_cons_of_mem _ hc)

theorem resetFields_of_absorbed (k : RKind) {x : Word} {fs : List Fld} (h : ∀ f ∈ fs, putRst x f = x) : resetFields k fs x = x := by
  have hif (f : Fld) (hf : f ∈ fs) (hit : Bool) : (if hit then putField x f.lo f.w f.rst else x) = x := by
    cases hit
    · rfl
    · exact h f hf
  exact foldl_fixed fs fun f hf => hif f hf _

/-! ### Each address belongs to one register -/

/-- The registers of every window of Table 0.6. -/
def windows : List (List RegDef) :=
  [sysRegs, dstRegs, whlRegs, flyRegs, bobRegs, ethRegs, crdRegs, canRegs, plyRegs, sknRegs, pnlRegs, tagRegs, rovRegs, pwrRegs,
   bar0Regs, bar2Regs]

/-- No address of `d` is one of `e`: the ranges lie apart, or run at one stride from different places, or by enumeration. -/
def RegDef.apart (d e : RegDef) : Bool :=
  decide (d.base + d.stride * (d.count - 1) < e.base) || decide (e.base + e.stride * (e.count - 1) < d.base) ||
    decide (d.stride = e.stride ∧ d.base % d.stride ≠ e.base % e.stride) ||
    (List.range d.count).all fun i => !e.has (d.base + d.stride * i)

theorem has_iff {d : RegDef} {a : Nat} : d.has a = true ↔ d.base ≤ a ∧ (a - d.base) % d.stride = 0 ∧ (a - d.base) / d.stride < d.count := by
  simp [RegDef.has, and_assoc]

theorem exists_of_has {d : RegDef} {a : Nat} (h : d.has a = true) : ∃ i < d.count, a = d.base + d.stride * i := by
  obtain ⟨hle, hmod, hlt⟩ := has_iff.mp h
  refine ⟨_, hlt, ?_⟩
  have := Nat.div_add_mod (a - d.base) d.stride
  omega

theorem not_has_of_apart {d e : RegDef} (h : d.apart e = true) {a : Nat} (hd : d.has a = true) : e.has a = false := by
  obtain ⟨i, hi, ha⟩ := exists_of_has hd
  refine Bool.eq_false_iff.mpr fun hne => ?_
  obtain ⟨j, hj, ha'⟩ := exists_of_has hne
  have hdi : d.stride * i ≤ d.stride * (d.count - 1) := Nat.mul_le_mul_left _ (by omega)
  have hej : e.stride * j ≤ e.stride * (e.count - 1) := Nat.mul_le_mul_left _ (by omega)
  simp only [RegDef.apart, Bool.or_eq_true, decide_eq_true_eq, List.all_eq_true, List.mem_range, Bool.not_eq_true'] at h
  rcases h with ((h | h) | ⟨hstride, hplace⟩) | h
  · omega
  · omega
  · refine hplace ?_
    calc d.base % d.stride = a % d.stride := by rw [ha, Nat.add_mul_mod_self_left]
      _ = e.base % e.stride := by rw [ha', hstride, Nat.add_mul_mod_self_left]
  · rw [ha, h i hi] at hne
    exact Bool.false_ne_true hne

theorem windows_apart : ∀ w ∈ windows, w.Pairwise (fun d e => d.apart e = true) := by decide

theorem windows_fields : ∀ w ∈ windows, ∀ d ∈ w, (∀ f ∈ d.flds, f.lo + f.w ≤ 32) ∧
    d.flds.Pairwise fun f g => f.lo + f.w ≤ g.lo ∨ g.lo + g.w ≤ f.lo := by
  decide

theorem regsOf_mem (a : Nat) : regsOf a = [] ∨ regsOf a ∈ windows := by
  rw [← List.mem_cons]
  unfold regsOf
  split
  · simp [windows]
  · split
    · simp [windows]
    · split <;> simp [windows]

/-- An address has no field, or those of one register. -/
theorem fieldsAt_apart (a : Nat) : FieldsApart (fieldsAt a) := by
  rcases regsOf_mem a with h | h
  · rw [fieldsAt, h]
    exact ⟨by simp, List.Pairwise.nil⟩
  · have hpair : ((regsOf a).filter fun d => d.has a).Pairwise fun d e => d.apart e = true :=
      (windows_apart _ h).sublist List.filter_sublist
    have hhas : ∀ d ∈ (regsOf a).filter fun d => d.has a, d ∈ regsOf a ∧ d.has a = true := fun d hd => List.mem_filter.mp hd
    rw [fieldsAt]
    generalize (regsOf a).filter (fun d => d.has a) = l at hpair hhas ⊢
    match l, hpair, hhas with
    | [], _, _ => exact ⟨by simp, List.Pairwise.nil⟩
    | [d], _, hhas =>
      rw [List.flatMap_singleton]
      exact windows_fields _ h d (hhas d (by simp)).1
    | d :: e :: _, hpair, hhas =>
      have hd := (hhas d (by simp)).2
      have he := (hhas e (by simp)).2
      rw [not_has_of_apart (List.rel_of_pairwise_cons hpair (by simp)) hd] at he
      exact absurd he Bool.false_ne_true

/-! ### What a reset leaves -/

theorem resetFields_regRst (k : RKind) (a : Nat) : resetFields k (fieldsAt a) (regRst a) = regRst a :=
  resetFields_of_absorbed k (putRst_of_mem _ (fieldsAt_apart a) 0)

/-- Every register after a reset of kind `k`. -/
theorem rd_regsReset {s : State} (k : RKind) (a : Nat) (h : RegsWf s) :
    Tab.get regRst (resetRegs k s.regs) a = resetFields k (fieldsAt a) (s.rd a) :=
  Tab.get_mapVals (f := fun a v => resetFields k (fieldsAt a) v) h (resetFields_regRst k a)

end Machine
end Sys2Proof
end

section
/-!
Resets and Brace (O11).
-/

set_option Elab.async false

namespace Sys2Proof.Machine

/-- A pass over a list keeps what each of its steps keeps. -/
theorem foldl_keeps {α β : Type} {f : State → α → State} (π : State → β) (h : ∀ t x, π (f t x) = π t) :
    ∀ (l : List α) (s : State), π (l.foldl f s) = π s
  | [], _ => rfl
  | x :: l, s => (foldl_keeps π h l (f s x)).trans (h s x)

/-! ### What a reset does to the Distaff -/

/-- A reset leaves the Distaff's contents and the unit that runs; what has not started is dropped. -/
theorem dropUnstarted_eq (s : State) : ∃ fl co, dropUnstarted s = { s with dst := { s.dst with staged := none, inflight := fl, chainOk := co } } := by
  unfold dropUnstarted
  split
  · exact ⟨_, _, rfl⟩
  · split
    · exact ⟨_, _, rfl⟩
    · exact ⟨_, _, rfl⟩
    · exact ⟨_, _, rfl⟩

/-! ### Brace -/

theorem braceSpindle_sys (n : Nat) (s : State) : (braceSpindle n s).sys = s.sys ∧ (braceSpindle n s).pwr = s.pwr ∧ (braceSpindle n s).stw = s.stw := by
  unfold braceSpindle
  dsimp only
  split
  · split <;> exact ⟨rfl, rfl, rfl⟩
  · exact ⟨rfl, rfl, rfl⟩

theorem braceWhorl_keeps (s : State) : (braceWhorl s).sys = s.sys ∧ (braceWhorl s).pwr = s.pwr ∧ (braceWhorl s).stw = s.stw := by
  refine ⟨foldl_keeps State.sys (fun t n => (braceSpindle_sys n t).1) _ _, foldl_keeps State.pwr (fun t n => (braceSpindle_sys n t).2.1) _ _,
    foldl_keeps State.stw (fun t n => (braceSpindle_sys n t).2.2) _ _⟩

/-- A record logged changes nothing of SYS but the recorder and the count of lost records. -/
def LogKept (y z : Sys) : Prop := ∃ r l, z = { y with recorder := r, lost := l }

theorem LogKept.refl (y : Sys) : LogKept y y := ⟨_, _, rfl⟩

theorem LogKept.trans {x y z : Sys} (h : LogKept x y) (h' : LogKept y z) : LogKept x z := by
  obtain ⟨r, l, rfl⟩ := h
  obtain ⟨r', l', rfl⟩ := h'
  exact ⟨r', l', rfl⟩

theorem pushFault_logKept (r : FaultRec) (y : Sys) : LogKept y (pushFault r y) := by
  unfold pushFault
  split <;> exact ⟨_, _, rfl⟩

theorem rovFlag_keeps (bit : Nat) (s : State) : LogKept s.sys (rovFlag bit s).sys ∧ (rovFlag bit s).pwr = s.pwr ∧
    (rovFlag bit s).stw = { s.stw with ipend := s.stw.ipend ||| 0x2000 } := by
  unfold rovFlag
  dsimp only
  split
  · exact ⟨.refl _, rfl, rfl⟩
  · exact ⟨pushFault_logKept _ _, rfl, rfl⟩

theorem rovBrace_keeps (s : State) : LogKept s.sys (rovBrace s).sys ∧ (rovBrace s).pwr = s.pwr ∧
    ∃ w, (rovBrace s).stw = { s.stw with ipend := s.stw.ipend ||| w } := by
  unfold rovBrace rovStopAt
  split
  · obtain ⟨h1, h2, h3⟩ := rovFlag_keeps 6 (setRov (fun r => { r with stopping := some true }) s)
    exact ⟨h1, h2, _, h3⟩
  · exact ⟨.refl _, rfl, 0, by simp [rovStopIdle, rovIdle, rovHold, setRov]⟩

theorem commitBack_keeps (h : Nat) (st : Status) (d : Nat) (s : State) : (commitBack h st d s).sys = s.sys ∧ (commitBack h st d s).pwr = s.pwr := by
  unfold commitBack
  split
  · exact ⟨rfl, rfl⟩
  · dsimp only
    split
    · unfold pushDue
      split <;> exact ⟨rfl, rfl⟩
    · exact ⟨rfl, rfl⟩

theorem refuseCommits_keeps (s : State) : (refuseCommits s).sys = s.sys ∧ (refuseCommits s).pwr = s.pwr := by
  obtain ⟨fl, co, hd⟩ := dropUnstarted_eq s
  unfold refuseCommits
  dsimp only
  rw [foldl_keeps State.sys (fun t h => (commitBack_keeps h _ _ t).1), foldl_keeps State.pwr (fun t h => (commitBack_keeps h _ _ t).2), hd]
  exact ⟨rfl, rfl⟩

/-- The Farelle enters Brace. -/
theorem enterBrace_keeps (ret : Mode) (s : State) :
    LogKept { s.sys with
      mode := .brace, retMode := ret, kstep := 0, braceEntries := min 0xFFFF (s.sys.braceEntries + 1), window := false }
      (enterBrace ret s).sys ∧
    (enterBrace ret s).pwr = s.pwr ∧ (enterBrace ret s).stw.ipend.getLsbD 0 = true := by
  unfold enterBrace
  dsimp only
  obtain ⟨hsys, hpwr, w, hstw⟩ := rovBrace_keeps (braceWhorl (raiseLine 0 (logFault 0x09 0 (leBytes 4 (min 0xFFFF (s.sys.braceEntries + 1)))
    (setSys (fun y => { y with
      mode := .brace, retMode := ret, kstep := 0, braceEntries := min 0xFFFF (s.sys.braceEntries + 1), window := false }) (refuseCommits s)))))
  obtain ⟨hsys', hpwr', hstw'⟩ := braceWhorl_keeps (raiseLine 0 (logFault 0x09 0 (leBytes 4 (min 0xFFFF (s.sys.braceEntries + 1)))
    (setSys (fun y => { y with
      mode := .brace, retMode := ret, kstep := 0, braceEntries := min 0xFFFF (s.sys.braceEntries + 1), window := false }) (refuseCommits s))))
  rw [hsys'] at hsys
  rw [hpwr'] at hpwr
  refine ⟨?_, hpwr.trans (refuseCommits_keeps s).2, ?_⟩
  · refine LogKept.trans ?_ hsys
    rw [← (refuseCommits_keeps s).1]
    exact pushFault_logKept _ _
  · rw [hstw, hstw']
    simp [raiseLine]

/-! ### The end of Brace -/

/-- Strands that start are the whorl's alone. -/
theorem startStrands_eq (s : State) : startStrands s = { s with whl := (startStrands s).whl } := by
  have h := foldl_keeps (fun t : State => { t with whl := {} }) (f := fun t k =>
    if (t.strand k).run then t.setStrand k fun st => { st with stopping := false }
    else if (t.strand k).lea.isSome then
      t.setStrand k fun st => { st with run := true, on := false, boundary := t.reel, next := 0, stopping := false }
    else t) (fun t k => by split; rfl; split <;> rfl) (List.range 4) s
  exact congrArg (fun t : State => { t with whl := (startStrands s).whl }) h

/-- Flyers that start are the flyers' alone. -/
theorem flyersStart_eq (s : State) : flyersStart s = { s with fly := (flyersStart s).fly } := by
  have h := foldl_keeps (fun t : State => { t with fly := {} }) (f := fun t f => if bitOf (t.rd (flyBase f)) 31 then flyStart f t else t)
    (fun t f => by
      split
      · unfold flyStart
        dsimp only
        split <;> rfl
      · rfl) (List.range 48) s
  exact congrArg (fun t : State => { t with fly := (flyersStart s).fly }) h

/-! ### PWRSENSE warns -/

theorem exec_pwrsenseWarn_idle {s : State} (hm : s.sys.mode = .spin ∨ s.sys.mode = .service) (he : s.sys.entering = false) :
    exec .pwrsenseWarn s = .next (enterBrace s.sys.mode { s with pwr := { s.pwr with senseWarn := true } }) := by
  show execPwrsenseWarn s = _
  unfold execPwrsenseWarn
  rcases hm with hm | hm <;> simp only [hm, he] <;> rfl

theorem exec_pwrsenseWarn_entering {s : State} (hm : s.sys.mode = .spin ∨ s.sys.mode = .service) (he : s.sys.entering = true) :
    exec .pwrsenseWarn s = .next (if drowseJust s then
        enterBrace s.sys.mode (drowseDenied { s with pwr := { s.pwr with senseWarn := true } })
      else { s with pwr := { s.pwr with senseWarn := true } }) := by
  show execPwrsenseWarn s = _
  unfold execPwrsenseWarn
  rcases hm with hm | hm <;> simp only [hm, he, if_true] <;> split <;> rfl

theorem drowseDenied_keeps (s : State) : (drowseDenied s).sys = { s.sys with entering := false, drowseReq := none } ∧
    (drowseDenied s).pwr = s.pwr := by
  unfold drowseDenied
  dsimp only
  rw [startStrands_eq]
  split <;> exact ⟨rfl, rfl⟩

/-- The flyers that wait for the end of Brace start. -/
def flyersFreed (t : State) : State :=
  if t.fly.wait then let x := flyersStart t; { x with fly := { x.fly with wait := false } } else t

theorem flyersFreed_eq (t : State) : ∃ f : Fly, f.wait = false ∧ flyersFreed t = { t with fly := f } ∧ (t.fly.wait = false → f = t.fly) := by
  unfold flyersFreed
  cases h : t.fly.wait with
  | false => exact ⟨t.fly, h, rfl, fun _ => rfl⟩
  | true =>
    rw [if_pos rfl, flyersStart_eq]
    exact ⟨_, rfl, rfl, fun hne => by simp at hne⟩

/-- The mode that Brace was entered from, its return counted. -/
def braceEnded (s : State) : State :=
  setSys (fun y => { y with
    mode := y.retMode, retMode := .dark, window := false, braceRecovered := min 0xFFFF (s.sys.braceRecovered + 1) }) s

theorem strandsIfSpin_eq (u : State) : ∃ w, (if u.sys.mode = .spin then startStrands u else u) = { u with whl := w } := by
  split
  · exact ⟨_, startStrands_eq u⟩
  · exact ⟨u.whl, rfl⟩

/-- Settles O11. -/
theorem resetAndBraceCommands : Obligations.ResetAndBraceCommands := by
  refine ⟨?cold, ?pg, ?low, ?rise, ?off, ?warn, ?warnBrace, ?warnElse, ?recovered, fun _ => rfl⟩
  case cold =>
    intro s rails banks byPg hwf hw
    obtain ⟨fl, co, hd⟩ := dropUnstarted_eq s
    refine ⟨coldReset rails banks (lowestRail (watched s rails banks byPg)) false s, if_neg hw, rfl, rfl, rfl, rfl, rfl, rfl, rfl, rfl,
      ?_, rfl, ?_⟩
    · simp only [coldReset, hd]
      exact fun a => rd_regsReset .cold a hwf
    · simp only [coldReset, hd]
      exact ⟨rfl, rfl, rfl, rfl, rfl, rfl, rfl, rfl, rfl, rfl, rfl, rfl⟩
  case pg =>
    intro s r h hmode
    obtain ⟨fl, co, hd⟩ := dropUnstarted_eq s
    refine ⟨coldReset (BitVec.ofNat 8 (2 ^ r.val)) 0 r.val true s, if_pos h, rfl, rfl, ?_, rfl, ?_⟩
    · simp only [coldReset, hmode, false_and, if_false]
      congr 2
      cases s.sys.resetNLow <;> by_cases hb : s.sys.mode = .brace <;> simp [hb]
    · simp only [coldReset, hd]
      exact ⟨rfl, rfl, rfl, rfl, rfl⟩
  case low =>
    intro s hwf hlow
    obtain ⟨fl, co, hd⟩ := dropUnstarted_eq s
    refine ⟨pinReset s, if_neg (Bool.eq_false_iff.mp hlow), rfl, rfl, ?_⟩
    simp only [pinReset, setSys, warmReset, chargerNote_eq, hd]
    refine ⟨rfl, trivial, trivial, fun hdue => ?_, fun a => rd_regsReset .warm a hwf, rfl, rfl, rfl, rfl, rfl, rfl⟩
    rw [if_neg (by simpa using hdue)]
  case rise =>
    intro s hdue hzero hoff
    show execResetNRise s = _
    unfold execResetNRise
    dsimp only
    have hzero' := reachTimeZero_due (s := setSys (fun y => { y with resetNLow := false }) s) hdue hzero
    have hoff' : ((setSys (fun y => { y with resetNLow := false }) s).sys.resetNLow ||
      (setSys (fun y => { y with resetNLow := false }) s).sys.offTime) = false := hoff
    rw [hzero', hoff']
    have hv : supplyValid (setSys (fun y => { y with resetNLow := false }) s) = supplyValid s := rfl
    rw [hv]
    cases supplyValid s <;> rfl
  case off =>
    intro s hoff hdue hzero hlow
    show execWarmOffTimeEnd s = _
    unfold execWarmOffTimeEnd
    dsimp only
    have hzero' := reachTimeZero_due (s := setSys (fun y => { y with offTime := false }) s) hdue hzero
    have hlow' : ((setSys (fun y => { y with offTime := false }) s).sys.resetNLow ||
      (setSys (fun y => { y with offTime := false }) s).sys.offTime) = false := by simp [setSys, hlow]
    rw [if_pos hoff, hzero', hlow']
    have hv : supplyValid (setSys (fun y => { y with offTime := false }) s) = supplyValid s := rfl
    rw [hv]
    cases supplyValid s <;> rfl
  case warn =>
    intro s hm hjust hreq
    cases he : s.sys.entering with
    | false =>
      refine ⟨_, exec_pwrsenseWarn_idle hm he, ?_⟩
      have hpend := (Steady.refl { s with pwr := { s.pwr with senseWarn := true } }).enterBrace (ret := s.sys.mode).pending
      obtain ⟨⟨r, l, hsys⟩, hpwr, hline⟩ := enterBrace_keeps s.sys.mode { s with pwr := { s.pwr with senseWarn := true } }
      generalize enterBrace s.sys.mode { s with pwr := { s.pwr with senseWarn := true } } = u at hpend hsys hpwr hline ⊢
      rw [hsys, hpwr]
      exact ⟨rfl, rfl, he, rfl, rfl, hline, hpend⟩
    | true =>
      have hd : drowseJust s = true := by
        obtain ⟨x, hx⟩ := Option.isSome_iff_exists.mp (hreq he)
        simp only [drowseJust, hx]
        exact decide_eq_true (hjust x he hx)
      refine ⟨_, (exec_pwrsenseWarn_entering hm he).trans (by rw [if_pos hd]), ?_⟩
      have hpend := (Steady.refl { s with pwr := { s.pwr with senseWarn := true } }).drowseDenied.enterBrace (ret := s.sys.mode).pending
      obtain ⟨hsys', hpwr'⟩ := drowseDenied_keeps { s with pwr := { s.pwr with senseWarn := true } }
      obtain ⟨⟨r, l, hsys⟩, hpwr, hline⟩ := enterBrace_keeps s.sys.mode (drowseDenied { s with pwr := { s.pwr with senseWarn := true } })
      rw [hsys'] at hsys
      rw [hpwr'] at hpwr
      generalize enterBrace s.sys.mode (drowseDenied { s with pwr := { s.pwr with senseWarn := true } }) = u at hpend hsys hpwr hline ⊢
      rw [hsys, hpwr]
      exact ⟨rfl, rfl, rfl, rfl, rfl, hline, hpend⟩
  case warnBrace =>
    intro s hm
    show execPwrsenseWarn s = _
    unfold execPwrsenseWarn
    dsimp only
    split
    · next h => cases hm.symm.trans h
    · next h => cases hm.symm.trans h
    · rfl
    · next h => cases hm.symm.trans h
    · next h => cases hm.symm.trans h
    · next h => cases hm.symm.trans h
  case warnElse =>
    intro s h
    rcases h with hm | hm | hm | ⟨hm, he, hlate⟩
    case inr.inr.inr =>
      have hd : drowseJust s = false := by
        unfold drowseJust
        split
        · next x hx => exact decide_eq_false (Nat.not_le.mpr (hlate _ hx))
        · rfl
      rw [exec_pwrsenseWarn_entering hm he, hd]
      rfl
    all_goals
      show execPwrsenseWarn s = _
      unfold execPwrsenseWarn
      rw [hm]
      rfl
  case recovered =>
    intro s us hm hwin hwarn
    refine ⟨_, if_pos ⟨hm, hwin, hwarn⟩, ?_⟩
    dsimp only
    rw [chargerNote_eq]
    obtain ⟨f, hwait, hfreed, hsame⟩ := flyersFreed_eq (braceEnded s)
    unfold flyersFreed braceEnded at hfreed
    dsimp only at hfreed
    rw [hfreed]
    obtain ⟨w, hw⟩ := strandsIfSpin_eq (raiseLine 0 (logFault 0x0A 0 (leBytes 4 (min 0xFFFF (s.sys.braceRecovered + 1)) ++ leBytes 4 us)
      { braceEnded s with fly := f }))
    unfold braceEnded at hw
    rw [hw]
    obtain ⟨r, l, hlog⟩ := pushFault_logKept (faultRec { braceEnded s with fly := f } 0x0A 0
      (leBytes 4 (min 0xFFFF (s.sys.braceRecovered + 1)) ++ leBytes 4 us)) (braceEnded s).sys
    refine ⟨congrArg Sys.mode hlog, congrArg Sys.window hlog, hwait, congrArg Sys.braceRecovered hlog, ?_, fun hw => ?_⟩
    · simp [raiseLine]
    · rw [hsame hw]
      rfl

end Sys2Proof.Machine
end

section
/-!
Kindle steps 1 to 3 (O12, O13).
-/

set_option Elab.async false

namespace Sys2Proof.Machine

/-- A fault that is logged: the recorder ends with its record, and of the rest only the count of lost ones may change. -/
theorem logFault_eq (code id : Nat) (p : List (BitVec 8)) (s : State) :
    ∃ r l, logFault code id p s = { s with sys := { s.sys with recorder := r, lost := l } } ∧
      r.getLast?.map FaultRec.code = some code := by
  obtain ⟨r, l, h⟩ := pushFault_logKept (faultRec s code id p) s.sys
  have hlast := pushFault_last (faultRec s code id p) s.sys
  refine ⟨r, l, ?_, ?_⟩
  · dsimp only [logFault]
    rw [h]
  · rw [h] at hlast
    exact congrArg (Option.map FaultRec.code) hlast

/-! ### A late step -/

theorem noteLate_in_time {n us : Nat} {s : State} (h : us ≤ worstUs s n) : noteLate n us s = s :=
  if_neg (by simp [Nat.not_lt.mpr h])

theorem noteLate_timeout {n us : Nat} {s : State} (h : timeoutMet s n = true) : noteLate n us s = s :=
  if_neg (by simp [h])

theorem noteLate_again {n us : Nat} {s : State} (h : s.sys.lateSteps.getLsbD n = true) : noteLate n us s = s :=
  if_neg (by simp [h])

/-- The record of a late step. -/
theorem noteLate_late {n us : Nat} {s : State} (h : worstUs s n < us) (ht : timeoutMet s n = false) (hl : s.sys.lateSteps.getLsbD n = false) :
    noteLate n us s = { s with
      sys := pushFault (faultRec s 0x07 0 ([BitVec.ofNat 8 n, 0, 0, 0] ++ leBytes 4 us))
        { s.sys with
          krec := { s.sys.krec with late := true, lateStep := if s.sys.krec.lateStep = 0 then n else s.sys.krec.lateStep }
          lateSteps := s.sys.lateSteps ||| BitVec.ofNat 8 (2 ^ n), kfStep := n, kfCode := 5 } } :=
  if_pos (by simp only [h, ht, hl]; rfl)

/-- What a late step leaves of SYS: a record, KREC, the step of SYS_KFAULT. -/
theorem noteLate_keeps (n us : Nat) (s : State) : ∃ r l k ls st co, noteLate n us s = { s with
    sys := { s.sys with recorder := r, lost := l, krec := k, lateSteps := ls, kfStep := st, kfCode := co } } := by
  unfold noteLate
  split
  · obtain ⟨r, l, h⟩ := pushFault_logKept (faultRec (setSys (fun y => { y with
      krec := { y.krec with late := true, lateStep := if y.krec.lateStep = 0 then n else y.krec.lateStep }
      lateSteps := y.lateSteps ||| BitVec.ofNat 8 (2 ^ n), kfStep := n, kfCode := 5 }) s) 0x07 0 ([BitVec.ofNat 8 n, 0, 0, 0] ++ leBytes 4 us))
      (setSys (fun y => { y with
      krec := { y.krec with late := true, lateStep := if y.krec.lateStep = 0 then n else y.krec.lateStep }
      lateSteps := y.lateSteps ||| BitVec.ofNat 8 (2 ^ n), kfStep := n, kfCode := 5 }) s).sys
    dsimp only [logFault]
    rw [h]
    exact ⟨r, l, _, _, _, _, rfl⟩
  · exact ⟨_, _, _, _, _, _, rfl⟩

/-! ### Step 1 -/

/-- The record of the causes at the end of a reset. -/
theorem recordCause_eq {c : KCause} (hc : c ≠ .wake) (s : State) : ∃ ri, recordCause c s = { s with
    regs := setReg s.regs 0x40000024 ((if c = .cold then 0 else s.rd 0x40000024) |||
      ((s.sys.latch.map ResetLatch.mask).getD (if c = .cold then 1 else if c = .pin then 2 else 4)).setWidth 32)
    sys := { s.sys with railIdx := ri } } := by
  cases c with
  | cold => exact ⟨(s.sys.latch.map ResetLatch.rail).getD 0xFF, by simp [recordCause, sysRstcause]⟩
  | pin => exact ⟨s.sys.railIdx, rfl⟩
  | cmd => exact ⟨s.sys.railIdx, rfl⟩
  | wake => exact absurd rfl hc

theorem recordPg_keeps (s : State) : ∃ r l st ra co, recordPg s = { s with
    sys := { s.sys with recorder := r, lost := l, kfStep := st, kfRail := ra, kfCode := co } } := by
  unfold recordPg
  split
  · next x hx =>
    split
    · obtain ⟨r, l, h⟩ := pushFault_logKept (faultRec (setSys (fun y => { y with kfStep := x.step, kfRail := x.rail, kfCode := 4 }) s) 0x05 0
        [BitVec.ofNat 8 x.rail]) (setSys (fun y => { y with kfStep := x.step, kfRail := x.rail, kfCode := 4 }) s).sys
      dsimp only [logFault]
      rw [h]
      exact ⟨r, l, _, _, _, rfl⟩
    · exact ⟨_, _, _, _, _, rfl⟩
  · exact ⟨_, _, _, _, _, rfl⟩

/-- The state after step 1 of a kindle after a reset, before its duration is judged. -/
def sampled (st : Straps) (us : Nat) (c : KCause) (s : State) : State :=
  let t := setSys (fun y => { y with
    kindles := kindlesOf s.dst, ktime := Tab.set (fun _ => 0) [] 0 us, retries := 0, krec := {}, kcause := c, kstep := 2, limp := false
    straps := st }) (recordCause c (setPwr (fun p => { p with eVolt := 0, confApplied := false }) s))
  setSys (fun y => { y with due := none, latch := none, lateSteps := 0, wakeLimp := false }) (if c == .cold then recordPg t else t)

theorem exec_kindleStart_reset {s : State} {c : KCause} (hdue : s.sys.due = some c) (hc : c ≠ .wake) (hmode : s.sys.mode = .kindle)
    (hzero : s.sys.timeZero = true) (hstep : s.sys.kstep = 1) (st : Straps) (us : Nat) (pg : Bool) :
    exec (.kindleStart st us pg) s = .next (noteLate 1 us (sampled st us c s)) := by
  show execKindleStart st us pg s = _
  have hwake : (c == .wake) = false := beq_eq_false_iff_ne.mpr hc
  unfold execKindleStart
  simp only [hdue, hmode, hzero, hstep, hwake]
  rfl

theorem exec_kindleStart_wake {s : State} (hdue : s.sys.due = some .wake) (hmode : s.sys.mode = .kindle)
    (hzero : s.sys.timeZero = true) (hstep : s.sys.kstep = 1) (hlimp : s.sys.wakeLimp = false) (st : Straps) (us : Nat) (pg : Bool) :
    exec (.kindleStart st us pg) s = .next (setSys (fun y => { y with due := none, latch := none, lateSteps := 0, wakeLimp := false })
      (setSys (fun y => { y with
        kindles := kindlesOf s.dst, ktime := Tab.set (fun _ => 0) [] 0 0, retries := 0, krec := { wake := true }, kcause := .wake, kstep := 2
        limp := false }) (recordCause .wake (setPwr (fun p => { p with eVolt := 0, confApplied := false })
          (regsReset .kindle (blocksCleared true false s)))))) := by
  have hl : (recordCause .wake (setPwr (fun p => { p with eVolt := 0, confApplied := false })
    (regsReset .kindle (blocksCleared true false s)))).sys.wakeLimp = false := hlimp
  show execKindleStart st us pg s = _
  unfold execKindleStart
  simp only [hdue, hmode, hzero, hstep, beq_self_eq_true, if_true, hl]
  rfl

theorem sampled_eq (st : Straps) (us : Nat) {c : KCause} (hc : c ≠ .wake) (s : State) : ∃ y : Sys, sampled st us c s = { s with
    sys := y, pwr := { s.pwr with eVolt := 0, confApplied := false }
    regs := setReg s.regs 0x40000024 ((if c = .cold then 0 else s.rd 0x40000024) |||
      ((s.sys.latch.map ResetLatch.mask).getD (if c = .cold then 1 else if c = .pin then 2 else 4)).setWidth 32) } ∧
    y.kstep = 2 ∧ y.straps = st ∧ y.due = none ∧ y.latch = none ∧ y.kcause = c ∧ y.ktime = Tab.set (fun _ => 0) [] 0 us ∧
    y.kindles = kindlesOf s.dst ∧ y.krec = {} := by
  obtain ⟨ri, hcause⟩ := recordCause_eq hc (setPwr (fun p => { p with eVolt := 0, confApplied := false }) s)
  unfold sampled
  dsimp only
  rw [hcause]
  split
  · obtain ⟨r, l, kst, ra, co, hpg⟩ := recordPg_keeps (setSys (fun y => { y with
      kindles := kindlesOf s.dst, ktime := Tab.set (fun _ => 0) [] 0 us, retries := 0, krec := {}, kcause := c, kstep := 2, limp := false
      straps := st }) (recordCause c (setPwr (fun p => { p with eVolt := 0, confApplied := false }) s)))
    rw [hcause] at hpg
    rw [hpg]
    exact ⟨_, rfl, rfl, rfl, rfl, rfl, rfl, rfl, rfl, rfl⟩
  · exact ⟨_, rfl, rfl, rfl, rfl, rfl, rfl, rfl, rfl, rfl⟩

/-! ### Step 2 -/

theorem nextRail_first {s : State} (pg : Bool) (h : s.pwr.ready.getLsbD 1 = false) : nextRail pg 0 s = { s with
    sys := { s.sys with railPos := 0, railTries := 0, retryOff := false }
    pwr := { s.pwr with regEn := s.pwr.regEn ||| 2, pgTied := if pg then s.pwr.pgTied ||| 2 else s.pwr.pgTied &&& ~~~ 2 } } := by
  have hfind : ((railOrder.zipIdx.drop 0).find? fun r => !s.pwr.ready.getLsbD r.1) = some (1, 0) := by
    rw [show railOrder.zipIdx.drop 0 = [(1, 0), (0, 1), (3, 2), (2, 3)] from rfl, List.find?_cons_of_pos]
    rw [h]
    rfl
  rw [nextRail, hfind]
  rfl

/-- Settles O12. -/
theorem kindleStepCommands : Obligations.KindleStepCommands := by
  refine ⟨?start, ?wake, ?ready, ?timeout, ?xtal, ?late, ?again⟩
  case start =>
    intro s st us pg c hdue hc hmode hzero hstep
    refine ⟨_, exec_kindleStart_reset hdue hc hmode hzero hstep st us pg, ?_⟩
    obtain ⟨y, heq, hk, hst, hd, hl, hca, hkt, hki, hkr⟩ := sampled_eq st us hc s
    have htime : us ≤ 2000 → noteLate 1 us (sampled st us c s) = sampled st us c s := fun h => noteLate_in_time h
    obtain ⟨r, l, k, ls, kst, co, hlate⟩ := noteLate_keeps 1 us (sampled st us c s)
    have hrep : us ≤ 2000 → (noteLate 1 us (sampled st us c s)).sys.krec = {} := fun h => by
      rw [htime h, heq]
      exact hkr
    rw [hlate, heq] at hrep ⊢
    exact ⟨hk, hst, hd, hl, hca, hkt, hki, hrep, rfl, rfl⟩
  case wake =>
    intro s st us pg hdue hmode hzero hstep hlimp
    refine ⟨_, exec_kindleStart_wake hdue hmode hzero hstep hlimp st us pg, ?_⟩
    exact ⟨rfl, rfl, rfl, rfl, rfl, rfl, rfl, rfl, rfl, rfl, rfl, rfl, rfl, rfl, rfl⟩
  case ready =>
    intro s us pg hmode hstep hready hus
    have h2 : inStep2 s = true := by simp [inStep2, hmode, hstep]
    refine (if_pos h2).trans (congrArg Host.Outcome.next ?_)
    rw [enterStep3, noteLate_in_time (by exact hus)]
    exact nextRail_first pg hready
  case timeout =>
    intro s us pg hmode hstep hready
    have h2 : inStep2 s = true := by simp [inStep2, hmode, hstep]
    refine ⟨_, if_pos h2, ?_⟩
    obtain ⟨r, l, hlog, hlast⟩ := logFault_eq 0x02 0 []
      (setSys (fun y => { y with limp := true, krec := { y.krec with limp := true }, kfStep := 2, kfCode := 1 }) s)
    dsimp only
    rw [hlog, enterStep3, noteLate_timeout rfl, nextRail_first pg (by exact hready)]
    exact ⟨rfl, rfl, rfl, rfl, rfl, rfl, hlast, rfl⟩
  case xtal =>
    intro s hlimp hlate hmode
    refine (if_pos (by rw [hlimp, hlate]; rfl)).trans (congrArg Host.Outcome.next ?_)
    simp only [logFault, setSys, if_neg hmode]
    rfl
  case late =>
    intro s n us hmode h1 hle ht hl
    refine (if_pos ⟨hmode, h1, hle⟩).trans (congrArg Host.Outcome.next ?_)
    split
    · next h => exact noteLate_in_time h
    · next h => exact noteLate_late (Nat.not_le.mp h) ht hl
  case again =>
    intro s n us h
    show execKindleLate n us s = _
    rw [execKindleLate, noteLate_again h]
    split <;> rfl

/-! ### Step 3: the rails -/

theorem inStep3_of {s : State} (hmode : s.sys.mode = .kindle) (hstep : s.sys.kstep = 3) (hkf : s.sys.kfault = false) : inStep3 s = true := by
  simp [inStep3, hmode, hstep, hkf]

theorem nextRail_keeps (pg : Bool) (pos : Nat) (s : State) : ∃ po tr ro en pt, nextRail pg pos s = { s with
    sys := { s.sys with railPos := po, railTries := tr, retryOff := ro }, pwr := { s.pwr with regEn := en, pgTied := pt } } := by
  unfold nextRail
  split
  · exact ⟨_, _, _, _, _, rfl⟩
  · exact ⟨_, _, _, _, _, rfl⟩

theorem endStep3_keeps (us : Nat) (s : State) : ∃ y : Sys, endStep3 us s = { s with sys := y } ∧ y.pllLocked = s.sys.pllLocked ∧
    y.kstep = if s.sys.railPos = 4 ∧ s.sys.pllLocked = true then 4 else s.sys.kstep := by
  unfold endStep3
  split
  · obtain ⟨r, l, k, ls, st, co, h⟩ := noteLate_keeps 3 us s
    rw [h]
    exact ⟨_, rfl, rfl, rfl⟩
  · exact ⟨_, rfl, rfl, rfl⟩

/-- The second rail of the order is driven when it is not ready. -/
theorem nextRail_second {s : State} (pg : Bool) (h : s.pwr.ready.getLsbD 0 = false) : nextRail pg 1 s = { s with
    sys := { s.sys with railPos := 1, railTries := 0, retryOff := false }
    pwr := { s.pwr with regEn := s.pwr.regEn ||| 1, pgTied := if pg then s.pwr.pgTied ||| 1 else s.pwr.pgTied &&& ~~~ 1 } } := by
  have hfind : ((railOrder.zipIdx.drop 1).find? fun r => !s.pwr.ready.getLsbD r.1) = some (0, 1) := by
    rw [show railOrder.zipIdx.drop 1 = [(0, 1), (3, 2), (2, 3)] from rfl, List.find?_cons_of_pos]
    rw [h]
    rfl
  rw [nextRail, hfind]
  rfl

theorem exec_railReady_eq {s : State} {r : Nat} (hrail : railNow s = some r) (h3 : inStep3 s = true) (hen : s.pwr.regEn.getLsbD r = true)
    (hoff : s.sys.retryOff = false) (us : Nat) (pg : Bool) :
    exec (.railReady us pg) s = .next (endStep3 us (nextRail pg (s.sys.railPos + 1)
      (setPwr (fun p => { p with ready := p.ready ||| BitVec.ofNat 4 (2 ^ r), railOk := p.railOk ||| BitVec.ofNat 8 (2 ^ r) }) s))) := by
  show execRailReady us pg s = _
  rw [execRailReady, hrail]
  exact if_pos (by rw [h3, hen, hoff]; rfl)

theorem exec_railTimeout_eq {s : State} {r : Nat} (hrail : railNow s = some r) (h3 : inStep3 s = true) (hen : s.pwr.regEn.getLsbD r = true)
    (hoff : s.sys.retryOff = false) :
    exec .railTimeout s = if s.sys.railTries < 3 then .next (logFault 0x0E 0 [BitVec.ofNat 8 r, BitVec.ofNat 8 (s.sys.railTries + 1)]
      (setSys (fun y => { y with railTries := s.sys.railTries + 1, retries := min 255 (y.retries + 1), retryOff := true })
        (setPwr (fun p => { p with regEn := p.regEn &&& ~~~ BitVec.ofNat 4 (2 ^ r) }) s)))
      else .next (logFault 0x04 0 [BitVec.ofNat 8 r, 3] (kindleFault 2 r s)) := by
  show execRailTimeout s = _
  rw [execRailTimeout, hrail]
  exact if_pos (by rw [h3, hen, hoff]; rfl)

theorem closePaths_eq (s : State) :
    closePath 0 (closePath 1 s) = { s with skn := (closePath 0 (closePath 1 s)).skn } := rfl

/-- What Kindle-fault leaves (R108, R109). -/
theorem kindleFault_eq (code rail : Nat) (s : State) : kindleFault code rail s = { s with
    skn := (closePath 0 (closePath 1 s)).skn
    pwr := { s.pwr with
      regEn := s.pwr.ready &&& 8, ready := s.pwr.ready &&& 8, bypeLow := 0, settling := 0, vidOut := 56
      railOk := s.pwr.railOk &&& (if s.pwr.ready.getLsbD 3 then 0xF8 else 0xF0) }
    sys := { s.sys with kfault := true, kfStep := s.sys.kstep, kfRail := rail, kfCode := code, pllLocked := false }
    ply := { s.ply with running := false } } := by
  have hpaths := closePaths_eq s
  unfold kindleFault
  generalize closePath 0 (closePath 1 s) = v at hpaths ⊢
  generalize v.skn = k at hpaths ⊢
  subst hpaths
  rfl

theorem pllMay_of {s : State} (h3 : inStep3 s = true) (hready : s.pwr.ready.getLsbD 1 = true) (hlock : s.sys.pllLocked = false) :
    pllMay s = true := by
  simp [pllMay, h3, hready, hlock]

theorem plyOf_pliesAtLock (s : State) (t : Tick) (ht : s.ply.ply = pliesAtLock t) : ∀ k < 8,
    (s.plyOf k).hist = [{ t := t, sec := 0, ns := 0, frac := 0, incr := 2 ^ 32 }] := by
  intro k hk
  rw [State.plyOf, ht]
  obtain rfl | rfl | rfl | rfl | rfl | rfl | rfl | rfl : k = 0 ∨ k = 1 ∨ k = 2 ∨ k = 3 ∨ k = 4 ∨ k = 5 ∨ k = 6 ∨ k = 7 := by omega
  · rfl
  · rfl
  · rfl
  · rfl
  · rfl
  · rfl
  · rfl
  · rfl

/-- Settles O13. -/
theorem railAndPllCommands : Obligations.RailAndPllCommands := by
  refine ⟨?first, ?ready, ?retry, ?fault, ?again, ?lock, ?timeout, ?pllFault⟩
  case first =>
    intro s us pg hmode hstep hkf hpos hoff hen hready
    have hrail : railNow s = some 1 := by rw [railNow, hpos]; rfl
    refine (exec_railReady_eq hrail (inStep3_of hmode hstep hkf) hen hoff us pg).trans (congrArg Host.Outcome.next ?_)
    rw [hpos, nextRail_second pg (by simp [setPwr, hready])]
    refine (if_neg (fun h => (show (1:Nat) ≠ 4 by decide) h.1)).trans ?_
    simp only [setPwr, hready]
    rfl
  case ready =>
    intro s us pg r hrail hmode hstep hkf hoff hen
    refine ⟨_, exec_railReady_eq hrail (inStep3_of hmode hstep hkf) hen hoff us pg, ?_⟩
    obtain ⟨po, tr, ro, en, pt, hnext⟩ := nextRail_keeps pg (s.sys.railPos + 1)
      (setPwr (fun p => { p with ready := p.ready ||| BitVec.ofNat 4 (2 ^ r), railOk := p.railOk ||| BitVec.ofNat 8 (2 ^ r) }) s)
    rw [hnext]
    obtain ⟨y, hend, -⟩ := endStep3_keeps us { s with
      sys := { s.sys with railPos := po, railTries := tr, retryOff := ro }
      pwr := { s.pwr with
        ready := s.pwr.ready ||| BitVec.ofNat 4 (2 ^ r), railOk := s.pwr.railOk ||| BitVec.ofNat 8 (2 ^ r), regEn := en, pgTied := pt } }
    refine (congrArg (fun t : State => t.pwr.ready = _ ∧ t.pwr.railOk = _ ∧ t = { s with sys := t.sys, pwr := t.pwr }) hend).mpr ?_
    exact ⟨rfl, rfl, rfl⟩
  case retry =>
    intro s r hrail hmode hstep hkf hoff hen htries
    refine ⟨_, (exec_railTimeout_eq hrail (inStep3_of hmode hstep hkf) hen hoff).trans (if_pos htries), ?_⟩
    obtain ⟨rec, l, hlog, hlast⟩ := logFault_eq 0x0E 0 [BitVec.ofNat 8 r, BitVec.ofNat 8 (s.sys.railTries + 1)]
      (setSys (fun y => { y with railTries := s.sys.railTries + 1, retries := min 255 (y.retries + 1), retryOff := true })
        (setPwr (fun p => { p with regEn := p.regEn &&& ~~~ BitVec.ofNat 4 (2 ^ r) }) s))
    rw [hlog]
    exact ⟨rfl, rfl, rfl, rfl, hlast, rfl⟩
  case fault =>
    intro s r hrail hmode hstep hkf hoff hen htries
    refine ⟨_, (exec_railTimeout_eq hrail (inStep3_of hmode hstep hkf) hen hoff).trans (if_neg (Nat.not_lt.mpr htries)), ?_⟩
    obtain ⟨rec, l, hlog, hlast⟩ := logFault_eq 0x04 0 [BitVec.ofNat 8 r, 3] (kindleFault 2 r s)
    rw [hlog, kindleFault_eq]
    exact ⟨rfl, hmode, rfl, rfl, rfl, rfl, rfl, rfl, hlast, rfl⟩
  case again =>
    intro s r hrail hmode hstep hkf hoff
    show execRailRetry s = _
    rw [execRailRetry, hrail]
    exact if_pos (by rw [inStep3_of hmode hstep hkf, hoff]; rfl)
  case lock =>
    intro s steps us hmode hstep hkf hready hlock
    refine ⟨_, if_pos (pllMay_of (inStep3_of hmode hstep hkf) hready hlock), ?_⟩
    obtain ⟨y, hend, hpll, hk⟩ := endStep3_keeps us { s with
      ply := { reel := if s.sys.kcause = .cold then 0 else s.reel + BitVec.ofNat 64 (40 * steps), running := true, cont := true
               ply := pliesAtLock (if s.sys.kcause = .cold then 0 else s.reel + BitVec.ofNat 64 (40 * steps)) }
      sys := { s.sys with pllLocked := true } }
    dsimp only
    rw [hend]
    refine ⟨hpll, rfl, rfl, rfl, ?_, plyOf_pliesAtLock _ _ rfl, rfl⟩
    rw [hk, hstep]
    simp
  case timeout =>
    intro s hmode hstep hkf hready hlock htries
    exact (if_pos (pllMay_of (inStep3_of hmode hstep hkf) hready hlock)).trans (if_pos htries)
  case pllFault =>
    intro s hmode hstep hkf hready hlock htries
    refine ⟨_, (if_pos (pllMay_of (inStep3_of hmode hstep hkf) hready hlock)).trans (if_neg htries), ?_⟩
    obtain ⟨rec, l, hlog, hlast⟩ := logFault_eq 0x06 0 [] (kindleFault 3 0 s)
    rw [hlog, kindleFault_eq]
    exact ⟨rfl, rfl, rfl, rfl, rfl⟩

end Sys2Proof.Machine
end

section
/-!
What an operation leaves unchanged, part of the state by part. `Touches P s t` says that `t` differs from `s` at most in the parts that
`P` names; for a concrete `P` it is, by unfolding, the equation `t = { s with … }` that the frame of an obligation states. One lemma per
operation of the model names the parts it can change.
-/

set_option Elab.async false

namespace Sys2Proof.Machine

/-- A set of the state's parts. -/
structure Parts where
  pending : Bool := false
  regs : Bool := false
  latch : Bool := false
  rdata : Bool := false
  rdataHi : Bool := false
  free : Bool := false
  sys : Bool := false
  pwr : Bool := false
  txn : Bool := false
  dst : Bool := false
  stw : Bool := false
  hl : Bool := false
  whl : Bool := false
  fly : Bool := false
  bob : Bool := false
  eth : Bool := false
  can : Bool := false
  ply : Bool := false
  skn : Bool := false
  pnl : Bool := false
  tag : Bool := false
  rov : Bool := false

/-- The parts of `t` that `P` names, the others of `s`. -/
def State.patch (P : Parts) (s t : State) : State where
  pending := cond P.pending t.pending s.pending
  regs := cond P.regs t.regs s.regs
  latch := cond P.latch t.latch s.latch
  rdata := cond P.rdata t.rdata s.rdata
  rdataHi := cond P.rdataHi t.rdataHi s.rdataHi
  free := cond P.free t.free s.free
  sys := cond P.sys t.sys s.sys
  pwr := cond P.pwr t.pwr s.pwr
  txn := cond P.txn t.txn s.txn
  dst := cond P.dst t.dst s.dst
  stw := cond P.stw t.stw s.stw
  hl := cond P.hl t.hl s.hl
  whl := cond P.whl t.whl s.whl
  fly := cond P.fly t.fly s.fly
  bob := cond P.bob t.bob s.bob
  eth := cond P.eth t.eth s.eth
  can := cond P.can t.can s.can
  ply := cond P.ply t.ply s.ply
  skn := cond P.skn t.skn s.skn
  pnl := cond P.pnl t.pnl s.pnl
  tag := cond P.tag t.tag s.tag
  rov := cond P.rov t.rov s.rov

/-- `t` differs from `s` at most in the parts `P`. -/
def Touches (P : Parts) (s t : State) : Prop := t = s.patch P t

/-- Every part of `P` is one of `Q`. -/
def Parts.within (P Q : Parts) : Bool :=
  (!P.pending || Q.pending) && (!P.regs || Q.regs) && (!P.latch || Q.latch) && (!P.rdata || Q.rdata) && (!P.rdataHi || Q.rdataHi) &&
  (!P.free || Q.free) && (!P.sys || Q.sys) && (!P.pwr || Q.pwr) && (!P.txn || Q.txn) && (!P.dst || Q.dst) &&
  (!P.stw || Q.stw) && (!P.hl || Q.hl) && (!P.whl || Q.whl) && (!P.fly || Q.fly) && (!P.bob || Q.bob) &&
  (!P.eth || Q.eth) && (!P.can || Q.can) && (!P.ply || Q.ply) && (!P.skn || Q.skn) && (!P.pnl || Q.pnl) &&
  (!P.tag || Q.tag) && (!P.rov || Q.rov)

theorem cond_trans {α : Type} {p q : Bool} {x y z : α} (hxy : y = cond p y x) (hyz : z = cond q z y) (h : (!q || p) = true) : z = cond p z x := by
  cases p with
  | true => rfl
  | false =>
    cases q with
    | true => exact absurd h (by decide)
    | false => exact hyz.trans hxy

theorem cond_named {α : Type} {p : Bool} {x y : α} (h : y = cond p y x) (hp : p = false) : y = x := by
  rw [hp] at h
  exact h

namespace Touches

variable {P Q : Parts} {s t u : State}

theorem refl (P : Parts) (s : State) : Touches P s s := by
  unfold Touches State.patch
  simp only [Bool.cond_self]

/-- An operation on a part of what may change. -/
theorem trans (h : Touches P s t) (h' : Touches Q t u) (hw : Q.within P = true := by rfl) : Touches P s u := by
  simp only [Parts.within, Bool.and_eq_true] at hw
  obtain ⟨⟨⟨⟨⟨⟨⟨⟨⟨⟨⟨⟨⟨⟨⟨⟨⟨⟨⟨⟨⟨hpending, hregs⟩, hlatch⟩, hrdata⟩, hrdataHi⟩, hfree⟩, hsys⟩, hpwr⟩, htxn⟩, hdst⟩, hstw⟩, hhl⟩, hwhl⟩, hfly⟩, hbob⟩, heth⟩, hcan⟩, hply⟩, hskn⟩, hpnl⟩, htag⟩, hrov⟩ := hw
  cases u with
  | mk => exact (State.mk.injEq ..).mpr ⟨
    cond_trans (congrArg State.pending h) (congrArg State.pending h') hpending,
    cond_trans (congrArg State.regs h) (congrArg State.regs h') hregs,
    cond_trans (congrArg State.latch h) (congrArg State.latch h') hlatch,
    cond_trans (congrArg State.rdata h) (congrArg State.rdata h') hrdata,
    cond_trans (congrArg State.rdataHi h) (congrArg State.rdataHi h') hrdataHi,
    cond_trans (congrArg State.free h) (congrArg State.free h') hfree,
    cond_trans (congrArg State.sys h) (congrArg State.sys h') hsys,
    cond_trans (congrArg State.pwr h) (congrArg State.pwr h') hpwr,
    cond_trans (congrArg State.txn h) (congrArg State.txn h') htxn,
    cond_trans (congrArg State.dst h) (congrArg State.dst h') hdst,
    cond_trans (congrArg State.stw h) (congrArg State.stw h') hstw,
    cond_trans (congrArg State.hl h) (congrArg State.hl h') hhl,
    cond_trans (congrArg State.whl h) (congrArg State.whl h') hwhl,
    cond_trans (congrArg State.fly h) (congrArg State.fly h') hfly,
    cond_trans (congrArg State.bob h) (congrArg State.bob h') hbob,
    cond_trans (congrArg State.eth h) (congrArg State.eth h') heth,
    cond_trans (congrArg State.can h) (congrArg State.can h') hcan,
    cond_trans (congrArg State.ply h) (congrArg State.ply h') hply,
    cond_trans (congrArg State.skn h) (congrArg State.skn h') hskn,
    cond_trans (congrArg State.pnl h) (congrArg State.pnl h') hpnl,
    cond_trans (congrArg State.tag h) (congrArg State.tag h') htag,
    cond_trans (congrArg State.rov h) (congrArg State.rov h') hrov⟩

/-- A change of the parts `P` alone. -/
theorem change (h : Touches P s t) (h' : Touches P t u) : Touches P s u := h.trans h' (by simp [Parts.within])

theorem widen (h : Touches Q s t) (hw : Q.within P = true := by rfl) : Touches P s t := (refl P s).trans h hw

theorem ite {c : Prop} {_ : Decidable c} (h : Touches P s t) (h' : Touches P s u) : Touches P s (if c then t else u) := by
  split
  · exact h
  · exact h'

theorem foldl {α : Type} {f : State → α → State} {l : List α} (hf : ∀ u x, Touches P s u → Touches P s (f u x)) (h : Touches P s t) :
    Touches P s (l.foldl f t) := by
  induction l generalizing t with
  | nil => exact h
  | cons x l ih => exact ih (hf t x h)

/-! A part that is not named is as before. -/

theorem same_pending (h : Touches P s t) (hp : P.pending = false := by rfl) : t.pending = s.pending := cond_named (congrArg State.pending h) hp
theorem same_regs (h : Touches P s t) (hp : P.regs = false := by rfl) : t.regs = s.regs := cond_named (congrArg State.regs h) hp
theorem same_latch (h : Touches P s t) (hp : P.latch = false := by rfl) : t.latch = s.latch := cond_named (congrArg State.latch h) hp
theorem same_rdata (h : Touches P s t) (hp : P.rdata = false := by rfl) : t.rdata = s.rdata := cond_named (congrArg State.rdata h) hp
theorem same_rdataHi (h : Touches P s t) (hp : P.rdataHi = false := by rfl) : t.rdataHi = s.rdataHi := cond_named (congrArg State.rdataHi h) hp
theorem same_free (h : Touches P s t) (hp : P.free = false := by rfl) : t.free = s.free := cond_named (congrArg State.free h) hp
theorem same_sys (h : Touches P s t) (hp : P.sys = false := by rfl) : t.sys = s.sys := cond_named (congrArg State.sys h) hp
theorem same_pwr (h : Touches P s t) (hp : P.pwr = false := by rfl) : t.pwr = s.pwr := cond_named (congrArg State.pwr h) hp
theorem same_txn (h : Touches P s t) (hp : P.txn = false := by rfl) : t.txn = s.txn := cond_named (congrArg State.txn h) hp
theorem same_dst (h : Touches P s t) (hp : P.dst = false := by rfl) : t.dst = s.dst := cond_named (congrArg State.dst h) hp
theorem same_stw (h : Touches P s t) (hp : P.stw = false := by rfl) : t.stw = s.stw := cond_named (congrArg State.stw h) hp
theorem same_hl (h : Touches P s t) (hp : P.hl = false := by rfl) : t.hl = s.hl := cond_named (congrArg State.hl h) hp
theorem same_whl (h : Touches P s t) (hp : P.whl = false := by rfl) : t.whl = s.whl := cond_named (congrArg State.whl h) hp
theorem same_fly (h : Touches P s t) (hp : P.fly = false := by rfl) : t.fly = s.fly := cond_named (congrArg State.fly h) hp
theorem same_bob (h : Touches P s t) (hp : P.bob = false := by rfl) : t.bob = s.bob := cond_named (congrArg State.bob h) hp
theorem same_eth (h : Touches P s t) (hp : P.eth = false := by rfl) : t.eth = s.eth := cond_named (congrArg State.eth h) hp
theorem same_can (h : Touches P s t) (hp : P.can = false := by rfl) : t.can = s.can := cond_named (congrArg State.can h) hp
theorem same_ply (h : Touches P s t) (hp : P.ply = false := by rfl) : t.ply = s.ply := cond_named (congrArg State.ply h) hp
theorem same_skn (h : Touches P s t) (hp : P.skn = false := by rfl) : t.skn = s.skn := cond_named (congrArg State.skn h) hp
theorem same_pnl (h : Touches P s t) (hp : P.pnl = false := by rfl) : t.pnl = s.pnl := cond_named (congrArg State.pnl h) hp
theorem same_tag (h : Touches P s t) (hp : P.tag = false := by rfl) : t.tag = s.tag := cond_named (congrArg State.tag h) hp
theorem same_rov (h : Touches P s t) (hp : P.rov = false := by rfl) : t.rov = s.rov := cond_named (congrArg State.rov h) hp

/-- An operation that touches `Q`, on a part of what may change. -/
theorem on (h : Touches P s t) (hw : Q.within P = true) (f : Touches Q t t → Touches Q t u) : Touches P s u := h.trans (f (refl Q t)) hw

/-- A change that the state's constructor shows; its queue says of which state. -/
theorem keep {regs : Tab Word} {latch : Tab (Option Word)} {rdata rdataHi : Word} {free : Nat} {sys : Sys} {pwr : Pwr} {txn : TxnSt} {dst : Dst}
    {stw : Stw} {hl : Hl} {whl : Whl} {fly : Fly} {bob : Bob} {eth : Eth} {can : Tab Can} {ply : Plys} {skn : Skn} {pnl : Pnl} {tag : Tag} {rov : Rov}
    (h : Touches P s t)
    (h' : Touches P t ⟨t.pending, regs, latch, rdata, rdataHi, free, sys, pwr, txn, dst, stw, hl, whl, fly, bob, eth, can, ply, skn, pnl, tag, rov⟩ :=
      by exact rfl) :
    Touches P s ⟨t.pending, regs, latch, rdata, rdataHi, free, sys, pwr, txn, dst, stw, hl, whl, fly, bob, eth, can, ply, skn, pnl, tag, rov⟩ :=
  h.change h'

theorem ite_admission {c : Prop} {_ : Decidable c} {a b : Adm × Nat × Bool × State} (ha : Touches P s a.2.2.2) (hb : Touches P s b.2.2.2) :
    Touches P s (if c then a else b).2.2.2 := by
  split
  · exact ha
  · exact hb

theorem canOwned (h : Touches P s t) {n : Nat} {who : Owner} {g : State → State} (hg : ∀ u, Touches P s u → Touches P s (g u)) :
    Touches P s (canOwned n who g t) := by
  unfold Machine.canOwned
  exact ite (hg _ h) h

theorem islandsLost (h : Touches P s t)
    (hw : Parts.within { txn := true, stw := true, hl := true, whl := true, fly := true, bob := true, eth := true, can := true, ply := true, rov := true } P = true := by rfl) : Touches P s (islandsLost t) :=
  h.on hw fun _ => rfl

theorem panelToAlwaysOn (h : Touches P s t) (hw : Parts.within { pnl := true } P = true := by rfl) : Touches P s (panelToAlwaysOn t) :=
  h.on hw fun _ => rfl

theorem setLink (h : Touches P s t) {l : Nat} {f : Link → Link}
    (hw : Parts.within { skn := true } P = true := by rfl) : Touches P s (t.setLink l f) :=
  h.on hw fun _ => rfl

theorem setRov (h : Touches P s t) {f : Rov → Rov} (hw : Parts.within { rov := true } P = true := by rfl) : Touches P s (setRov f t) :=
  h.on hw fun _ => rfl

theorem rovIdle (h : Touches P s t) (hw : Parts.within { rov := true } P = true := by rfl) :
    Touches P s (rovIdle t) := by
  refine h.on hw fun h => ?_
  unfold Machine.rovIdle
  exact setRov h

theorem rovHold (h : Touches P s t) (hw : Parts.within { rov := true } P = true := by rfl) :
    Touches P s (rovHold t) := by
  refine h.on hw fun h => ?_
  unfold Machine.rovHold
  exact setRov h

theorem rovStopIdle (h : Touches P s t) (hw : Parts.within { rov := true } P = true := by rfl) :
    Touches P s (rovStopIdle t) := by
  refine h.on hw fun h => ?_
  unfold Machine.rovStopIdle
  exact rovIdle (rovHold h)

theorem setCan (h : Touches P s t) {n : Nat} {f : Can → Can} (hw : Parts.within { can := true } P = true := by rfl) : Touches P s (t.setCan n f) :=
  h.on hw fun _ => rfl

theorem canDisable (h : Touches P s t) {n : Nat} (hw : Parts.within { can := true } P = true := by rfl) :
    Touches P s (canDisable n t) := by
  refine h.on hw fun h => ?_
  unfold Machine.canDisable
  exact setCan h

theorem canDrowse (h : Touches P s t) {n : Nat} (hw : Parts.within { can := true } P = true := by rfl) :
    Touches P s (canDrowse n t) := by
  refine h.on hw fun h => ?_
  unfold Machine.canDrowse
  exact setCan (canDisable h)

theorem setEport (h : Touches P s t) {p : Nat} {f : EPort → EPort}
    (hw : Parts.within { eth := true } P = true := by rfl) : Touches P s (t.setEport p f) :=
  h.on hw fun _ => rfl

theorem ledgerTx (h : Touches P s t) {p : Nat} {tick : Tick} {bobbin tag : Nat}
    (hw : Parts.within { ply := true } P = true := by rfl) : Touches P s (ledgerTx p tick bobbin tag t) :=
  h.on hw fun _ => rfl

theorem setEgress (h : Touches P s t) {p : Nat} {f : Egress → Egress}
    (hw : Parts.within { bob := true } P = true := by rfl) : Touches P s (t.setEgress p f) :=
  h.on hw fun _ => rfl

theorem thruEnd (h : Touches P s t) {p : Nat} {bytes : List Byte} {bad : Bool}
    (hw : Parts.within { bob := true, eth := true, ply := true } P = true := by rfl) :
    Touches P s (thruEnd p bytes bad t) := by
  refine h.on hw fun h => ?_
  unfold Machine.thruEnd
  exact ite h (ite (ite (ledgerTx (setEport (setEgress (setEport h)))) (setEport (setEgress (setEport h)))) (setEport h))

theorem setFrame (h : Touches P s t) {id : Nat} {g : Frame → Frame}
    (hw : Parts.within { bob := true } P = true := by rfl) : Touches P s (t.setFrame id g) :=
  h.on hw fun _ => rfl

theorem endArriving (h : Touches P s t) {f : Frame} {bytes : List Byte} {bad trunc : Bool} (hw : Parts.within { bob := true } P = true := by rfl) :
    Touches P s (endArriving f bytes bad trunc t) := by
  refine h.on hw fun h => ?_
  simp only [Machine.endArriving]
  split
  · exact keep h
  · exact setFrame h

theorem linkDrop (h : Touches P s t) {p : Nat} (hw : Parts.within { bob := true, eth := true, ply := true } P = true := by rfl) :
    Touches P s (linkDrop p t) := by
  refine h.on hw fun h => ?_
  simp only [Machine.linkDrop]
  split
  · exact setEport h
  · exact setEport (thruEnd (setEgress (setEport (endArriving h))))

theorem ethPhyOff (h : Touches P s t) {p : Nat} (hw : Parts.within { bob := true, eth := true, ply := true } P = true := by rfl) :
    Touches P s (ethPhyOff p t) := by
  refine h.on hw fun h => ?_
  unfold Machine.ethPhyOff
  exact setEport (ite (linkDrop h) h)

theorem setWhl (h : Touches P s t) {f : Whl → Whl} (hw : Parts.within { whl := true } P = true := by rfl) : Touches P s (setWhl f t) :=
  h.on hw fun _ => rfl

theorem setFlyer (h : Touches P s t) {n : Nat} {f : Flyer → Flyer}
    (hw : Parts.within { fly := true } P = true := by rfl) : Touches P s (t.setFlyer n f) :=
  h.on hw fun _ => rfl

theorem raiseLine (h : Touches P s t) {n : Nat} (hw : Parts.within { stw := true } P = true := by rfl) : Touches P s (raiseLine n t) :=
  h.on hw fun _ => rfl

theorem logFault (h : Touches P s t) {code block : Nat} {d : List Byte}
    (hw : Parts.within { sys := true } P = true := by rfl) : Touches P s (logFault code block d t) :=
  h.on hw fun _ => rfl

theorem setBits (h : Touches P s t) {a : Nat} {v : Word} (hw : Parts.within { regs := true } P = true := by rfl) : Touches P s (t.setBits a v) :=
  h.on hw fun _ => rfl

theorem flyFlag (h : Touches P s t) {f i : Nat} (hw : Parts.within { regs := true, sys := true, stw := true } P = true := by rfl) :
    Touches P s (flyFlag f i t) := by
  refine h.on hw fun h => ?_
  unfold Machine.flyFlag
  exact ite h (ite (raiseLine (logFault (setBits h))) (logFault (setBits h)))

theorem flyPush (h : Touches P s t) {f : Nat} {v : Word}
    (hw : Parts.within { regs := true, sys := true, stw := true, fly := true } P = true := by rfl) :
    Touches P s (flyPush f v t) := by
  refine h.on hw fun h => ?_
  unfold Machine.flyPush
  exact ite (setFlyer h) (flyFlag h)

theorem flyPop (h : Touches P s t) {f : Nat} (hw : Parts.within { fly := true } P = true := by rfl) :
    Touches P s (flyPop f t) := by
  refine h.on hw fun h => ?_
  unfold Machine.flyPop
  exact setFlyer h

theorem actEnter (h : Touches P s t) {f : Nat} {w0 w1 : Word}
    (hw : Parts.within { regs := true, sys := true, stw := true, fly := true } P = true := by rfl) :
    Touches P s (actEnter f w0 w1 t) := by
  refine h.on hw fun h => ?_
  unfold Machine.actEnter
  exact setFlyer (ite (flyFlag (ite (flyFlag h) h)) (ite (flyFlag h) h))

theorem actPost (h : Touches P s t) {f : Nat} {w0 w1 : Word}
    (hw : Parts.within { regs := true, sys := true, stw := true, fly := true } P = true := by rfl) :
    Touches P s (actPost f w0 w1 t) := by
  refine h.on hw fun h => ?_
  unfold Machine.actPost
  exact ite (flyFlag (ite (flyFlag h) h)) (ite (ite (flyFlag h) h) (actEnter h))

theorem setPin (h : Touches P s t) {p : Nat} {f : Pin → Pin} (hw : Parts.within { fly := true } P = true := by rfl) : Touches P s (t.setPin p f) :=
  h.on hw fun _ => rfl

theorem pinSafe (h : Touches P s t) {p : Nat} (hw : Parts.within { fly := true } P = true := by rfl) :
    Touches P s (pinSafe p t) := by
  refine h.on hw fun h => ?_
  unfold Machine.pinSafe
  exact setPin h

theorem flyHalt (h : Touches P s t) {f : Nat} (hw : Parts.within { fly := true } P = true := by rfl) :
    Touches P s (flyHalt f t) := by
  refine h.on hw fun h => ?_
  unfold Machine.flyHalt
  exact foldl (fun _ _ h => pinSafe h) (setFlyer h)

theorem flyStart (h : Touches P s t) {f : Nat} (hw : Parts.within { fly := true } P = true := by rfl) :
    Touches P s (flyStart f t) := by
  refine h.on hw fun h => ?_
  unfold Machine.flyStart
  exact ite (setFlyer h) (setFlyer h)

theorem canCancel (h : Touches P s t) {n : Nat} {v : Word} (hw : Parts.within { can := true } P = true := by rfl) :
    Touches P s (canCancel n v t) := by
  refine h.on hw fun h => ?_
  unfold Machine.canCancel
  exact setCan h

theorem canTxreq (h : Touches P s t) {n : Nat} {v : Word} (hw : Parts.within { can := true } P = true := by rfl) :
    Touches P s (canTxreq n v t) := by
  refine h.on hw fun h => ?_
  unfold Machine.canTxreq
  exact setCan h

theorem canPopFifos (h : Touches P s t) {n : Nat} {v : Word} (hw : Parts.within { can := true } P = true := by rfl) :
    Touches P s (canPopFifos n v t) := by
  refine h.on hw fun h => ?_
  unfold Machine.canPopFifos
  exact setCan h

theorem canWinWrite (h : Touches P s t) {n off : Nat} {who : Owner} {v : Word} (hw : Parts.within { can := true } P = true := by rfl) :
    Touches P s (canWinWrite n off who v t) := by
  refine h.on hw fun h => ?_
  unfold Machine.canWinWrite
  refine canOwned h fun u hu => ?_
  split
  · exact keep hu
  split
  · exact canTxreq hu
  split
  · exact canCancel hu
  split
  · exact canPopFifos hu
  · exact hu

theorem innerWhole (h : Touches P s t) {id : Nat} (hw : Parts.within { bob := true } P = true := by rfl) :
    Touches P s (innerWhole id t) := by
  refine h.on hw fun h => ?_
  unfold Machine.innerWhole
  exact keep (setFrame h)

theorem setBobbin (h : Touches P s t) {b : Nat} {f : Bobbin → Bobbin}
    (hw : Parts.within { bob := true } P = true := by rfl) : Touches P s (t.setBobbin b f) :=
  h.on hw fun _ => rfl

theorem bobCount (h : Touches P s t) {b avg : Nat} {r : Adm} {mark : Bool} (hw : Parts.within { bob := true } P = true := by rfl) :
    Touches P s (bobCount b avg r mark t) := by
  refine h.on hw fun h => ?_
  unfold Machine.bobCount
  exact setBobbin h

theorem admission (q : AdmReq) (h : Touches P s t) (hw : Parts.within { bob := true } P = true := by rfl) :
    Touches P s (admission q t).2.2.2 := by
  refine h.on hw fun h => ?_
  unfold Machine.admission
  exact ite_admission (bobCount h) (ite_admission (bobCount (ite (keep (ite (keep h) h)) (ite (keep h) h)))
    (bobCount (ite (keep (ite (keep h) h)) (ite (keep h) h))))

theorem enqueueFrame (h : Touches P s t) {id b cells colour : Nat} {ce : Bool} (hw : Parts.within { bob := true } P = true := by rfl) :
    Touches P s (enqueueFrame id b cells colour ce t) := by
  refine h.on hw fun h => ?_
  unfold Machine.enqueueFrame
  exact keep (setFrame h)

theorem turnAway (h : Touches P s t) {id : Nat} (hw : Parts.within { bob := true } P = true := by rfl) : Touches P s (turnAway id t) :=
  h.on hw fun _ => rfl

theorem offerFrame (id : Nat) (q : AdmReq) (h : Touches P s t) (hw : Parts.within { bob := true } P = true := by rfl) :
    Touches P s (offerFrame id q t) := by
  refine h.on hw fun h => ?_
  have ha : Touches _ t (Machine.admission q t).2.2.2 := admission q h
  unfold Machine.offerFrame
  split
  · next heq => rw [heq] at ha; exact enqueueFrame ha
  · next heq => rw [heq] at ha; exact turnAway ha

theorem newFrame (p : Nat) (ledger : Tick) (h : Touches P s t)
    (hw : Parts.within { bob := true } P = true := by rfl) : Touches P s (newFrame p ledger t).2 :=
  h.on hw fun _ => rfl

theorem offerInner (port b : Nat) (bytes : List Byte) (tx : Bool) (h : Touches P s t) (hw : Parts.within { bob := true } P = true := by rfl) :
    Touches P s (offerInner port b bytes tx t).2.2 := by
  refine h.on hw fun h => ?_
  have ho : Touches _ t (Machine.offerFrame (Machine.newFrame port 0 t).1 (innerReq b bytes tx)
      ((Machine.newFrame port 0 t).2.setFrame (Machine.newFrame port 0 t).1 fun f => { f with bytes := bytes ++ fcsOf bytes })) :=
    offerFrame _ _ (setFrame (newFrame port 0 h))
  unfold Machine.offerInner
  dsimp only
  split
  · exact ho
  · exact keep ho

theorem regWrite (h : Touches P s t) {a : Nat} {v : Word} (hw : Parts.within { regs := true } P = true := by rfl) : Touches P s (t.regWrite a v) :=
  h.on hw fun _ => rfl

theorem tinEvents (h : Touches P s t) {n k : Nat} (hw : Parts.within { regs := true, sys := true, stw := true, whl := true } P = true := by rfl) :
    Touches P s (tinEvents n k t) := by
  refine h.on hw fun h => ?_
  unfold Machine.tinEvents
  exact ite (keep h) (logFault (raiseLine (setBits (keep h))))

theorem thruEdit (h : Touches P s t) {p seq off : Nat} {b : Byte} (hw : Parts.within { bob := true, eth := true } P = true := by rfl) :
    Touches P s (thruEdit p seq off b t) := by
  refine h.on hw fun h => ?_
  unfold Machine.thruEdit
  exact ite h (ite (setEgress (setEport h)) (ite (setEgress (setEport h)) (setEport h)))

theorem endRefusalIfEmpty (h : Touches P s t) {b : Nat} (hw : Parts.within { hl := true, bob := true } P = true := by rfl) :
    Touches P s (endRefusalIfEmpty b t) := by
  refine h.on hw fun h => ?_
  unfold Machine.endRefusalIfEmpty
  exact ite (keep (setBobbin h)) h

theorem reapFrame (h : Touches P s t) {id : Nat} (hw : Parts.within { bob := true } P = true := by rfl) :
    Touches P s (reapFrame id t) := by
  refine h.on hw fun h => ?_
  unfold Machine.reapFrame
  exact ite h (ite (setFrame h) (keep h))

theorem dropEntry (h : Touches P s t) {b id : Nat} (hw : Parts.within { hl := true, bob := true } P = true := by rfl) :
    Touches P s (dropEntry b id t) := by
  refine h.on hw fun h => ?_
  unfold Machine.dropEntry
  exact endRefusalIfEmpty (reapFrame (keep h))

theorem releaseOne (h : Touches P s t) {e : Staged}
    (hw : Parts.within { regs := true, sys := true, stw := true, hl := true, whl := true, fly := true, bob := true, eth := true, can := true } P = true := by rfl) :
    Touches P s (releaseOne e t) := by
  refine h.on hw fun h => ?_
  unfold Machine.releaseOne
  dsimp only
  split
  · exact ite (setWhl h) h
  · exact ite (flyPush h) h
  · exact ite (flyPop h) h
  · exact ite (actPost h) h
  · exact flyHalt h
  · exact ite (flyStart h) h
  · exact canCancel h
  · exact canWinWrite h
  · exact ite (innerWhole (offerInner _ _ _ _ h)) (offerInner _ _ _ _ h)
  · exact innerWhole h
  · exact regWrite h
  · exact tinEvents h
  · exact setWhl h
  · exact thruEdit h
  · exact dropEntry h

theorem reachTick (h : Touches P s t) {t' : Tick} (hw : Parts.within { ply := true } P = true := by rfl) :
    Touches P s (reachTick t' t) := by
  refine h.on hw fun h => ?_
  unfold Machine.reachTick
  exact ite (keep h) h

theorem releaseNext (h : Touches P s t)
    (hw : Parts.within { regs := true, sys := true, stw := true, hl := true, whl := true, fly := true, bob := true, eth := true, can := true, ply := true } P = true := by rfl) :
    Touches P s (releaseNext t) := by
  refine h.on hw fun h => ?_
  simp only [Machine.releaseNext]
  split
  · exact h
  · exact foldl (fun _ _ h => releaseOne h) (reachTick (setWhl h))

theorem releaseAll (n : Nat) (h : Touches P s t)
    (hw : Parts.within { regs := true, sys := true, stw := true, hl := true, whl := true, fly := true, bob := true, eth := true, can := true, ply := true } P = true := by rfl) :
    Touches P s (releaseAll n t) := by
  induction n generalizing t with
  | zero => exact h
  | succ n ih => exact ih (releaseNext h hw)

theorem startWake (h : Touches P s t) (hw : Parts.within { sys := true } P = true := by rfl) : Touches P s (startWake t) :=
  h.on hw fun _ => rfl

theorem setSys (h : Touches P s t) {f : Sys → Sys} (hw : Parts.within { sys := true } P = true := by rfl) : Touches P s (setSys f t) :=
  h.on hw fun _ => rfl

theorem setPwr (h : Touches P s t) {f : Pwr → Pwr} (hw : Parts.within { pwr := true } P = true := by rfl) : Touches P s (setPwr f t) :=
  h.on hw fun _ => rfl

theorem enterDrowse (h : Touches P s t)
    (hw : Parts.within { regs := true, sys := true, pwr := true, txn := true, stw := true, hl := true, whl := true, fly := true, bob := true, eth := true, can := true, ply := true, skn := true, pnl := true, rov := true } P = true := by rfl) :
    Touches P s (enterDrowse t) := by
  refine h.on hw fun h => ?_
  unfold Machine.enterDrowse
  dsimp only
  generalize hu : Machine.islandsLost _ = u
  have hs : Touches _ t u := hu ▸ islandsLost (panelToAlwaysOn (setLink (setLink (rovStopIdle
    (foldl (fun _ _ hv => canDrowse hv) (foldl (fun _ _ hv => ite (ethPhyOff hv) hv) (releaseAll _ h)))))))
  exact ite (startWake (setSys (setPwr hs))) (setSys (setPwr hs))

theorem wakeFire (h : Touches P s t) {src : BitVec 6} (hw : Parts.within { regs := true, sys := true } P = true := by rfl) :
    Touches P s (wakeFire src t) := by
  refine h.on hw fun h => ?_
  unfold Machine.wakeFire
  exact ite h (ite (keep (setBits h)) (startWake (keep (setBits h))))

theorem chargerNote (h : Touches P s t) (hw : Parts.within { pwr := true } P = true := by rfl) :
    Touches P s (chargerNote t) := by
  refine h.on hw fun h => ?_
  unfold Machine.chargerNote
  exact ite (setPwr h) h

end Touches

end Sys2Proof.Machine
end

section
/-!
Drowse entry, the wake sources and the PCIe link (O14).
-/

set_option Elab.async false

namespace Sys2Proof.Machine

theorem enterDrowse_dst (s : State) : (enterDrowse s).dst = s.dst :=
  Touches.same_dst (P := { regs := true, sys := true, pwr := true, txn := true, stw := true, hl := true, whl := true, fly := true, bob := true, eth := true, can := true, ply := true, skn := true, pnl := true, rov := true })
    (Touches.refl _ s).enterDrowse

theorem enterDrowse_pending (s : State) : (enterDrowse s).pending = s.pending := (Steady.refl s).enterDrowse.pending

/-- What Drowse entry leaves of the supplies and of the islands, and the mode: Drowse, or Kindle with a wake that was held. -/
theorem enterDrowse_spec (s : State) : (enterDrowse s).sys.entering = false ∧ (enterDrowse s).pwr.regEn = 8 ∧ (enterDrowse s).pwr.bypeLow = 0 ∧
    (enterDrowse s).pwr.settling = 0 ∧ (enterDrowse s).pwr.vidOut = 56 ∧ (enterDrowse s).txn = {} ∧ (enterDrowse s).whl = {} ∧
    (enterDrowse s).bob = {} ∧ (enterDrowse s).eth = {} ∧ (enterDrowse s).ply.running = false ∧
    (((enterDrowse s).sys.mode = .drowse ∧ (enterDrowse s).sys.kstep = 0) ∨
      ((enterDrowse s).sys.mode = .kindle ∧ (enterDrowse s).sys.due = some .wake ∧ (enterDrowse s).sys.kstep = 1 ∧
        supplyValid (enterDrowse s) = true)) := by
  unfold enterDrowse
  dsimp only
  generalize panelToAlwaysOn _ = u
  split
  · next h => exact ⟨rfl, rfl, rfl, rfl, rfl, rfl, rfl, rfl, rfl, rfl, .inr ⟨rfl, rfl, rfl, (Bool.and_eq_true .. ▸ h).2⟩⟩
  · exact ⟨rfl, rfl, rfl, rfl, rfl, rfl, rfl, rfl, rfl, rfl, .inl ⟨rfl, rfl⟩⟩

/-! ### Wake sources -/

theorem wakeFire_none {src : BitVec 6} {s : State} (h : src &&& BitVec.ofNat 6 (s.fld wakeCfg 0 6) = 0) : wakeFire src s = s := by
  unfold wakeFire
  dsimp only
  rw [h]
  rfl

/-- A source that is enabled, in Drowse: the cause is recorded, and the wake is held while supply is not valid. -/
theorem wakeFire_drowse {src : BitVec 6} {s : State} (hmode : s.sys.mode = .drowse) (h : src &&& BitVec.ofNat 6 (s.fld wakeCfg 0 6) ≠ 0) :
    wakeFire src s = { s with
      regs := setReg s.regs 0x4000005C (s.rd 0x4000005C ||| (src &&& BitVec.ofNat 6 (s.fld wakeCfg 0 6)).setWidth 32)
      sys := if s.sys.wakePending || !supplyValid s then { s.sys with
          wakePending := true
          wakeNLow := s.sys.wakeNLow || decide (src &&& BitVec.ofNat 6 (s.fld wakeCfg 0 6) &&& 0x2F ≠ 0) }
        else { s.sys with
          mode := .kindle, due := some .wake, timeZero := true, kstep := 1, wakePending := false
          wakeNLow := s.sys.wakeNLow || decide (src &&& BitVec.ofNat 6 (s.fld wakeCfg 0 6) &&& 0x2F ≠ 0) } } := by
  unfold wakeFire
  dsimp only
  generalize src &&& BitVec.ofNat 6 (s.fld wakeCfg 0 6) = en at h ⊢
  have hm : (s.sys.mode != .drowse) = false := by rw [hmode]; rfl
  rw [if_neg (by rw [hm, Bool.false_and, Bool.or_false]; exact fun hd => h (of_decide_eq_true hd)), hm, Bool.false_or]
  split
  · rfl
  · rfl

/-- The alarm is source 5 alone. -/
theorem alarm_enabled {s : State} (h : bitOf (s.rd 0x40000058) 5 = true) : (0x20 : BitVec 6) &&& BitVec.ofNat 6 (s.fld wakeCfg 0 6) = 0x20 := by
  have h5 : (BitVec.ofNat 6 (s.fld wakeCfg 0 6)).getLsbD 5 = true := by
    rw [State.fld, BitVec.getLsbD_ofNat, testBit_bitsOf]
    exact Bool.and_eq_true _ _ ▸ ⟨rfl, h⟩
  generalize BitVec.ofNat 6 (s.fld wakeCfg 0 6) = x at h5
  revert h5
  decide +revert

/-- Settles O14. -/
theorem drowseAndWakeCommands : Obligations.DrowseAndWakeCommands := by
  refine ⟨?entry, ?waits, ?fire, ?alarm, ?off, ?hold, ?loss, ?back, ?pcie⟩
  case entry =>
    intro s hent hstop hrov
    obtain ⟨hen, hreg, hlow, hset, hvid, htxn, hwhl, hbob, heth, hply, hmode⟩ := enterDrowse_spec s
    refine ⟨enterDrowse s, if_pos (by rw [hent, hstop, hrov]; rfl), ?_⟩
    exact ⟨hen, hreg, hlow, hset, hvid, htxn, hwhl, hbob, heth, hply, congrArg Dst.ring (enterDrowse_dst s), hmode, enterDrowse_pending s⟩
  case waits =>
    intro s h
    refine if_neg fun hc => ?_
    simp only [Bool.and_eq_true, Bool.not_eq_true'] at hc
    obtain ⟨⟨hent, hstop⟩, hrov⟩ := hc
    rcases h with h | h | h
    · exact absurd (h.symm.trans hent) (by decide)
    · exact absurd (h.symm.trans hstop) (by decide)
    · exact absurd (h.symm.trans hrov) (by decide)
  case fire =>
    intro s src h5 hmode hsrc
    exact (if_neg (Bool.eq_false_iff.mp h5)).trans (congrArg Host.Outcome.next (wakeFire_drowse hmode hsrc))
  case alarm =>
    intro s hreel hmode hcfg hpend hval
    refine ⟨wakeFire 0x20 { s with ply := { s.ply with reel := wakeAlarm s } }, if_pos (c := s.ply.reel ≤ wakeAlarm s) hreel, ?_⟩
    have hen : (0x20 : BitVec 6) &&& BitVec.ofNat 6 (({ s with ply := { s.ply with reel := wakeAlarm s } } : State).fld wakeCfg 0 6) = 0x20 :=
      alarm_enabled hcfg
    rw [wakeFire_drowse (s := { s with ply := { s.ply with reel := wakeAlarm s } }) hmode (by rw [hen]; decide)]
    have hsupply : supplyValid { s with ply := { s.ply with reel := wakeAlarm s } } = true := hval
    simp only [hpend, hsupply]
    exact ⟨trivial, rfl, rfl, trivial⟩
  case off =>
    intro s src h5 hsrc
    exact (if_neg (Bool.eq_false_iff.mp h5)).trans (congrArg Host.Outcome.next (wakeFire_none hsrc))
  case hold =>
    intro s hmode hpend hval
    exact if_pos ⟨hmode, hpend, hval⟩
  case loss =>
    intro s b hmode hb
    exact if_pos ⟨hmode, hb⟩
  case back =>
    intro s b hmode
    refine ⟨_, if_pos hmode, ?_⟩
    rw [chargerNote_eq]
    refine ⟨rfl, fun h => ?_⟩
    have hruns : chargerRuns (setPwr (fun p => { p with banks := p.banks ||| BitVec.ofNat 13 (2 ^ b.val) }) s) = true := h
    show (s.pwr.leakLogged && !chargerRuns (setPwr (fun p => { p with banks := p.banks ||| BitVec.ofNat 13 (2 ^ b.val) }) s)) = false
    rw [hruns, Bool.not_true, Bool.and_false]
  case pcie =>
    intro s hboot hmode
    refine if_pos ?_
    rw [pcieMay, hboot]
    rcases hmode with h | h | h
    · rw [h]; rfl
    · rw [h]; rfl
    · rw [h]; rfl

end Sys2Proof.Machine
end

section
/-!
The Distaff: its supply and ledger, its gated units (O15, O16).
-/

set_option Elab.async false

namespace Sys2Proof.Machine

/-! ### Programmed pages -/

/-- `e` is `d` after programs: the wear, the map and the waiting units may differ. -/
def Worn (d e : Dst) : Prop := ∃ w, e = wornAs w d

theorem Worn.refl (d : Dst) : Worn d d := ⟨d, rfl⟩

theorem Worn.trans {d e f : Dst} (h : Worn d e) (h' : Worn e f) : Worn d f := by
  obtain ⟨w, rfl⟩ := h
  obtain ⟨w', rfl⟩ := h'
  exact ⟨w', rfl⟩

theorem foldl_rel {α β : Type} {R : β → β → Prop} (hrefl : ∀ x, R x x) (htrans : ∀ x y z, R x y → R y z → R x z) {f : β → α → β}
    (hf : ∀ x a, R x (f x a)) : ∀ (l : List α) (x : β), R x (l.foldl f x)
  | [], x => hrefl x
  | a :: l, x => htrans _ _ _ (hf x a) (foldl_rel hrefl htrans hf l (f x a))

theorem wearPage_worn (hot : Bool) (d : Dst) (p : Nat) : Worn d (wearPage hot d p) := ⟨wearPage hot d p, rfl⟩

theorem retireDst_worn (p : Nat) (d : Dst) : Worn d (retireDst p d) := by
  refine ⟨retireDst p d, ?_⟩
  unfold retireDst
  dsimp only
  split
  · rfl
  · split <;> rfl

/-- What programs, and what follows from them, can change of the state: the Distaff's wear, and the log. -/
def Programs (s t : State) : Prop := ∃ w r l, t = { s with dst := wornAs w s.dst, sys := { s.sys with recorder := r, lost := l } }

theorem Programs.refl (s : State) : Programs s s := ⟨s.dst, s.sys.recorder, s.sys.lost, rfl⟩

theorem Programs.trans {s t u : State} (h : Programs s t) (h' : Programs t u) : Programs s u := by
  obtain ⟨w, r, l, rfl⟩ := h
  obtain ⟨w', r', l', rfl⟩ := h'
  exact ⟨w', r', l', rfl⟩

theorem Programs.of_worn {s : State} {d : Dst} (h : Worn s.dst d) : Programs s { s with dst := d } := by
  obtain ⟨w, rfl⟩ := h
  exact ⟨w, s.sys.recorder, s.sys.lost, rfl⟩

theorem logFault_programs (code block : Nat) (p : List Byte) (s : State) : Programs s (logFault code block p s) := by
  obtain ⟨r, l, h, -⟩ := logFault_eq code block p s
  exact ⟨s.dst, r, l, h⟩

theorem spareWarn_programs (before : Nat) (s : State) : Programs s (spareWarn before s) := by
  unfold spareWarn
  dsimp only
  split
  · split
    · exact (logFault_programs ..).trans (logFault_programs ..)
    · exact logFault_programs ..
  · split
    · exact logFault_programs ..
    · exact Programs.refl s

theorem retireIfWorn_programs (p : Nat) (s : State) : Programs s (retireIfWorn p s) := by
  unfold retireIfWorn
  split
  · exact (Programs.of_worn (retireDst_worn p s.dst)).trans (spareWarn_programs ..)
  · exact Programs.refl s

theorem queueUnit_programs (u : GUnit) (s : State) : Programs s (queueUnit u s) := ⟨(queueUnit u s).dst, s.sys.recorder, s.sys.lost, rfl⟩

theorem levelSeg_programs (p : Nat) (s : State) : Programs s (levelSeg p s) := by
  unfold levelSeg
  dsimp only
  split
  · split
    · exact queueUnit_programs ..
    · exact Programs.refl s
  · exact Programs.refl s

/-- What the program of pages leaves: their wear and what follows from it, and the time of the last program. -/
theorem programmed_eq (ps : List Nat) (s : State) : ∃ w r l, programmed ps s = { s with
    dst := wornAs w s.dst, sys := { s.sys with recorder := r, lost := l }
    pwr := { s.pwr with lastProg := if ps.isEmpty then s.pwr.lastProg else s.ply.reel } } := by
  have hwear := foldl_rel (R := Worn) Worn.refl (fun _ _ _ => Worn.trans) (wearPage_worn (Config.hotUnit s.dst.programs)) ps s.dst
  have hsegs := foldl_rel (R := Programs) Programs.refl (fun _ _ _ => Programs.trans)
    (f := fun t p => levelSeg p (retireIfWorn p t)) (fun t p => (retireIfWorn_programs p t).trans (levelSeg_programs p _)) (ps.map (· / 64)).eraseDups
    { s with dst := ps.foldl (wearPage (Config.hotUnit s.dst.programs)) s.dst
             pwr := { s.pwr with lastProg := if ps.isEmpty then s.pwr.lastProg else s.ply.reel } }
  obtain ⟨w, hw⟩ := hwear
  obtain ⟨w', r, l, h⟩ := hsegs
  refine ⟨w', r, l, h.trans ?_⟩
  rw [hw]
  rfl

/-! ### Pages of the ring -/

/-- `e` is `d` after pages of a commit: besides the wear, the ring, its head and the failures may differ. -/
def Placed (d e : Dst) : Prop := ∃ w f r h, e = wornAs w { d with fails := f, ring := r, ringHead := h }

theorem Placed.refl (d : Dst) : Placed d d := ⟨d, d.fails, d.ring, d.ringHead, rfl⟩

theorem Placed.trans {d e f : Dst} (h : Placed d e) (h' : Placed e f) : Placed d f := by
  obtain ⟨w, a, b, c, rfl⟩ := h
  obtain ⟨w', a', b', c', rfl⟩ := h'
  exact ⟨w', a', b', c', rfl⟩

theorem pageFailed_placed (d : Dst) (p : Nat) : Placed d (pageFailed p d) :=
  ⟨d, Tab.upd (fun _ => 0) d.fails p (· + 1), d.ring, d.ringHead, rfl⟩

theorem ringHeader_placed (seq pos : Nat) (d : Dst) : Placed d (ringHeader seq pos d) := by
  unfold ringHeader
  split
  · split
    · exact ⟨setSeg _ _ d, d.fails, d.ring, d.ringHead, rfl⟩
    · exact Placed.refl d
  · exact Placed.refl d

theorem placePages_placed (ps : List JPage) (d : Dst) : Placed d (placePages ps d) :=
  foldl_rel (R := Placed) Placed.refl (fun _ _ _ => Placed.trans)
    (fun x p => ⟨x, x.fails, Tab.set (fun _ => {}) x.ring (x.ringHead % ringPages) p, (x.ringHead + 1) % ringPages, rfl⟩) ps d

/-- The pages of a commit change the ring, the counts of the journal and what programs change. -/
theorem putPages_eq (c : Commit) (ps : List JPage) (s : State) : ∃ w f r h ms lv rec l lp, putPages c ps s = { s with
    dst := wornAs w { s.dst with fails := f, ring := r, ringHead := h, maxSeq := ms, live := lv }
    sys := { s.sys with recorder := rec, lost := l }, pwr := { s.pwr with lastProg := lp } } := by
  have hd : Placed s.dst (placePages ps ((List.range ps.length).foldl (fun d i => ringHeader c.seq ((s.dst.ringHead + i) % ringPages) d)
      (((ps.zipIdx.filter fun x => x.1.bad).map fun x => physPage s.dst 3 ((s.dst.ringHead + x.2) % ringPages)).foldl
        (fun d p => pageFailed p d) s.dst))) :=
    ((foldl_rel (R := Placed) Placed.refl (fun _ _ _ => Placed.trans) (fun d p => pageFailed_placed d p) _ s.dst).trans
      (foldl_rel (R := Placed) Placed.refl (fun _ _ _ => Placed.trans) (fun d i => ringHeader_placed _ _ d) _ _)).trans (placePages_placed ps _)
  unfold putPages
  dsimp only
  generalize placePages ps _ = d at hd ⊢
  obtain ⟨w, f, r, h, rfl⟩ := hd
  obtain ⟨w', rec, l, hp⟩ := programmed_eq (ringRange s.dst ps.length) (setDst (fun _ => { wornAs w { s.dst with fails := f, ring := r, ringHead := h } with
    maxSeq := if ps.isEmpty then s.dst.maxSeq else max s.dst.maxSeq c.seq, live := if c.asCkpt then s.dst.live else s.dst.live + ps.length }) s)
  exact ⟨w', f, r, h, _, _, rec, l, _, hp⟩

/-- The unit that is cut: the pages of a commit stand in the ring, the contents of the other regions are as before. -/
theorem cutUnit_eq (n : Nat) (s : State) : ∃ w f r h ms lv rec l lp, cutUnit n s = { s with
    dst := wornAs w { s.dst with fails := f, ring := r, ringHead := h, maxSeq := ms, live := lv }
    sys := { s.sys with recorder := rec, lost := l }, pwr := { s.pwr with lastProg := lp } } ∧ (s.dst.inflight = none → r = s.dst.ring) := by
  unfold cutUnit
  split
  · next hin =>
    obtain ⟨w, f, r, h, ms, lv, rec, l, lp, heq⟩ := putPages_eq _ _ s
    exact ⟨w, f, r, h, ms, lv, rec, l, lp, heq, fun hn => absurd (hn.symm.trans hin) nofun⟩
  · obtain ⟨w, rec, l, heq⟩ := programmed_eq _ s
    exact ⟨w, s.dst.fails, s.dst.ring, s.dst.ringHead, s.dst.maxSeq, s.dst.live, rec, l, _, heq, fun _ => rfl⟩
  · exact ⟨s.dst, s.dst.fails, s.dst.ring, s.dst.ringHead, s.dst.maxSeq, s.dst.live, s.sys.recorder, s.sys.lost, s.pwr.lastProg, rfl, fun _ => rfl⟩

/-! ### A commit that is withdrawn -/

theorem txn?_setTxn {h : Nat} {s : State} {x : Txn} (f : Txn → Txn) (hf : ∀ y, (f y).h = y.h) (hx : txn? s h = some x) :
    txn? (setTxn h f s) h = some (f x) := by
  have hkeep : ((fun y : Txn => y.h == h) ∘ fun y => if y.h = h then f y else y) = fun y => y.h == h := by
    funext y
    by_cases hy : y.h = h
    · simp [hy, hf]
    · simp [hy]
  have hh : x.h = h := beq_iff_eq.mp (List.find?_some (p := fun y : Txn => y.h == h) hx)
  rw [txn?] at hx
  rw [txn?, setTxn, List.find?_map, hkeep, hx]
  exact congrArg some (if_pos hh)

theorem txn_pushDue (src : ReqSrc) (seq : Nat) (msg : List Byte) (s : State) : (pushDue src seq msg s).txn = s.txn := by
  unfold pushDue
  split <;> rfl

/-- A commit that is withdrawn changes its transaction, which is OPEN again, and makes its reply fall due. -/
theorem commitBack_eq (h : Nat) (st : Status) (d : Nat) (s : State) :
    commitBack h st d s = { s with txn := (commitBack h st d s).txn, hl := (commitBack h st d s).hl, skn := (commitBack h st d s).skn } := by
  unfold commitBack
  split
  · rfl
  · dsimp only
    split
    · unfold pushDue
      split <;> rfl
    · rfl

theorem txn?_commitBack {h : Nat} {s : State} {x : Txn} (st : Status) (d : Nat) (hx : txn? s h = some x) :
    txn? (commitBack h st d s) h = some { x with st := .opened, src := none } := by
  have hset := txn?_setTxn (fun t => { t with st := .opened, src := none }) (fun _ => rfl) hx
  rw [commitBack, hx]
  dsimp only
  split
  · rw [txn?, txn_pushDue]
    exact hset
  · exact hset

/-! ### The ledger -/

/-- The ledger after a steady window whose charge is `q`: LEDGER_SKEW where it stood too far from the voltage (R168). -/
def recalibrated (q el : Nat) (u : State) : State :=
  setPwr (fun p => { p with q := q, eLedger := el, trusted := true, recals := (p.recals + 1) % 512, lastRecal := some u.ply.reel })
    (if u.pwr.trusted && ledgerSkewed u.pwr.eLedger u.pwr.eVolt then
      logFault 0x12 14 (leBytes 4 u.pwr.eLedger ++ leBytes 4 u.pwr.eVolt) (raiseLine 1 (u.setBits pwrGate 0x20000000))
    else u)

theorem recalibrated_pwr (q el : Nat) (u : State) : (recalibrated q el u).pwr = { u.pwr with
    q := q, eLedger := el, trusted := true, recals := (u.pwr.recals + 1) % 512, lastRecal := some u.ply.reel } := by
  unfold recalibrated
  split <;> rfl

theorem recalibrated_quiet {q el : Nat} {u : State} (h : u.pwr.trusted = false ∨ ledgerSkewed u.pwr.eLedger u.pwr.eVolt = false) :
    recalibrated q el u = { u with pwr := { u.pwr with
      q := q, eLedger := el, trusted := true, recals := (u.pwr.recals + 1) % 512, lastRecal := some u.ply.reel } } := by
  have hq : (u.pwr.trusted && ledgerSkewed u.pwr.eLedger u.pwr.eVolt) = false := Bool.and_eq_false_iff.mpr h
  rw [recalibrated, if_neg (by rw [hq]; decide)]
  rfl

/-- Settles O15. -/
theorem distaffSupplyCommands : Obligations.DistaffSupplyCommands := by
  refine ⟨?takeover, ?stop, ?charged, ?slow, ?leak, ?cap, ?recal, ?unsteady, ?untrusted, ?staged, ?inflight⟩
  case takeover =>
    intro s hup
    exact if_pos hup
  case stop =>
    intro s hhu
    refine ⟨_, if_pos (by rw [hhu]; rfl), ?_⟩
    obtain ⟨w, f, r, h, ms, lv, rec, l, lp, heq, hring⟩ := cutUnit_eq (freeNow s).toNat s
    dsimp only
    rw [heq]
    exact ⟨rfl, rfl, rfl, rfl, rfl, rfl, rfl, rfl, rfl, rfl, rfl, rfl, rfl, rfl, rfl, rfl, rfl, rfl, hring⟩
  case charged =>
    intro s
    rfl
  case slow =>
    intro s mv hruns hlog hmv
    refine (if_pos ?_).trans rfl
    rw [hruns, hlog, decide_eq_true hmv]
    rfl
  case leak =>
    intro s mv hruns hrun hok hlog hmv
    refine (if_pos ?_).trans rfl
    rw [hruns, hrun, hok, hlog, decide_eq_true hmv]
    rfl
  case cap =>
    intro s us dv hruns hdv
    refine if_pos ?_
    rw [hruns, decide_eq_true hdv]
    rfl
  case recal =>
    intro s u l xs hrun hup hst hu
    have hexec : exec (.ledgerRecalibration ⟨l, xs⟩) s = .next (recalibrated (cEff s * 99 * l.vMv / 100) (eLedgers (cEff s) (cEff s * 99 * l.vMv / 100)) u) := by
      show execLedgerRecalibration ⟨l, xs⟩ s = _
      rw [execLedgerRecalibration, if_neg (by simp [hrun, hup]), if_neg (by rw [hst]; decide), hu]
      rfl
    have hrecals : u.pwr.recals = s.pwr.recals := by rw [hu, reachTick_eq]; rfl
    have hregs : u.regs = s.regs := by rw [hu, reachTick_eq]; rfl
    have hstw : u.stw = s.stw := by rw [hu, reachTick_eq]; rfl
    refine ⟨_, hexec, ?_, fun h => ?_, fun htr hsk => ?_⟩
    · rw [recalibrated_pwr, hrecals]
    · rw [recalibrated_quiet h]
    · obtain ⟨rec, lost, hlog, hlast⟩ := logFault_eq 0x12 14 (leBytes 4 u.pwr.eLedger ++ leBytes 4 u.pwr.eVolt) (raiseLine 1 (u.setBits pwrGate 0x20000000))
      rw [recalibrated, if_pos (by rw [htr, hsk]; rfl), hlog, ← hregs, ← hstw, State.rd, ← hregs]
      exact ⟨rfl, hlast, rfl⟩
  case unsteady =>
    intro s l xs hrun hup hst
    show execLedgerRecalibration ⟨l, xs⟩ s = _
    rw [execLedgerRecalibration, if_neg (by simp [hrun, hup]), if_pos (by rw [hst]; rfl)]
  case untrusted =>
    intro s l
    refine ⟨holdSample l s, rfl, rfl, rfl, rfl, rfl, fun hl hv => ?_, rfl⟩
    show (s.pwr.trusted && !((holdSample l s).pwr.eLedger == 0 && decide (0 < (holdSample l s).pwr.eVolt))) = false
    rw [hl, decide_eq_true hv]
    exact Bool.and_false _
  case staged =>
    intro s c hc
    have hexec : exec (.gateClosed true) s = .next (commitBack c.txn .gateClosed 0 (raiseLine 1 (setDst (fun d => { d with staged := none }) s))) := by
      show execGateClosed true s = _
      rw [execGateClosed, if_pos rfl, hc]
    refine ⟨_, hexec, ?_, ?_, fun x hx => ?_⟩
    · rw [commitBack_eq]
      rfl
    · rw [commitBack_eq]
      rfl
    · exact txn?_commitBack _ _ hx
  case inflight =>
    intro s c hc hrun
    have hexec : exec (.gateClosed false) s = .next (commitBack c.txn .gateClosed 0
        (raiseLine 1 (setDst (fun d => { d with inflight := none, chainOk := d.chainOk && decide (c.written = 0) }) s))) := by
      show execGateClosed false s = _
      rw [execGateClosed, if_neg Bool.false_ne_true, hc]
      exact if_pos (by rw [commitIdle, hrun])
    refine ⟨_, hexec, ?_, ?_⟩
    · rw [commitBack_eq]
      rfl
    · rw [commitBack_eq]
      rfl

/-! ### The gated units -/

theorem exec_gatedUnitStart_unit {s : State} {l : HoldupSample} {u : GUnit} (hopen : gateOpens (holdSample l s) = true)
    (hu : firstUnit (holdSample l s) = some u) (hne : ∀ n b, u ≠ .commit n b) :
    exec (.gatedUnitStart l) s = .next (startUnit u (holdSample l s)) := by
  show execGatedUnitStart l s = _
  simp only [execGatedUnitStart, hopen, hu, if_true]

/-- The writes to a table that is not canonical: what reads, after a key takes a value that is not its default. -/
theorem Tab.get_put_other {α : Type} (d : Nat → α) {i j : Nat} (x : α) (hne : j ≠ i) : ∀ t : Tab α, Tab.get d (t.put i x) j = Tab.get d t j
  | [] => by
    simp only [Tab.put, Tab.get, if_neg hne, ite_self]
  | (k, v) :: t => by
    have ih := Tab.get_put_other d x hne t
    rw [Tab.put]
    split
    · next h => simp only [Tab.get, ← h, if_neg hne]
    · split
      · next h =>
        simp only [Tab.get, if_neg hne]
        split
        · next hj => rw [if_neg (by omega), if_pos (by omega)]
        · rfl
      · simp only [Tab.get, ih]

theorem factorySeg_valid (p : Nat) : (factorySeg p).valid = true ∧ (factorySeg p).gen = 0 := by
  unfold factorySeg
  dsimp only
  split
  · exact ⟨rfl, rfl⟩
  split
  · exact ⟨rfl, rfl⟩
  split
  · exact ⟨rfl, rfl⟩
  split
  · exact ⟨rfl, rfl⟩
  split
  · exact ⟨rfl, rfl⟩
  · exact ⟨rfl, rfl⟩

theorem segHdr_setSeg {p q : Nat} {h : SegHdr} (d : Dst) (hne : h ≠ factorySeg p) :
    segHdr (setSeg p h d) q = if q = p then h else segHdr d q := by
  rw [segHdr, setSeg, Tab.set, if_neg hne]
  split
  · next hq => rw [hq, Tab.get_put_self]
  · next hq => exact Tab.get_put_other _ _ hq _

theorem ne_factorySeg_of_gen {h : SegHdr} (p : Nat) (hg : h.gen ≠ 0) : h ≠ factorySeg p := fun he => hg (he ▸ (factorySeg_valid p).2)

theorem ne_factorySeg_of_invalid {h : SegHdr} (p : Nat) (hv : h.valid = false) : h ≠ factorySeg p := fun he =>
  absurd ((congrArg SegHdr.valid he).symm.trans hv) (by rw [(factorySeg_valid p).1]; decide)

theorem segHdr_migrated {a b : Nat} (d : Dst) (hne : a ≠ b) :
    segHdr (migrated a b d) b = { segHdr d a with gen := (segHdr d a).gen + 1 } ∧
    segHdr (migrated a b d) a = (if (segHdr d b).region = 5 then { segHdr d a with valid := false, retired := true }
      else { segHdr d b with gen := (segHdr d b).gen + 1 }) := by
  unfold migrated
  dsimp only
  split
  · have hread (q : Nat) : segHdr { setSeg a { segHdr d a with valid := false, retired := true } (setSeg b { segHdr d a with gen := (segHdr d a).gen + 1 } d) with
        retired := d.retired + 1, spareLeft := d.spareLeft - 1 } q = if q = a then { segHdr d a with valid := false, retired := true }
        else if q = b then { segHdr d a with gen := (segHdr d a).gen + 1 } else segHdr d q :=
      (segHdr_setSeg _ (ne_factorySeg_of_invalid _ rfl)).trans (congrArg _ (segHdr_setSeg _ (ne_factorySeg_of_gen _ (Nat.succ_ne_zero _))))
    rw [hread, hread, if_neg hne.symm, if_pos rfl, if_pos rfl]
    exact ⟨rfl, rfl⟩
  · rw [segHdr_setSeg _ (ne_factorySeg_of_gen _ (Nat.succ_ne_zero _)), segHdr_setSeg _ (ne_factorySeg_of_gen _ (Nat.succ_ne_zero _)),
      segHdr_setSeg _ (ne_factorySeg_of_gen _ (Nat.succ_ne_zero _)), if_neg hne.symm, if_pos rfl, if_pos rfl]
    exact ⟨rfl, rfl⟩

/-- A BOOT copy is programmed; a repair is logged. -/
theorem bootProgrammed_eq (page n : Nat) (rep : Bool) (s : State) : ∃ w r l lp,
    (if rep = true then logFault 0x26 1 [BitVec.ofNat 8 n] (programmed [page] (setDst (fun d => { d with running := none }) s))
      else programmed [page] (setDst (fun d => { d with running := none }) s)) = { s with
        dst := wornAs w { s.dst with running := none }, sys := { s.sys with recorder := r, lost := l }, pwr := { s.pwr with lastProg := lp } } ∧
      (rep = true → ∃ e ∈ r, e.code = 0x26) := by
  obtain ⟨w, r, l, h⟩ := programmed_eq [page] (setDst (fun d => { d with running := none }) s)
  rw [h]
  split
  · obtain ⟨r', l', h', hlast⟩ := logFault_eq 0x26 1 [BitVec.ofNat 8 n] { s with
      dst := wornAs w { s.dst with running := none }, sys := { s.sys with recorder := r, lost := l }, pwr := { s.pwr with lastProg := s.ply.reel } }
    obtain ⟨e, he, hcode⟩ := Option.map_eq_some_iff.mp hlast
    exact ⟨w, r', l', _, h', fun _ => ⟨e, List.mem_of_getLast? he, hcode⟩⟩
  · next hrep => exact ⟨w, r, l, _, rfl, fun hr => absurd hr hrep⟩

/-- Settles O16. -/
theorem gatedUnitCommands : Obligations.GatedUnitCommands := by
  refine ⟨?start, ?commit, ?shut, ?copy1, ?copy2, ?log, ?nameplate, ?image, ?migration, ?names, ?programs, ?failed⟩
  case start =>
    intro s l u hopen hu hne
    refine (exec_gatedUnitStart_unit hopen hu hne).trans ?_
    cases u with
    | commit n b => exact absurd rfl (hne n b)
    | _ => rfl
  case commit =>
    intro s l n b hopen hu hc
    obtain ⟨c, hnext, hroom⟩ := hc
    show execGatedUnitStart l s = _
    have hstart : (startUnit (.commit n b) (holdSample l s)).dst.inflight = some c := hnext
    have hblock : ¬ (c.written = 0 ∧ ringBlocked (startUnit (.commit n b) (holdSample l s))
        (commitMost (startUnit (.commit n b) (holdSample l s)) (recPages c.body.length)) = true) :=
      fun hw => Bool.false_ne_true ((hroom hw.1).symm.trans hw.2)
    simp only [execGatedUnitStart, hopen, hu, if_true, hstart, if_neg hblock]
    rfl
  case shut =>
    intro s l hshut
    exact if_neg (by rw [hshut]; decide)
  case copy1 =>
    intro s c rep hrun hne
    obtain ⟨w, r, l, lp, h, -⟩ := bootProgrammed_eq 0 1 rep s
    have hexec : exec .bootCopyWriteEnd s = .next (queueUnit (.boot true c false) { s with
        dst := { wornAs w { s.dst with running := none } with copy1 := some c }
        sys := { s.sys with recorder := r, lost := l }, pwr := { s.pwr with lastProg := lp } }) := by
      show execBootCopyWriteEnd s = _
      rw [execBootCopyWriteEnd, hrun]
      refine (congrArg (fun u : State => if (setDst (fun d => { d with copy1 := some c }) u).dst.copy2 = some c then
        Host.Outcome.next (setDst (fun d => { d with copy1 := some c }) u)
        else .next (queueUnit (.boot true c false) (setDst (fun d => { d with copy1 := some c }) u))) h).trans ?_
      exact if_neg hne
    refine ⟨_, hexec, List.mem_append_right _ (List.mem_singleton.mpr rfl), rfl⟩
  case copy2 =>
    intro s c rep hrun
    obtain ⟨w, r, l, lp, h, hrep⟩ := bootProgrammed_eq 128 2 rep s
    have hexec : exec .bootCopyWriteEnd s = .next { s with
        dst := { wornAs w { s.dst with running := none } with copy2 := some c }
        sys := { s.sys with recorder := r, lost := l }, pwr := { s.pwr with lastProg := lp } } := by
      show execBootCopyWriteEnd s = _
      rw [execBootCopyWriteEnd, hrun]
      exact congrArg (fun u : State => Host.Outcome.next (setDst (fun d => { d with copy2 := some c }) u)) h
    exact ⟨_, hexec, hrep, rfl⟩
  case log =>
    intro s e rest hrun hrec hlen
    obtain ⟨w, r, l, h⟩ := programmed_eq (dataPages s.dst 4 (s.dst.logNext / 12 % 8064) 1)
      { s with dst := pushLog { index := s.dst.logNext, r := e } { s.dst with running := none }, sys := { s.sys with recorder := rest } }
    have hlog : pushLog { index := s.dst.logNext, r := e } { s.dst with running := none } =
        { s.dst with running := none, log := s.dst.log ++ [⟨s.dst.logNext, e⟩], logNext := s.dst.logNext + 1 } := by
      rw [pushLog, if_pos hlen]
    show ∃ t, execLogCopyEnd s = _ ∧ _
    rw [execLogCopyEnd, hrun, hrec]
    dsimp only
    rw [h, hlog]
    split
    · exact ⟨_, rfl, rfl⟩
    · exact ⟨_, rfl, rfl⟩
  case nameplate =>
    intro s bs hrun
    show ∃ t, execNameplateUpdateEnd s = _ ∧ _
    rw [execNameplateUpdateEnd, hrun]
    refine ⟨_, rfl, ?_⟩
    obtain ⟨w, r, l, h⟩ := programmed_eq (namePages (nameBlocks s bs))
      (setDst (fun d => { d with running := none, nameplate := nameplateAfter s.tag.ackPend bs d.nameplate }) s)
    dsimp only
    rw [h]
    rfl
  case image =>
    intro s off data hrun
    show ∃ t, execImageChunkEnd s = _ ∧ _
    rw [execImageChunkEnd, hrun]
    refine ⟨_, rfl, ?_⟩
    obtain ⟨w, r, l, h⟩ := programmed_eq (unitPages s (.image off data)) s
    dsimp only
    rw [h]
    cases hact : s.dst.ctl.active with
    | true => rfl
    | false => rfl
  case migration =>
    intro s a b hrun
    show execMigrationEnd none s = _
    rw [execMigrationEnd, hrun]
    rfl
  case names => exact fun d a b hne => segHdr_migrated d hne
  case programs =>
    intro s ps
    obtain ⟨w, r, l, h⟩ := programmed_eq ps s
    refine ⟨programmed ps s, rfl, ?_, fun hne => ?_⟩
    · rw [h]
      rfl
    · rw [h]
      simp [hne]
  case failed =>
    intro s a b i hrun
    show ∃ t, execMigrationEnd (some i) s = _ ∧ _
    rw [execMigrationEnd, hrun]
    refine ⟨_, rfl, ?_⟩
    obtain ⟨w, r, l, h⟩ := programmed_eq ((unitPages s (.migration a b)).take (i.val + 1))
      (setDst (pageFailed ((unitPages s (.migration a b)).getD i.val 0)) (setDst (fun d => { d with running := none }) s))
    rw [h]
    rfl

end Sys2Proof.Machine
end

section
/-!
What the operations of commands leave unchanged, continued.
-/

set_option Elab.async false

namespace Sys2Proof.Machine

namespace Touches

variable {P Q : Parts} {s t u : State}

theorem flyIrqWrite (h : Touches P s t) {f : Nat} {v : Word} (hw : Parts.within { regs := true, stw := true } P = true := by rfl) :
    Touches P s (flyIrqWrite f v t) := by
  refine h.on hw fun h => ?_
  unfold Machine.flyIrqWrite
  exact ite (regWrite h) (raiseLine (regWrite h))

theorem flyLoadSettings (h : Touches P s t) {f : Nat} (hw : Parts.within { regs := true, stw := true } P = true := by rfl) :
    Touches P s (flyLoadSettings f t) := by
  refine h.on hw fun h => ?_
  unfold Machine.flyLoadSettings
  exact flyIrqWrite (foldl (fun _ _ h => regWrite h) h)

theorem flyLoadPage (h : Touches P s t) {b : Nat} {page : Bool} {m : Mem}
    (hw : Parts.within { fly := true } P = true := by rfl) : Touches P s (flyLoadPage b page m t) :=
  h.on hw fun _ => rfl

theorem queueUnit (h : Touches P s t) {u : GUnit} (hw : Parts.within { dst := true } P = true := by rfl) : Touches P s (queueUnit u t) :=
  h.on hw fun _ => rfl

theorem oemKept (h : Touches P s t) {is : List Nat} (hw : Parts.within { dst := true } P = true := by rfl) :
    Touches P s (oemKept is t) := by
  refine h.on hw fun h => ?_
  unfold Machine.oemKept
  exact ite h (queueUnit h)

theorem holdClear (h : Touches P s t) {mask : Nat} (hw : Parts.within { regs := true } P = true := by rfl) :
    Touches P s (holdClear mask t) := by
  refine h.on hw fun h => ?_
  unfold Machine.holdClear
  exact setBits (setBits h)

theorem flyCtrlWrite (h : Touches P s t) {f : Nat} {v : Word} (hw : Parts.within { regs := true, fly := true } P = true := by rfl) :
    Touches P s (flyCtrlWrite f v t) := by
  refine h.on hw fun h => ?_
  unfold Machine.flyCtrlWrite
  exact ite (flyHalt (regWrite h)) (ite (flyStart (regWrite h)) (regWrite h))

theorem gpioApply (h : Touches P s t) {b : Nat} (hw : Parts.within { fly := true } P = true := by rfl) :
    Touches P s (gpioApply b t) := by
  refine h.on hw fun h => ?_
  unfold Machine.gpioApply
  exact foldl (fun _ _ h => ite (setPin h) h) h

theorem pageWrite (h : Touches P s t) {b o : Nat} {v : Word} (hw : Parts.within { fly := true } P = true := by rfl) :
    Touches P s (pageWrite b o v t) := by
  refine h.on hw fun h => ?_
  unfold Machine.pageWrite
  exact ite h (keep h)

theorem flyBusWrite (h : Touches P s t) {o : Nat} {v : Word}
    (hw : Parts.within { regs := true, sys := true, stw := true, fly := true } P = true := by rfl) :
    Touches P s (flyBusWrite o v t) := by
  refine h.on hw fun h => ?_
  simp only [Machine.flyBusWrite]
  split
  · split
    · exact flyCtrlWrite h
    · exact ite (regWrite h) h
    · exact ite (actPost h) h
    · exact ite (flyPush h) h
    · exact flyIrqWrite h
    · exact regWrite h
  · exact ite (ite (gpioApply (regWrite h)) h) (ite (pageWrite h) (regWrite h))

theorem mdioWrite (h : Touches P s t) {v : Word} (hw : Parts.within { regs := true, eth := true } P = true := by rfl) :
    Touches P s (mdioWrite v t) := by
  refine h.on hw fun h => ?_
  unfold Machine.mdioWrite
  exact ite (ite h (regWrite h)) (keep (regWrite h))

theorem canLoadCtrl (h : Touches P s t) {n : Nat} (hw : Parts.within { can := true } P = true := by rfl) :
    Touches P s (canLoadCtrl n t) := by
  refine h.on hw fun h => ?_
  unfold Machine.canLoadCtrl
  exact setCan h

theorem canEnable (h : Touches P s t) {n : Nat} (hw : Parts.within { can := true } P = true := by rfl) :
    Touches P s (canEnable n t) := by
  refine h.on hw fun h => ?_
  unfold Machine.canEnable
  exact ite h (canLoadCtrl (setCan h))

theorem canCtrlWrite (h : Touches P s t) {n : Nat} {v : Word} (hw : Parts.within { regs := true, can := true } P = true := by rfl) :
    Touches P s (canCtrlWrite n v t) := by
  refine h.on hw fun h => ?_
  unfold Machine.canCtrlWrite
  exact ite (canEnable (regWrite h)) (ite (canDisable (regWrite h)) (regWrite h))

theorem canBusWrite (h : Touches P s t) {o : Nat} {v : Word} (hw : Parts.within { regs := true, can := true } P = true := by rfl) :
    Touches P s (canBusWrite o v t) := by
  refine h.on hw fun h => ?_
  unfold Machine.canBusWrite
  exact ite h (ite (canCtrlWrite h) (ite (canWinWrite h) (regWrite h)))

theorem setPly (h : Touches P s t) {k : Nat} {f : Ply → Ply} (hw : Parts.within { ply := true } P = true := by rfl) : Touches P s (t.setPly k f) :=
  h.on hw fun _ => rfl

theorem postChange (h : Touches P s t) {k : Nat} {c : PlyChange} (hw : Parts.within { ply := true } P = true := by rfl) :
    Touches P s (postChange k c t) := by
  refine h.on hw fun h => ?_
  unfold Machine.postChange
  exact ite h (setPly h)

theorem chggoWrite (h : Touches P s t) {k : Nat} {v : Word} (hw : Parts.within { ply := true } P = true := by rfl) :
    Touches P s (chggoWrite k v t) := by
  refine h.on hw fun h => ?_
  unfold Machine.chggoWrite
  exact ite (postChange h) h

theorem closePath (h : Touches P s t) {l : Nat} (hw : Parts.within { skn := true } P = true := by rfl) :
    Touches P s (closePath l t) := by
  refine h.on hw fun h => ?_
  unfold Machine.closePath
  exact setLink h

theorem sknSend (h : Touches P s t) {o : SkOut} (hw : Parts.within { skn := true } P = true := by rfl) : Touches P s (sknSend o t) :=
  h.on hw fun _ => rfl

theorem sknTx (h : Touches P s t) {l : Nat} {o : SkOut} (hw : Parts.within { skn := true } P = true := by rfl) :
    Touches P s (sknTx l o t) := by
  refine h.on hw fun h => ?_
  unfold Machine.sknTx
  exact sknSend (setLink h)

theorem sknTxOn (h : Touches P s t) {l kind : Nat} {o : SkOut} (hw : Parts.within { skn := true } P = true := by rfl) :
    Touches P s (sknTxOn l kind o t) := by
  refine h.on hw fun h => ?_
  unfold Machine.sknTxOn
  exact ite (sknTx h) h

theorem count (h : Touches P s t) {a n : Nat} (hw : Parts.within { regs := true } P = true := by rfl) : Touches P s (t.count a n) :=
  h.on hw fun _ => rfl

theorem setHops (h : Touches P s t) (hw : Parts.within { skn := true } P = true := by rfl) : Touches P s (setHops t) :=
  h.on hw fun _ => rfl

theorem sendTopology (h : Touches P s t) (hw : Parts.within { regs := true, skn := true } P = true := by rfl) :
    Touches P s (sendTopology t) := by
  refine h.on hw fun h => ?_
  unfold Machine.sendTopology
  exact sknTxOn (sknTxOn (count (setHops h)))

theorem linkLost (h : Touches P s t) {l : Nat} (hw : Parts.within { regs := true, stw := true, skn := true } P = true := by rfl) :
    Touches P s (linkLost l t) := by
  refine h.on hw fun h => ?_
  unfold Machine.linkLost
  exact ite (closePath h) (ite (sendTopology (keep (setLink (raiseLine h)))) (sknTxOn (setLink (raiseLine h))))

theorem lcfgWrite (h : Touches P s t) {l : Nat} {v : Word} (hw : Parts.within { regs := true, stw := true, skn := true } P = true := by rfl) :
    Touches P s (lcfgWrite l v t) := by
  refine h.on hw fun h => ?_
  unfold Machine.lcfgWrite
  exact ite (setLink (ite (linkLost (regWrite h)) (regWrite h))) (ite (setLink (regWrite h)) (regWrite h))

theorem setKey (h : Touches P s t) {k : Nat} {f : Key → Key} (hw : Parts.within { pnl := true } P = true := by rfl) : Touches P s (t.setKey k f) :=
  h.on hw fun _ => rfl

theorem modesChanged (h : Touches P s t) {before : State} (hw : Parts.within { pnl := true } P = true := by rfl) :
    Touches P s (modesChanged before t) := by
  refine h.on hw fun h => ?_
  unfold Machine.modesChanged
  exact foldl (fun _ _ h => ite (setKey h) h) h

theorem oemWrite (h : Touches P s t) {o : Nat} {v : Word} (hw : Parts.within { regs := true, dst := true } P = true := by rfl) :
    Touches P s (oemWrite o v t) := by
  refine h.on hw fun h => ?_
  unfold Machine.oemWrite
  exact oemKept (regWrite h)

theorem setFld (h : Touches P s t) {a lo w v : Nat} (hw : Parts.within { regs := true } P = true := by rfl) : Touches P s (t.setFld a lo w v) :=
  h.on hw fun _ => rfl

theorem rovFlag (h : Touches P s t) {bit : Nat} (hw : Parts.within { regs := true, sys := true, stw := true } P = true := by rfl) :
    Touches P s (rovFlag bit t) := by
  refine h.on hw fun h => ?_
  unfold Machine.rovFlag
  exact ite (raiseLine (setBits h)) (logFault (raiseLine (setBits h)))

theorem hdataAccess (h : Touches P s t) {w : Option Word}
    (hw : Parts.within { regs := true, rdata := true, sys := true, stw := true, rov := true } P = true := by rfl) :
    Touches P s (hdataAccess w t) := by
  refine h.on hw fun h => ?_
  simp only [Machine.hdataAccess]
  split
  · exact keep (setFld h)
  · exact ite (rovFlag (setFld h)) (setRov (setFld h))

theorem hostMsg (h : Touches P s t) {n : Nat} (hw : Parts.within { hl := true } P = true := by rfl) : Touches P s (hostMsg n t) :=
  h.on hw fun _ => rfl

theorem ringDoorbell (h : Touches P s t) {n : Nat} (hw : Parts.within { regs := true, hl := true } P = true := by rfl) :
    Touches P s (ringDoorbell n t) := by
  refine h.on hw fun h => ?_
  unfold Machine.ringDoorbell
  exact ite (setBits h) (hostMsg (setBits h))

theorem setHl (h : Touches P s t) {f : Hl → Hl} (hw : Parts.within { hl := true } P = true := by rfl) : Touches P s (setHl f t) :=
  h.on hw fun _ => rfl

theorem hostFull (h : Touches P s t) {n : Nat} (hw : Parts.within { regs := true, hl := true } P = true := by rfl) :
    Touches P s (hostFull n t) := by
  refine h.on hw fun h => ?_
  unfold Machine.hostFull
  exact ite (ringDoorbell (setHl h)) (setHl h)

theorem hstWrite (h : Touches P s t) {n o : Nat} {v : Word} (hw : Parts.within { regs := true, hl := true } P = true := by rfl) :
    Touches P s (hstWrite n o v t) := by
  refine h.on hw fun h => ?_
  unfold Machine.hstWrite
  exact ite (hostFull (setHl h)) (setHl h)

theorem vidWrite (h : Touches P s t) {v : Word} (hw : Parts.within { regs := true, pwr := true } P = true := by rfl) :
    Touches P s (vidWrite v t) := by
  refine h.on hw fun h => ?_
  unfold Machine.vidWrite
  exact ite (regWrite h) (setPwr (regWrite h))

theorem bypeInline (h : Touches P s t) {n : Nat} (hw : Parts.within { pwr := true } P = true := by rfl) :
    Touches P s (bypeInline n t) := by
  refine h.on hw fun h => ?_
  unfold Machine.bypeInline
  exact setPwr h

theorem bypeSet (h : Touches P s t) {n : Nat}
    (hw : Parts.within { regs := true, pwr := true, bob := true, eth := true, ply := true } P = true := by rfl) :
    Touches P s (bypeSet n t) := by
  refine h.on hw fun h => ?_
  unfold Machine.bypeSet
  exact ite h (ite (bypeInline (ethPhyOff (setFld h))) (setFld h))

theorem ethPhyOn (h : Touches P s t) {p : Nat} (hw : Parts.within { eth := true } P = true := by rfl) :
    Touches P s (ethPhyOn p t) := by
  refine h.on hw fun h => ?_
  unfold Machine.ethPhyOn
  exact ite h (setEport h)

theorem bypeRelease (h : Touches P s t) {n : Nat} (hw : Parts.within { pwr := true } P = true := by rfl) :
    Touches P s (bypeRelease n t) := by
  refine h.on hw fun h => ?_
  unfold Machine.bypeRelease
  exact setPwr h

theorem bypeClear (h : Touches P s t) {n : Nat}
    (hw : Parts.within { regs := true, pwr := true, bob := true, eth := true, ply := true } P = true := by rfl) :
    Touches P s (bypeClear n t) := by
  refine h.on hw fun h => ?_
  unfold Machine.bypeClear
  exact ite (ite (ethPhyOn (bypeRelease (ethPhyOff (setFld h)))) (setFld h)) h

theorem bypWrite (h : Touches P s t) {v : Word}
    (hw : Parts.within { regs := true, pwr := true, bob := true, eth := true, ply := true } P = true := by rfl) :
    Touches P s (bypWrite v t) := by
  refine h.on hw fun h => ?_
  unfold Machine.bypWrite
  exact foldl (fun _ _ h => ite (bypeSet h) (bypeClear h)) (regWrite h)

theorem busWrite (h : Touches P s t) {a : Nat} {v : Word}
    (hw : Parts.within { regs := true, rdata := true, sys := true, pwr := true, dst := true, stw := true, hl := true, fly := true, bob := true, eth := true, can := true, ply := true, skn := true, pnl := true, rov := true } P = true := by rfl) :
    Touches P s (busWrite a v t) := by
  refine h.on hw fun h => ?_
  simp only [Machine.busWrite]
  split
  · exact ite (holdClear h) (ite (holdClear h) (regWrite h))
  · exact flyBusWrite h
  · exact ite (mdioWrite h) (regWrite h)
  · exact canBusWrite h
  · exact ite (chggoWrite h) (regWrite h)
  · exact ite (lcfgWrite h) (ite (lcfgWrite h) (regWrite h))
  · exact ite (modesChanged (regWrite h)) (regWrite h)
  · exact ite (oemWrite h) (regWrite h)
  · exact ite (hdataAccess h) (regWrite h)
  · exact ite (hstWrite h) h
  · exact ite (vidWrite h) (ite (bypWrite h) (ite (chargerNote (regWrite h)) (regWrite h)))
  · exact regWrite h

theorem settingWrite (h : Touches P s t) {w : Nat × Word}
    (hw : Parts.within { regs := true, rdata := true, sys := true, pwr := true, dst := true, stw := true, hl := true, fly := true, bob := true, eth := true, can := true, ply := true, skn := true, pnl := true, rov := true } P = true := by rfl) :
    Touches P s (settingWrite w t) := by
  refine h.on hw fun h => ?_
  unfold Machine.settingWrite
  exact ite (keep h) (ite (regWrite h) (busWrite h))

theorem settingsApply (h : Touches P s t) {rs : List Rec}
    (hw : Parts.within { regs := true, rdata := true, sys := true, pwr := true, dst := true, stw := true, hl := true, fly := true, bob := true, eth := true, can := true, ply := true, skn := true, pnl := true, rov := true } P = true := by rfl) :
    Touches P s (settingsApply rs t) := by
  refine h.on hw fun h => ?_
  unfold Machine.settingsApply
  exact ite (oemKept (foldl (fun _ _ h => settingWrite h) h)) (foldl (fun _ _ h => settingWrite h) h)

theorem canLoadTiming (h : Touches P s t) {n : Nat} {nbt dbt tdc : Word} (hw : Parts.within { can := true } P = true := by rfl) :
    Touches P s (canLoadTiming n nbt dbt tdc t) := by
  refine h.on hw fun h => ?_
  unfold Machine.canLoadTiming
  exact setCan h

theorem setTxns (h : Touches P s t) {f : TxnSt → TxnSt} (hw : Parts.within { txn := true } P = true := by rfl) : Touches P s (setTxns f t) :=
  h.on hw fun _ => rfl

theorem confLoaded (h : Touches P s t) {c : Conf}
    (hw : Parts.within { regs := true, rdata := true, sys := true, pwr := true, txn := true, dst := true, stw := true, hl := true, fly := true, bob := true, eth := true, can := true, ply := true, skn := true, pnl := true, rov := true } P = true := by rfl) :
    Touches P s (confLoaded c t) := by
  refine h.on hw fun h => ?_
  unfold Machine.confLoaded
  exact keep (foldl (fun _ _ h => ite h (foldl (fun _ _ h1 => flyLoadSettings h1) (flyLoadPage h))) (settingsApply (foldl
    (fun _ _ h => ite h (canLoadTiming h)) (setPwr (setTxns h)))))

theorem actsLeave (h : Touches P s t) {p : Nat} (hw : Parts.within { fly := true } P = true := by rfl) :
    Touches P s (actsLeave p t) := by
  refine h.on hw fun h => ?_
  unfold Machine.actsLeave
  exact ite (setFlyer h) h

theorem pinHandover (h : Touches P s t) {p : Nat} {cfg : Word} (hw : Parts.within { regs := true, fly := true } P = true := by rfl) :
    Touches P s (pinHandover p cfg t) := by
  refine h.on hw fun h => ?_
  unfold Machine.pinHandover
  exact setPin (setFld (actsLeave h))

theorem pinStart (h : Touches P s t) {p : Nat} (hw : Parts.within { regs := true, fly := true } P = true := by rfl) :
    Touches P s (pinStart p t) := by
  refine h.on hw fun h => ?_
  unfold Machine.pinStart
  exact ite h (ite (pinSafe (pinHandover h)) (pinHandover h))

theorem portBring (h : Touches P s t) {p : Nat} (hw : Parts.within { pwr := true, eth := true } P = true := by rfl) :
    Touches P s (portBring p t) := by
  refine h.on hw fun h => ?_
  unfold Machine.portBring
  exact ite h (ite (setEport (ite (bypeRelease h) h)) (ite (ite (ite h (ethPhyOn h)) (bypeInline h)) (ethPhyOn (ite (bypeRelease h) h))))

theorem step7a (h : Touches P s t)
    (hw : Parts.within { regs := true, pwr := true, fly := true, eth := true, can := true, rov := true } P = true := by rfl) :
    Touches P s (step7a t) := by
  refine h.on hw fun h => ?_
  unfold Machine.step7a
  exact rovIdle (foldl (fun _ _ h => pinStart h) (foldl (fun _ _ h => ite (canEnable h) h) (foldl (fun _ _ h => portBring h) h)))

theorem setStrand (h : Touches P s t) {k : Nat} {f : Strand → Strand}
    (hw : Parts.within { whl := true } P = true := by rfl) : Touches P s (t.setStrand k f) :=
  h.on hw fun _ => rfl

theorem loadLea (h : Touches P s t) {k : Nat} {bs : List Byte} (hw : Parts.within { whl := true } P = true := by rfl) :
    Touches P s (loadLea k bs t) := by
  refine h.on hw fun h => ?_
  unfold Machine.loadLea
  exact ite (setWhl (setStrand h)) h

theorem setSpindle (h : Touches P s t) {n : Nat} {f : Spindle → Spindle}
    (hw : Parts.within { whl := true } P = true := by rfl) : Touches P s (t.setSpindle n f) :=
  h.on hw fun _ => rfl

theorem loadSpin (h : Touches P s t) {m : BitVec 64} {p : CSpin} (hw : Parts.within { whl := true } P = true := by rfl) :
    Touches P s (loadSpin m p t) := by
  refine h.on hw fun h => ?_
  unfold Machine.loadSpin
  exact setSpindle h

theorem loadWhorl (h : Touches P s t) {x : CertIn} {m : BitVec 64} (hw : Parts.within { whl := true } P = true := by rfl) :
    Touches P s (loadWhorl x m t) := by
  refine h.on hw fun h => ?_
  unfold Machine.loadWhorl
  exact foldl (fun _ _ h => loadLea h) (foldl (fun _ _ h => ite (setSpindle h) h) (foldl (fun _ _ h => loadSpin h) (setWhl h)))

theorem setKrec (h : Touches P s t) {f : KRec → KRec} (hw : Parts.within { sys := true } P = true := by rfl) :
    Touches P s (setKrec f t) := by
  refine h.on hw fun h => ?_
  unfold Machine.setKrec
  exact setSys h

theorem whorlLoaded (h : Touches P s t) {x : CertIn} {none_ : Bool} (hw : Parts.within { sys := true, whl := true } P = true := by rfl) :
    Touches P s (whorlLoaded x none_ t) := by
  refine h.on hw fun h => ?_
  unfold Machine.whorlLoaded
  exact ite (loadWhorl h) (logFault (setKrec (loadWhorl h)))

theorem setDst (h : Touches P s t) {f : Dst → Dst} (hw : Parts.within { dst := true } P = true := by rfl) : Touches P s (setDst f t) :=
  h.on hw fun _ => rfl

theorem confDefaulted (h : Touches P s t) (hw : Parts.within { sys := true, txn := true, dst := true } P = true := by rfl) :
    Touches P s (confDefaulted t) := by
  refine h.on hw fun h => ?_
  unfold Machine.confDefaulted
  exact logFault (setTxns (setKrec (setDst h)))

theorem stewardLoaded (h : Touches P s t) {img : Mem} (hw : Parts.within { stw := true } P = true := by rfl) : Touches P s (stewardLoaded img t) :=
  h.on hw fun _ => rfl

theorem loadExts (h : Touches P s t) {bs : List Byte} (hw : Parts.within { stw := true } P = true := by rfl) :
    Touches P s (loadExts bs t) := by
  refine h.on hw fun h => ?_
  unfold Machine.loadExts
  exact ite (keep h) h

theorem identityKept (h : Touches P s t) (hw : Parts.within { dst := true } P = true := by rfl) :
    Touches P s (identityKept t) := by
  refine h.on hw fun h => ?_
  unfold Machine.identityKept
  exact ite h (queueUnit h)

theorem flyersStart (h : Touches P s t) (hw : Parts.within { fly := true } P = true := by rfl) :
    Touches P s (flyersStart t) := by
  refine h.on hw fun h => ?_
  unfold Machine.flyersStart
  exact foldl (fun _ _ h => ite (flyStart h) h) h

theorem startStrands (h : Touches P s t) (hw : Parts.within { whl := true } P = true := by rfl) :
    Touches P s (startStrands t) := by
  refine h.on hw fun h => ?_
  unfold Machine.startStrands
  exact foldl (fun _ _ h => ite (setStrand h) (ite (setStrand h) h)) h

theorem rovStopAt (h : Touches P s t) {err : Bool} (hw : Parts.within { rov := true } P = true := by rfl) :
    Touches P s (rovStopAt err t) := by
  refine h.on hw fun h => ?_
  unfold Machine.rovStopAt
  exact ite (setRov h) (rovStopIdle h)

theorem rovBrace (h : Touches P s t) (hw : Parts.within { regs := true, sys := true, stw := true, rov := true } P = true := by rfl) :
    Touches P s (rovBrace t) := by
  refine h.on hw fun h => ?_
  unfold Machine.rovBrace
  exact ite (rovFlag (rovStopAt h)) (rovStopIdle h)

theorem pushRelease (h : Touches P s t) {t' : Tick} {n : Nat} {es : List Staged} (hw : Parts.within { whl := true } P = true := by rfl) :
    Touches P s (pushRelease t' n es t) := by
  refine h.on hw fun h => ?_
  unfold Machine.pushRelease
  exact setWhl h

theorem braceSpindle (h : Touches P s t) {n : Nat} (hw : Parts.within { whl := true } P = true := by rfl) :
    Touches P s (braceSpindle n t) := by
  refine h.on hw fun h => ?_
  unfold Machine.braceSpindle
  exact ite (ite (setSpindle h) (pushRelease (setSpindle h))) h

theorem braceWhorl (h : Touches P s t) (hw : Parts.within { whl := true } P = true := by rfl) :
    Touches P s (braceWhorl t) := by
  refine h.on hw fun h => ?_
  unfold Machine.braceWhorl
  exact foldl (fun _ _ h => braceSpindle h) h

theorem pushDue (h : Touches P s t) {src : ReqSrc} {seq : Nat} {msg : List Byte} (hw : Parts.within { hl := true, skn := true } P = true := by rfl) :
    Touches P s (pushDue src seq msg t) := by
  refine h.on hw fun h => ?_
  simp only [Machine.pushDue]
  split
  · exact keep h
  · exact sknTx h

theorem setTxn (h : Touches P s t) {h' : Nat} {f : Txn → Txn} (hw : Parts.within { txn := true } P = true := by rfl) : Touches P s (setTxn h' f t) :=
  h.on hw fun _ => rfl

theorem commitBack (h : Touches P s t) {h' : Nat} {st : Status} {detail : Nat}
    (hw : Parts.within { txn := true, hl := true, skn := true } P = true := by rfl) :
    Touches P s (commitBack h' st detail t) := by
  refine h.on hw fun h => ?_
  simp only [Machine.commitBack]
  split
  · exact h
  · split
    · exact pushDue (setTxn h)
    · exact setTxn h

theorem dropUnstarted (h : Touches P s t) (hw : Parts.within { dst := true } P = true := by rfl) :
    Touches P s (dropUnstarted t) := by
  refine h.on hw fun h => ?_
  simp only [Machine.dropUnstarted]
  split
  · exact setDst h
  · split
    · exact setDst h
    · exact setDst h
    · exact setDst h

theorem refuseCommits (h : Touches P s t) (hw : Parts.within { txn := true, dst := true, hl := true, skn := true } P = true := by rfl) :
    Touches P s (refuseCommits t) := by
  refine h.on hw fun h => ?_
  unfold Machine.refuseCommits
  exact foldl (fun _ _ h => commitBack h) (dropUnstarted h)

theorem enterBrace (h : Touches P s t) {ret : Mode}
    (hw : Parts.within { regs := true, sys := true, txn := true, dst := true, stw := true, hl := true, whl := true, skn := true, rov := true } P = true := by rfl) :
    Touches P s (enterBrace ret t) := by
  refine h.on hw fun h => ?_
  unfold Machine.enterBrace
  exact rovBrace (braceWhorl (raiseLine (logFault (setSys (refuseCommits h)))))

theorem kindleEnd (h : Touches P s t) {target : Mode}
    (hw : Parts.within { regs := true, sys := true, txn := true, dst := true, stw := true, hl := true, whl := true, skn := true, rov := true } P = true := by rfl) :
    Touches P s (kindleEnd target t) := by
  refine h.on hw fun h => ?_
  unfold Machine.kindleEnd
  exact keep (logFault (ite (enterBrace (setSys h)) (setSys (setSys h))))

end Touches

end Sys2Proof.Machine
end

section
/-!
Steps 4 to 7 of the kindle and its end (O18).
-/

set_option Elab.async false

namespace Sys2Proof.Machine

theorem pending_of_exec {i : Instr} {s t : State} (h : exec i s = .next t) : t.pending = s.pending := by
  obtain ⟨u, hu, hp⟩ := everyCommandAnswersAndKeepsTheQueue i s
  rw [hu] at h
  exact Host.Outcome.next.inj h ▸ hp

theorem inStep_of {s : State} {n : Nat} (hmode : s.sys.mode = .kindle) (hkf : s.sys.kfault = false) (hstep : s.sys.kstep = n) : inStep s n = true := by
  simp [inStep, hmode, hkf, hstep]

/-- The end of a step: the step's number, its time, and the note of a late step. -/
theorem stepDone_eq (n us : Nat) (s : State) : ∃ r l k ls st co kt, stepDone n us s = { s with
    sys := { s.sys with recorder := r, lost := l, krec := k, lateSteps := ls, kfStep := st, kfCode := co, kstep := n + 1, ktime := kt } } := by
  obtain ⟨r, l, k, ls, st, co, h⟩ := noteLate_keeps n us s
  rw [stepDone, h]
  exact ⟨r, l, k, ls, st, co, _, rfl⟩

/-! ### Step 4 -/

theorem bootRepair_eq (c : SlotCtl) (s : State) : ∃ w, bootRepair c s = { s with dst := { s.dst with waiting := w } } := by
  unfold bootRepair
  dsimp only
  split
  · split
    · exact ⟨_, rfl⟩
    · exact ⟨_, rfl⟩
  · split
    · exact ⟨_, rfl⟩
    · exact ⟨_, rfl⟩

/-- The slot control that a kindle reads: its KINDLES is the kindle's. -/
theorem slotControl_eq (s : State) : ∃ c bl w k, slotControl s = { s with
    dst := { s.dst with ctl := c, bootLost := bl, waiting := w }, sys := { s.sys with kindles := k } } ∧ c.kindles = k := by
  unfold slotControl
  split
  · next c hc =>
    obtain ⟨w, h⟩ := bootRepair_eq c (setDst (fun d => { d with ctl := c, bootLost := false }) (setSys (fun y => { y with kindles := c.kindles + 1 }) s))
    dsimp only
    rw [h]
    exact ⟨_, _, _, _, rfl, rfl⟩
  · exact ⟨_, _, _, _, rfl, rfl⟩

theorem replayed_eq (r : Replay) (s : State) : ∃ rec l k cs cf ms ok, replayed r s = { s with
    dst := { s.dst with
      replayed := r.conf.map fun x => (x.1, x.2.1, x.2.2.1), seq := (r.conf.map fun x => x.2.1).getD 0
      hash := (r.conf.map fun x => x.2.2.2).getD [], ckptSeq := cs, ckptFirst := cf, maxSeq := ms, chainOk := ok, loaded := true }
    sys := { s.sys with recorder := rec, lost := l, krec := k } } := by
  unfold replayed
  dsimp only
  split
  · next q hq =>
    obtain ⟨rec, l, h, -⟩ := logFault_eq 0x23 1 (leBytes 8 q) (setKrec (fun k => { k with loss := true }) (setDst (fun d => { d with
      replayed := r.conf.map fun x => (x.1, x.2.1, x.2.2.1), seq := (r.conf.map fun x => x.2.1).getD 0
      hash := (r.conf.map fun x => x.2.2.2).getD [], ckptSeq := r.ckptSeq, ckptFirst := r.first
      maxSeq := highestSeq (ringGood d)
      chainOk := r.conf.isSome && r.loss.isNone && decide ((r.conf.map fun x => x.2.1) = some (highestSeq (ringGood d)))
      loaded := true }) s))
    exact ⟨rec, l, _, _, _, _, _, (congrArg (logFault 0x23 1 (leBytes 8 q)) (by simp [hq])).trans h⟩
  · exact ⟨_, _, _, _, _, _, _, rfl⟩

/-! ### Step 5 -/

theorem joinCtl_eq (f : SlotCtl → SlotCtl) (s : State) : ∃ c w, joinCtl f s = { s with dst := { s.dst with ctl := c, waiting := w } } := by
  unfold joinCtl
  dsimp only
  split
  · exact ⟨_, _, rfl⟩
  · exact ⟨_, _, rfl⟩

theorem pickLogged_eq {code : Nat} (f : KRec → KRec) (x : Option Bool) (s : State) : ∃ r l k,
    (match x with
      | some b => logFault code 1 [BitVec.ofNat 8 (b2n b)] (setKrec f s)
      | none => s) = { s with sys := { s.sys with recorder := r, lost := l, krec := k } } := by
  cases x with
  | none => exact ⟨_, _, _, rfl⟩
  | some b =>
    obtain ⟨r, l, h, -⟩ := logFault_eq code 1 [BitVec.ofNat 8 (b2n b)] (setKrec f s)
    exact ⟨r, l, _, h⟩

theorem imagePicked_eq (p : BootPick) (s : State) : ∃ c w r l k, imagePicked p s = { s with
    dst := { s.dst with booted := p.boot, ctl := c, waiting := w }, sys := { s.sys with recorder := r, lost := l, krec := k } } := by
  have hctl : ∃ c w, (if p.change then joinCtl (fun c => { p.ctl with bseq := c.bseq, kindles := c.kindles })
      (setDst (fun d => { d with booted := p.boot }) s) else setDst (fun d => { d with booted := p.boot }) s) =
      { s with dst := { s.dst with booted := p.boot, ctl := c, waiting := w } } := by
    split
    · obtain ⟨c, w, h⟩ := joinCtl_eq (fun c => { p.ctl with bseq := c.bseq, kindles := c.kindles }) (setDst (fun d => { d with booted := p.boot }) s)
      exact ⟨c, w, h⟩
    · exact ⟨_, _, rfl⟩
  obtain ⟨c, w, hc⟩ := hctl
  obtain ⟨r, l, k, h1⟩ := pickLogged_eq (code := 0x21) (fun k => { k with fallback := true }) p.fallback
    { s with dst := { s.dst with booted := p.boot, ctl := c, waiting := w } }
  obtain ⟨r', l', k', h2⟩ := pickLogged_eq (code := 0x22) (fun k => { k with rollback := true }) p.rollback
    { s with dst := { s.dst with booted := p.boot, ctl := c, waiting := w }, sys := { s.sys with recorder := r, lost := l, krec := k } }
  unfold imagePicked
  dsimp only
  rw [hc]
  refine ⟨c, w, r', l', k', Eq.trans ?_ h2⟩
  rw [← h1] <;> rfl

/-- The end of step 5, whichever slot was picked. -/
theorem picked_eq (us : Nat) (p : BootPick) (s : State) : ∃ c w y, stepDone 5 us (imagePicked p s) = { s with
    dst := { s.dst with booted := p.boot, ctl := c, waiting := w }, sys := y } ∧ y.kstep = 6 ∧ y.mode = s.sys.mode := by
  obtain ⟨c, w, r, l, k, hpick⟩ := imagePicked_eq p s
  obtain ⟨r', l', k', ls, st, co, kt, hdone⟩ := stepDone_eq 5 us { s with
    dst := { s.dst with booted := p.boot, ctl := c, waiting := w }, sys := { s.sys with recorder := r, lost := l, krec := k } }
  rw [hpick, hdone]
  exact ⟨c, w, _, rfl, rfl, rfl⟩

/-! ### The end -/

/-- The kindle's end with PWRSENSE not warning. -/
theorem kindleEnd_calm {s : State} (m : Mode) (h : s.pwr.senseWarn = false) : ∃ r l, kindleEnd m s = { s with
    sys := { s.sys with kstep := 0, mode := m, recorder := r, lost := l }, hl := { s.hl with ready := true } } ∧
      r.getLast?.map FaultRec.code = some 0x01 := by
  unfold kindleEnd
  dsimp only
  rw [if_neg (by rw [setSys_pwr, h]; decide)]
  obtain ⟨r, l, hlog, hlast⟩ := logFault_eq 0x01 0 _ (setSys (fun y => { y with mode := m }) (setSys (fun y => { y with kstep := 0 }) s))
  rw [hlog]
  exact ⟨r, l, rfl, hlast⟩

/-- The kindle's end in Brace. -/
theorem kindleEnd_brace {s : State} (m : Mode) (h : s.pwr.senseWarn = true) : (kindleEnd m s).sys.mode = .brace ∧
    (kindleEnd m s).sys.retMode = m ∧ (kindleEnd m s).sys.kstep = 0 := by
  obtain ⟨⟨r, l, hsys⟩, -, -⟩ := enterBrace_keeps m (setSys (fun y => { y with kstep := 0 }) s)
  refine ⟨?_, ?_, ?_⟩
  all_goals
    unfold kindleEnd
    dsimp only
    rw [if_pos (by rw [setSys_pwr, h])]
    generalize enterBrace m (setSys (fun y => { y with kstep := 0 }) s) = u at hsys ⊢
    obtain ⟨r', l', hlog, -⟩ := logFault_eq 0x01 0 (leBytes 4 (krecBits u.sys.krec) ++ leBytes 4 (kfaultBits u.sys) ++
      leBytes 4 (u.rd sysRstcause).toNat ++ leBytes 4 ((List.range 7).map fun i => Tab.get (fun _ => 0) u.sys.ktime i).sum) u
    rw [hlog, hsys]

theorem commitBack_dst (h : Nat) (st : Status) (d : Nat) (s : State) : (commitBack h st d s).dst = s.dst := by rw [commitBack_eq]

theorem enterBrace_dst (m : Mode) (s : State) : ∃ fl co, (enterBrace m s).dst = { s.dst with staged := none, inflight := fl, chainOk := co } := by
  obtain ⟨fl, co, hd⟩ := dropUnstarted_eq s
  refine ⟨fl, co, ?_⟩
  have hrefuse : (refuseCommits s).dst = { s.dst with staged := none, inflight := fl, chainOk := co } := by
    rw [refuseCommits]
    dsimp only
    rw [foldl_keeps State.dst (fun t h => commitBack_dst h _ _ t), hd]
  rw [← hrefuse, enterBrace]
  exact (Touches.same_dst (P := { regs := true, sys := true, stw := true, rov := true, whl := true })
    (Touches.refl _ _).braceWhorl.rovBrace).trans rfl

theorem kindleEnd_dst (m : Mode) (s : State) : ∃ st fl co, (kindleEnd m s).dst = { s.dst with staged := st, inflight := fl, chainOk := co } := by
  unfold kindleEnd
  dsimp only
  split
  · obtain ⟨fl, co, h⟩ := enterBrace_dst m (setSys (fun y => { y with kstep := 0 }) s)
    generalize enterBrace m (setSys (fun y => { y with kstep := 0 }) s) = u at h ⊢
    exact ⟨none, fl, co, h⟩
  · exact ⟨s.dst.staged, s.dst.inflight, s.dst.chainOk, rfl⟩

/-! ### Step 6 -/

/-- Every part but the supplies. -/
def Parts.butPwr : Parts where
  regs := true
  rdata := true
  sys := true
  txn := true
  dst := true
  stw := true
  hl := true
  whl := true
  fly := true
  bob := true
  eth := true
  can := true
  ply := true
  skn := true
  pnl := true
  rov := true

/-- The mark that a configuration is applied, which the writes of settings and the ports' start leave. -/
def applied (s : State) : Bool := s.pwr.confApplied

theorem applied_of_touches {s t : State} (h : Touches .butPwr s t) : applied t = applied s := congrArg Pwr.confApplied h.same_pwr

theorem applied_bypeSet (n : Nat) (s : State) : applied (bypeSet n s) = applied s := by
  have hoff : applied (bypeInline n (ethPhyOff n (s.setFld pwrBype n 1 1))) = applied s :=
    applied_of_touches (t := ethPhyOff n (s.setFld pwrBype n 1 1)) (Touches.refl _ s).setFld.ethPhyOff
  unfold bypeSet
  split
  · rfl
  · dsimp only
    split
    · exact hoff
    · rfl

theorem applied_bypeClear (n : Nat) (s : State) : applied (bypeClear n s) = applied s := by
  have hoff : applied (bypeRelease n (ethPhyOff n (s.setFld pwrBype n 1 0))) = applied s :=
    applied_of_touches (t := ethPhyOff n (s.setFld pwrBype n 1 0)) (Touches.refl _ s).setFld.ethPhyOff
  unfold bypeClear
  split
  · dsimp only
    split
    · exact (applied_of_touches (Touches.refl _ _).ethPhyOn).trans hoff
    · rfl
  · rfl

theorem applied_bypWrite (v : Word) (s : State) : applied (bypWrite v s) = applied s := by
  unfold bypWrite
  refine (foldl_keeps applied (fun t n => ?_) _ _).trans rfl
  split
  · exact applied_bypeSet n t
  · exact applied_bypeClear n t

theorem applied_vidWrite (v : Word) (s : State) : applied (vidWrite v s) = applied s := by
  unfold vidWrite
  dsimp only
  split <;> rfl

theorem applied_busWrite (a : Nat) (v : Word) (s : State) : applied (busWrite a v s) = applied s := by
  have keep (t : State) (h : Touches .butPwr s t) : applied t = applied s := applied_of_touches h
  have hs : Touches .butPwr s s := Touches.refl _ s
  simp only [busWrite]
  split
  case h_11 =>
    split
    · exact applied_vidWrite v s
    split
    · exact applied_bypWrite v s
    split
    · rw [chargerNote_eq]
      rfl
    · rfl
  · exact keep _ (.ite hs.holdClear (.ite hs.holdClear hs.regWrite))
  · exact keep _ hs.flyBusWrite
  · exact keep _ (.ite hs.mdioWrite hs.regWrite)
  · exact keep _ hs.canBusWrite
  · exact keep _ (.ite hs.chggoWrite hs.regWrite)
  · exact keep _ (.ite hs.lcfgWrite (.ite hs.lcfgWrite hs.regWrite))
  · exact keep _ (.ite hs.regWrite.modesChanged hs.regWrite)
  · exact keep _ (.ite hs.oemWrite hs.regWrite)
  · exact keep _ (.ite hs.hdataAccess hs.regWrite)
  · exact keep _ (.ite hs.hstWrite hs)
  · exact keep _ hs.regWrite

theorem applied_settingsApply (rs : List Rec) (s : State) : applied (settingsApply rs s) = applied s := by
  have hfold : ∀ ws : List (Nat × Word), applied (ws.foldl (fun t w => settingWrite w t) s) = applied s := fun ws =>
    foldl_keeps applied (fun t w => by
      unfold settingWrite
      split
      · rfl
      · split
        · rfl
        · exact applied_busWrite _ _ t) ws s
  unfold settingsApply
  dsimp only
  split
  · exact (applied_of_touches (Touches.refl _ _).oemKept).trans (hfold _)
  · exact hfold _

theorem applied_portBring (p : Nat) (s : State) : applied (portBring p s) = applied s := by
  have hrel (q : Nat) : applied (if q < 4 then bypeRelease q s else s) = applied s := by split <;> rfl
  unfold portBring
  dsimp only
  split
  · rfl
  split
  · exact hrel p
  split
  · split
    · split
      · rfl
      · exact applied_of_touches (Touches.refl _ _).ethPhyOn
    · rfl
  · exact (applied_of_touches (Touches.refl _ _).ethPhyOn).trans (hrel p)

theorem applied_step7a (s : State) : applied (step7a s) = applied s := by
  unfold step7a
  dsimp only
  refine (applied_of_touches (Touches.refl _ _).rovIdle).trans ?_
  rw [foldl_keeps applied (fun t p => applied_of_touches (Touches.refl _ t).pinStart),
    foldl_keeps applied (fun t n => applied_of_touches (.ite (Touches.refl _ t).canEnable (Touches.refl _ t))),
    foldl_keeps applied (fun t p => applied_portBring p t)]

/-- A configuration that is loaded is in force. -/
theorem confLoaded_spec (c : Conf) (s : State) : applied (confLoaded c s) = true ∧ (confLoaded c s).txn = { s.txn with conf := c } := by
  unfold confLoaded
  dsimp only
  generalize h1 : setPwr (fun p => { p with confApplied := true }) (setTxns (fun x => { x with conf := c }) s) = s1
  generalize h2 : List.foldl _ s1 (List.range 8) = s2
  generalize h4 : List.foldl _ _ (List.range 6) = s4
  have hcan : Touches { can := true } s1 s2 :=
    h2 ▸ .foldl (fun _ _ h => .ite h h.canLoadTiming) (Touches.refl _ s1)
  have hset : Touches { Parts.butPwr with pwr := true, txn := false } s2 (settingsApply (fullRecs c) s2) := (Touches.refl _ s2).settingsApply
  have hfly : Touches { regs := true, stw := true, fly := true } (settingsApply (fullRecs c) s2) s4 :=
    h4 ▸ .foldl (fun _ _ h => .ite h (.foldl (fun _ _ h => h.flyLoadSettings) h.flyLoadPage)) (Touches.refl _ _)
  have happ1 : applied s1 = true := h1 ▸ rfl
  have htxn1 : s1.txn = { s.txn with conf := c } := h1 ▸ rfl
  have happ2 : applied s2 = true := (congrArg Pwr.confApplied hcan.same_pwr).trans happ1
  have happ4 : applied s4 = true := (congrArg Pwr.confApplied hfly.same_pwr).trans ((applied_settingsApply _ _).trans happ2)
  exact ⟨happ4, hfly.same_txn.trans (hset.same_txn.trans (hcan.same_txn.trans htxn1))⟩

theorem confDefaulted_txn (s : State) : (confDefaulted s).txn = { s.txn with confDefault := true } := rfl

/-! ### Step 7 -/

/-- The end of step 7, up to what starts then: the kindle ends in the mode that the straps select. -/
theorem exec_step7End_eq {s : State} (us : Nat) {c : Step7Cond} (hmode : s.sys.mode = .kindle) (hkf : s.sys.kfault = false)
    (hstep : s.sys.kstep = 7) (hends : step7Ends s c = true) : ∃ t u, t.pwr.senseWarn = s.pwr.senseWarn ∧ exec (.step7End us c) s = .next u ∧
      u.sys = (kindleEnd (if s.sys.straps.bootsel.getLsbD 1 then .service else .spin) t).sys ∧
      u.hl = (kindleEnd (if s.sys.straps.bootsel.getLsbD 1 then .service else .spin) t).hl := by
  generalize hm : (if s.sys.straps.bootsel.getLsbD 1 then Mode.service else Mode.spin) = m
  generalize ht1 : identityKept (stepDone 7 us s) = t1
  generalize ht2 : (if t1.skn.joined then t1 else logFault 0x70 9 [] (setKrec (fun k => { k with cascLate := true }) t1)) = t2
  generalize ht3 : (if (kindleEnd m t2).sys.mode = m then flyersStart (kindleEnd m t2)
    else { kindleEnd m t2 with fly := { (kindleEnd m t2).fly with wait := true } }) = t3
  have hexec : exec (.step7End us c) s = .next (if t3.sys.mode = .spin then startStrands t3 else t3) := by
    rw [← ht3, ← ht2, ← ht1, ← hm]
    exact if_pos (by rw [inStep_of hmode hkf hstep, hends]; rfl)
  have hstart : Touches { fly := true } (kindleEnd m t2) t3 := ht3 ▸ .ite (Touches.refl _ _).flyersStart rfl
  have hstrands : Touches { whl := true } t3 (if t3.sys.mode = .spin then startStrands t3 else t3) :=
    .ite (Touches.refl _ _).startStrands (Touches.refl _ _)
  have hpwr : t1.pwr = s.pwr := by
    rw [← ht1]
    obtain ⟨r, l, k, ls, st, co, kt, h⟩ := stepDone_eq 7 us s
    have hdone : (stepDone 7 us s).pwr = s.pwr := by rw [h]
    exact ((Touches.refl { dst := true } _).identityKept.same_pwr).trans hdone
  have hpwr2 : t2.pwr = s.pwr := by
    rw [← hpwr, ← ht2]
    split <;> rfl
  exact ⟨t2, _, congrArg Pwr.senseWarn hpwr2, hexec, hstrands.same_sys.trans hstart.same_sys, hstrands.same_hl.trans hstart.same_hl⟩

/-- Settles O18. -/
theorem kindleEndCommands : Obligations.KindleEndCommands := by
  refine ⟨?journal, ?waits, ?image, ?schedule, ?ends, ?brace⟩
  case journal =>
    intro s us hmode hkf hstep hrun
    have hexec : exec (.journalReplay us) s = .next (stepDone 4 us (replayed (replay s.dst) (slotControl s))) :=
      if_pos (by rw [inStep_of hmode hkf hstep, hrun]; rfl)
    refine ⟨_, hexec, ?_⟩
    obtain ⟨c, bl, w, k, hctl, hk⟩ := slotControl_eq s
    rw [hctl]
    obtain ⟨rec, l, kr, cs, cf, ms, ok, hrep⟩ := replayed_eq (replay s.dst) { s with
      dst := { s.dst with ctl := c, bootLost := bl, waiting := w }, sys := { s.sys with kindles := k } }
    rw [hrep]
    obtain ⟨r, l', k', ls, st, co, kt, hdone⟩ := stepDone_eq 4 us { s with
      dst := { s.dst with
        ctl := c, bootLost := bl, waiting := w
        replayed := (replay s.dst).conf.map fun x => (x.1, x.2.1, x.2.2.1), seq := ((replay s.dst).conf.map fun x => x.2.1).getD 0
        hash := ((replay s.dst).conf.map fun x => x.2.2.2).getD [], ckptSeq := cs, ckptFirst := cf, maxSeq := ms, chainOk := ok, loaded := true }
      sys := { s.sys with kindles := k, recorder := rec, lost := l, krec := kr } }
    rw [hdone]
    exact ⟨rfl, hmode, rfl, rfl, rfl, rfl, hk, rfl, rfl, rfl, rfl, rfl, rfl⟩
  case waits =>
    intro s us hrun
    exact if_neg (by rw [Option.isSome_iff_ne_none] at hrun; simp [hrun])
  case image =>
    intro s us hmode hkf hstep
    generalize hp : pickSlot (fun b => authentic (slotMem s.dst b)) (!s.dst.bootLost) s.dst.ctl = p
    obtain ⟨c, w, y, hpick, hk6, hm⟩ := picked_eq us p s
    have hexec : exec (.imageAuthentication us) s = match p.boot with
        | some b => .next (setKrec (fun k => { k with slot := b }) (stepDone 5 us (imagePicked p s)))
        | none => .next (kindleEnd .service (logFault 0x08 0 [] (setKrec (fun k => { k with imgNone := true }) (stepDone 5 us (imagePicked p s))))) := by
      rw [← hp]
      exact if_pos (inStep_of hmode hkf hstep)
    rw [hexec, hpick]
    cases hboot : p.boot with
    | some b =>
      refine ⟨_, rfl, rfl, rfl, rfl, rfl, fun b' hb => ?_, nofun⟩
      exact ⟨hk6, hm.trans hmode, Option.some.inj hb, rfl⟩
    | none =>
      obtain ⟨r, l, hlog, -⟩ := logFault_eq 0x08 0 [] (setKrec (fun k => { k with imgNone := true }) { s with
        dst := { s.dst with booted := none, ctl := c, waiting := w }, sys := y })
      refine ⟨_, rfl, ?_⟩
      rw [hlog]
      generalize hv : State.mk _ _ _ _ _ _ _ _ _ _ _ _ _ _ _ _ _ _ _ _ _ _ = v
      obtain ⟨st, fl, co, hd⟩ := kindleEnd_dst .service v
      have himg : v.dst = { s.dst with booted := none, ctl := c, waiting := w } := hv ▸ rfl
      rw [himg] at hd
      refine ⟨by rw [hd], by rw [hd], by rw [hd], by rw [hd], fun b hb => ?_, fun _ hcalm => ?_⟩
      · rw [hd] at hb
        exact nomatch hb
      obtain ⟨r', l', hend, hlast⟩ := kindleEnd_calm (s := v) .service (hv ▸ hcalm)
      rw [hend, ← hv]
      exact ⟨rfl, rfl, rfl, rfl, hlast, rfl⟩
  case schedule =>
    intro s us img himg hmode hkf hstep
    have hexec : exec (.scheduleLoad us) s = .next (step7a (stepDone 6 us (stewardLoaded img (loadExts (sectBytes img 2)
        (whorlLoaded (kindleCert img (confChoice img s).1) (confChoice img s).2.2
          (confLoaded (confChoice img s).1 (if (confChoice img s).2.1 then confDefaulted s else s))))))) := by
      show execScheduleLoad us s = _
      rw [execScheduleLoad, himg]
      exact if_pos (inStep_of hmode hkf hstep)
    have hpend := pending_of_exec hexec
    refine ⟨_, hexec, ?_⟩
    generalize hc1 : (if (confChoice img s).2.1 then confDefaulted s else s) = s1 at hpend ⊢
    obtain ⟨happ, htxn⟩ := confLoaded_spec (confChoice img s).1 s1
    generalize confLoaded (confChoice img s).1 s1 = s2 at happ htxn hpend ⊢
    have hload : Touches { sys := true, whl := true, stw := true } s2 (stewardLoaded img (loadExts (sectBytes img 2)
        (whorlLoaded (kindleCert img (confChoice img s).1) (confChoice img s).2.2 s2))) := (Touches.refl _ s2).whorlLoaded.loadExts.stewardLoaded
    generalize stewardLoaded img _ = s3 at hload hpend ⊢
    obtain ⟨r, l, k, ls, st, co, kt, hdone⟩ := stepDone_eq 6 us s3
    have hstep7 : Touches { regs := true, pwr := true, fly := true, eth := true, can := true, rov := true } (stepDone 6 us s3) (step7a (stepDone 6 us s3)) :=
      (Touches.refl _ _).step7a
    refine ⟨?_, ?_, ?_, ?_, hpend⟩
    · rw [hstep7.same_sys, hdone]
    · rw [hstep7.same_txn, hdone]
      exact congrArg TxnSt.conf (hload.same_txn.trans htxn)
    · refine (applied_step7a _).trans ?_
      rw [hdone]
      exact (congrArg Pwr.confApplied hload.same_pwr).trans happ
    · rw [hstep7.same_txn, hdone]
      refine (congrArg TxnSt.confDefault (hload.same_txn.trans htxn)).trans ?_
      rw [← hc1]
      split
      · next h => rw [h, Bool.or_true]; rfl
      · next h => rw [Bool.not_eq_true] at h; rw [h, Bool.or_false]
  case ends =>
    intro s us c hmode hkf hstep hends hcalm
    obtain ⟨t2, u, hwarn, hexec, hsys, hhl⟩ := exec_step7End_eq us hmode hkf hstep hends
    obtain ⟨r, l, hend, -⟩ := kindleEnd_calm (if s.sys.straps.bootsel.getLsbD 1 then .service else .spin) (hwarn.trans hcalm)
    rw [hend] at hsys hhl
    exact ⟨u, hexec, congrArg Sys.mode hsys, congrArg Sys.kstep hsys, congrArg Hl.ready hhl, pending_of_exec hexec⟩
  case brace =>
    intro s us c hmode hkf hstep hends hwarned
    obtain ⟨t2, u, hwarn, hexec, hsys, -⟩ := exec_step7End_eq us hmode hkf hstep hends
    obtain ⟨hm, hret, hk⟩ := kindleEnd_brace (if s.sys.straps.bootsel.getLsbD 1 then .service else .spin) (hwarn.trans hwarned)
    rw [← hsys] at hm hret hk
    exact ⟨u, hexec, hm, hret, hk, pending_of_exec hexec⟩

end Sys2Proof.Machine
end

section
/-!
Mailboxes, doorbells, HL_HOSTRST and the heartbeat (O19).
-/

set_option Elab.async false

namespace Sys2Proof.Machine

/-! ### Messages to the host -/

/-- A message to the host: what it may change. -/
def Messaged (s t : State) : Prop := ∃ o p, t = { s with hl := { s.hl with out := o, pba := p } }

theorem Messaged.refl (s : State) : Messaged s s := ⟨s.hl.out, s.hl.pba, rfl⟩

theorem Messaged.trans {s t u : State} (h : Messaged s t) (h' : Messaged t u) : Messaged s u := by
  obtain ⟨o, p, rfl⟩ := h
  obtain ⟨o', p', rfl⟩ := h'
  exact ⟨o', p', rfl⟩

theorem hostMsg_messaged (n : Nat) (s : State) : Messaged s (hostMsg n s) := by
  have hsent : ∃ o p, hostSent n s = { s.hl with out := o, pba := p } := by
    unfold hostSent
    split
    · exact ⟨_, _, rfl⟩
    · split
      · split
        · exact ⟨_, _, rfl⟩
        · exact ⟨_, _, rfl⟩
      · exact ⟨_, _, rfl⟩
      · exact ⟨_, _, rfl⟩
  obtain ⟨o, p, h⟩ := hsent
  exact ⟨o, p, by rw [hostMsg, h]⟩

theorem msgs_messaged (m : Word) (s : State) : Messaged s (msgs m s) :=
  foldl_rel (R := Messaged) Messaged.refl (fun _ _ _ => Messaged.trans) (fun t n => by
    split
    · exact hostMsg_messaged n t
    · exact Messaged.refl t) _ s

theorem msgs_zero (s : State) : msgs 0 s = s := by
  refine foldl_fixed _ fun n _ => if_neg ?_
  simp [bitOf]

/-- A doorbell that sets: its bit, and a message where it was not set and is not masked. -/
theorem ringDoorbell_eq (n : Nat) (s : State) : ∃ r o p, ringDoorbell n s = { s with regs := r, hl := { s.hl with out := o, pba := p } } := by
  unfold ringDoorbell
  dsimp only
  split
  · exact ⟨_, _, _, rfl⟩
  · obtain ⟨o, p, h⟩ := hostMsg_messaged n (s.setBits dbStatus (BitVec.ofNat 32 (2 ^ n)))
    exact ⟨_, o, p, h⟩

theorem hostFull_eq (n : Nat) (s : State) : ∃ r o p, hostFull n s = { s with
    regs := r, hl := { s.hl with hfull := s.hl.hfull ||| bitW n, out := o, pba := p } } := by
  unfold hostFull
  dsimp only
  split
  · obtain ⟨r, o, p, h⟩ := ringDoorbell_eq (dbMapOf s n) (setHl (fun h => { h with hfull := h.hfull ||| bitW n }) s)
    exact ⟨r, o, p, h⟩
  · exact ⟨_, _, _, rfl⟩

theorem replyWritten_eq (d : Due) (s : State) : ∃ x, replyWritten d s = { s with txn := x } ∧ (d.txn = none → x = s.txn) := by
  unfold replyWritten
  split
  · next h heq =>
    refine ⟨(txnEnd h .done s).txn, ?_, fun hn => absurd (hn.symm.trans heq) nofun⟩
    unfold txnEnd
    split <;> rfl
  · exact ⟨_, rfl, fun _ => rfl⟩

/-- A device-bound mailbox that has been read: line 14 falls with the last full flag. -/
theorem devTailRead_eq (n : Nat) (s : State) : devTailRead n s = { s with
    hl := { s.hl with dfull := s.hl.dfull &&& ~~~ bitW n, order := s.hl.order.erase n }
    stw := { s.stw with ipend := if s.hl.dfull &&& ~~~ bitW n = 0 then s.stw.ipend &&& ~~~ 0x4000 else s.stw.ipend } } := by
  unfold devTailRead
  dsimp only
  split
  · next h => rw [if_pos (by exact h)]; rfl
  · next h => rw [if_neg (by exact h)]; rfl

/-! ### The order of the mailboxes -/

theorem takeNext_skip {s : State} {m : Nat} (ms held : List Nat) (h : mbBusy s m = true) :
    takeNext s (m :: ms) held = takeNext s ms (held ++ (reqTxn (mbReq s (Fin.ofNat 32 m))).toList) := by
  rw [takeNext]
  exact if_pos (by rw [h]; rfl)

theorem takeNext_take {s : State} {m : Nat} (ms held : List Nat) (h : mbBusy s m = false)
    (hx : ((reqTxn (mbReq s (Fin.ofNat 32 m))).any fun h => held.contains h) = false) : takeNext s (m :: ms) held = some m := by
  rw [takeNext]
  exact if_neg (by rw [h, hx]; decide)

/-! ### The command reset -/

theorem cmdReset_spec (s : State) : (cmdReset s).sys.mode = .kindle ∧ (cmdReset s).sys.kstep = 1 ∧ (cmdReset s).sys.offTime = true ∧
    (cmdReset s).pwr.regEn = 0 ∧ (cmdReset s).sys.recorder = s.sys.recorder ∧ (cmdReset s).dst.ring = s.dst.ring ∧
    (cmdReset s).dst.nameplate = s.dst.nameplate := by
  obtain ⟨fl, co, hd⟩ := dropUnstarted_eq s
  unfold cmdReset warmReset
  dsimp only
  rw [chargerNote_eq, hd]
  exact ⟨rfl, rfl, rfl, rfl, rfl, rfl, rfl⟩

/-- Settles O19. -/
theorem mailboxCommands : Obligations.MailboxCommands := by
  refine ⟨?write, ?drop, ?read, ?take, ?first, ?next, ?reply, ?waits, ?clear, ?clear0, ?mask, ?reset, ?noReset, ?beat, ?relay⟩
  case write =>
    intro s n w hserves hfull
    refine (if_pos hserves).trans (congrArg Host.Outcome.next ?_)
    rw [devWrite, devBytes, if_neg (Bool.eq_false_iff.mp hfull)]
    exact if_pos (by simp [leBytes])
  case drop =>
    intro s n w hserves hfull
    exact (if_pos hserves).trans (congrArg Host.Outcome.next (if_pos hfull))
  case read =>
    intro s n hserves hready
    refine (if_pos hserves).trans ?_
    rw [hostWindow, if_pos hready]
    rfl
  case take =>
    intro s n hready himg hnext
    have htake : (s.hl.ready && (!imageNone s || s.hl.taken.isEmpty) && takeNext s s.hl.order [] == some n.val) = true := by
      rw [hready, hnext]
      rcases himg with h | h
      · rw [h]; simp
      · rw [h]; simp
    refine ⟨_, if_pos htake, ?_⟩
    rw [devTailRead_eq]
    exact ⟨rfl, rfl⟩
  case first => exact fun s n ns h => takeNext_take ns [] h (by cases reqTxn _ <;> rfl)
  case next =>
    intro s n m ns hm hn hx
    rw [takeNext_skip _ _ hm]
    exact takeNext_take _ _ hn (by rw [hx]; rfl)
  case reply =>
    intro s n d hd hfull
    obtain ⟨x, hx, hnone⟩ := replyWritten_eq d (setHl (fun h => { h with due := h.due.erase d }) s)
    obtain ⟨r, o, p, hfulled⟩ := hostFull_eq n.val (setHl (fun h => { h with
      hst := (h.hst.write (256 * n.val) d.msg).write (tailAt n.val) (leBytes 2 (d.msg.length % 512) ++ leBytes 2 d.seq) })
      { s with txn := x, hl := { s.hl with due := s.hl.due.erase d } })
    have hexec : exec (.stewardReplyWrite n) s =
        .next (hstMessage n.val d.seq d.msg (replyWritten d (setHl (fun h => { h with due := h.due.erase d }) s))) := by
      show execStewardReplyWrite n s = _
      rw [execStewardReplyWrite, hd]
      exact if_neg (Bool.eq_false_iff.mp hfull)
    refine ⟨_, hexec, ?_⟩
    rw [hx, hstMessage]
    generalize hu : hostFull n.val _ = u
    rw [hu.symm.trans hfulled]
    exact ⟨rfl, rfl, rfl, hnone, rfl⟩
  case waits =>
    intro s n hfull
    show execStewardReplyWrite n s = _
    unfold execStewardReplyWrite
    split
    · rfl
    · exact if_pos hfull
  case clear =>
    intro s mask new hserves
    refine ⟨_, if_pos hserves, ?_⟩
    unfold doorbellClear
    obtain ⟨o, p, h⟩ := msgs_messaged (new &&& ~~~ s.rd dbStatus &&& ~~~ s.rd dbMask)
      { s with regs := setReg s.regs dbStatus ((s.rd dbStatus &&& ~~~ mask) ||| new) }
    dsimp only
    rw [h]
    exact ⟨rfl, rfl⟩
  case clear0 =>
    intro s mask hserves
    refine (if_pos hserves).trans ?_
    have hm : (0 : Word) &&& ~~~ s.rd dbStatus &&& ~~~ s.rd dbMask = 0 := by simp
    have hr : s.rd dbStatus &&& ~~~ mask ||| (0 : Word) = s.rd dbStatus &&& ~~~ mask := BitVec.or_zero
    unfold doorbellClear
    dsimp only
    rw [hm, hr, msgs_zero]
  case mask =>
    intro s v hserves
    refine ⟨_, if_pos hserves, ?_⟩
    unfold dbMaskWrite
    obtain ⟨o, p, h⟩ := msgs_messaged (s.rd dbStatus &&& s.rd dbMask &&& ~~~ v) (s.regWrite dbMask v)
    rw [h]
    exact ⟨rfl, rfl⟩
  case reset =>
    intro s hserves
    have hexec : exec (.hostResetWrite 0x203) s = .next (cmdReset s) := (if_pos hserves).trans (congrArg Host.Outcome.next (if_pos rfl))
    obtain ⟨hm, hk, hoff, hreg, hrec, hring, hname⟩ := cmdReset_spec s
    exact ⟨_, hexec, hm, hk, hoff, hreg, hrec, hring, hname, pending_of_exec hexec⟩
  case noReset =>
    intro s v hserves hv
    exact (if_pos hserves).trans (congrArg Host.Outcome.next (if_neg hv))
  case beat =>
    intro s hready
    exact if_pos hready
  case relay =>
    intro s u l src n req hu
    refine ⟨fun hass hcar hmode => ?_, fun h => ?_⟩
    · rw [hu]
      refine if_pos ?_
      rw [hass, hcar]
      simp only [List.mem_cons, List.not_mem_nil, or_false] at hmode
      rcases hmode with h | h | h
      · rw [h]; rfl
      · rw [h]; rfl
      · rw [h]; rfl
    · refine if_neg ?_
      rcases h with h | h
      · rw [h]; simp
      · rw [h]; simp

end Sys2Proof.Machine
end

section
/-!
The SPI host port, PERST_N and the DMA rings (O20, O21).
-/

set_option Elab.async false

namespace Sys2Proof.Machine

namespace Touches

variable {P Q : Parts} {s t u : State}

theorem setRing (h : Touches P s t) {r : Nat} {f : Machine.Ring → Machine.Ring}
    (hw : Parts.within { hl := true } P = true := by rfl) : Touches P s (t.setRing r f) :=
  h.on hw fun _ => rfl

theorem removeFrame (h : Touches P s t) {id : Nat} (hw : Parts.within { hl := true, bob := true } P = true := by rfl) :
    Touches P s (removeFrame id t) := by
  refine h.on hw fun h => ?_
  unfold Machine.removeFrame
  exact foldl (fun _ _ h => endRefusalIfEmpty h) (reapFrame (keep h))

theorem abandon (h : Touches P s t) {r : Nat} (hw : Parts.within { hl := true, bob := true } P = true := by rfl) :
    Touches P s (abandon r t) := by
  refine h.on hw fun h => ?_
  unfold Machine.abandon
  exact setRing (foldl (fun _ _ h => removeFrame h) (setHl h))

theorem perst (h : Touches P s t) (hw : Parts.within { regs := true, sys := true, hl := true, bob := true } P = true := by rfl) :
    Touches P s (perst t) := by
  refine h.on hw fun h => ?_
  unfold Machine.perst
  exact logFault (setHl (foldl (fun _ _ hu => keep hu) (foldl (fun _ _ hu => setFld (abandon hu)) h)))

theorem refusalEnds (h : Touches P s t) {r b : Nat} (hw : Parts.within { hl := true, bob := true } P = true := by rfl) :
    Touches P s (refusalEnds r b t) := by
  refine h.on hw fun h => ?_
  unfold Machine.refusalEnds
  exact setRing (setBobbin h)

theorem burstRecord (h : Touches P s t) {r n count : Nat} {irq : Bool} (hw : Parts.within { regs := true, hl := true } P = true := by rfl) :
    Touches P s (burstRecord r n count irq t) := by
  refine h.on hw fun h => ?_
  unfold Machine.burstRecord
  exact ite (ringDoorbell (setHl (setRing h))) (setHl (setRing h))

theorem fillDesc (h : Touches P s t) {r i : Nat} {f : Frame} {bs : List Byte} {sof eof : Bool} (hw : Parts.within { hl := true } P = true := by rfl) :
    Touches P s (fillDesc r i f bs sof eof t) := by
  refine h.on hw fun h => ?_
  unfold Machine.fillDesc
  exact setHl h

theorem fillFrames {r : Nat} (ids : List Nat) {i : Nat} (h : Touches P s t) (hw : Parts.within { hl := true } P = true := by rfl) :
    Touches P s (fillFrames r ids i t) := by
  induction ids generalizing t i with
  | nil => exact h
  | cons id ids ih =>
    unfold Machine.fillFrames
    split
    · exact ih h
    · exact ih (foldl (fun _ _ hu => fillDesc hu hw) h)

theorem txWhole (h : Touches P s t) {id : Nat} (hw : Parts.within { bob := true } P = true := by rfl) :
    Touches P s (txWhole id t) := by
  refine h.on hw fun h => ?_
  unfold Machine.txWhole
  exact setFrame (innerWhole h)

theorem clearOwn (h : Touches P s t) {r n status : Nat} (hw : Parts.within { hl := true } P = true := by rfl) :
    Touches P s (clearOwn r n status t) := by
  refine h.on hw fun h => ?_
  unfold Machine.clearOwn
  exact foldl (fun _ _ h => setHl h) h

theorem burstDone (h : Touches P s t) {r : Nat} (hw : Parts.within { regs := true, hl := true, bob := true } P = true := by rfl) :
    Touches P s (burstDone r t) := by
  refine h.on hw fun h => ?_
  unfold Machine.burstDone
  split
  · exact h
  · exact ite h (ite (refusalEnds (foldl (fun _ _ hu => dropEntry hu) (burstRecord (fillFrames _ (setHl h)))))
      (burstRecord (foldl (fun _ _ hu => txWhole hu) (clearOwn (setHl h)))))

end Touches

/-! ### Frames of the SPI host port -/

theorem ofLE_leBytes_four (v : Word) : ofLE (leBytes 4 v.toNat) = v.toNat := by
  have h := v.isLt
  simp only [leBytes, List.range_succ, List.range_zero, List.map_cons, List.map_nil, List.nil_append, List.cons_append, ofLE,
    byteOf, BitVec.toNat_ofNat]
  omega

theorem exec_spiWriteFrame_eq {s : State} {off : Nat} (hserves : spiServes s = true) (hoff : off < 0x4000) (halign : off % 4 = 0) (data : List Byte) :
    exec (.spiWriteFrame off data) s = .next (spiEnd (spiStatus s :: List.replicate (2 + data.length) 0) (decide (data.length % 4 ≠ 0))
      (spiWords (data.length / 4) off data s)) := by
  show execSpiWriteFrame off data s = _
  rw [execSpiWriteFrame, if_neg (by rw [hserves]; decide), if_neg (by simp [spiOffOk, hoff, halign])]

theorem exec_spiReadFrame_eq {s : State} {off : Nat} (hserves : spiServes s = true) (hoff : off < 0x4000) (halign : off % 4 = 0) (len : Nat) :
    exec (.spiReadFrame off len) s =
      .next (spiEnd (spiStatus s :: [0, 0, 0] ++ (spiBytes (ceilDiv len 4) off len s).1) false (spiBytes (ceilDiv len 4) off len s).2) := by
  show execSpiReadFrame off len s = _
  rw [execSpiReadFrame, if_neg (by rw [hserves]; decide), if_neg (by simp [spiOffOk, hoff, halign])]

theorem spiOffOk_false {off : Nat} (h : 0x4000 ≤ off ∨ off % 4 ≠ 0) : spiOffOk off = false := by
  rw [spiOffOk, decide_eq_false_iff_not]
  omega

/-- The full flag of a tail word that a read frame reaches. -/
def tailTaken (o n : Nat) (s : State) : State :=
  match bar0Tail o with
  | some m => if 4 ≤ n then hostTailRead m s else s
  | none => s

theorem tailTaken_eq (o n : Nat) (s : State) : ∃ f, tailTaken o n s = { s with hl := { s.hl with hfull := f } } := by
  unfold tailTaken
  split
  · split
    · exact ⟨_, rfl⟩
    · exact ⟨_, rfl⟩
  · exact ⟨_, rfl⟩

theorem spiBytes_succ (k o n : Nat) (s : State) : spiBytes (k + 1) o n s = if n = 0 then ([], s) else
    ((leBytes 4 (bar0Value s o).toNat).take n ++ (spiBytes k (spiNext o) (n - 4) (tailTaken o n s)).1,
      (spiBytes k (spiNext o) (n - 4) (tailTaken o n s)).2) := rfl

/-- The bytes of a read frame: as many as asked for, and of the state a tail word's full flag alone. -/
theorem spiBytes_spec : ∀ (k o n : Nat) (s : State), n ≤ 4 * k →
    (spiBytes k o n s).1.length = n ∧ ∃ f, (spiBytes k o n s).2 = { s with hl := { s.hl with hfull := f } }
  | 0, _, _, s, h => ⟨by rw [spiBytes]; simp; omega, s.hl.hfull, rfl⟩
  | k + 1, o, n, s, h => by
    rw [spiBytes_succ]
    split
    · next hn => exact ⟨hn.symm, s.hl.hfull, rfl⟩
    · obtain ⟨f, hf⟩ := tailTaken_eq o n s
      obtain ⟨hlen, f', hf'⟩ := spiBytes_spec k (spiNext o) (n - 4) (tailTaken o n s) (by omega)
      refine ⟨?_, f', ?_⟩
      · rw [List.length_append, hlen, List.length_take, leBytes_length]
        omega
      · rw [hf', hf]

theorem spiBytes_word {o : Nat} {s : State} (ho : o < 0x2000) : spiBytes 1 o 4 s = (leBytes 4 (bar0Value s o).toNat, s) := by
  have htail : bar0Tail o = none := if_neg (by omega)
  rw [spiBytes_succ, if_neg (by decide), tailTaken, htail]
  dsimp only
  rw [spiBytes, List.append_nil, List.take_of_length_le (Nat.le_of_eq (leBytes_length 4 _))]

/-! ### PERST_N -/

theorem endRefusalIfEmpty_bursts (b : Nat) (s : State) : (endRefusalIfEmpty b s).hl.bursts = s.hl.bursts := by
  unfold endRefusalIfEmpty
  split <;> rfl

theorem removeFrame_bursts (id : Nat) (s : State) : (removeFrame id s).hl.bursts = s.hl.bursts := by
  unfold removeFrame
  dsimp only
  rw [foldl_keeps (fun t : State => t.hl.bursts) (fun t b => endRefusalIfEmpty_bursts b t)]
  exact congrArg Hl.bursts ((Touches.refl { bob := true } _).reapFrame).same_hl

theorem abandon_bursts (r : Nat) (s : State) : (abandon r s).hl.bursts = s.hl.bursts.filter fun b => b.ring != r := by
  unfold abandon
  dsimp only
  exact foldl_keeps (fun t : State => t.hl.bursts) (fun t id => removeFrame_bursts id t) _ _

theorem bursts_abandoned (f : Nat → State → State) (hf : ∀ r u, (f r u).hl.bursts = u.hl.bursts) : ∀ (l : List Nat) (s : State) (b : Burst),
    b ∈ (l.foldl (fun u r => f r (abandon r u)) s).hl.bursts → b ∈ s.hl.bursts ∧ b.ring ∉ l
  | [], s, b, h => ⟨h, List.not_mem_nil⟩
  | r :: l, s, b, h => by
    obtain ⟨hb, hl⟩ := bursts_abandoned f hf l _ b h
    rw [hf, abandon_bursts, List.mem_filter] at hb
    refine ⟨hb.1, fun hmem => ?_⟩
    rcases List.mem_cons.mp hmem with h | h
    · simp [h] at hb
    · exact hl h

theorem perst_spec (s : State) : (perst s).hl.pcieUp = false ∧ (perst s).hl.msix = ({} : Hl).msix ∧ (perst s).hl.pba = 0 ∧
    (∀ b ∈ (perst s).hl.bursts, 64 ≤ b.ring) ∧ (perst s).sys.recorder.getLast?.map FaultRec.code = some 0x50 := by
  unfold perst
  dsimp only
  generalize ht : List.foldl _ s (List.range 64) = t
  generalize hw : List.foldl _ t _ = w
  have hwhl : w.hl = t.hl := by
    rw [← hw]
    exact foldl_keeps State.hl (f := fun u a => { u with regs := setReg u.regs a (regRst a) }) (fun _ _ => rfl) _ t
  obtain ⟨r, l, hlog, hlast⟩ := logFault_eq 0x50 13 [] (setHl (fun h => { h with pcieUp := false, pci := {}, msix := ({} : Hl).msix, pba := 0 }) w)
  rw [hlog]
  refine ⟨rfl, rfl, rfl, fun b hb => ?_, hlast⟩
  have hbt : b ∈ t.hl.bursts := hwhl ▸ hb
  rw [← ht] at hbt
  have h := (bursts_abandoned (fun r u => u.setFld (ringBase r) 31 1 0) (fun _ _ => rfl) _ s b hbt).2
  rw [List.mem_range] at h
  omega

/-- Settles O20. -/
theorem spiAndPerstCommands : Obligations.SpiAndPerstCommands := by
  refine ⟨?word, ?write, ?writeBad, ?read, ?readLen, ?readBad, ?status, ?bad, ?perst⟩
  case word =>
    intro s off v hserves hoff halign
    refine ⟨_, exec_spiWriteFrame_eq hserves hoff halign _, ?_⟩
    rw [leBytes_length]
    have hw : spiWords (4 / 4) off (leBytes 4 v.toNat) s = bar0Write off v s := by
      show bar0Write off (BitVec.ofNat 32 (ofLE ((leBytes 4 v.toNat).take 4))) s = _
      rw [List.take_of_length_le (Nat.le_of_eq (leBytes_length 4 _)), ofLE_leBytes_four, BitVec.ofNat_toNat, BitVec.setWidth_eq]
    rw [hw]
    rfl
  case write =>
    intro s off data hserves hoff halign
    exact ⟨_, exec_spiWriteFrame_eq hserves hoff halign _, rfl, rfl⟩
  case writeBad =>
    intro s off data hserves hbad
    show execSpiWriteFrame off data s = _
    rw [execSpiWriteFrame, if_neg (by rw [hserves]; decide), if_pos (by rw [spiOffOk_false hbad]; rfl)]
    rfl
  case read =>
    intro s off hserves hoff halign
    rw [exec_spiReadFrame_eq hserves (by omega) halign, show ceilDiv 4 4 = 1 from rfl, spiBytes_word hoff]
    rfl
  case readLen =>
    intro s off len hserves hoff halign
    refine ⟨_, exec_spiReadFrame_eq hserves hoff halign len, ?_⟩
    obtain ⟨hlen, f, hf⟩ := spiBytes_spec (ceilDiv len 4) off len s (by unfold ceilDiv; omega)
    rw [hf]
    refine ⟨?_, rfl, rfl⟩
    show (spiStatus s :: [0, 0, 0] ++ (spiBytes (ceilDiv len 4) off len s).1).length = 4 + len
    rw [List.length_append, hlen]
    rfl
  case readBad =>
    intro s off len hserves hbad
    show execSpiReadFrame off len s = _
    rw [execSpiReadFrame, if_neg (by rw [hserves]; decide), if_pos (by rw [spiOffOk_false hbad]; rfl)]
    rfl
  case status => exact fun s hserves => if_pos hserves
  case bad => exact fun s hserves => if_pos hserves
  case perst =>
    intro s hmode hspi
    refine ⟨perst s, if_neg (by rw [hspi]; simp [hmode]), ?_⟩
    obtain ⟨hup, hmsix, hpba, hbursts, hlast⟩ := perst_spec s
    exact ⟨hup, hmsix, hpba, hbursts, hlast, (Touches.refl { regs := true, sys := true, hl := true, bob := true } s).perst⟩

/-! ### Registers of a ring -/

theorem fieldsAt_ringCtrl : ∀ r : Fin 64, fieldsAt (ringBase r) = [{ lo := 29, w := 3 }, { lo := 24, w := 5 }, { lo := 0, w := 4, lim := some (0, 8) }] := by
  decide

/-- A write of RING_CTRL that names the direction and the size that stand keeps both. -/
theorem ringCtrl_kept {x v : Word} {d : Bool} {n : Nat} (hd : bitOf v 30 = d) (hn : bitsOf v 0 4 = n) (hle : n ≤ 8) :
    bitOf (writeFields [{ lo := 29, w := 3 }, { lo := 24, w := 5 }, { lo := 0, w := 4, lim := some (0, 8) }] x v) 30 = d ∧
    bitsOf (writeFields [{ lo := 29, w := 3 }, { lo := 24, w := 5 }, { lo := 0, w := 4, lim := some (0, 8) }] x v) 0 4 = n := by
  have hclamp : ({ lo := 0, w := 4, lim := some (0, 8) } : Fld).store (bitsOf x 0 4) n = n := by
    show clampNat 0 8 n = n
    rw [clampNat, if_neg (Nat.not_lt_zero n), if_neg (by omega)]
  have hw : writeFields [{ lo := 29, w := 3 }, { lo := 24, w := 5 }, { lo := 0, w := 4, lim := some (0, 8) }] x v =
      putField (putField (putField x 29 3 (bitsOf v 29 3)) 24 5 (bitsOf v 24 5)) 0 4 n := by
    rw [← hn] at hclamp ⊢
    exact congrArg _ hclamp
  rw [hw]
  constructor
  · rw [bitOf_putField_outside _ _ (by decide) (by omega), bitOf_putField_outside _ _ (by decide) (by omega),
      show (30 : Nat) = 29 + 1 from rfl, bitOf_putField_inside _ _ (by decide) (by decide), testBit_bitsOf, ← hd]
    rfl
  · rw [bitsOf_putField _ _ (by decide)]
    exact Nat.mod_eq_of_lt (by omega)

theorem ringCfgWrite_eq (r off : Nat) (v : Word) (s : State) : ∃ x, ringCfgWrite r off v s = { s with regs := x } := by
  unfold ringCfgWrite
  dsimp only
  split
  · exact ⟨_, rfl⟩
  split
  · split
    · exact ⟨_, rfl⟩
    · exact ⟨_, rfl⟩
  · exact ⟨_, rfl⟩

theorem unstall_eq (r : Nat) (s : State) : ∃ x, unstall r s = { s with hl := { s.hl with rings := x } } := by
  unfold unstall
  split
  · exact ⟨_, rfl⟩
  · exact ⟨_, rfl⟩

/-- A write of the control register of an enabled ring keeps its direction and its size. -/
theorem ringCfgWrite_enabled {s : State} {r : Fin 64} (v : Word) (hen : ringEnabled s r = true) (hwf : RegsWf s) (hle : s.fld (ringBase r) 0 4 ≤ 8) :
    bitOf ((ringCfgWrite r 0 v s).rd (ringBase r)) 30 = ringIsRx s r ∧ (ringCfgWrite r 0 v s).fld (ringBase r) 0 4 = s.fld (ringBase r) 0 4 := by
  have hread : (s.regWrite (ringBase r) (putField (putField v 30 1 (b2n (ringIsRx s r))) 0 4 (s.fld (ringBase r) 0 4))).rd (ringBase r) =
      writeFields (fieldsAt (ringBase r)) (s.rd (ringBase r)) (putField (putField v 30 1 (b2n (ringIsRx s r))) 0 4 (s.fld (ringBase r) 0 4)) := by
    rw [rd_regWrite _ _ _ hwf, if_pos rfl]
  have hkept := ringCtrl_kept (x := s.rd (ringBase r)) (v := putField (putField v 30 1 (b2n (ringIsRx s r))) 0 4 (s.fld (ringBase r) 0 4))
    (d := ringIsRx s r) (n := s.fld (ringBase r) 0 4) (by
      rw [bitOf_putField_outside _ _ (by decide) (by omega), show (30 : Nat) = 30 + 0 from rfl, bitOf_putField_inside _ _ (by decide) (by decide)]
      cases ringIsRx s r <;> rfl) (by
      rw [bitsOf_putField _ _ (by decide)]
      exact Nat.mod_eq_of_lt (by omega)) hle
  rw [← fieldsAt_ringCtrl r, ← hread] at hkept
  rw [ringCfgWrite, if_neg (by rw [hen]; decide), if_pos rfl, Nat.add_zero]
  dsimp only
  split
  · exact hkept
  · have herr : (ringErr r eBadcfg (s.regWrite (ringBase r) (putField (putField v 30 1 (b2n (ringIsRx s r))) 0 4 (s.fld (ringBase r) 0 4)))).rd (ringBase r) =
        (s.regWrite (ringBase r) (putField (putField v 30 1 (b2n (ringIsRx s r))) 0 4 (s.fld (ringBase r) 0 4))).rd (ringBase r) := by
      rw [ringErr, rd_setBits _ _ _ (regsWf_regWrite _ _ hwf), if_neg (by unfold ringBase; omega)]
    exact ⟨(congrArg (bitOf · 30) herr).trans hkept.1, (congrArg (bitsOf · 0 4) herr).trans hkept.2⟩

/-! ### Bursts -/

theorem admission_nextId (q : AdmReq) (s : State) : (admission q s).2.2.2.bob.nextId = s.bob.nextId := by
  have hite {c : Prop} {_ : Decidable c} {a b : Adm × Nat × Bool × State} (ha : a.2.2.2.bob.nextId = s.bob.nextId)
      (hb : b.2.2.2.bob.nextId = s.bob.nextId) : (if c then a else b).2.2.2.bob.nextId = s.bob.nextId := by
    split
    · exact ha
    · exact hb
  have hst {c : Prop} {_ : Decidable c} {a b : State} (ha : a.bob.nextId = s.bob.nextId) (hb : b.bob.nextId = s.bob.nextId) :
      (if c then a else b).bob.nextId = s.bob.nextId := by
    split
    · exact ha
    · exact hb
  unfold admission
  exact hite rfl (hite (hst (hst rfl rfl) (hst rfl rfl)) (hst (hst rfl rfl) (hst rfl rfl)))

theorem offerFrame_nextId (id : Nat) (q : AdmReq) (s : State) : (offerFrame id q s).bob.nextId = s.bob.nextId := by
  have h := admission_nextId q s
  unfold offerFrame
  split
  · next heq => rw [heq] at h; exact h
  · next heq => rw [heq] at h; exact h

theorem offerInner_nextId (port b : Nat) (bytes : List Byte) (tx : Bool) (s : State) :
    (offerInner port b bytes tx s).2.2.bob.nextId = s.bob.nextId + 1 := by
  have h := offerFrame_nextId (newFrame port 0 s).1 (innerReq b bytes tx)
    ((newFrame port 0 s).2.setFrame (newFrame port 0 s).1 fun f => { f with bytes := bytes ++ fcsOf bytes })
  unfold offerInner
  dsimp only
  split
  · exact h
  · exact h

theorem offerInner_id (port b : Nat) (bytes : List Byte) (tx : Bool) (s : State) : (offerInner port b bytes tx s).1 = s.bob.nextId := by
  unfold offerInner
  dsimp only
  split <;> rfl

theorem dropEntry_bursts (b id : Nat) (s : State) : (dropEntry b id s).hl.bursts = s.hl.bursts := by
  unfold dropEntry
  dsimp only
  rw [endRefusalIfEmpty_bursts]
  exact congrArg Hl.bursts ((Touches.refl { bob := true } _).reapFrame).same_hl

theorem ringDoorbell_bursts (n : Nat) (s : State) : (ringDoorbell n s).hl.bursts = s.hl.bursts := by
  obtain ⟨r, o, p, h⟩ := ringDoorbell_eq n s
  rw [h]

theorem burstRecord_bursts (r n count : Nat) (irq : Bool) (s : State) : (burstRecord r n count irq s).hl.bursts = s.hl.bursts := by
  unfold burstRecord
  dsimp only
  split
  · exact ringDoorbell_bursts _ _
  · rfl

/-- The bursts in flight. -/
def bursts (s : State) : List Burst := s.hl.bursts

theorem bursts_foldl {α : Type} {f : State → α → State} {s : State} (l : List α) (hf : ∀ t x, bursts (f t x) = bursts t) :
    ∀ t, bursts t = bursts s → bursts (l.foldl f t) = bursts s := fun t h => (foldl_keeps bursts hf l t).trans h

theorem bursts_fillDesc (r i : Nat) (f : Frame) (bs : List Byte) (sof eof : Bool) (s : State) : bursts (fillDesc r i f bs sof eof s) = bursts s := rfl

theorem bursts_fillFrames (r : Nat) (ids : List Nat) (i : Nat) (s t : State) (h : bursts t = bursts s) : bursts (fillFrames r ids i t) = bursts s := by
  induction ids generalizing t i with
  | nil => exact h
  | cons id ids ih =>
    unfold fillFrames
    split
    · exact ih _ _ h
    · exact ih _ _ (bursts_foldl _ (fun u p => bursts_fillDesc ..) t h)

theorem fillFrames_bursts (r : Nat) (ids : List Nat) (i : Nat) (s : State) : (fillFrames r ids i s).hl.bursts = s.hl.bursts :=
  bursts_fillFrames r ids i s s rfl

theorem clearOwn_bursts (r n status : Nat) (s : State) : (clearOwn r n status s).hl.bursts = s.hl.bursts :=
  foldl_keeps (fun t : State => t.hl.bursts) (fun t i => (rfl : (setHl (fun h => { h with
    desc := (h.desc.write (descAddr t r i 0x10) (leBytes 2 0 ++ leBytes 2 status ++ leBytes 8 0)).write
      (descAddr t r i 10) (leBytes 2 (descCtrl t r i % 32768)) }) t).hl.bursts = t.hl.bursts)) _ s

/-- The record of a burst: HEAD, the count of frames, the write-back. -/
theorem burstRecord_eq (r n count : Nat) (irq : Bool) (s : State) : ∃ x o p, burstRecord r n count irq s = { s with
    regs := x
    hl := { (s.setRing r fun x => { x with head := (x.head + n) % ringSize' s r, frames := x.frames + BitVec.ofNat 32 count }).hl with
      out := o, pba := p } } := by
  unfold burstRecord
  dsimp only
  split
  · obtain ⟨x, o, p, h⟩ := ringDoorbell_eq _ _
    exact ⟨x, o, p, h⟩
  · exact ⟨_, _, _, rfl⟩

/-- A burst that completes leaves the list. -/
theorem burstDone_bursts {r : Nat} {s : State} {b : Burst} (hb : (burstsOf s r).head? = some b) (hok : b.rx = true ∨ readFaulted s r = false) :
    (burstDone r s).hl.bursts = s.hl.bursts.erase b := by
  have hgo : (!b.rx && readFaulted s r) = false := by
    rcases hok with h | h
    · rw [h]; rfl
    · rw [h, Bool.and_false]
  rw [burstDone, hb]
  dsimp only
  rw [if_neg (Bool.eq_false_iff.mp hgo)]
  split
  · refine (foldl_keeps (fun t : State => t.hl.bursts) (fun t id => dropEntry_bursts _ id t) b.frames _).trans ?_
    rw [burstRecord_bursts, fillFrames_bursts]
    rfl
  · rw [burstRecord_bursts]
    refine (congrArg Hl.bursts (Touches.same_hl (P := { bob := true }) (.foldl (fun _ _ h => h.txWhole) (Touches.refl _ _)))).trans ?_
    rw [clearOwn_bursts]
    rfl

/-- Settles O21. -/
theorem dmaRingCommands : Obligations.DmaRingCommands := by
  refine ⟨?cfg, ?badcfg, ?ctrl, ?tail, ?offer, ?start, ?empty, ?done, ?none, ?fault, ?refuse, ?noRefuse⟩
  case cfg =>
    intro s r off v hserves hoff hen
    have hexec : exec (.ringCtrlWrite r off v) s = .next (unstall r (s.regWrite (ringBase r + off) v)) := by
      refine (if_pos (by rcases hoff with rfl | rfl | rfl | rfl <;> rw [hserves] <;> rfl)).trans ?_
      rw [ringCfgWrite, if_pos (by rw [hen]; rfl)]
    refine ⟨_, hexec, ?_⟩
    obtain ⟨x, hx⟩ := unstall_eq r (s.regWrite (ringBase r + off) v)
    rw [hx]
    exact ⟨rfl, rfl⟩
  case badcfg =>
    intro s r off v hserves hoff hen
    have hexec : exec (.ringCtrlWrite r off v) s = .next (unstall r (ringErr r eBadcfg s)) := by
      refine (if_pos (by rcases hoff with rfl | rfl | rfl <;> rw [hserves] <;> rfl)).trans ?_
      rw [ringCfgWrite, if_neg (by rw [hen]; decide), if_neg (by omega)]
    refine ⟨_, hexec, ?_⟩
    obtain ⟨x, hx⟩ := unstall_eq r (ringErr r eBadcfg s)
    rw [hx]
    exact ⟨rfl, rfl⟩
  case ctrl =>
    intro s r v hserves hen hwf hle
    refine ⟨_, if_pos (by rw [hserves]; rfl), ?_⟩
    obtain ⟨hrx, hsize⟩ := ringCfgWrite_enabled v hen hwf hle
    obtain ⟨x, hx⟩ := ringCfgWrite_eq r 0 v s
    rw [hx] at hrx hsize ⊢
    obtain ⟨y, hy⟩ := unstall_eq r { s with regs := x }
    rw [hy]
    exact ⟨hrx, congrArg (fun n => 64 * 2 ^ n) hsize, rfl⟩
  case tail =>
    intro s r v hserves hen hwf
    refine ⟨_, if_pos hserves, ?_⟩
    have hoff : ringEnabled (s.regWrite (ringBase r + 8) v) r = false := by
      rw [ringEnabled, rd_regWrite _ _ _ hwf, if_neg (by omega)]
      exact hen
    rw [ringTailWrite]
    dsimp only
    rw [hoff, Bool.false_and, if_neg Bool.false_ne_true]
    obtain ⟨x, hx⟩ := unstall_eq r (s.regWrite (ringBase r + 8) v)
    rw [hx]
    exact ⟨rfl, rfl⟩
  case offer =>
    intro s r bytes d hgoes hrx hreads hbad hd
    refine ⟨_, rfl, ?_⟩
    rw [txOffer, if_neg (by rw [hgoes, hrx]; simp [hreads]), if_neg (Bool.eq_false_iff.mp hbad), hd]
    have hid := offerInner_id 15 (ringBob s r) bytes true s
    have hnext := offerInner_nextId 15 (ringBob s r) bytes true s
    have hbob : Touches { bob := true } s (offerInner 15 (ringBob s r) bytes true s).2.2 := .offerInner _ _ _ _ (Touches.refl _ s)
    generalize offerInner 15 (ringBob s r) bytes true s = o at hid hnext hbob ⊢
    obtain ⟨id, ok, t⟩ := o
    refine ⟨fun hok => ?_, fun hok => ?_⟩
    · exact if_neg (Bool.eq_false_iff.mp hok)
    · dsimp only at hok hid hnext hbob ⊢
      rw [if_pos hok, hid]
      have ht : t = { s with bob := t.bob } := hbob
      refine ⟨hnext, ?_, ?_⟩
      · rw [ht]
        rfl
      · rw [ht]
        rfl
  case start =>
    intro s r p hgoes hrx hlen hbad hp hne
    refine congrArg Host.Outcome.next ?_
    rw [rxStart, if_neg (by rw [hgoes, hrx]; simp [hlen]), if_neg (Bool.eq_false_iff.mp hbad)]
    dsimp only
    rw [hp]
    split
    · exact if_neg (by simp [hne])
    · next hnil =>
      rw [hnil] at hp
      exact absurd (by rw [← hp]; rfl) hne
  case empty =>
    intro s r b hb hrx hframes
    refine ⟨_, rfl, burstDone_bursts hb (.inl hrx), ?_⟩
    obtain ⟨x, o, p, hrec⟩ := burstRecord_eq r b.descs 0 ((List.range b.descs).any fun i => (descCtrl s r i).testBit 2)
      (setHl (fun h => { h with bursts := h.bursts.erase b }) s)
    rw [burstDone, hb]
    dsimp only
    rw [hrx, hframes, if_neg (by simp), if_pos rfl, fillFrames, List.foldl_nil, List.length_nil, hrec]
    refine ⟨?_, rfl⟩
    simp only [refusalEnds, State.setRing, State.setBobbin, setHl, BitVec.add_zero, BitVec.ofNat_eq_ofNat]
    rfl
  case done =>
    intro s r b hb hok
    exact ⟨_, rfl, burstDone_bursts hb hok, (Touches.refl { regs := true, hl := true, bob := true } s).burstDone⟩
  case none =>
    intro s r h
    show Host.Outcome.next (burstDone r s) = _
    rw [burstDone, h]
    rfl
  case fault =>
    intro s r cto b hb hrx
    refine (if_pos (List.any_eq_true.mpr ⟨b, hb, by rw [hrx]; rfl⟩)).trans ?_
    cases cto <;> rfl
  case refuse =>
    intro s b hstall
    refine ⟨_, rfl, ?_⟩
    rw [refusalStart, if_pos hstall]
    dsimp only
    split
    · exact ⟨rfl, rfl⟩
    · exact ⟨rfl, rfl⟩
  case noRefuse =>
    intro s b hstall
    exact congrArg Host.Outcome.next (if_neg (Bool.eq_false_iff.mp hstall))

end Sys2Proof.Machine
end

section
/-!
Reception (O22): the statement does not ask that the tables of the state are canonical, and fails where one is not.
-/

set_option Elab.async false

namespace Sys2Proof.Machine

/-- A frame arrives at port 0, whose entry stands twice in the table of ports. Counting the runt gives the first entry its default
value, so that it goes, and the port reads as the second one, whose through path is open. -/
def twicePort : State := { State.reset with
  eth := { State.reset.eth with port := [(0, { rxRunt := 0xFFFFFFFF }), (0, { thruTo := 1, thruEnded := false })] }
  bob := { State.reset.bob with frames := [{ id := 5, bytes := [], ingress := 0, ledger := 0 }] } }

/-- The ports that a command leaves. -/
def portsAfter : Host.Outcome State Fault Refusal → Tab EPort
  | .next t => t.eth.port
  | _ => []

/-- Refutes O22: the end of a runt on `twicePort` also ends a through path, which the statement's ports do not show. -/
theorem not_ethernetReceiveCommands : ¬ Obligations.EthernetReceiveCommands := by
  rintro ⟨-, -, -, hrunt, -⟩
  obtain ⟨t, hexec, -, heth, -⟩ := hrunt twicePort 0 [] true false { id := 5, bytes := [], ingress := 0, ledger := 0 } rfl (by decide) (by decide)
  have hports : portsAfter (exec (.frameRxEnd 0 [] true false) twicePort) =
      (twicePort.setEport 0 fun e => { e with rxRunt := e.rxRunt + 1, rx := e.rx.filter fun r => r.frame != 5 }).eth.port := by
    rw [hexec]
    exact congrArg Eth.port heth
  exact absurd hports (by decide)

end Sys2Proof.Machine
end

section
/-!
Ethernet ports and the fabric (O23, O24).
-/

set_option Elab.async false

namespace Sys2Proof.Machine

/-! ### What frees a frame moves no more of the host link than the stalls of its rings -/

/-- The host link without its rings. -/
def besideRings (s : State) : Hl := { s.hl with rings := [] }

/-- The host link is as before but for its rings, and the count of frames made is as before. -/
def RingsMoved (s t : State) : Prop := besideRings t = besideRings s ∧ t.bob.nextId = s.bob.nextId

namespace RingsMoved

variable {s t u : State}

theorem trans (h : RingsMoved s t) (h' : RingsMoved t u) : RingsMoved s u := ⟨h'.1.trans h.1, h'.2.trans h.2⟩

theorem hl_eq (h : RingsMoved s t) : t.hl = { s.hl with rings := t.hl.rings } :=
  congrArg (fun x : Hl => { x with rings := t.hl.rings }) h.1

theorem endRefusalIfEmpty (b : Nat) (s : State) : RingsMoved s (endRefusalIfEmpty b s) := by
  unfold Machine.endRefusalIfEmpty
  split
  · exact ⟨rfl, rfl⟩
  · exact ⟨rfl, rfl⟩

theorem reapFrame (id : Nat) (s : State) : RingsMoved s (reapFrame id s) := by
  unfold Machine.reapFrame
  split
  · exact ⟨rfl, rfl⟩
  · split
    · exact ⟨rfl, rfl⟩
    · exact ⟨rfl, rfl⟩

theorem dropEntry (b id : Nat) (s : State) : RingsMoved s (dropEntry b id s) :=
  .trans (t := { s with bob := { s.bob with queue := s.bob.queue.eraseP fun e => e.bobbin == b && e.frame == id } }) ⟨rfl, rfl⟩
    ((reapFrame id _).trans (endRefusalIfEmpty b _))

theorem foldl_endRefusalIfEmpty : ∀ (bs : List Nat) (s : State), RingsMoved s (bs.foldl (fun t b => Machine.endRefusalIfEmpty b t) s)
  | [], _ => ⟨rfl, rfl⟩
  | b :: bs, s => (endRefusalIfEmpty b s).trans (foldl_endRefusalIfEmpty bs _)

theorem removeFrame (id : Nat) (s : State) : RingsMoved s (removeFrame id s) := by
  unfold Machine.removeFrame
  refine .trans ?_ (foldl_endRefusalIfEmpty _ _)
  exact .trans (t := { s with bob := { s.bob with
    queue := s.bob.queue.filter fun e => e.frame != id
    egress := s.bob.egress.mapVals (fun _ => {}) fun _ x => { x with copyBuf := x.copyBuf.filter fun i => i != id || x.has id } } })
    ⟨rfl, rfl⟩ (reapFrame id _)

/-- What changes the fabric besides is the whole frame. -/
theorem frame (h : RingsMoved s t) (h' : Touches { hl := true, bob := true } s t) : t = { s with bob := t.bob, hl := { s.hl with rings := t.hl.rings } } :=
  Eq.trans h' (congrArg (fun x => { s with bob := t.bob, hl := x }) h.hl_eq)

/-- The like where registers change too. -/
theorem frame_regs (h : RingsMoved s t) (h' : Touches { hl := true, bob := true, regs := true } s t) :
    t = { s with bob := t.bob, regs := t.regs, hl := { s.hl with rings := t.hl.rings } } :=
  Eq.trans h' (congrArg (fun x => { s with bob := t.bob, regs := t.regs, hl := x }) h.hl_eq)

end RingsMoved

/-! ### The queue of the fabric when a frame is freed -/

theorem endRefusalIfEmpty_queue (b : Nat) (s : State) : (endRefusalIfEmpty b s).bob.queue = s.bob.queue := by
  unfold endRefusalIfEmpty
  split
  · rfl
  · rfl

theorem reapFrame_queue (id : Nat) (s : State) : (reapFrame id s).bob.queue = s.bob.queue := by
  unfold reapFrame
  split
  · rfl
  · split
    · rfl
    · rfl

theorem dropEntry_queue (b id : Nat) (s : State) :
    (dropEntry b id s).bob.queue = s.bob.queue.eraseP fun e => e.bobbin == b && e.frame == id :=
  (endRefusalIfEmpty_queue b _).trans (reapFrame_queue id _)

theorem removeFrame_queue (id : Nat) (s : State) : (removeFrame id s).bob.queue = s.bob.queue.filter fun e => e.frame != id := by
  unfold removeFrame
  exact (foldl_keeps (fun t : State => t.bob.queue) (fun t b => endRefusalIfEmpty_queue b t) _ _).trans (reapFrame_queue id _)

/-! ### Ports -/

theorem linkDrop_none {s : State} {p : Nat} (h : arriving s p = none) :
    linkDrop p s = s.setEport p fun e => { e with link := false, anDone := false, lpiRx := false, lpiTx := false, changed := s.ply.reel } := by
  unfold linkDrop
  rw [h]
  rfl

theorem exec_linkDown_eq {s : State} {p : Fin 12} (h : (s.eport p).link = true) :
    exec (.linkDown p) s = .next ({ (linkDrop p s).setEport p (fun e => { e with linkDown := e.linkDown + 1 }) with
      stw := { s.stw with ipend := s.stw.ipend ||| 0x40 } }) := by
  refine (if_pos h).trans (congrArg Host.Outcome.next ?_)
  have hstw : (linkDrop p s).stw = s.stw := ((Touches.refl { bob := true, eth := true, ply := true } s).linkDrop).same_stw
  exact congrArg (fun x : Stw => { (linkDrop p s).setEport p (fun e => { e with linkDown := e.linkDown + 1 }) with
    stw := { x with ipend := x.ipend ||| 0x40 } }) hstw

/-- A read with no response gives all ones, and NOACK. -/
theorem exec_mdioComplete_noAck {s : State} (hbusy : s.eth.mdioBusy = true) (hread : s.fld 0x40051000 26 2 = 2) (hwf : RegsWf s) :
    exec (.mdioComplete none) s = .next { s with
      regs := setReg (setReg s.regs 0x40051000 (putField (s.rd 0x40051000) 0 16 0xFFFF)) 0x40051000
        (putField (s.rd 0x40051000) 0 16 0xFFFF ||| 0x20000000)
      eth := { s.eth with mdioBusy := false } } := by
  refine (if_pos hbusy).trans ((congrArg (fun t => Host.Outcome.next (State.setBits t 0x40051000 0x20000000)) (if_pos (decide_eq_true hread))).trans ?_)
  have hread : Tab.get regRst (setReg s.regs 0x40051000 (putField (s.rd 0x40051000) 0 16 0xFFFF)) 0x40051000 = putField (s.rd 0x40051000) 0 16 0xFFFF := by
    rw [get_setReg _ _ _ hwf, if_pos rfl]
  exact congrArg (fun x : Word => Host.Outcome.next { s with
    regs := setReg (setReg s.regs 0x40051000 (putField (s.rd 0x40051000) 0 16 0xFFFF)) 0x40051000 (x ||| 0x20000000)
    eth := { s.eth with mdioBusy := false } }) hread

/-- Nothing that ages out makes a frame or lengthens the queue. -/
theorem ageOne_spec (p : Nat) (s : State) :
    RingsMoved s (ageOne p s) ∧ Touches { hl := true, bob := true } s (ageOne p s) ∧ (ageOne p s).bob.queue.length ≤ s.bob.queue.length := by
  unfold ageOne
  split
  · exact ⟨⟨rfl, rfl⟩, .refl _ s, Nat.le_refl _⟩
  · next c g _ =>
    have htouch := ((Touches.refl { hl := true, bob := true } s).setEgress (p := p) (f := fun _ =>
      { g with errors := g.errors + 1, copyBuf := if c.1 = copySource then g.copyBuf.tail else g.copyBuf })).setBobbin
      (b := ((s.frame? c.2).map Frame.bobbin).getD 0) (f := fun x => { x with dropped := x.dropped + 1 })
    dsimp only
    generalize hu : (s.setEgress p fun _ => { g with
      errors := g.errors + 1, copyBuf := if c.1 = copySource then g.copyBuf.tail else g.copyBuf }).setBobbin _ _ = u at htouch ⊢
    have hqueue : u.bob.queue = s.bob.queue := by
      rw [← hu]
      rfl
    have hrings : RingsMoved s u := by
      rw [← hu]
      exact ⟨rfl, rfl⟩
    split
    · exact ⟨hrings.trans (.reapFrame _ u), htouch.reapFrame, Nat.le_of_eq (congrArg List.length ((reapFrame_queue _ u).trans hqueue))⟩
    · exact ⟨hrings.trans (.dropEntry _ _ u), htouch.dropEntry,
        Nat.le_trans (Nat.le_of_eq (congrArg List.length (dropEntry_queue _ _ u)))
          (Nat.le_trans List.length_eraseP_le (Nat.le_of_eq (congrArg List.length hqueue)))⟩

/-- Settles O23. -/
theorem ethernetPortCommands : Obligations.EthernetPortCommands := by
  refine ⟨?up, ?upNot, ?down, ?an, ?lpi, ?mdio, ?mdioBusy, ?mdioRead, ?mdioWrite, ?noAck, ?noAckRead, ?gate, ?age, ?ageNone, ?ageOne⟩
  case up =>
    intro s p v d x hen hfound
    show execLinkUp p v d s = _
    rw [execLinkUp, if_pos hen, hfound]
    rfl
  case upNot =>
    intro s p v d h
    show execLinkUp p v d s = _
    rw [execLinkUp]
    obtain h | h := h
    · rw [if_neg (by rw [h]; decide)]
    · rw [h, ite_self]
  case down =>
    intro s p hlink
    exact ⟨_, _, exec_linkDown_eq hlink, rfl, rfl, (Touches.refl { bob := true, eth := true, ply := true } s).linkDrop, linkDrop_none⟩
  case an =>
    intro s p hen hlink hneg
    exact if_pos (by rw [hen, hlink, hneg]; rfl)
  case lpi =>
    intro s p hlink heee hon hlpi hcur hsel
    exact if_pos (by rw [hlink, heee, hon, hlpi, hcur, hsel]; rfl)
  case mdio =>
    intro s v hbusy
    show execMdioAccess v s = _
    rw [execMdioAccess, mdioWrite, if_neg (by rw [hbusy]; decide)]
    rfl
  case mdioBusy =>
    intro s v hbusy hgo
    show execMdioAccess v s = _
    rw [execMdioAccess, mdioWrite, if_pos hbusy, if_pos hgo]
  case mdioRead =>
    intro s d hbusy hread
    refine (if_pos hbusy).trans (congrArg Host.Outcome.next (if_pos (decide_eq_true hread)))
  case mdioWrite =>
    intro s d hbusy hread
    exact (if_pos hbusy).trans (congrArg Host.Outcome.next (if_neg (by rw [decide_eq_true_eq]; exact hread)))
  case noAck =>
    intro s hbusy hread
    refine (if_pos hbusy).trans (congrArg (fun t => Host.Outcome.next (State.setBits t 0x40051000 0x20000000)) (if_neg ?_))
    rw [decide_eq_true_eq]
    exact hread
  case noAckRead => exact fun s hbusy hread hwf => exec_mdioComplete_noAck hbusy hread hwf
  case gate =>
    intro s p v
    show execGateWrite p v s = _
    have haddr : bobPort p + 4 = 0x40040104 + 0x20 * p := by
      unfold bobPort
      omega
    rw [execGateWrite, haddr]
    rfl
  case age =>
    intro s p hlink
    exact if_neg (by rw [hlink]; decide)
  case ageNone =>
    intro s p haging hlink hsel
    refine (if_pos (by rw [haging, hlink]; rfl)).trans (congrArg Host.Outcome.next ?_)
    unfold ageOne
    split
    · rfl
    · next h => exact absurd (congrArg Prod.fst h) (by rw [hsel]; exact nofun)
  case ageOne =>
    intro s p c haging hlink hsel
    obtain ⟨hrings, htouch, hlen⟩ := ageOne_spec p s
    exact ⟨_, if_pos (by rw [haging, hlink]; rfl), hrings.2, hlen, hrings.frame htouch⟩

end Sys2Proof.Machine
end

section
/-!
The fabric (O24).
-/

set_option Elab.async false

namespace Sys2Proof.Machine

namespace Touches

variable {P Q : Parts} {s t u : State}

theorem cellsRead (h : Touches P s t) {id : Nat} (hw : Parts.within { regs := true, bob := true } P = true := by rfl) :
    Touches P s (cellsRead id t) := by
  refine h.on hw fun h => ?_
  simp only [Machine.cellsRead]
  split
  · exact h
  · exact ite (setBits (setFrame (ite h (keep (setFrame h))))) (ite h (keep (setFrame h)))

theorem startEgress (h : Touches P s t) {p id : Nat} {g : Egress} (hw : Parts.within { regs := true, bob := true, eth := true, ply := true } P = true := by rfl) :
    Touches P s (startEgress p id g t) := by
  refine h.on hw fun h => ?_
  unfold Machine.startEgress
  exact ite (ledgerTx (ite (setEport (cellsRead (setEgress h))) (cellsRead (setEgress h)))) (ite (setEport (cellsRead (setEgress h)))
    (cellsRead (setEgress h)))

theorem ledgerSkein (h : Touches P s t) {l kind : Nat} {tick : Tick} (hw : Parts.within { ply := true } P = true := by rfl) : Touches P s (ledgerSkein l kind tick t) :=
  h.on hw fun _ => rfl

theorem sendOn (h : Touches P s t) {l : Nat} {hdr payload : List Byte} {transit : Bool} (hw : Parts.within { ply := true, skn := true } P = true := by rfl) :
    Touches P s (sendOn l hdr payload transit t) := by
  refine h.on hw fun h => ?_
  unfold Machine.sendOn
  exact ite (ledgerSkein (sknSend (setLink h))) (sknSend (setLink h))

theorem wireCopy (h : Touches P s t) {id : Nat} {f : Frame} {p : Nat} (hw : Parts.within { regs := true, bob := true } P = true := by rfl) :
    Touches P s (wireCopy id f p t) := by
  refine h.on hw fun h => ?_
  unfold Machine.wireCopy
  exact ite (count h) (ite (setEgress h) (setEgress h))

theorem placeRef (h : Touches P s t) {id : Nat} {f : Frame} {b : Nat} (hw : Parts.within { bob := true } P = true := by rfl) :
    Touches P s (placeRef id f b t) := by
  refine h.on hw fun h => ?_
  unfold Machine.placeRef
  dsimp only
  split
  · next heq => exact keep ((congrArg (fun x : Adm × Nat × Bool × State => Touches { bob := true } t x.2.2.2) heq).mp (admission _ h))
  · next heq => exact (congrArg (fun x : Adm × Nat × Bool × State => Touches { bob := true } t x.2.2.2) heq).mp (admission _ h)

end Touches

theorem mem_frame?_id {s : State} {n : Nat} {f : Frame} (h : s.frame? n = some f) : f.id = n := by
  simpa using List.find?_some h

theorem Tab.get_put_self {α : Type} (d : Nat → α) (i : Nat) (x : α) : ∀ t : Tab α, Tab.get d (t.put i x) i = x
  | [] => by simp [Tab.put, Tab.get]
  | (k, v) :: t => by
    unfold Tab.put
    split
    · simp [Tab.get]
    · split
      · simp [Tab.get]
      · next hne hlt =>
        rw [Tab.get, if_neg hne, if_neg hlt]
        exact Tab.get_put_self d i x t

/-- An egress that is given a frame reads as such, in whatever form the table stands. -/
theorem egress_setEgress_busy {s : State} {p : Nat} {g : Egress → Egress} (h : (g (s.egress p)).cur.isSome = true) :
    (s.setEgress p g).egress p = g (s.egress p) := by
  unfold State.egress State.setEgress Tab.upd Tab.set
  rw [if_neg]
  · exact Tab.get_put_self _ _ _ _
  · intro hd
    unfold State.egress at h
    rw [hd] at h
    exact absurd h Bool.false_ne_true

/-! ### What reading a frame's cells leaves -/

theorem cellsRead_clean {s : State} {id : Nat} (h : (s.frame? id).all (fun f => f.flips == 0 && !f.uncorr) = true) : cellsRead id s = s := by
  simp only [cellsRead]
  split
  · rfl
  · next f hf =>
    rw [hf, Option.all_some, Bool.and_eq_true, beq_iff_eq, Bool.not_eq_true'] at h
    rw [if_pos h.1, if_neg (by rw [h.2]; decide)]

theorem cellsRead_kept (id : Nat) (s : State) :
    (cellsRead id s).bob.queue = s.bob.queue ∧ (cellsRead id s).bob.nextId = s.bob.nextId ∧ (cellsRead id s).bob.rrTrain = s.bob.rrTrain ∧
      (cellsRead id s).bob.egress = s.bob.egress := by
  simp only [cellsRead]
  split
  · exact ⟨rfl, rfl, rfl, rfl⟩
  · split <;> split <;> exact ⟨rfl, rfl, rfl, rfl⟩

/-! ### A train -/

/-- The members of a train leave the count of frames made and the turns of the train as they are. -/
def RefsPlaced (s t : State) : Prop :=
  Touches { regs := true, bob := true } s t ∧ t.bob.nextId = s.bob.nextId ∧ t.bob.rrTrain = s.bob.rrTrain

namespace RefsPlaced

theorem refl (s : State) : RefsPlaced s s := ⟨.refl _ s, rfl, rfl⟩

theorem trans {s t u : State} (h : RefsPlaced s t) (h' : RefsPlaced t u) : RefsPlaced s u :=
  ⟨h.1.trans h'.1, h'.2.1.trans h.2.1, h'.2.2.trans h.2.2⟩

theorem wireCopy (id : Nat) (f : Frame) (p : Nat) (s : State) : RefsPlaced s (wireCopy id f p s) := by
  refine ⟨.wireCopy (.refl _ s), ?_⟩
  unfold Machine.wireCopy
  split
  · exact ⟨rfl, rfl⟩
  · split
    · exact ⟨rfl, rfl⟩
    · exact ⟨rfl, rfl⟩

theorem admission_rrTrain (q : AdmReq) (s : State) : (admission q s).2.2.2.bob.rrTrain = s.bob.rrTrain := by
  have hite {c : Prop} {_ : Decidable c} {a b : Adm × Nat × Bool × State} (ha : a.2.2.2.bob.rrTrain = s.bob.rrTrain)
      (hb : b.2.2.2.bob.rrTrain = s.bob.rrTrain) : (if c then a else b).2.2.2.bob.rrTrain = s.bob.rrTrain := by
    split
    · exact ha
    · exact hb
  have hst {c : Prop} {_ : Decidable c} {a b : State} (ha : a.bob.rrTrain = s.bob.rrTrain) (hb : b.bob.rrTrain = s.bob.rrTrain) :
      (if c then a else b).bob.rrTrain = s.bob.rrTrain := by
    split
    · exact ha
    · exact hb
  unfold admission
  exact hite rfl (hite (hst (hst rfl rfl) (hst rfl rfl)) (hst (hst rfl rfl) (hst rfl rfl)))

theorem placeRef (id : Nat) (f : Frame) (b : Nat) (s : State) : RefsPlaced s (placeRef id f b s) := by
  refine ⟨.widen (Touches.refl { bob := true } s).placeRef, ?_⟩
  unfold Machine.placeRef
  dsimp only
  split
  · next heq =>
    exact ⟨(congrArg (fun x : Adm × Nat × Bool × State => x.2.2.2.bob.nextId) heq).symm.trans (admission_nextId _ s),
      (congrArg (fun x : Adm × Nat × Bool × State => x.2.2.2.bob.rrTrain) heq).symm.trans (admission_rrTrain _ s)⟩
  · next heq =>
    exact ⟨(congrArg (fun x : Adm × Nat × Bool × State => x.2.2.2.bob.nextId) heq).symm.trans (admission_nextId _ s),
      (congrArg (fun x : Adm × Nat × Bool × State => x.2.2.2.bob.rrTrain) heq).symm.trans (admission_rrTrain _ s)⟩

theorem wires (id : Nat) (f : Frame) : ∀ (ws : List Nat) (s : State), RefsPlaced s (ws.foldl (fun t p => Machine.wireCopy id f p t) s)
  | [], s => refl s
  | p :: ws, s => (wireCopy id f p s).trans (wires id f ws _)

theorem refs (id : Nat) (f : Frame) : ∀ (is : List (Nat × Nat)) (s : State), RefsPlaced s (is.foldl (fun t i => Machine.placeRef id f i.2 t) s)
  | [], s => refl s
  | i :: is, s => (placeRef id f i.2 s).trans (refs id f is _)

end RefsPlaced

theorem endRefusalIfEmpty_rrTrain (b : Nat) (s : State) : (endRefusalIfEmpty b s).bob.rrTrain = s.bob.rrTrain := by
  unfold endRefusalIfEmpty
  split
  · rfl
  · rfl

theorem reapFrame_rrTrain (id : Nat) (s : State) : (reapFrame id s).bob.rrTrain = s.bob.rrTrain := by
  unfold reapFrame
  split
  · rfl
  · split
    · rfl
    · rfl

/-- A train that is launched takes its traffic class's turn. -/
theorem launchTrain_spec (e : QEntry) (f : Frame) (s : State) :
    RingsMoved s (launchTrain e f s) ∧ Touches { hl := true, bob := true, regs := true } s (launchTrain e f s) ∧
      (launchTrain e f s).bob.rrTrain = Tab.set (fun _ => 0) s.bob.rrTrain (bobTc s e.bobbin) e.bobbin := by
  unfold launchTrain
  dsimp only
  generalize trainMembers s e = m
  obtain ⟨ws, is⟩ := m
  dsimp only
  generalize hown : (is.any fun i => i.2 == e.bobbin && !bobMcast s e.bobbin && i.1 != 14) = own
  have hplaced := (RefsPlaced.wires f.id f ws s).trans (RefsPlaced.refs f.id f (is.filter fun i => !(own && i.2 == e.bobbin && i.1 != 14)) _)
  generalize (is.filter fun i => !(own && i.2 == e.bobbin && i.1 != 14)).foldl (fun t i => placeRef f.id f i.2 t) _ = t at hplaced ⊢
  obtain ⟨htouch, hid, hturn⟩ := hplaced
  have hmoved : RingsMoved s t := ⟨congrArg (fun x : Hl => { x with rings := [] }) htouch.same_hl, hid⟩
  split
  · exact ⟨hmoved.trans ⟨rfl, rfl⟩, .trans (Q := { bob := true }) (.widen htouch) rfl, congrArg (fun x => Tab.set (fun _ => 0) x (bobTc s e.bobbin) e.bobbin) hturn⟩
  · have htaken : Touches { hl := true, bob := true, regs := true } s { t with bob := { t.bob with
        rrTrain := Tab.set (fun _ => 0) t.bob.rrTrain (bobTc s e.bobbin) e.bobbin
        queue := t.bob.queue.eraseP fun q => q.bobbin == e.bobbin && q.frame == f.id && !q.isRef } } := .trans (Q := { bob := true }) (.widen htouch) rfl
    have hkept : RingsMoved s { t with bob := { t.bob with
        rrTrain := Tab.set (fun _ => 0) t.bob.rrTrain (bobTc s e.bobbin) e.bobbin
        queue := t.bob.queue.eraseP fun q => q.bobbin == e.bobbin && q.frame == f.id && !q.isRef } } := hmoved.trans ⟨rfl, rfl⟩
    exact ⟨hkept.trans ((RingsMoved.reapFrame f.id _).trans (.endRefusalIfEmpty e.bobbin _)), .endRefusalIfEmpty (.reapFrame htaken),
      (endRefusalIfEmpty_rrTrain e.bobbin _).trans ((reapFrame_rrTrain f.id _).trans
        (congrArg (fun x => Tab.set (fun _ => 0) x (bobTc s e.bobbin) e.bobbin) hturn))⟩

/-- A bad frame that is on no wire goes, and what waits for it. -/
theorem exec_frameEnd_bad {s : State} {n : Nat} {f : Frame} (hf : s.frame? n = some f) (hwhole : f.whole = true) (hel : f.eligible = false)
    (hheld : f.stage = .held) (hbad : f.bad = true) (hwire : onWire s n = false) : exec (.frameEnd n) s = .next (removeFrame n s) := by
  show execFrameEnd n s = _
  rw [execFrameEnd, hf]
  dsimp only
  rw [if_neg (by rw [hwhole, hel, hheld]; decide), if_neg (by rw [hwire, Bool.and_false]; decide), if_pos hbad]

theorem exec_frameEnd_good {s : State} {n : Nat} {f : Frame} (hf : s.frame? n = some f) (hwhole : f.whole = true) (hel : f.eligible = false)
    (hheld : f.stage = .held) (hbad : f.bad = false) (htrunc : f.trunc = false) :
    exec (.frameEnd n) s = .next { s with bob := { s.bob with
      frames := s.bob.frames.map fun g => if g.id = n then { g with
        eligible := true, cells := cellsOf f.bytes.length, bytes := if g.csumIns then insertCsums g.bytes else g.bytes
        rewritten := g.rewritten || g.csumIns } else g
      queue := s.bob.queue.map fun e => if e.frame = n then { e with cells := cellsOf f.bytes.length } else e } } := by
  show execFrameEnd n s = _
  rw [execFrameEnd, hf]
  dsimp only
  rw [if_neg (by rw [hwhole, hel, hheld]; decide), if_neg (by simp [hbad, htrunc]), if_neg (by simp [hbad]),
    if_neg (by simp [htrunc])]
  rfl

/-- The mark that goes out on skein link `l` when frame `n`, on its wire in `s`, is stomped. -/
def abortSent (n l : Nat) (s t : State) : State :=
  if stompOn n false (s.egress (12 + l)) = s.egress (12 + l) then t else sknSend (.abort l) t

theorem abortSent_eq (n l : Nat) (s t : State) : ∃ out, abortSent n l s t = { t with skn := { t.skn with out := out } } := by
  unfold abortSent
  split
  · exact ⟨_, rfl⟩
  · exact ⟨_, rfl⟩

theorem exec_frameStomp_eq {s : State} {n : Nat} {f : Frame} (hf : s.frame? n = some f) (hbad : f.bad = true) (hwire : onWire s n = true) :
    exec (.frameStomp n) s = .next (abortSent n 1 s (abortSent n 0 s (removeFrame n { s with bob := { s.bob with
      egress := s.bob.egress.mapVals (fun _ => {}) fun _ g => stompOn n (f.trunc && !f.bad) g } }))) := by
  show execFrameStomp n s = _
  rw [execFrameStomp, hf]
  exact if_neg (by simp [hbad, hwire])

/-! ### Egresses -/

theorem exec_egressFrameStart_wire {s : State} {p : Fin 14} {c : Nat × Nat} {g : Egress} (hp : p.val < 12) (hcur : (s.egress p).cur = none)
    (hup : portUp s p = true) (hthru : throughEgress s p = false) (hsel : selectNext s p = (some c, g)) :
    exec (.egressFrameStart p) s = .next (startEgress p c.2 g s) := by
  show execEgressFrameStart p s = _
  rw [execEgressFrameStart, if_neg (Nat.not_le.mpr hp), if_neg (by rw [hcur, hup, hthru]; decide), hsel]

theorem startEgress_eth {s : State} {p id : Nat} {g : Egress} (hp : p < 12) :
    (startEgress p id g s).eth = (s.setEport p fun e => { e with lpiTx := false }).eth := by
  have hcells := ((Touches.refl { bob := true, regs := true } s).setEgress (p := p) (f := fun _ => { g with cur := some id, stomped := false })).cellsRead
    (id := id)
  unfold startEgress
  dsimp only
  rw [if_pos hp]
  generalize cellsRead id _ = u at hcells ⊢
  split
  · exact congrArg (fun x : Eth => (State.setEport { s with eth := x } p fun e => { e with lpiTx := false }).eth) hcells.same_eth
  · exact congrArg (fun x : Eth => (State.setEport { s with eth := x } p fun e => { e with lpiTx := false }).eth) hcells.same_eth

theorem startEgress_clean {s : State} {p id : Nat} {g : Egress} (hclean : (s.frame? id).all (fun f => f.flips == 0 && !f.uncorr) = true) :
    (startEgress p id g s).regs = s.regs ∧ (startEgress p id g s).bob = (s.setEgress p fun _ => { g with cur := some id, stomped := false }).bob := by
  have hcells : cellsRead id (s.setEgress p fun _ => { g with cur := some id, stomped := false }) =
      s.setEgress p fun _ => { g with cur := some id, stomped := false } := cellsRead_clean hclean
  unfold startEgress
  dsimp only
  rw [hcells]
  split <;> split <;> exact ⟨rfl, rfl⟩

/-- A frame that a skein egress sends leaves with a header of kind 0, which is not ledgered. -/
theorem sendOn_data (l tc colour hops dst src len seq : Nat) (payload : List Byte) (s : State) :
    ∃ k, sendOn l (mkHdr 0 tc colour hops dst src len seq) payload false s =
      { s with skn := { s.skn with link := k, out := s.skn.out ++ [.frame l (mkHdr 0 tc colour hops dst src len seq) payload] } } := by
  have hkind : hKind (mkHdr 0 tc colour hops dst src len seq) = 0 := rfl
  unfold sendOn
  dsimp only
  rw [if_neg (by rw [hkind]; decide)]
  exact ⟨_, rfl⟩

theorem reapFrame_egress (id : Nat) (s : State) : (reapFrame id s).bob.egress = s.bob.egress := by
  unfold reapFrame
  split
  · rfl
  · split
    · rfl
    · rfl

theorem dropEntry_egress (b id : Nat) (s : State) : (dropEntry b id s).bob.egress = s.bob.egress := by
  refine Eq.trans ?_ (reapFrame_egress id { s with bob := { s.bob with queue := s.bob.queue.eraseP fun e => e.bobbin == b && e.frame == id } })
  unfold dropEntry endRefusalIfEmpty
  dsimp only
  split
  · rfl
  · rfl

/-- The egress after a frame was sent. -/
def egressDone (id : Nat) (f : Frame) (stomped : Bool) (g : Egress) : Egress := { g with
  cur := none, stomped := false, framesOut := g.framesOut + 1
  sent := if stomped then stompFcs f.bytes else if f.rewritten then reFcs f.bytes else f.bytes
  copyBuf := if g.copyBuf.head? = some id then g.copyBuf.tail else g.copyBuf }

theorem endEgress_spec {s : State} {p id : Nat} {f : Frame} (hf : s.frame? id = some f) :
    (endEgress p id s).bob.egress = (s.setEgress p (egressDone id f (s.egress p).stomped)).bob.egress ∧
      RingsMoved s (endEgress p id s) ∧ Touches { hl := true, bob := true } s (endEgress p id s) := by
  have hmoved : RingsMoved s (s.setEgress p (egressDone id f (s.egress p).stomped)) := ⟨rfl, rfl⟩
  have htouch := (Touches.refl { hl := true, bob := true } s).setEgress (p := p) (f := egressDone id f (s.egress p).stomped)
  have hdone : endEgress p id s = match (s.setEgress p (egressDone id f (s.egress p).stomped)).bob.queue.find? fun e =>
        e.frame == id && !e.isRef && !bobMcast s e.bobbin with
      | some e => if needsTrain s e then reapFrame id (s.setEgress p (egressDone id f (s.egress p).stomped))
        else dropEntry e.bobbin id (s.setEgress p (egressDone id f (s.egress p).stomped))
      | none => reapFrame id (s.setEgress p (egressDone id f (s.egress p).stomped)) := by
    rw [endEgress, hf]
    rfl
  rw [hdone]
  generalize s.setEgress p (egressDone id f (s.egress p).stomped) = u at hmoved htouch ⊢
  have hreap : (reapFrame id u).bob.egress = u.bob.egress ∧ RingsMoved s (reapFrame id u) ∧ Touches { hl := true, bob := true } s (reapFrame id u) :=
    ⟨reapFrame_egress id u, hmoved.trans (.reapFrame id u), htouch.reapFrame⟩
  split
  · split
    · exact hreap
    · exact ⟨dropEntry_egress _ id u, hmoved.trans (.dropEntry _ id u), htouch.dropEntry⟩
  · exact hreap

theorem exec_egressFrameStart_skein {s : State} {p : Fin 14} {b n d rb : Nat} {f : Frame} (hp : 12 ≤ p.val) (hnext : skeinNext s p = some (b, n))
    (hf : s.frame? n = some f) (hremote : remoteOf s f.bobbin = some (d, rb)) :
    ∃ t pay, exec (.egressFrameStart p) s = .next t ∧ (t.egress p).cur = some n ∧ t.skn.txSeq = (s.skn.txSeq + 1) % 65536 ∧
      t.skn.out = s.skn.out ++ [.frame (p.val - 12) (mkHdr 0 f.tc f.colour ((hopsTo s (p.val - 12) d).getD 0) (d * 65536 + rb)
        s.skn.dev.toNat pay.length s.skn.txSeq) pay] ∧ t = { s with bob := t.bob, skn := t.skn, regs := t.regs } := by
  have hexec : exec (.egressFrameStart p) s = .next (inject p b n s) := by
    show execEgressFrameStart p s = _
    rw [execEgressFrameStart, if_pos hp, hnext]
  have hread := (Touches.refl { regs := true, bob := true } s).cellsRead (id := n)
  have hskn : (cellsRead n s).skn = s.skn := hread.same_skn
  rw [hexec]
  unfold inject
  rw [hf]
  dsimp only [Option.getD_some]
  rw [hremote]
  dsimp only
  generalize cellsRead n s = u at hread hskn ⊢
  generalize hpay : (if f.rewritten = true then reFcs f.bytes else f.bytes) = pay
  obtain ⟨k, hsent⟩ := sendOn_data (p.val - 12) f.tc f.colour ((hopsTo s (p.val - 12) d).getD 0) (d * 65536 + rb) s.skn.dev.toNat pay.length
    s.skn.txSeq pay { u.setEgress p (fun g => { g with
      cur := some n, stomped := false, paused := g.cur.map fun i => (i, g.stomped)
      rrBob := Tab.set (fun _ => copySource) g.rrBob f.tc b }) with
      skn := { u.skn with txSeq := (u.skn.txSeq + 1) % 65536 } }
  refine ⟨_, pay, congrArg Host.Outcome.next hsent, ?_, ?_, ?_, ?_⟩
  · exact congrArg Egress.cur (egress_setEgress_busy (s := u) (p := p) rfl)
  · exact congrArg (fun x : Skn => (x.txSeq + 1) % 65536) hskn
  · exact congrArg (fun x : Skn => x.out ++ [.frame (p.val - 12) (mkHdr 0 f.tc f.colour ((hopsTo s (p.val - 12) d).getD 0) (d * 65536 + rb)
      s.skn.dev.toNat pay.length s.skn.txSeq) pay]) hskn
  · exact Touches.trans (P := { bob := true, skn := true, regs := true }) (Q := { bob := true, skn := true }) (.widen hread) rfl

/-- A frame with an uncorrectable cell goes in place of its train. -/
theorem trainLaunch_spec {s : State} {e : QEntry} {f : Frame} (hnext : nextTrain s = some e) (hf : s.frame? e.frame = some f) :
    ∃ t, exec .trainLaunch s = .next t ∧ RingsMoved s t ∧ Touches { hl := true, bob := true, regs := true } s t ∧
      (f.uncorr = false → t.bob.rrTrain = Tab.set (fun _ => 0) s.bob.rrTrain (bobTc s e.bobbin) e.bobbin) ∧
      (f.uncorr = true → t.bob.queue = s.bob.queue.filter fun x => x.frame != e.frame) := by
  have hread := (Touches.refl { hl := true, bob := true, regs := true } s).cellsRead (id := e.frame)
  obtain ⟨hqueue, hid, hturn, -⟩ := cellsRead_kept e.frame s
  have hexec : exec .trainLaunch s = .next (if f.uncorr then removeFrame e.frame (cellsRead e.frame s) else launchTrain e f (cellsRead e.frame s)) := by
    show execTrainLaunch s = _
    rw [execTrainLaunch, hnext]
    dsimp only
    rw [hf, apply_ite Host.Outcome.next]
  have hmoved : RingsMoved s (cellsRead e.frame s) :=
    ⟨congrArg (fun x : Hl => { x with rings := [] }) ((Touches.refl { bob := true, regs := true } s).cellsRead).same_hl, hid⟩
  have htc : bobTc (cellsRead e.frame s) e.bobbin = bobTc s e.bobbin :=
    congrArg (fun x : TxnSt => bobTc { s with txn := x } e.bobbin) hread.same_txn
  refine ⟨_, hexec, ?_⟩
  split
  · next h =>
    exact ⟨hmoved.trans (.removeFrame _ _), hread.trans (.removeFrame (.refl { hl := true, bob := true } _)),
      fun h' => absurd (h.symm.trans h') nofun, fun _ => (removeFrame_queue _ _).trans (congrArg _ hqueue)⟩
  · next h =>
    obtain ⟨hmoved', htouch, hrr⟩ := launchTrain_spec e f (cellsRead e.frame s)
    refine ⟨hmoved.trans hmoved', hread.trans htouch, fun _ => hrr.trans ?_, fun h' => absurd h' h⟩
    rw [hturn, htc]

/-- Settles O24. -/
theorem fabricCommands : Obligations.FabricCommands := by
  refine ⟨?good, ?bad, ?cut, ?stomp, ?wire, ?nothing, ?skein, ?skeinNothing, ?ended, ?noTrain, ?train⟩
  case good => exact fun s n f hf hwhole hel hheld hbad htrunc => exec_frameEnd_good hf hwhole hel hheld hbad htrunc
  case bad =>
    intro s n f hf hwhole hel hheld hbad hwire
    exact ⟨_, exec_frameEnd_bad hf hwhole hel hheld hbad hwire, removeFrame_queue n s,
      (RingsMoved.removeFrame n s).frame (Touches.refl { hl := true, bob := true } s).removeFrame⟩
  case cut =>
    intro s n f hf hcut hbusy
    show execCutThroughStart n s = _
    rw [execCutThroughStart, hf]
    dsimp only
    rw [if_neg (by rw [hcut]; decide), if_pos (by rw [hbusy]; rfl)]
  case stomp =>
    intro s n f hf hbad hwire
    have hmoved := RingsMoved.removeFrame n { s with bob := { s.bob with
      egress := s.bob.egress.mapVals (fun _ => {}) fun _ g => stompOn n (f.trunc && !f.bad) g } }
    have htouch := (Touches.refl { hl := true, bob := true } { s with bob := { s.bob with
      egress := s.bob.egress.mapVals (fun _ => {}) fun _ g => stompOn n (f.trunc && !f.bad) g } }).removeFrame (id := n)
    have hqueue := removeFrame_queue n { s with bob := { s.bob with
      egress := s.bob.egress.mapVals (fun _ => {}) fun _ g => stompOn n (f.trunc && !f.bad) g } }
    refine ⟨_, exec_frameStomp_eq hf hbad hwire, ?_⟩
    generalize removeFrame n _ = t at hmoved htouch hqueue ⊢
    obtain ⟨out0, h0⟩ := abortSent_eq n 0 s t
    obtain ⟨out1, h1⟩ := abortSent_eq n 1 s { t with skn := { t.skn with out := out0 } }
    rw [h0, h1]
    exact ⟨hqueue, congrArg (fun x : State => { x with skn := { x.skn with out := out1 } }) (hmoved.frame htouch)⟩
  case wire =>
    intro s p c g hp hcur hup hthru hsel
    have htouch := (Touches.refl { bob := true, eth := true, ply := true, regs := true } s).startEgress (p := p) (id := c.2) (g := g)
    exact ⟨_, exec_egressFrameStart_wire hp hcur hup hthru hsel, startEgress_eth hp, startEgress_clean, htouch⟩
  case nothing =>
    intro s p hp hsel
    show execEgressFrameStart p s = _
    rw [execEgressFrameStart, if_neg (Nat.not_le.mpr hp)]
    split
    · rfl
    · split
      · next heq => exact absurd (hsel.symm.trans (congrArg Prod.fst heq)) nofun
      · rfl
  case skein => exact fun s p b n d rb f hp hnext hf hremote => exec_egressFrameStart_skein hp hnext hf hremote
  case skeinNothing =>
    intro s p hp hnext
    show execEgressFrameStart p s = _
    rw [execEgressFrameStart, if_pos hp, hnext]
  case ended =>
    intro s p n f hp hcur hf hwhole
    obtain ⟨hegress, hmoved, htouch⟩ := endEgress_spec (p := p) hf
    refine ⟨endEgress p n s, ?_, hegress, hmoved.frame htouch⟩
    show execEgressFrameEnd p s = _
    rw [execEgressFrameEnd, hcur]
    dsimp only
    rw [if_neg (by rw [hf, Option.any_some, hwhole]; decide), if_neg (Nat.not_le.mpr hp)]
  case noTrain =>
    intro s h
    show execTrainLaunch s = _
    rw [execTrainLaunch, h]
  case train =>
    intro s e f hnext hf
    obtain ⟨t, hexec, hmoved, htouch, hturn, hqueue⟩ := trainLaunch_spec hnext hf
    exact ⟨t, hexec, hmoved.2, hturn, hqueue, hmoved.frame_regs htouch⟩

end Sys2Proof.Machine
end

section
/-!
CAN controllers (O25, O26).
-/

set_option Elab.async false

namespace Sys2Proof.Machine

/-- The bit timing that waits at controller 0 is of a transaction that is gone, while another one applies and has not yet begun at
its own controllers. -/
def otherTxn : State := { State.reset with
  can := [(0, { pend := some (0, 0, 0, 5) })]
  txn := { State.reset.txn with txns := [{ h := 1, st := .applying }] } }

/-- The transactions that a command leaves, by whether they have begun at their CAN controllers. -/
def begunAfter : Host.Outcome State Fault Refusal → List Bool
  | .next t => t.txn.txns.map Txn.canBegun
  | _ => []

/-- Refutes O25: the load of a waiting bit timing also lets every other transaction that applies go on, where the statement shows the
controller alone changed. -/
theorem not_canControlCommands : ¬ Obligations.CanControlCommands := by
  rintro ⟨-, -, -, -, -, -, -, -, -, -, -, htiming, -⟩
  have hbegun := congrArg begunAfter (htiming otherTxn 0 0 0 0 5 rfl rfl)
  exact absurd hbegun (by decide)

end Sys2Proof.Machine
end

section
/-!
CAN frames sent and received, and the CAN wake rules (O26).
-/

set_option Elab.async false

namespace Sys2Proof.Machine

namespace Touches

variable {P Q : Parts} {s t u : State}

theorem canEvent (h : Touches P s t) {n src : Nat} (hw : Parts.within { regs := true, sys := true, stw := true, whl := true } P = true := by rfl) :
    Touches P s (canEvent n src t) := by
  refine h.on hw fun h => ?_
  unfold Machine.canEvent
  exact ite (tinEvents h) h

theorem canCounters (h : Touches P s t) {n : Nat} {ec : CanErr} (hw : Parts.within { regs := true, sys := true, stw := true, whl := true, can := true } P = true := by rfl) :
    Touches P s (canCounters n ec t) := by
  refine h.on hw fun h => ?_
  unfold Machine.canCounters
  exact ite h (ite (setCan h) (canEvent (setCan h)))

theorem canFlag (h : Touches P s t) {n i : Nat} (hw : Parts.within { regs := true, stw := true } P = true := by rfl) :
    Touches P s (canFlag n i t) := by
  refine h.on hw fun h => ?_
  unfold Machine.canFlag
  exact raiseLine (setBits h)

theorem canTxEvent (h : Touches P s t) {n : Nat} {e : CanEvent} (hw : Parts.within { regs := true, sys := true, stw := true, whl := true, can := true } P = true := by rfl) :
    Touches P s (canTxEvent n e t) := by
  refine h.on hw fun h => ?_
  unfold Machine.canTxEvent
  exact ite (canEvent (setCan h)) (canFlag h)

theorem canStore (h : Touches P s t) {n : Nat} {fifo1 : Bool} {e : CanEntry} (hw : Parts.within { regs := true, sys := true, stw := true, whl := true, can := true } P = true := by rfl) :
    Touches P s (canStore n fifo1 e t) := by
  refine h.on hw fun h => ?_
  unfold Machine.canStore
  exact ite (canEvent (setCan h)) (canFlag (setCan h))

end Touches

/-! ### The majority of three samples -/

theorem testBit_majority (x y z i : Nat) : (majority x y z).testBit i =
    ((x.testBit i && y.testBit i) || (x.testBit i && z.testBit i) || (y.testBit i && z.testBit i)) := by
  simp [majority]

theorem bitOf_majority (x y z : Word) (i : Nat) : bitOf (BitVec.ofNat 32 (majority x.toNat y.toNat z.toNat)) i =
    ((bitOf x i && bitOf y i) || (bitOf x i && bitOf z i) || (bitOf y i && bitOf z i)) := by
  unfold bitOf
  by_cases hi : i < 32
  · rw [BitVec.getLsbD_ofNat, decide_eq_true hi, Bool.true_and, testBit_majority]
    rfl
  · rw [BitVec.getLsbD_of_ge _ _ (by omega), BitVec.getLsbD_of_ge _ _ (by omega), BitVec.getLsbD_of_ge _ _ (by omega),
      BitVec.getLsbD_of_ge _ _ (by omega)]
    rfl

theorem canSampled_triple_idw (f f1 f2 : CanFrame) :
    (canSampled true ⟨f, f1, f2⟩).idw = BitVec.ofNat 32 (majority f.idw.toNat f1.idw.toNat f2.idw.toNat) := by
  unfold canSampled
  dsimp only
  rw [if_neg (by decide)]
  split
  · rfl
  · rfl

/-! ### Reception -/

theorem canOn_receives {s : State} {n : Nat} (h : CanOn s n) :
    ¬ (!(s.canOf n).enabled || (s.canOf n).st == .busOff || (s.canOf n).st == .integrating) = true := by
  obtain ⟨hen, hst | hst⟩ := h
  · rw [hen, hst]
    decide
  · rw [hen, hst]
    decide

theorem exec_canFrameRx_good {s : State} {n : Fin 8} {x : CanSamples} {g : CanFrame} (t : Tick) (ec : CanErr) (hon : CanOn s n)
    (hg : g = canSampled (bitOf (s.canOf n).nbt 31) x) (hfd : bitOf g.ctlw 31 = true → (s.canOf n).fden = true) :
    exec (.canFrameRx n x t .good ec) s = .next (canCounters n ec (canReceive n g t s)) := by
  subst hg
  refine (if_neg (canOn_receives hon)).trans (if_neg ?_)
  cases hctl : bitOf (canSampled (bitOf (s.canOf n).nbt 31) x).ctlw 31 with
  | false => simp
  | true => simp [hfd hctl]

theorem canReceive_filtered {s : State} {n : Nat} {g : CanFrame} {i : Nat} (t : Tick) (second : Bool)
    (hroute : canRoute s n g.idw = (1 + b2n second, some i)) :
    canReceive n g t s = canStore n second { ledger := t, f := { g with
      ctlw := (g.ctlw &&& 0xE00F0000) ||| BitVec.ofNat 32 i
      data := g.data.take (if bitOf g.idw 30 then 0 else dlcLen (bitOf g.ctlw 31) (dlcOf g.ctlw)) } } s := by
  unfold canReceive
  rw [hroute]
  cases second
  · rfl
  · rfl

theorem exec_canFrameRx_error {s : State} {n : Fin 8} {x : CanSamples} (t : Tick) (ec : CanErr) {res : CanRxResult} (hon : CanOn s n)
    (h : res = .error ∨ (s.canOf n).fden = false ∧ (res = .resRecessive ∨ bitOf (canSampled (bitOf (s.canOf n).nbt 31) x).ctlw 31 = true)) :
    exec (.canFrameRx n x t res ec) s = .next (canRxError n ec s) := by
  refine (if_neg (canOn_receives hon)).trans ?_
  obtain rfl | ⟨hfd, hres⟩ := h
  · rfl
  · cases res with
    | error => rfl
    | resRecessive => exact if_neg (by rw [hfd]; decide)
    | good =>
      obtain hres | hctl := hres
      · exact absurd hres nofun
      · exact if_pos (by rw [hctl, hfd]; rfl)

/-- Settles O26. -/
theorem canTrafficCommands : Obligations.CanTrafficCommands := by
  refine ⟨?sent, ?lost, ?event, ?done, ?idle, ?stored, ?sampled, ?full, ?error, ?res, ?listen, ?dominant, ?wake, ?fec⟩
  case sent =>
    intro s n ec b hbus
    show execCanTxDone n .sent ec s = _
    rw [execCanTxDone, hbus]
    rfl
  case lost =>
    intro s n ec b hbus hshot hcancel
    show execCanTxDone n .lostArbitration ec s = _
    rw [execCanTxDone, hbus]
    dsimp only
    rw [hshot, hcancel]
    rfl
  case event =>
    intro s n e hroom
    exact if_pos hroom
  case done =>
    intro s n res ec b hbus
    show ∃ t, execCanTxDone n res ec s = .next t ∧ Touches { can := true, whl := true, regs := true, stw := true, sys := true } s t
    unfold execCanTxDone
    dsimp only
    rw [hbus]
    exact ⟨_, rfl, .canCounters (.ite (.canTxEvent (.setCan (.refl _ s))) (.setCan (.refl _ s)))⟩
  case idle =>
    intro s n res ec hbus
    show execCanTxDone n res ec s = _
    unfold execCanTxDone
    dsimp only
    rw [hbus]
  case stored =>
    intro s n x g t ec i hon hg hfd hroute hroom
    have hstore := canReceive_filtered t false hroute
    have hkept := (Touches.refl { can := true, whl := true, regs := true, stw := true, sys := true } s).canStore (n := n) (fifo1 := false) (e :=
      { ledger := t, f := { g with
        ctlw := (g.ctlw &&& 0xE00F0000) ||| BitVec.ofNat 32 i
        data := g.data.take (if bitOf g.idw 30 then 0 else dlcLen (bitOf g.ctlw 31) (dlcOf g.ctlw)) } })
    refine ⟨_, exec_canFrameRx_good t ec hon hg hfd, ?_, ?_⟩
    · rw [hstore]
      exact congrArg (canCounters n ec) (if_pos hroom)
    · rw [hstore]
      exact hkept.canCounters
  case sampled =>
    intro f f1 f2
    refine ⟨rfl, fun i => ?_⟩
    rw [canSampled_triple_idw, bitOf_majority]
  case full =>
    intro s n x g t ec i hon hg hfd hroute hfull
    rw [exec_canFrameRx_good t ec hon hg hfd, canReceive_filtered t true hroute]
    exact congrArg (fun u => Host.Outcome.next (canCounters n ec u)) (if_neg (Nat.not_lt.mpr hfull))
  case error => exact fun s n x t ec res hon h => exec_canFrameRx_error t ec hon h
  case res =>
    intro s n x t ec hon hfd
    exact (if_neg (canOn_receives hon)).trans (if_pos hfd)
  case listen =>
    intro s n ec hlisten
    exact if_pos hlisten
  case dominant =>
    intro s n
    exact ⟨(apply_ite Host.Outcome.next _ _ _).symm, rfl⟩
  case wake =>
    intro s u n f hmode hdrowse hu
    subst hu
    exact (if_pos (by rw [show wkMode s n = 2 from hmode, hdrowse]; rfl)).trans (apply_ite Host.Outcome.next _ _ _).symm
  case fec =>
    intro s n e g hmode hdrowse
    exact (if_pos (by rw [show wkMode s n = 2 from hmode, hdrowse]; rfl)).trans (apply_ite Host.Outcome.next _ _ _).symm

end Sys2Proof.Machine
end

section
/-!
Plies and time services (O27).
-/

set_option Elab.async false

namespace Sys2Proof.Machine

namespace Touches

variable {P Q : Parts} {s t u : State}

theorem applyChange (h : Touches P s t) {k : Nat} (hw : Parts.within { regs := true, sys := true, stw := true, ply := true } P = true := by rfl) :
    Touches P s (applyChange k t) := by
  refine h.on hw fun h => ?_
  unfold Machine.applyChange
  split
  · exact h
  · exact ite (logFault (raiseLine (setBits (setPly (reachTick h))))) (setPly (reachTick h))

theorem servo (h : Touches P s t) {k : Nat} {y : SyncSample} (hw : Parts.within { sys := true, ply := true } P = true := by rfl) :
    Touches P s (servo k y t) := by
  refine h.on hw fun h => ?_
  simp only [Machine.servo]
  split
  · exact h
  · exact ite (logFault (postChange (setPly (setPly h)))) (ite (setPly h) (postChange (setPly (setPly h))))

theorem timeTx (h : Touches P s t) {l : Nat} {b : TimeBlock} (hw : Parts.within { ply := true, skn := true } P = true := by rfl) :
    Touches P s (timeTx l b t) := by
  refine h.on hw fun h => ?_
  unfold Machine.timeTx
  exact ite (ledgerSkein (sknTx h)) h

theorem sknRx (h : Touches P s t) {l : Nat} (hw : Parts.within { skn := true } P = true := by rfl) :
    Touches P s (sknRx l t) := by
  refine h.on hw fun h => ?_
  unfold Machine.sknRx
  exact setLink h

end Touches

theorem postChange_free {s : State} {k : Nat} (c : PlyChange) (h : (s.plyOf k).chg = none) :
    postChange k c s = s.setPly k fun p => { p with chg := some c } := if_neg (by rw [h]; decide)

theorem clampNat_incr (x : Nat) : 4209067950 ≤ clampNat incrLo incrHi x ∧ clampNat incrLo incrHi x ≤ 4380866641 := by
  unfold clampNat incrLo incrHi
  split
  · omega
  · split
    · omega
    · omega

theorem chgOf_incr_range {s : State} {k : Nat} {v : Word} {i : Nat} (h : (chgOf s k v).incr = some i) : 4209067950 ≤ i ∧ i ≤ 4380866641 := by
  simp only [chgOf] at h
  split at h
  · exact Option.some.inj h ▸ clampNat_incr _
  · exact absurd h nofun

theorem reachTick_past {s : State} {a : Tick} (h : a ≤ s.ply.reel) : reachTick a s = s := by
  have hnot : ¬ s.ply.reel < a := BitVec.not_lt.mpr h
  exact if_neg (by rw [decide_eq_false hnot, Bool.and_false]; decide)

/-- A change that is due puts its entry at the end of the history. -/
theorem applyChange_due {s : State} {k : Nat} {c : PlyChange} {e : Hist} {v : Nat} {under : Bool} (hc : (s.plyOf k).chg = some c)
    (hdue : c.at' ≤ s.ply.reel) (he : histFor (s.plyOf k).hist c.at' = some e) (hv : stepCount (histAt e c.at' 0) c.step = (v, under)) :
    applyChange k s =
      let s2 := s.setPly k fun p => { pushHist {
        t := c.at', sec := (plySplit v).1, ns := (plySplit v).2.1, frac := (plySplit v).2.2, incr := c.incr.getD (plyIncrement s k) } p with chg := none }
      if under then logFault 0x62 8 [BitVec.ofNat 8 k] (raiseLine 9 (s2.setBits (plyBase k) 4)) else s2 := by
  unfold applyChange
  rw [hc]
  dsimp only
  rw [reachTick_past hdue, he]
  dsimp only
  rw [hv]

/-- Record 0x62 of a step that would pass 0. -/
theorem logged_last (code block : Nat) (d : List Byte) (s : State) :
    (logFault code block d s).sys.recorder.getLast?.map FaultRec.code = some code := by
  obtain ⟨r, l, h, hlast⟩ := logFault_eq code block d s
  rw [h]
  exact hlast

/-- A reception of cascade time sets the member's ply, and sends the block on with what it took. -/
theorem exec_cascadeTimeReceive_near {s : State} {l : Fin 2} (b : TimeBlock) (a : Tick) (hc : carries s l 2 = true) (hm : s.skn.master = false)
    (has : s.skn.assigned = true) (hl : l.val = (if s.skn.hopsE ≤ s.skn.hopsW then 0 else 1)) :
    ∃ v c, exec (.cascadeTimeReceive l b a) s = .next (timeTx (1 - l : Fin 2) { b with corrNs := c }
        { v with skn := { v.skn with lastOrigin := some b.originNs } }) ∧ b.corrNs + (s.linkOf l).delayNs ≤ c ∧
      (s.sys.limp = true → v = ledgerSkein l 2 a (reachTick a (sknRx l s))) ∧
      Touches { ply := true, sys := true } (ledgerSkein l 2 a (reachTick a (sknRx l s))) v := by
  have hother : ((1 - l : Fin 2) : Nat) = 1 - l.val := (by decide : ∀ l : Fin 2, ((1 - l : Fin 2) : Nat) = 1 - l.val) l
  rw [hother]
  refine ⟨if s.sys.limp then ledgerSkein l 2 a (reachTick a (sknRx l s)) else servo 7 {
      tick := a
      masterNs := b.originNs + b.corrNs + (s.linkOf l).delayNs
      interval := b.originNs - (s.skn.lastOrigin.getD b.originNs) } (ledgerSkein l 2 a (reachTick a (sknRx l s))), _,
    (if_neg ?_).trans (if_neg ?_), Nat.le_add_right _ _, fun hlimp => if_pos hlimp, .ite (.refl _ _) (.servo (.refl _ _))⟩
  · rw [hc]
    decide
  · rw [hm, has, ← hl]
    simp

/-- Settles O27. -/
theorem timeCommands : Obligations.TimeCommands := by
  refine ⟨?post, ?busy, ?apply, ?under, ?applyNone, ?read, ?sync, ?noSync, ?send, ?holdover, ?block, ?receive, ?delay⟩
  case post =>
    intro s k v hv hfree
    refine ⟨(if_pos ?_).trans (congrArg Host.Outcome.next (postChange_free _ hfree)), fun i hi => chgOf_incr_range hi⟩
    exact Bool.or_eq_true_iff.mpr hv
  case busy =>
    intro s k v h
    show execPlyChangePost k v s = _
    unfold execPlyChangePost
    obtain ⟨h0, h1⟩ | h := h
    · rw [h0, h1]
      rfl
    · rw [postChange, if_pos h, ite_self]
  case apply =>
    intro s k c e hc hstep hdue he
    exact congrArg Host.Outcome.next ((applyChange_due hc hdue he (under := false) (by rw [hstep]; rfl)).trans (if_neg Bool.false_ne_true))
  case under =>
    intro s k c e a b hc hstep hdue he hlt
    have happly := applyChange_due hc hdue he (v := 0) (under := true) (by rw [hstep]; exact if_pos hlt)
    refine ⟨_, congrArg Host.Outcome.next happly, rfl, rfl, logged_last _ _ _ _, rfl, ?_⟩
    exact Touches.logFault (P := { ply := true, regs := true, stw := true, sys := true }) (.raiseLine (.setBits (.setPly (.refl _ s))))
  case applyNone =>
    intro s k hc
    show Host.Outcome.next (applyChange k s) = _
    rw [applyChange, hc]
  case read => exact fun s k => rfl
  case sync =>
    intro s k y hlo hhi hlimp
    exact ⟨_, if_pos ⟨hlo, hhi, hlimp⟩, rfl, Touches.servo (P := { ply := true, sys := true }) (.reachTick (.refl _ s))⟩
  case noSync =>
    intro s k y h
    refine if_neg ?_
    rintro ⟨hlo, -, hlimp⟩
    obtain h | h := h
    · omega
    · exact absurd (h.symm.trans hlimp) nofun
  case send =>
    intro s k hrole hlimp hport hlink
    exact ⟨_, _, _, if_pos ⟨hrole, hlimp, hport, hlink⟩, rfl, rfl, rfl, rfl⟩
  case holdover =>
    intro s k hlo hhi hnot
    exact if_pos ⟨hlo, hhi, hnot⟩
  case block =>
    intro s
    refine ⟨fun h => if_pos ?_, fun hm hmode => ?_⟩
    · obtain h | h := h
      · rw [h]
        rfl
      · rw [h]
        exact Bool.or_true _
    · refine ⟨_, _, if_neg ?_, rfl, rfl, ?_, ?_⟩
      · rw [hm]
        simpa using hmode
      · intro h
        rw [if_pos h]
      · show Touches { ply := true } s _
        split
        · exact .refl _ s
        · exact .postChange (.refl _ s)
  case receive =>
    intro s u l b a hu
    subst hu
    refine ⟨fun hc => if_pos (by rw [hc]; rfl), fun hc h => (if_neg (by rw [hc]; decide)).trans (if_pos ?_), fun hc hm has hl =>
      exec_cascadeTimeReceive_near b a hc hm has hl⟩
    obtain h | h | h := h
    · simp [h]
    · simp [h]
    · simp [h]
  case delay =>
    intro s l n
    exact (apply_ite Host.Outcome.next _ _ _).symm

end Sys2Proof.Machine
end

section
/-!
The operator panel (O28).
-/

set_option Elab.async false

namespace Sys2Proof.Machine

/-- No event can wake the Farelle or is kept for a wake. -/
def Awake (s : State) : Prop := s.sys.mode ≠ .drowse ∧ s.sys.entering = false

theorem wakeFire_awake {s : State} (src : BitVec 6) (h : Awake s) : wakeFire src s = s := by
  obtain ⟨hmode, hentering⟩ := h
  exact if_pos (by simp [hmode, hentering])

namespace Touches

variable {P Q : Parts} {s t u : State}

/-- What touches no state of the system leaves it awake. -/
theorem awake (h : Touches P s t) (ha : Awake s) (hp : P.sys = false := by rfl) : Awake t := by
  unfold Awake
  rw [h.same_sys hp]
  exact ha

/-- A wake source that fires after what leaves the Farelle awake. -/
theorem wakeFireAwake (h : Touches P s t) {src : BitVec 6} (ha : Awake s) (hp : P.sys = false := by rfl) : Touches P s (Machine.wakeFire src t) :=
  (congrArg (Touches P s) (wakeFire_awake src (h.awake ha hp))).mpr h

theorem setEnc (h : Touches P s t) {e : Nat} {x : Enc} (hw : Parts.within { pnl := true } P = true := by rfl) : Touches P s (t.setEnc e x) :=
  h.on hw fun _ => rfl

theorem pnlEnter (h : Touches P s t) {key kind ms : Nat} (hw : Parts.within { pnl := true } P = true := by rfl) :
    Touches P s (pnlEnter key kind ms t) := by
  refine h.on hw fun h => ?_
  unfold Machine.pnlEnter
  exact ite (keep h) (keep h)

theorem reachMs (h : Touches P s t) {ms : Nat} (hw : Parts.within { ply := true } P = true := by rfl) :
    Touches P s (reachMs ms t) := by
  refine h.on hw fun h => ?_
  unfold Machine.reachMs
  exact ite (reachTick h) h

theorem keyPress (h : Touches P s t) {k ms : Nat} (ha : Awake t) (hw : Parts.within { pnl := true } P = true := by rfl) :
    Touches P s (keyPress k ms t) := by
  refine h.on hw fun h => ?_
  unfold Machine.keyPress
  exact ite (setKey h) (wakeFireAwake (pnlEnter (setKey h)) ha)

theorem keyRelease (h : Touches P s t) {k ms : Nat} (hw : Parts.within { pnl := true } P = true := by rfl) :
    Touches P s (keyRelease k ms t) := by
  refine h.on hw fun h => ?_
  unfold Machine.keyRelease
  exact ite (setKey h) (pnlEnter (setKey h))

theorem keySample (h : Touches P s t) {k : Nat} {closed : Bool} {ms : Nat} (ha : Awake t) (hw : Parts.within { pnl := true } P = true := by rfl) :
    Touches P s (keySample k closed ms t) := by
  refine h.on hw fun h => ?_
  unfold Machine.keySample
  exact ite (setKey h) (ite (ite (keyPress h ha) (keyRelease h)) (setKey h))

theorem encStep (h : Touches P s t) {e : Nat} {up : Bool} {ms : Nat} (ha : Awake t) (hw : Parts.within { pnl := true } P = true := by rfl) :
    Touches P s (encStep e up ms t) := by
  refine h.on hw fun h => ?_
  unfold Machine.encStep
  exact wakeFireAwake (ite (pnlEnter (setEnc h)) (setEnc h)) ha

theorem encMove (h : Touches P s t) {e : Nat} {ahead : Bool} {ms : Nat} (ha : Awake t) (hw : Parts.within { pnl := true } P = true := by rfl) :
    Touches P s (encMove e ahead ms t) := by
  refine h.on hw fun h => ?_
  unfold Machine.encMove
  exact ite h (ite (setEnc h) (encStep h ha))

theorem encSample (h : Touches P s t) {e : Nat} {na nb : Bool} {ms : Nat} (ha : Awake t)
    (hw : Parts.within { regs := true, stw := true, pnl := true } P = true := by rfl) : Touches P s (encSample e na nb ms t) := by
  refine h.on hw fun h => ?_
  simp only [Machine.encSample]
  split
  · exact ite (raiseLine (setBits (setEnc h))) (ite (setEnc h) (encMove (setEnc h) ((setEnc h).awake ha)))
  · exact setEnc h

/-- Samples one after another. -/
theorem foldl_awake {α : Type} {f : State → α → State} {l : List α} (hf : ∀ u x, Awake u → Touches P s u → Touches P s (f u x)) (hs : Awake s)
    (h : Touches P s t) (hp : P.sys = false := by rfl) : Touches P s (l.foldl f t) :=
  foldl (fun u x hu => hf u x (hu.awake hs hp) hu) h

theorem colScan (h : Touches P s t) {idle : BitVec 16} (hw : Parts.within { regs := true, sys := true, stw := true, pnl := true } P = true := by rfl) :
    Touches P s (colScan idle t) := by
  refine h.on hw fun h => ?_
  unfold Machine.colScan
  exact ite (keep h) (logFault (raiseLine (setBits (keep h))))

end Touches

theorem logFault_mode (code block : Nat) (d : List Byte) (s : State) :
    (logFault code block d s).sys.mode = s.sys.mode ∧ (logFault code block d s).sys.entering = s.sys.entering := by
  obtain ⟨r, l, h, -⟩ := logFault_eq code block d s
  rw [h]
  exact ⟨rfl, rfl⟩

theorem colScan_awake {s : State} (idle : BitVec 16) : (colScan idle s).sys.mode = s.sys.mode ∧ (colScan idle s).sys.entering = s.sys.entering := by
  unfold colScan
  dsimp only
  split
  · exact ⟨rfl, rfl⟩
  · exact logFault_mode _ _ _ _

/-- A row scan outside Drowse: the columns, then the keys. -/
theorem scanRow_touches {s : State} (row : Nat) (cols idle : BitVec 16) (btns : BitVec 8) (ha : Awake s) :
    Touches { pnl := true } (colScan idle s) (scanRow row cols idle btns s) := by
  have ha1 : Awake (colScan idle s) := by
    unfold Awake
    rw [(colScan_awake idle).1, (colScan_awake idle).2]
    exact ha
  have hcols : Touches { pnl := true } (colScan idle s) ((List.range 16).foldl
      (fun t c => if colIgnored t c then t else keySample (16 * row + c) (cols.getLsbD c) (pnlNow s) t) (colScan idle s)) :=
    .foldl_awake (fun u c hu h => .ite h (.keySample h hu)) ha1 (.refl _ _)
  unfold scanRow
  exact .ite (.foldl_awake (fun u b hu h => .keySample h hu) ha1 hcols) hcols

theorem reachMs_eq (ms : Nat) (s : State) : ∃ r, reachMs ms s = { s with ply := { s.ply with reel := r } } := by
  unfold reachMs
  dsimp only
  split
  · exact ⟨_, reachTick_eq _ _⟩
  · exact ⟨_, rfl⟩

theorem pnlEnter_key_frame (key kind ms k : Nat) (f : Key → Key) (s : State) :
    ∃ t, t = pnlEnter key kind ms ((reachMs ms s).setKey k f) ∧ t = { s with pnl := t.pnl, ply := { s.ply with reel := t.ply.reel } } := by
  obtain ⟨r, hr⟩ := reachMs_eq ms s
  have h := ((Touches.refl { pnl := true } { s with ply := { s.ply with reel := r } }).setKey (k := k) (f := f)).pnlEnter
    (key := key) (kind := kind) (ms := ms)
  refine ⟨_, rfl, ?_⟩
  rw [hr]
  generalize pnlEnter key kind ms _ = u at h ⊢
  exact Eq.trans h (congrArg (fun p : Plys => { s with pnl := u.pnl, ply := { s.ply with reel := p.reel } }) h.same_ply.symm)

/-- Settles O28. -/
theorem panelCommands : Obligations.PanelCommands := by
  refine ⟨?off, ?scan, ?encoder, ?same, ?counts, ?again, ?stuck, ?entered, ?lost, ?pop, ?empty, ?events, ?auth, ?reader⟩
  case off =>
    intro s r cols idle btns h
    refine ⟨congrArg Host.Outcome.next (if_neg ?_), if_neg ?_⟩
    · rw [h]
      decide
    · rw [h]
      decide
  case scan =>
    intro s r cols idle btns h hmode hentering
    have hcol := (Touches.refl { pnl := true, regs := true, stw := true, sys := true } s).colScan (idle := idle)
    have hkeys := scanRow_touches r cols idle btns ⟨hmode, hentering⟩
    refine ⟨_, congrArg Host.Outcome.next (if_pos h), ?_, hcol.trans hkeys⟩
    exact (congrArg Sys.mode hkeys.same_sys).trans (colScan_awake idle).1
  case encoder =>
    intro s ph h hmode hentering
    exact ⟨_, if_pos h, Touches.foldl_awake (P := { pnl := true, regs := true, stw := true }) (fun u e hu hk => hk.encSample hu)
      ⟨hmode, hentering⟩ (.refl _ s)⟩
  case same =>
    intro s k ms closed h
    exact if_pos h
  case counts =>
    intro s k ms hkey hrun
    unfold keySample
    rw [if_neg (by rw [hkey]; decide)]
    exact if_neg (Nat.not_le.mpr hrun)
  case again =>
    intro s k hruns hpressed hmasked hrep hmode
    obtain ⟨t, ht, hframe⟩ := pnlEnter_key_frame k 0 (repeatMs s k) k (fun q => { q with reps := q.reps + 1 }) s
    exact ⟨t, (if_pos (by simp [hruns, hpressed, hmasked, hrep, hmode])).trans (congrArg Host.Outcome.next ht.symm), ht, hframe⟩
  case stuck =>
    intro s k hruns hpressed hmasked hcfg
    obtain ⟨t, ht, hframe⟩ := pnlEnter_key_frame k 4 (stuckMs s k) k (fun q => { q with masked := true }) s
    exact ⟨t, (if_pos (by simp [hruns, hpressed, hmasked, hcfg])).trans (congrArg Host.Outcome.next ht.symm), ht, hframe⟩
  case entered =>
    intro s k kind ms hmode hroom
    exact if_pos (by rw [pnlCap, if_neg hmode]; exact hroom)
  case lost =>
    intro s k kind ms hfull
    refine if_neg ?_
    unfold pnlCap
    split
    · omega
    · omega
  case pop =>
    intro s e q hq
    show Host.Outcome.next (pnlPop s) = _
    rw [pnlPop, hq]
  case empty =>
    intro s hq
    show Host.Outcome.next (pnlPop s) = _
    rw [pnlPop, hq]
  case events =>
    rintro src q s t n ⟨hready, rfl⟩ rfl
    have hserved : exec (.pnlEvents src) s = .next (pnlEvents q (dropTaken q s)) := congrArg Host.Outcome.next (serve_ready hready)
    rw [hserved]
    exact ⟨fun h => congrArg Host.Outcome.next (if_pos h), fun hlo hhi => congrArg Host.Outcome.next (if_neg (by omega))⟩
  case auth =>
    rintro src q s t ⟨hready, rfl⟩
    exact congrArg Host.Outcome.next (serve_ready hready)
  case reader =>
    rintro src card q s t ⟨hready, rfl⟩
    have hserved : exec (.readerScan src card) s = .next (readerScanned card q (dropTaken q s)) := congrArg Host.Outcome.next (serve_ready hready)
    rw [hserved]
    unfold readerScanned
    refine ⟨fun h => ?_, fun h hbad => ?_, fun h hbad => ?_, fun h => ?_⟩
    · rw [if_pos h]
      rfl
    · rw [if_neg (by omega), if_pos (by rw [if_neg (by omega)]; exact hbad)]
      rfl
    · rw [if_neg (by omega), if_pos (by rw [if_pos h]; exact hbad)]
      rfl
    · rw [if_neg (by omega), if_neg (by split <;> omega)]
      rfl

end Sys2Proof.Machine
end

section
/-!
Flyer instructions (O29, O30).
-/

set_option Elab.async false

namespace Sys2Proof.Machine

/-! ### Two changes of one flyer -/

theorem Tab.put_put {α : Type} (i : Nat) (x y : α) : ∀ t : Tab α, (t.put i x).put i y = t.put i y
  | [] => by simp [Tab.put]
  | (k, v) :: t => by
    simp only [Tab.put]
    split
    · simp [Tab.put]
    · next hne =>
      split
      · simp [Tab.put]
      · next hlt =>
        rw [Tab.put, if_neg hne, if_neg hlt, Tab.put_put i x y t]

theorem Tab.erase_put {α : Type} (i : Nat) (x : α) : ∀ t : Tab α, (t.put i x).erase i = t.erase i
  | [] => by simp [Tab.put, Tab.erase]
  | (k, v) :: t => by
    simp only [Tab.put, Tab.erase]
    split
    · simp [Tab.erase]
    · next hne =>
      split
      · simp [Tab.erase]
      · next hlt =>
        rw [Tab.erase, if_neg hne, if_neg hlt, Tab.erase_put i x t]

/-- After a change to what an unlisted key does not read as, a second change of the same key is one change. -/
theorem Tab.upd_put {α : Type} [DecidableEq α] (d : Nat → α) (i : Nat) (x : α) (g : α → α) (t : Tab α) :
    Tab.upd d (t.put i x) i g = t.set d i (g x) := by
  unfold Tab.upd Tab.set
  rw [Tab.get_put_self, Tab.put_put, Tab.erase_put]

theorem setFlyer_setFlyer {s : State} {f : Nat} {x : Flyer} (g : Flyer → Flyer) (h : x.halted = false) :
    (s.setFlyer f fun _ => x).setFlyer f g = s.setFlyer f fun _ => g x := by
  have hne : x ≠ {} := by
    rintro rfl
    exact absurd h (by decide)
  have hput : (s.setFlyer f fun _ => x).fly.fl = s.fly.fl.put f x := if_neg hne
  unfold State.setFlyer at hput ⊢
  dsimp only at hput ⊢
  rw [hput, Tab.upd_put]
  rfl

/-! ### What changes pins alone -/

/-- At most the pins are other ones. -/
def PinsMoved (s t : State) : Prop := t = { s with fly := { s.fly with pins := t.fly.pins } }

namespace PinsMoved

variable {s t u : State}

theorem refl (s : State) : PinsMoved s s := rfl

theorem trans (h : PinsMoved s t) (h' : PinsMoved t u) : PinsMoved s u :=
  Eq.trans h' (congrArg (fun x : State => { x with fly := { x.fly with pins := u.fly.pins } }) h)

theorem ite {c : Prop} {_ : Decidable c} (h : PinsMoved s t) (h' : PinsMoved s u) : PinsMoved s (if c then t else u) := by
  split
  · exact h
  · exact h'

theorem foldl {α : Type} {g : State → α → State} (hg : ∀ t x, PinsMoved t (g t x)) : ∀ (l : List α) (s : State), PinsMoved s (l.foldl g s)
  | [], s => refl s
  | x :: l, s => (hg s x).trans (foldl hg l _)

theorem flyWritePin (f p : Nat) (lvl : Bool) (s : State) : PinsMoved s (flyWritePin f p lvl s) := ite rfl rfl

theorem flyWriteDir (f p : Nat) (out : Bool) (s : State) : PinsMoved s (flyWriteDir f p out s) := ite rfl rfl

theorem flySideSet (f : Nat) (w : Word) (s : State) : PinsMoved s (flySideSet f w s) := by
  unfold Machine.flySideSet
  exact ite (foldl (fun t i => flyWritePin f _ _ t) _ s) rfl

theorem flyToPins (f : Nat) (dirs : Bool) (bits : List Bool) (s : State) : PinsMoved s (flyToPins f dirs bits s) := by
  unfold Machine.flyToPins
  exact foldl (fun t b => ite (flyWriteDir f _ _ t) (flyWritePin f _ _ t)) _ s

theorem regs_eq (h : PinsMoved s t) : t.regs = s.regs := by
  rw [h]

theorem ply_eq (h : PinsMoved s t) : t.ply = s.ply := by
  rw [h]

theorem fl_eq (h : PinsMoved s t) : t.fly.fl = s.fly.fl := by
  rw [h]

theorem flyer_eq (h : PinsMoved s t) (f : Nat) : t.flyer f = s.flyer f := by
  unfold State.flyer
  rw [h.fl_eq]

theorem rd_eq (h : PinsMoved s t) (a : Nat) : t.rd a = s.rd a := by
  unfold State.rd
  rw [h.regs_eq]

end PinsMoved

theorem setFlyer_congr {s : State} {f : Nat} {g g' : Flyer → Flyer} (h : g (s.flyer f) = g' (s.flyer f)) : s.setFlyer f g = s.setFlyer f g' := by
  unfold State.setFlyer Tab.upd
  unfold State.flyer at h
  rw [h]

/-- Flyers and pins at most are other ones. -/
def FlyersMoved (s t : State) : Prop := t = { s with fly := { s.fly with fl := t.fly.fl, pins := t.fly.pins } }

theorem FlyersMoved.trans {s t u : State} (h : FlyersMoved s t) (h' : FlyersMoved t u) : FlyersMoved s u :=
  Eq.trans h' (congrArg (fun x : State => { x with fly := { x.fly with fl := u.fly.fl, pins := u.fly.pins } }) h)

theorem PinsMoved.flyers {s t : State} (h : PinsMoved s t) : FlyersMoved s t := by
  unfold FlyersMoved
  rw [h]

/-! ### Instructions -/

/-- A flyer that halts, stalls or delays runs no instruction. -/
theorem flyRun_held {s : State} {f op : Nat} {act : State → Word → State → State}
    (h : ((s.flyer f).halted || (s.flyer f).stalled || (s.flyer f).delaying) = true) : flyRun f op act s = s := by
  refine flyRun_not ?_
  unfold flyReady
  simp only [Bool.or_eq_true] at h
  obtain (h | h) | h := h
  · simp [h]
  · simp [h]
  · simp [h]

theorem flyReady_halted {s : State} {f op : Nat} (h : flyReady s f op = true) : (s.flyer f).halted = false := by
  unfold flyReady at h
  simp only [Bool.and_eq_true, Bool.not_eq_true'] at h
  exact h.1.1.1.1

theorem shGive_halted (msb idle : Bool) : ∀ (n : Nat) (x : Flyer), (shGive msb idle n x).2.halted = x.halted
  | 0, _ => rfl
  | n + 1, x => by
    refine (shGive_halted msb idle n (shGive1 msb idle x).2).trans ?_
    unfold shGive1
    split
    · rfl
    · split
      · rfl
      · rfl

/-- An instruction that runs. -/
theorem flyRun_at {s : State} {f op : Nat} {w : Word} {act : State → Word → State → State} (h : flyReady s f op = true) (hw : flyWord s f = w) :
    flyRun f op act s = act s w (flySideSet f w s) := by
  rw [flyRun_ready h, hw]

theorem braTaken_pc (s : State) (f cond : Nat) : (braTaken s f cond).2.pc = (s.flyer f).pc := by
  unfold braTaken
  dsimp only
  split <;> simp only [apply_ite Prod.snd, apply_ite Flyer.pc, ite_self]

section

variable {s : State} {f : Nat} {w : Word}

theorem flyBraAct_eq : flyBraAct f s w (flySideSet f w s) = (flySideSet f w s).setFlyer f fun _ => { (braTaken s f (bitsOf w 16 4)).2 with
    pc := if (braTaken s f (bitsOf w 16 4)).1 then bitsOf w 6 9 else ((s.flyer f).pc + 1) % 512 } := by
  rw [← braTaken_pc s f (bitsOf w 16 4)]
  rfl

/-- Condition 5 takes 1 from X before it looks at X. -/
theorem flyBraAct_decrement (hcond : bitsOf w 16 4 = 5) : flyBraAct f s w (flySideSet f w s) = (flySideSet f w s).setFlyer f fun x => { x with
    x := if x.x = 0 then x.x else x.x - 1, pc := if x.x = 0 ∨ x.x = 1 then (x.pc + 1) % 512 else bitsOf w 6 9 } := by
  rw [flyBraAct_eq, hcond]
  refine setFlyer_congr ?_
  rw [(PinsMoved.flySideSet f w s).flyer_eq f, show braTaken s f 5 =
    if (s.flyer f).x = 0 then (false, s.flyer f) else ((s.flyer f).x - 1 != 0, { s.flyer f with x := (s.flyer f).x - 1 }) from rfl]
  by_cases hx : (s.flyer f).x = 0
  · simp [hx]
  · by_cases hone : (s.flyer f).x = 1
    · simp [hone]
    · have hne : (s.flyer f).x - 1 ≠ 0 := by
        intro h
        exact hone (by bv_omega)
      rw [if_neg hx, if_neg hx, if_neg (not_or.mpr ⟨hx, hone⟩)]
      dsimp only
      rw [if_pos (bne_iff_ne.mpr hne)]

theorem flyLoadAct_word {v : Word} {r : List Word} (h : (s.flyer f).outF = v :: r) :
    flyLoadAct f s w (flySideSet f w s) = flyNext f ((flySideSet f w s).setFlyer f fun x => { x with sh := v, fill := 32, outF := r }) := by
  have hq : ((flySideSet f w s).flyer f).outF = v :: r := by
    rw [(PinsMoved.flySideSet f w s).flyer_eq f, h]
  refine (if_pos (by rw [hq]; rfl)).trans (congrArg (flyNext f) (setFlyer_congr ?_))
  rw [hq]

theorem flyLoadAct_empty (h : (s.flyer f).outF = []) : flyLoadAct f s w (flySideSet f w s) =
    if bitOf w 19 then (flySideSet f w s).setFlyer f fun x => { x with stalled := true } else flyNext f (flyFlag f 0 (flySideSet f w s)) := by
  have hq : ((flySideSet f w s).flyer f).outF = [] := by
    rw [(PinsMoved.flySideSet f w s).flyer_eq f, h]
  exact if_neg (by rw [hq]; decide)

theorem flyStoreAct_room (h : (s.flyer f).inF.length < 8) : flyStoreAct f s w (flySideSet f w s) =
    flyNext f ((flySideSet f w s).setFlyer f fun x => { x with inF := x.inF ++ [x.sh], sh := 0, fill := 0 }) := by
  refine if_pos ?_
  rw [(PinsMoved.flySideSet f w s).flyer_eq f]
  exact h

theorem flyStoreAct_full (h : 8 ≤ (s.flyer f).inF.length) : flyStoreAct f s w (flySideSet f w s) =
    if bitOf w 19 then (flyFlag f 1 (flySideSet f w s)).setFlyer f fun x => { x with stalled := true }
    else flyNext f ((flyFlag f 1 (flySideSet f w s)).setFlyer f fun x => { x with sh := 0, fill := 0 }) := by
  refine if_neg ?_
  rw [(PinsMoved.flySideSet f w s).flyer_eq f]
  exact Nat.not_lt.mpr h

theorem flyTakeAct_eq : flyTakeAct f s w (flySideSet f w s) = flyNext f ((flySideSet f w s).setFlyer f fun x =>
    (takeBits s f (bitsOf w 17 3) (flyCnt w)).foldl (shTake1 (flyMsb s f)) (if bitsOf w 17 3 = 0 then { x with hunt := huntStep x.hunt } else x)) := by
  have hmsb : flyMsb (flySideSet f w s) f = flyMsb s f := by
    unfold flyMsb
    rw [(PinsMoved.flySideSet f w s).rd_eq]
  unfold flyTakeAct
  rw [hmsb]

/-- What GIVE leaves of the shifter, then where the bits go. -/
theorem flyGiveAct_eq : flyGiveAct f s w (flySideSet f w s) =
    flyNext f (match bitsOf w 17 3 with
      | 0 => flyToPins f false (shGive (flyMsb s f) (flyIdle s f) (flyCnt w) (s.flyer f)).1
        ((flySideSet f w s).setFlyer f fun _ => (shGive (flyMsb s f) (flyIdle s f) (flyCnt w) (s.flyer f)).2)
      | 1 => ((flySideSet f w s).setFlyer f fun _ => (shGive (flyMsb s f) (flyIdle s f) (flyCnt w) (s.flyer f)).2).setFlyer f fun x =>
        { x with x := giveNum (flyMsb s f) (shGive (flyMsb s f) (flyIdle s f) (flyCnt w) (s.flyer f)).1 }
      | 2 => ((flySideSet f w s).setFlyer f fun _ => (shGive (flyMsb s f) (flyIdle s f) (flyCnt w) (s.flyer f)).2).setFlyer f fun x =>
        { x with y := giveNum (flyMsb s f) (shGive (flyMsb s f) (flyIdle s f) (flyCnt w) (s.flyer f)).1 }
      | 4 => flyToPins f true (shGive (flyMsb s f) (flyIdle s f) (flyCnt w) (s.flyer f)).1
        ((flySideSet f w s).setFlyer f fun _ => (shGive (flyMsb s f) (flyIdle s f) (flyCnt w) (s.flyer f)).2)
      | _ => (flySideSet f w s).setFlyer f fun _ => (shGive (flyMsb s f) (flyIdle s f) (flyCnt w) (s.flyer f)).2) := by
  have hmsb : flyMsb (flySideSet f w s) f = flyMsb s f := by
    unfold flyMsb
    rw [(PinsMoved.flySideSet f w s).rd_eq]
  have hidle : flyIdle (flySideSet f w s) f = flyIdle s f := by
    unfold flyIdle
    rw [(PinsMoved.flySideSet f w s).rd_eq]
  unfold flyGiveAct
  rw [hmsb, hidle, (PinsMoved.flySideSet f w s).flyer_eq f] <;> rfl

theorem flyGiveAct_x (hready : (s.flyer f).halted = false) (h : bitsOf w 17 3 = 1) : flyGiveAct f s w (flySideSet f w s) =
    flyNext f ((flySideSet f w s).setFlyer f fun x => { (shGive (flyMsb s f) (flyIdle s f) (flyCnt w) x).2 with
      x := giveNum (flyMsb s f) (shGive (flyMsb s f) (flyIdle s f) (flyCnt w) x).1 }) := by
  rw [flyGiveAct_eq, h]
  refine congrArg (flyNext f) ((setFlyer_setFlyer _ ((shGive_halted _ _ _ _).trans hready)).trans (setFlyer_congr ?_))
  rw [(PinsMoved.flySideSet f w s).flyer_eq f]

theorem flyGiveAct_none (h : bitsOf w 17 3 = 3) : flyGiveAct f s w (flySideSet f w s) =
    flyNext f ((flySideSet f w s).setFlyer f fun x => (shGive (flyMsb s f) (flyIdle s f) (flyCnt w) x).2) := by
  rw [flyGiveAct_eq, h]
  refine congrArg (flyNext f) (setFlyer_congr ?_)
  rw [(PinsMoved.flySideSet f w s).flyer_eq f]

theorem flyGiveAct_moved : FlyersMoved s (flyGiveAct f s w (flySideSet f w s)) := by
  have hside : FlyersMoved s ((flySideSet f w s).setFlyer f fun _ => (shGive (flyMsb s f) (flyIdle s f) (flyCnt w) (s.flyer f)).2) :=
    (PinsMoved.flySideSet f w s).flyers.trans rfl
  rw [flyGiveAct_eq]
  refine FlyersMoved.trans ?_ rfl
  split
  · exact hside.trans (PinsMoved.flyToPins _ _ _ _).flyers
  · exact hside.trans rfl
  · exact hside.trans rfl
  · exact hside.trans (PinsMoved.flyToPins _ _ _ _).flyers
  · exact hside

end

/-- Settles O29. -/
theorem flyerDataInstructions : Obligations.FlyerDataInstructions := by
  refine ⟨?side, ?held, ?bra, ?await, ?take, ?give, ?load, ?store⟩
  case side => exact fun s f w => ⟨PinsMoved.flySideSet f w s, fun h => if_neg (by rw [h]; decide)⟩
  case held =>
    intro s f h
    exact ⟨congrArg _ (flyRun_held h), congrArg _ (flyRun_held h), congrArg _ (flyRun_held h), congrArg _ (flyRun_held h),
      congrArg _ (flyRun_held h), congrArg _ (flyRun_held h)⟩
  case bra =>
    intro s f w hready hw
    have hexec : exec (.flyBra f) s = .next (flyBraAct f s w (flySideSet f w s)) := congrArg Host.Outcome.next (flyRun_at hready hw)
    rw [hexec]
    refine ⟨fun h => congrArg Host.Outcome.next ?_, fun h => congrArg Host.Outcome.next (flyBraAct_decrement h), _, rfl, flyBraAct_eq⟩
    rw [flyBraAct_eq, h]
    refine setFlyer_congr ?_
    rw [(PinsMoved.flySideSet f w s).flyer_eq f]
    rfl
  case await =>
    intro s f w hready hw
    have hexec : exec (.flyAwait f) s = .next (flyAwaitAct f s w (flySideSet f w s)) := congrArg Host.Outcome.next (flyRun_at hready hw)
    rw [hexec]
    refine ⟨fun hholds hgo => congrArg Host.Outcome.next ?_, fun hgo hw2 => congrArg Host.Outcome.next ?_, fun h => congrArg Host.Outcome.next (if_neg ?_)⟩
    · exact (if_pos hholds).trans (congrArg (flyNext f) (if_neg hgo))
    · refine (if_pos ?_).trans (congrArg (flyNext f) (if_pos hw2))
      unfold awaitHolds
      rw [hw2]
      exact hgo
    · rw [h]
      decide
  case take =>
    intro s f w hready hw
    exact congrArg Host.Outcome.next ((flyRun_at hready hw).trans flyTakeAct_eq)
  case give =>
    intro s f w hready hw
    have hexec : exec (.flyGive f) s = .next (flyGiveAct f s w (flySideSet f w s)) := congrArg Host.Outcome.next (flyRun_at hready hw)
    rw [hexec]
    exact ⟨fun h => congrArg Host.Outcome.next (flyGiveAct_x (flyReady_halted hready) h), fun h => congrArg Host.Outcome.next (flyGiveAct_none h),
      _, rfl, flyGiveAct_moved⟩
  case load =>
    intro s f w hready hw
    have hexec : exec (.flyLoad f) s = .next (flyLoadAct f s w (flySideSet f w s)) := congrArg Host.Outcome.next (flyRun_at hready hw)
    rw [hexec]
    refine ⟨fun v r h => congrArg Host.Outcome.next (flyLoadAct_word h), fun h hblock => ?_, fun h hblock => ?_⟩
    · rw [flyLoadAct_empty h, if_pos hblock]
    · rw [flyLoadAct_empty h, if_neg (by rw [hblock]; decide)]
  case store =>
    intro s f w hready hw
    have hexec : exec (.flyStore f) s = .next (flyStoreAct f s w (flySideSet f w s)) := congrArg Host.Outcome.next (flyRun_at hready hw)
    rw [hexec]
    refine ⟨fun h => congrArg Host.Outcome.next (flyStoreAct_room h), fun h hblock => ?_, fun h hblock => ?_⟩
    · rw [flyStoreAct_full h, if_pos hblock]
    · rw [flyStoreAct_full h, if_neg (by rw [hblock]; decide)]

end Sys2Proof.Machine
end

section
/-!
Flyer instructions that move, wait and signal (O30).
-/

set_option Elab.async false

namespace Sys2Proof.Machine

section

variable {s : State} {f : Nat} {w : Word}

theorem flySide_flyer (s : State) (f : Nat) (w : Word) : (flySideSet f w s).flyer f = s.flyer f := (PinsMoved.flySideSet f w s).flyer_eq f

/-- XFER to a register or the shifter. -/
theorem flyXferAct_x (hdst : bitsOf w 17 3 = 1) (hform : bitsOf w 15 2 = 0) (hsrc : bitsOf w 12 3 = 2) :
    flyXferAct f s w (flySideSet f w s) = flyNext f ((flySideSet f w s).setFlyer f fun x => { x with x := x.y }) := by
  unfold flyXferAct
  rw [hdst, hform, hsrc]
  rfl

theorem flyXferAct_sh (hdst : bitsOf w 17 3 = 3) (hform : bitsOf w 15 2 = 1) (hsrc : bitsOf w 12 3 = 4) :
    flyXferAct f s w (flySideSet f w s) =
      flyNext f ((flySideSet f w s).setFlyer f fun x => { x with sh := ~~~ s.ply.reel.setWidth 32, fill := 32 }) := by
  have hreel : (flySideSet f w s).reel = s.ply.reel := congrArg Plys.reel (PinsMoved.flySideSet f w s).ply_eq
  unfold flyXferAct
  rw [hdst, hform, hsrc, hreel]
  rfl

theorem flyXferAct_y (hdst : bitsOf w 17 3 = 2) (hform : bitsOf w 15 2 = 2) (hsrc : bitsOf w 12 3 = 0) :
    flyXferAct f s w (flySideSet f w s) =
      flyNext f ((flySideSet f w s).setFlyer f fun x => { x with y := bitRev (BitVec.ofNat 32 (ofBits (flyInBits s f 32))) }) := by
  unfold flyXferAct
  rw [hdst, hform, hsrc]
  rfl

theorem flyXferAct_moved : FlyersMoved s (flyXferAct f s w (flySideSet f w s)) := by
  have hside := (PinsMoved.flySideSet f w s).flyers
  unfold flyXferAct
  refine FlyersMoved.trans ?_ rfl
  split
  · exact hside.trans (PinsMoved.flyToPins _ _ _ _).flyers
  · exact hside.trans rfl
  · exact hside.trans rfl
  · exact hside.trans rfl
  · exact hside.trans (PinsMoved.flyToPins _ _ _ _).flyers

theorem flyAtAct_bad (h : actBad (s.flyer f).x (s.flyer f).y = true) : flyAtAct f s w (flySideSet f w s) = flyNext f (flyFlag f 5 (flySideSet f w s)) := by
  unfold flyAtAct
  rw [flySide_flyer]
  exact if_pos h

theorem flyAtAct_full (h : actBad (s.flyer f).x (s.flyer f).y = false) (hfull : 16 ≤ (s.flyer f).aq.length) :
    flyAtAct f s w (flySideSet f w s) = (flySideSet f w s).setFlyer f fun x => { x with stalled := true } := by
  unfold flyAtAct
  rw [flySide_flyer]
  exact (if_neg (by rw [h]; decide)).trans (if_pos hfull)

theorem flyAtAct_room (h : actBad (s.flyer f).x (s.flyer f).y = false) (hroom : (s.flyer f).aq.length < 16) :
    flyAtAct f s w (flySideSet f w s) = flyNext f (actEnter f (s.flyer f).x (s.flyer f).y (flySideSet f w s)) := by
  unfold flyAtAct
  rw [flySide_flyer]
  exact (if_neg (by rw [h]; decide)).trans (if_neg (Nat.not_le.mpr hroom))

/-- An event line that is enabled counts on its task input. -/
theorem flyEvent_eq (line : Nat) : flyEvent f line (flySideSet f w s) =
    if bitOf (s.rd (flyBase f + 0x24)) line then tinEvents (s.fld (flyBase f + 0x20) (8 * line) 8) 1 (flySideSet f w s) else flySideSet f w s := by
  unfold flyEvent State.fld
  rw [(PinsMoved.flySideSet f w s).rd_eq, (PinsMoved.flySideSet f w s).rd_eq]

/-- A flag that is clear sets, and is logged. -/
theorem flyFlag_clear {i : Nat} (h : bitOf (s.rd (flyBase f + 0x18)) i = false) : ∃ t, t = flyFlag f i s ∧
    t.regs = setReg s.regs (flyBase f + 0x18) (s.rd (flyBase f + 0x18) ||| BitVec.ofNat 32 (2 ^ i)) ∧
    (t.sys.recorder.getLast?.map FaultRec.code) = some 0x40 ∧ t = { s with regs := t.regs, sys := t.sys, stw := t.stw } := by
  refine ⟨_, rfl, ?_⟩
  unfold flyFlag
  dsimp only
  rw [if_neg (by rw [h]; decide)]
  split
  · exact ⟨rfl, logged_last _ _ _ _, rfl⟩
  · exact ⟨rfl, logged_last _ _ _ _, rfl⟩

end

/-- Settles O30. -/
theorem flyerControlInstructions : Obligations.FlyerControlInstructions := by
  refine ⟨?held, ?xfer, ?put, ?hunt, ?at', ?evt, ?dly, ?expiry, ?noDelay, ?illop, ?legal, ?flag⟩
  case held =>
    intro s f h
    exact ⟨congrArg _ (flyRun_held h), congrArg _ (flyRun_held h), congrArg _ (flyRun_held h), congrArg _ (flyRun_held h),
      congrArg _ (flyRun_held h), congrArg _ (flyRun_held h)⟩
  case xfer =>
    intro s f w hready hw
    have hexec : exec (.flyXfer f) s = .next (flyXferAct f s w (flySideSet f w s)) := congrArg Host.Outcome.next (flyRun_at hready hw)
    rw [hexec]
    exact ⟨fun hdst hform hsrc => congrArg Host.Outcome.next (flyXferAct_x hdst hform hsrc),
      fun hdst hform hsrc => congrArg Host.Outcome.next (flyXferAct_sh hdst hform hsrc),
      fun hdst hform hsrc => congrArg Host.Outcome.next (flyXferAct_y hdst hform hsrc), _, rfl, flyXferAct_moved⟩
  case put =>
    intro s f w hready hw
    have hexec : exec (.flyPut f) s = .next (flyPutAct f s w (flySideSet f w s)) := congrArg Host.Outcome.next (flyRun_at hready hw)
    rw [hexec]
    unfold flyPutAct
    refine ⟨fun hdst => ?_, fun hdst => ?_⟩
    · rw [hdst]
      rfl
    · rw [hdst]
      rfl
  case hunt =>
    intro s f w hready hw
    exact congrArg Host.Outcome.next (flyRun_at hready hw)
  case at' =>
    intro s f w hready hw
    have hexec : exec (.flyAt f) s = .next (flyAtAct f s w (flySideSet f w s)) := congrArg Host.Outcome.next (flyRun_at hready hw)
    rw [hexec]
    exact ⟨fun h => congrArg Host.Outcome.next (flyAtAct_bad h), fun h hfull => congrArg Host.Outcome.next (flyAtAct_full h hfull),
      fun h hroom => congrArg Host.Outcome.next (flyAtAct_room h hroom)⟩
  case evt =>
    intro s f w hready hw
    have hexec : exec (.flyEvt f) s = .next (flyNext f (flyEvent f (bitsOf w 6 2) (flySideSet f w s))) :=
      congrArg Host.Outcome.next (flyRun_at hready hw)
    rw [hexec, flyEvent_eq]
    refine ⟨fun h => ?_, fun h => ?_⟩
    · rw [if_neg (by rw [h]; decide)]
    · rw [if_pos h]
  case dly =>
    intro s f w hready hw
    exact congrArg Host.Outcome.next (flyRun_at hready hw)
  case expiry => exact fun s f h => if_pos h
  case noDelay => exact fun s f h => if_neg (by rw [h]; decide)
  case illop =>
    intro s f hhalted hstalled hdelaying hlegal
    exact if_neg (by rw [hhalted, hstalled, hdelaying, hlegal]; decide)
  case legal =>
    intro s f h
    exact if_pos (by rw [h, Bool.or_true])
  case flag => exact fun s f h => flyFlag_clear h

end Sys2Proof.Machine
end

section
/-!
What befalls a flyer (O31): the statement does not ask that the table of flyers is canonical, and fails where it is not.
-/

set_option Elab.async false

namespace Sys2Proof.Machine

/-- An action that sets GO, due at tick 0. -/
def goAction : Action := { at16 := some 0, w0 := 0, w1 := 0x2000 }

/-- Flyer 0 stands twice in the table of flyers. Taking its one action gives the first entry its default value, so that it goes, and
GO sets in the second one. -/
def twiceFlyer : State := { State.reset with fly := { State.reset.fly with fl := [(0, { aq := [goAction] }), (0, { x := 5 })] } }

/-- The flyers that a command leaves. -/
def flyersAfter : Host.Outcome State Fault Refusal → Tab Flyer
  | .next t => t.fly.fl
  | _ => []

/-- Refutes O31: TIMED_ACTION_DUE on `twiceFlyer` changes the flyer in two steps, the statement in one. -/
theorem not_flyerEventCommands : ¬ Obligations.FlyerEventCommands := by
  rintro ⟨-, -, -, -, -, -, hdue, -⟩
  have hflyers := congrArg flyersAfter (hdue twiceFlyer 0 goAction 0 rfl rfl (by decide) (.inr (by decide)))
  exact absurd hflyers (by decide)

end Sys2Proof.Machine
end

section
/-!
What a steward command is checked for, and the course of a commit (O43).
-/

set_option Elab.async false

namespace Sys2Proof.Machine

/-! ### The checks -/

/-- The command of a row is served by code, length and mode, whatever its body does. -/
def ServedRow (row : (ReqSrc → Instr) × Nat × Nat × (Mode → Bool)) : Prop :=
  ∀ src, ∃ body, ∀ s, exec (row.1 src) s = .next (serve row.2.1 row.2.2.1 row.2.2.2 src body s)

theorem servedRow_commandRows (data : Option (List Byte)) : ∀ row ∈ commandRows data, ServedRow row := by
  simp only [commandRows, List.forall_mem_append, List.forall_mem_cons, List.not_mem_nil, false_implies, implies_true, and_true]
  and_intros
  all_goals exact fun _ => ⟨_, fun _ => rfl⟩

/-- A request that is not there, has another code, or waits for a transaction named before. -/
theorem serve_other {code need : Nat} {modes : Mode → Bool} {src : ReqSrc} {body : Req → State → State} {s : State}
    (h : takenOf s src = none ∨ ∃ q, takenOf s src = some q ∧ (reqCode q ≠ code ∨ txnAhead s q = true)) : serve code need modes src body s = s := by
  obtain h | ⟨q, hq, h⟩ := h
  · exact serve_none h
  · rw [serve, hq]
    refine if_pos ?_
    obtain h | h := h
    · rw [bne_iff_ne.mpr h, Bool.true_or]
    · rw [h, Bool.or_true]

/-- What the checks of one command say. -/
def Checked (code need : Nat) (modes : Mode → Bool) (ins : ReqSrc → Instr) (src : ReqSrc) (s : State) : Prop :=
  ∀ q t, takenOf s src = some q → t = dropTaken q s → reqCode q = code → txnAhead s q = false →
    (imageNone s = true → code ∉ recoveryCodes → exec (ins src) s = .next (answer q .imageNone 0 [] t)) ∧
    (imageNone s = false ∨ code ∈ recoveryCodes →
      (q.msg.length < need → exec (ins src) s = .next (answer q .badLength need [] t)) ∧
      (need ≤ q.msg.length → modes s.sys.mode = false → exec (ins src) s = .next (answer q .modeDenied (modeNum s.sys.mode) [] t)))

theorem checked_of_serve {code need : Nat} {modes : Mode → Bool} {ins : ReqSrc → Instr} {src : ReqSrc} {body : Req → State → State} {s : State}
    (h : exec (ins src) s = .next (serve code need modes src body s)) : Checked code need modes ins src s := by
  rintro q t hq rfl hcode hahead
  rw [h]
  exact ⟨fun hnone hcode' => congrArg Host.Outcome.next (serve_imageNone hq hcode hnone hcode' hahead), fun himage =>
    ⟨fun hlen => congrArg Host.Outcome.next (serve_badLength hq hcode himage hlen hahead),
      fun hlen hmode => congrArg Host.Outcome.next (serve_modeDenied hq hcode himage hlen hmode hahead)⟩⟩

/-! ### A commit alone in the list -/

theorem txn?_alone {s : State} {x : Txn} {h : Nat} (hone : s.txn.txns = [x]) (hh : x.h = h) : txn? s h = some x := by
  simp [txn?, hone, hh]

theorem setTxn_alone {s : State} {x : Txn} {h : Nat} (f : Txn → Txn) (hone : s.txn.txns = [x]) (hh : x.h = h) :
    setTxn h f s = { s with txn := { s.txn with txns := [f x] } } := by
  simp [setTxn, hone, hh]

theorem recInsts_nil (item : Nat) : recInsts item [] = [] := rfl

/-- A swap of no records. -/
theorem shadowSwap_nil {rs : List Rec} (h e : Nat) (s : State) (hrs : rs = []) :
    shadowSwap h e rs s = setTxn h (fun x => { x with leaLeft := [] }) s := by
  subst hrs
  simp only [shadowSwap, recInsts_nil, List.isEmpty_nil, if_true, List.foldl_nil, List.filter_nil]
  rfl

theorem seamStep_nil {rs : List Rec} (h e : Nat) (s : State) (hrs : rs = []) :
    seamStep h e rs (settingsStep h rs s) = setTxn h (fun x => { x with seamLeft := false }) s := by
  subst hrs
  show setTxn h (fun x => { x with seamLeft := false }) { s with txn := { s.txn with seamPins := s.txn.seamPins ++ [] } } = _
  rw [List.append_nil]

/-- The transaction that a swap of no records leaves. -/
def begun (e : Nat) (x : Txn) : Txn := { x with
  st := .applying, epochReel := BitVec.ofNat 64 e, canBegun := false, canLeft := 0, portsDone := false, leaLeft := [] }

theorem commitSwap_empty {s : State} {x : Txn} {h : Nat} (e : Nat) (hone : s.txn.txns = [x]) (hh : x.h = h) (hrecs : x.recs = [])
    (hpersist : x.persist = false) :
    commitSwap h e s = { s with
      txn := { s.txn with txns := [begun e x], isVolatile := true }
      dst := { s.dst with inflight := s.dst.inflight.map fun c => { c with stale := true } } } := by
  rw [commitSwap, txn?_alone hone hh]
  dsimp only
  rw [if_neg (by rw [hpersist]; decide), shadowSwap_nil _ _ _ hrecs, setTxn_alone _ hone hh,
    setTxn_alone (x := { x with st := .applying, epochReel := BitVec.ofNat 64 e, canBegun := false, canLeft := 0, portsDone := false }) _ rfl hh]
  rfl

theorem canStep_alone {s : State} {x : Txn} (hone : s.txn.txns = [x]) (hrecs : x.recs = []) (hst : x.st = .applying) (hseam : x.seamLeft = false)
    (hcan : x.canBegun = false) : canStep x.h s = { s with txn := { s.txn with txns := [{ x with canBegun := true, canLeft := 0 }] } } := by
  have hfirst : txnFirst s x = true := by
    simp [txnFirst, hone]
  rw [canStep, txn?_alone hone rfl]
  dsimp only
  rw [if_pos (by rw [hst, hseam, hcan, hfirst]; rfl), show recInsts 0x0202 x.recs = [] by rw [hrecs, recInsts_nil]]
  exact setTxn_alone (fun x => { x with canBegun := true, canLeft := 0 }) hone rfl

theorem canStep_begun {s : State} {x : Txn} (hone : s.txn.txns = [x]) (hcan : x.canBegun = true) : canStep x.h s = s := by
  rw [canStep, txn?_alone hone rfl]
  exact if_neg (by simp [hcan])

theorem portStep_alone {s : State} {x : Txn} (hone : s.txn.txns = [x]) (hrecs : x.recs = []) (hst : x.st = .applying) (hseam : x.seamLeft = false)
    (hcan : x.canBegun = true) (hleft : x.canLeft = 0) (hlea : x.leaLeft = []) (hports : x.portsDone = false) :
    portStep x.h s = { s with txn := { s.txn with txns := [{ x with portsDone := true }] } } := by
  rw [portStep, txn?_alone hone rfl]
  dsimp only
  rw [if_pos (by rw [hst, hseam, hcan, hleft, hlea, hports]; rfl), show portsOf x.recs = [] by rw [hrecs]; rfl]
  exact setTxn_alone (fun x => { x with portsDone := true }) hone rfl

theorem portStep_done {s : State} {x : Txn} (hone : s.txn.txns = [x]) (hports : x.portsDone = true) : portStep x.h s = s := by
  rw [portStep, txn?_alone hone rfl]
  exact if_neg (by simp [hports])

/-- The end of a commit of no records: nothing is left to do at the pins, the controllers, the leas and the ports. -/
def applied0 (e : Nat) (x : Txn) : Txn := { begun e x with seamLeft := false, canBegun := true, portsDone := true }

theorem txnAdvance_alone {s : State} {x : Txn} (e : Nat) (hone : s.txn.txns = [{ begun e x with seamLeft := false }]) (hrecs : x.recs = []) :
    txnAdvance x.h s = { s with txn := { s.txn with txns := [applied0 e x] } } := by
  have hcan : canStep x.h s = { s with txn := { s.txn with txns := [{ begun e x with seamLeft := false, canBegun := true }] } } :=
    canStep_alone (x := { begun e x with seamLeft := false }) hone hrecs rfl rfl rfl
  have hport := portStep_alone (s := { s with txn := { s.txn with txns := [{ begun e x with seamLeft := false, canBegun := true }] } })
    (x := { begun e x with seamLeft := false, canBegun := true }) rfl hrecs rfl rfl rfl rfl rfl rfl
  unfold txnAdvance
  rw [hcan]
  dsimp only
  rw [show x.h = ({ begun e x with seamLeft := false, canBegun := true } : Txn).h from rfl, hport]
  show portStep (applied0 e x).h (canStep (applied0 e x).h { s with txn := { s.txn with txns := [applied0 e x] } }) = _
  rw [canStep_begun rfl rfl, portStep_done rfl rfl]

theorem commitRest_empty {s : State} {x : Txn} (e : Nat) (hone : s.txn.txns = [begun e x]) (hrecs : x.recs = []) :
    commitRest x.h e s = { s with txn := { s.txn with txns := [applied0 e x] } } := by
  rw [commitRest, txn?_alone (h := x.h) hone rfl]
  dsimp only
  rw [seamStep_nil (rs := (begun e x).recs) _ _ _ hrecs, setTxn_alone (h := x.h) (x := begun e x) _ hone rfl, txnAdvance_alone e rfl hrecs]

theorem pagesStaged_alone {s : State} {x : Txn} (hone : s.txn.txns = [x]) (hst : x.st = .applying) : pagesStaged s = s := by
  have hnone (b : Nat) : (s.txn.txns.find? fun t => (t.st == .journaling || t.st == .waiting) && (recInsts 3 t.recs).contains b) = none := by
    rw [hone]
    exact List.find?_eq_none.mpr (fun t ht => by simp [List.mem_singleton.mp ht, hst])
  unfold pagesStaged
  simp only [List.range_succ, List.range_zero, List.nil_append, List.cons_append, List.foldl_cons, List.foldl_nil, hnone]

/-- A commit of no records, alone, at its Reel epoch. -/
theorem epochReached_alone {s : State} {x : Txn} (hone : s.txn.txns = [x]) (hst : x.st = .waiting) (hepoch : x.reelEpoch = true) (hrecs : x.recs = [])
    (hpersist : x.persist = false) (hrun : s.ply.running = true) (hahead : s.ply.reel < x.tick) :
    epochReached x.h s = { s with
      ply := { s.ply with reel := x.tick }
      txn := { s.txn with txns := [applied0 x.tick.toNat x], isVolatile := true }
      dst := { s.dst with inflight := s.dst.inflight.map fun c => { c with stale := true } } } := by
  have htick : epochTick s x = some x.tick.toNat := if_pos hepoch
  have hreel : reachTick (BitVec.ofNat 64 x.tick.toNat) s = { s with ply := { s.ply with reel := x.tick } } := by
    rw [BitVec.ofNat_toNat, BitVec.setWidth_eq]
    exact if_pos (by rw [hrun, decide_eq_true hahead]; rfl)
  have hhs : (s.txn.txns.filter fun y => y.st == .waiting && epochTick s y == some x.tick.toNat).map Txn.h = [x.h] := by
    simp [hone, hst, htick]
  have hreelEpoch : ¬ (x.st == .waiting && !x.reelEpoch) = true := by simp [hepoch]
  have hwaiting : ¬ (x.st != .waiting) = true := by simp [hst]
  rw [epochReached, txn?_alone hone rfl]
  dsimp only
  rw [if_neg hreelEpoch, if_neg hwaiting, htick]
  dsimp only
  rw [hhs, hreel]
  simp only [List.foldl_cons, List.foldl_nil]
  rw [commitSwap_empty (s := { s with ply := { s.ply with reel := x.tick } }) (x := x) _ hone rfl hrecs hpersist, commitRest_empty _ rfl hrecs,
    pagesStaged_alone rfl rfl]

/-! ### Its other ends -/

theorem epochReached_stopped {s : State} {h : Nat} {x : Txn} (hx : txn? s h = some x) (hst : x.st = .waiting) (hepoch : x.reelEpoch = false)
    (hrun : (s.strand x.strand).run = false) (hply : plyFirst x.strand s = s) (hsrc : x.src = none) :
    epochReached h s = pagesStaged (txnEnd h .aborted s) := by
  have htick : epochTick s x = none := by
    rw [epochTick, if_neg (by rw [hepoch]; decide)]
    exact if_pos (by rw [hrun]; rfl)
  rw [epochReached, hx]
  have hwaiting : ¬ (x.st != .waiting) = true := by simp [hst]
  dsimp only
  rw [hply, ite_self, if_neg hwaiting, htick]
  dsimp only
  rw [commitStopped, hsrc]

theorem epochReached_not {s : State} {h : Nat} (hx : ∀ x, txn? s h = some x → x.st ≠ .waiting) : epochReached h s = s := by
  rw [epochReached]
  split
  · rfl
  · next x heq =>
    have hst : (x.st == .waiting) = false := beq_eq_false_iff_ne.mpr (hx x heq)
    rw [hst]
    exact if_pos (by rw [bne, hst]; rfl)

theorem commitReplied_not {s : State} {h : Nat} (hx : ∀ x, txn? s h = some x → x.st ≠ .applying ∨ x.portsDone = false) : commitReplied h s = s := by
  rw [commitReplied]
  split
  · rfl
  · next x heq =>
    refine if_neg ?_
    obtain hst | hports := hx x heq
    · simp [hst]
    · simp [hports]

theorem commitReplied_mailbox {s : State} {h : Nat} {x : Txn} {n : Fin 32} (hx : txn? s h = some x) (hst : x.st = .applying) (hports : x.portsDone = true)
    (hsrc : x.src = some (.mailbox n)) : commitReplied h s = { s with
      txn := { s.txn with txns := s.txn.txns.map fun y => if y.h = h then { y with src := none } else y }
      hl := { s.hl with due := s.hl.due ++ [{ mb := n.val, seq := x.tailSeq, msg := replyMsg 0x0304 .ok 0 (commitReply x), txn := some h }] } } := by
  rw [commitReplied, hx]
  dsimp only
  rw [if_pos (by rw [hst, hports]; rfl), hsrc]
  rfl

theorem txnEnd_txn (h : Nat) (st : TxnState) (s : State) : txnEnd h st s = { s with txn := (txnEnd h st s).txn } := by
  rw [txnEnd]
  split
  · rfl
  · rfl

/-- A command whose row is served at once. -/
theorem row_served {row : (ReqSrc → Instr) × Nat × Nat × (Mode → Bool)} (hrow : ServedRow row) (src : ReqSrc) (s : State) :
    (takenOf s src = none ∨ (∃ q, takenOf s src = some q ∧ (reqCode q ≠ row.2.1 ∨ txnAhead s q = true)) → exec (row.1 src) s = .next s) ∧
      Checked row.2.1 row.2.2.1 row.2.2.2 row.1 src s := by
  obtain ⟨body, hbody⟩ := hrow src
  exact ⟨fun h => (hbody s).trans (congrArg Host.Outcome.next (serve_other h)), checked_of_serve (hbody s)⟩

/-- The three commands that a resource can make wait. -/
theorem row_waits {ins : ReqSrc → Instr} {code need : Nat} {modes : Mode → Bool} {body : Req → State → State} {waits : Bool} {src : ReqSrc} {s : State}
    (hexec : exec (ins src) s = if waits then .next s else .next (serve code need modes src body s)) :
    (takenOf s src = none ∨ (∃ q, takenOf s src = some q ∧ (reqCode q ≠ code ∨ txnAhead s q = true)) → exec (ins src) s = .next s) ∧
      (waits = false → Checked code need modes ins src s) := by
  refine ⟨fun h => ?_, fun h => checked_of_serve (body := body) ?_⟩
  · rw [hexec, serve_other h, ite_self]
  · rw [hexec, h]
    rfl

/-- Settles O43. -/
theorem commandChecks : Obligations.CommandChecks := by
  refine ⟨?answered, rfl, fun q s => rfl, ?unknown, ?rows, ?wait, ?relays, ?stopped, ?epoch, ?reply, ?written, ?none, ?expired⟩
  case answered =>
    rintro q st d pay msg s rfl
    refine ⟨fun n hn => answer_mailbox st d pay s hn, ?_⟩
    rintro dev n u hsrc rfl
    exact answer_relay st d pay s hsrc
  case unknown =>
    intro src s
    show (∀ q, _ → _ → execUnknownCmd src s = _) ∧ (_ → execUnknownCmd src s = _)
    unfold execUnknownCmd
    refine ⟨fun q hq hcode => ?_, fun h => ?_⟩
    · rw [hq]
      exact if_neg (by simpa using hcode)
    · obtain h | ⟨q, hq, hcode⟩ := h
      · rw [h]
      · rw [hq]
        exact if_pos (by simpa using hcode)
  case rows =>
    intro data row hrow src s
    simp only [List.mem_append, List.mem_cons, List.not_mem_nil, or_false] at hrow
    obtain hrow | rfl | rfl | rfl := hrow
    · obtain ⟨hother, hchecked⟩ := row_served (servedRow_commandRows data row hrow) src s
      exact ⟨hother, fun q t hq ht hcode hahead _ _ _ => hchecked q t hq ht hcode hahead⟩
    · obtain ⟨hother, hchecked⟩ := row_waits (ins := .resetWarm) (src := src) (s := s) (body := warmNow) rfl
      exact ⟨hother, fun q t hq ht hcode hahead hwaits _ _ => hchecked (hwaits rfl) q t hq ht hcode hahead⟩
    · obtain ⟨hother, hchecked⟩ := row_waits (ins := .imgEnd) (src := src) (s := s) (body := imgEnd) rfl
      exact ⟨hother, fun q t hq ht hcode hahead _ hwaits _ => hchecked (hwaits rfl) q t hq ht hcode hahead⟩
    · obtain ⟨hother, hchecked⟩ := row_waits (ins := .cascRelay) (src := src) (s := s) (body := cascRelay) rfl
      exact ⟨hother, fun q t hq ht hcode hahead _ _ hwaits => hchecked (hwaits rfl) q t hq ht hcode hahead⟩
  case wait =>
    intro src s
    exact ⟨fun h => if_pos h, fun n h => if_pos h⟩
  case relays =>
    intro src s q m hq hm hdev hfull
    refine if_pos ?_
    rw [relayFull, hq]
    simp only [Bool.and_eq_true, decide_eq_true_eq, List.any_eq_true, beq_iff_eq]
    exact ⟨⟨m, hm, hdev⟩, hfull⟩
  case stopped =>
    intro s h x hx hst hepoch hrun hply hsrc
    exact congrArg Host.Outcome.next (epochReached_stopped hx hst hepoch hrun hply hsrc)
  case epoch =>
    rintro s h x hx rfl hst hepoch hone hrecs hpersist hrun hahead
    refine ⟨_, applied0 x.tick.toNat x, congrArg Host.Outcome.next (epochReached_alone hone hst hepoch hrecs hpersist hrun hahead), rfl,
      txn?_alone rfl rfl, rfl, ?_, rfl, rfl, rfl⟩
    exact BitVec.ofNat_toNat .. |>.trans (BitVec.setWidth_eq _)
  case reply =>
    intro s h x n hx hst hports hsrc
    exact congrArg Host.Outcome.next (commitReplied_mailbox hx hst hports hsrc)
  case written =>
    intro s d h hd
    rw [replyWritten, hd]
  case none =>
    intro s h
    refine ⟨fun hx => congrArg Host.Outcome.next (commitReplied_not hx), fun hx => congrArg Host.Outcome.next (epochReached_not hx), fun hx => ?_⟩
    show execTxnExpired h s = _
    rw [execTxnExpired]
    split
    · rfl
    · next x heq => exact if_neg (by simpa using hx x heq)
  case expired =>
    intro s h x hx hst
    refine ⟨logFault 0x51 13 (leBytes 2 h) (txnEnd h .aborted (setTxn h (fun y => { y with expired := true }) s)), ?_, rfl, ?_⟩
    · show execTxnExpired h s = _
      rw [execTxnExpired, hx]
      exact if_pos (by rw [hst]; rfl)
    · exact congrArg (logFault 0x51 13 (leBytes 2 h)) (txnEnd_txn h .aborted (setTxn h (fun y => { y with expired := true }) s))

end Sys2Proof.Machine
end

section
/-!
Inquiry commands (O44).
-/

set_option Elab.async false

namespace Sys2Proof.Machine

/-- A served request is answered by the command's body. -/
theorem served_body {code need : Nat} {modes : Mode → Bool} {src : ReqSrc} {q : Req} {s t : State} (body : Req → State → State) {o : Host.Outcome State Fault Refusal}
    (h : Served code need modes src q s t) (hexec : o = .next (serve code need modes src body s)) : o = .next (body q t) := by
  obtain ⟨hready, rfl⟩ := h
  exact hexec.trans (congrArg Host.Outcome.next (serve_ready hready))

theorem confGet_eq (q : Req) (t : State) :
    (itemKnown (par q 8 2) (par q 10 2) = false → ∃ d, confGet q t = answer q .badParam d [] t ∧ (d = 8 ∨ d = 10)) ∧
    (itemKnown (par q 8 2) (par q 10 2) = true → confGet q t =
      if itemSpan t (par q 8 2) (par q 10 2) ≤ par q 12 4 then answer q .badParam 12 [] t
      else if par q 16 2 = 0 ∨ 228 < par q 16 2 then answer q .badParam 16 [] t
      else if itemSpan t (par q 8 2) (par q 10 2) < par q 12 4 + par q 16 2 then answer q .badParam 12 [] t
      else answer q .ok 0 (leBytes 2 (par q 16 2) ++ leBytes 2 0 ++ (t.conf (par q 8 2) (par q 10 2)).bytes (par q 12 4) (par q 16 2)) t) := by
  unfold confGet
  dsimp only
  refine ⟨fun h => ⟨_, if_pos (by rw [h]; rfl), ?_⟩, fun h => if_neg (by rw [h]; decide)⟩
  split
  · exact .inr rfl
  · exact .inl rfl

/-- A port that is named, one of a kind above 2 and one past the last of its kind. -/
theorem onPort_eq {q : Req} (body : Nat → Nat → State → State) (t : State) :
    (2 < par q 8 1 → onPort q body t = answer q .badParam 8 [] t) ∧
    (par q 8 1 ≤ 2 → [12, 8, 2].getD (par q 8 1) 0 ≤ par q 9 1 → onPort q body t = answer q .badParam 9 [] t) ∧
    (par q 8 1 ≤ 2 → par q 9 1 < [12, 8, 2].getD (par q 8 1) 0 → onPort q body t = body (par q 8 1) (par q 9 1) t) := by
  have hcount : ∀ k ≤ 2, portCount k = [12, 8, 2].getD k 0 := by decide
  unfold onPort
  refine ⟨fun h => if_pos h, fun hkind h => ?_, fun hkind h => ?_⟩
  · rw [if_neg (by omega), hcount _ hkind, if_pos h]
    rfl
  · rw [if_neg (by omega), hcount _ hkind, if_neg (by omega)]

/-- Settles O44. -/
theorem inquiryCommands : Obligations.InquiryCommands := by
  refine ⟨?plain, ?reel, ?badPort, ?status, ?counters, ?ply, ?tick, ?map, ?txn, ?conf⟩
  case plain =>
    intro row hrow src q s t hserved
    simp only [List.mem_cons, List.not_mem_nil, or_false] at hrow
    obtain rfl | rfl | rfl | rfl | rfl | rfl | rfl | rfl | rfl | rfl | rfl | rfl | rfl := hrow
    all_goals exact served_body _ hserved rfl
  case reel =>
    rintro src q s t ⟨hready, rfl⟩
    exact served_body _ ⟨hready, rfl⟩ rfl
  case badPort =>
    intro op hop src q s t hserved
    have hport : ∃ body, exec (op.1 src) s = .next (onPort q body t) := by
      simp only [List.mem_cons, List.not_mem_nil, or_false] at hop
      obtain rfl | rfl := hop
      · exact ⟨_, served_body _ hserved rfl⟩
      · exact ⟨_, served_body _ hserved rfl⟩
    obtain ⟨body, hexec⟩ := hport
    exact ⟨fun h => hexec.trans (congrArg Host.Outcome.next ((onPort_eq body t).1 h)),
      fun hkind h => hexec.trans (congrArg Host.Outcome.next ((onPort_eq body t).2.1 hkind h))⟩
  case status =>
    rintro src q s t i m ⟨hready, rfl⟩ rfl hm
    obtain rfl : m = fun st sp at_ => leBytes 1 st ++ leBytes 1 sp ++ leBytes 2 0 ++ leBytes 4 0 ++ leBytes 8 at_.toNat := by
      funext st sp at_
      exact hm st sp at_
    have hexec : exec (.portStatus src) s = .next (onPort q (portStatus q) (dropTaken q s)) := served_body _ ⟨hready, rfl⟩ rfl
    have hbody := (onPort_eq (q := q) (portStatus q) (dropTaken q s)).2.2
    rw [hexec]
    refine ⟨fun hkind hi => ?_, fun hkind hi => ?_, fun hkind hi => ?_⟩
    · rw [hbody (by omega) (by rw [hkind]; exact hi), hkind]
      rfl
    · rw [hbody (by omega) (by rw [hkind]; exact hi), hkind]
      rfl
    · rw [hbody (by omega) (by rw [hkind]; exact hi), hkind]
      rfl
  case counters =>
    intro src q s t hserved hkind hinst
    exact (served_body _ hserved rfl).trans (congrArg Host.Outcome.next ((onPort_eq _ t).2.2 hkind hinst))
  case ply =>
    rintro src q s t k ⟨hready, rfl⟩ rfl
    exact served_body _ ⟨hready, rfl⟩ rfl
  case tick =>
    rintro src q s t r hserved rfl
    refine (served_body _ hserved rfl).trans (congrArg Host.Outcome.next ?_)
    unfold onPly tickConverted
    split
    · rfl
    · cases tickToPly t (par q 8 1) (BitVec.ofNat 64 (par q 16 8)) 0 with
      | none => rfl
      | some v => rfl
  case map =>
    rintro src q s t ⟨hready, rfl⟩
    exact served_body _ ⟨hready, rfl⟩ rfl
  case txn =>
    intro src q s t hserved
    refine (served_body _ hserved rfl).trans (congrArg Host.Outcome.next ?_)
    have hsame : txn? t (par q 8 2) = txn? s (par q 8 2) := by
      rw [hserved.2]
      rfl
    rw [onTxn, hsame]
    cases txn? s (par q 8 2) with
    | none => rfl
    | some x => exact if_neg (by simp)
  case conf =>
    rintro src q s t item inst off len ⟨hready, rfl⟩ rfl rfl rfl rfl
    have hexec : exec (.confGet src) s = .next (confGet q (dropTaken q s)) := served_body _ ⟨hready, rfl⟩ rfl
    obtain ⟨hbad, hgood⟩ := confGet_eq q (dropTaken q s)
    refine ⟨fun h => ?_, fun h => hexec.trans (congrArg Host.Outcome.next (hgood h))⟩
    obtain ⟨d, hd, hcase⟩ := hbad h
    exact ⟨d, hexec.trans (congrArg Host.Outcome.next hd), hcase⟩

end Sys2Proof.Machine
end

section
/-!
Mode commands (O45).
-/

set_option Elab.async false

namespace Sys2Proof.Machine

section

variable {q : Req} {t : State}

theorem modeSet_bad (h : par q 8 1 ∉ [2, 4, 5]) : modeSet q t = answer q .badParam 8 [] t := by
  simp only [List.mem_cons, List.not_mem_nil, or_false, not_or] at h
  obtain ⟨h2, h4, h5⟩ := h
  exact if_pos (by simp [h2, h4, h5])

/-- MODE_SET with one of the three targets. -/
theorem modeSet_target (h : par q 8 1 ∈ [2, 4, 5]) : modeSet q t =
    if par q 8 1 = modeNum t.sys.mode then answerOk q [] t
    else if t.sys.entering then (if par q 8 1 = 4 then answerOk q [] t else refuse q .modeDenied (modeNum t.sys.mode) t)
    else if par q 8 1 = 4 then drowseSet q t else if par q 8 1 = 5 then serviceSet q t else spinSet q t := by
  simp only [List.mem_cons, List.not_mem_nil, or_false] at h
  refine if_neg ?_
  obtain h | h | h := h
  · simp [h]
  · simp [h]
  · simp [h]

theorem modeSet_present (hmode : spinOrService t.sys.mode = true) (h : par q 8 1 = modeNum t.sys.mode) : modeSet q t = answer q .ok 0 [] t := by
  have hmem : par q 8 1 ∈ [2, 4, 5] := by
    rw [h]
    revert hmode
    cases t.sys.mode with
    | spin | service => exact fun _ => by decide
    | dark | kindle | brace | drowse => exact fun h => absurd h (by decide)
  rw [modeSet_target hmem, if_pos h]
  rfl

/-- The target Drowse while the entry runs, and another target. -/
theorem modeSet_entering (hmode : t.sys.mode = .spin) (hentering : t.sys.entering = true) :
    (par q 8 1 = 5 → modeSet q t = answer q .modeDenied 2 [] t) ∧ (par q 8 1 = 4 → modeSet q t = answer q .ok 0 [] t) := by
  refine ⟨fun h => ?_, fun h => ?_⟩
  · rw [modeSet_target (by rw [h]; decide), h, hmode, if_neg (by decide), if_pos hentering, if_neg (by decide)]
    rfl
  · rw [modeSet_target (by rw [h]; decide), h, hmode, if_neg (by decide), if_pos hentering, if_pos rfl]
    rfl

theorem modeSet_service (hmode : t.sys.mode = .spin) (hentering : t.sys.entering = false) (h : par q 8 1 = 5) : modeSet q t = serviceSet q t := by
  rw [modeSet_target (by rw [h]; decide), h, hmode, if_neg (by decide), hentering, if_neg (by decide), if_neg (by decide), if_pos rfl]

theorem modeSet_spin (hmode : t.sys.mode = .service) (hentering : t.sys.entering = false) (h : par q 8 1 = 2) : modeSet q t = spinSet q t := by
  rw [modeSet_target (by rw [h]; decide), h, hmode, if_neg (by decide), hentering, if_neg (by decide), if_neg (by decide), if_neg (by decide)]

theorem modeSet_drowse (hmode : modeNum t.sys.mode ≠ 4) (hentering : t.sys.entering = false) (h : par q 8 1 = 4) : modeSet q t = drowseSet q t := by
  rw [modeSet_target (by rw [h]; decide), h, if_neg (Ne.symm hmode), hentering, if_neg (by decide), if_pos rfl]

/-- The checks of a Drowse entry. -/
theorem drowseSet_spin (hmode : t.sys.mode = .spin) :
    (txnOpen t = true ∨ t.pwr.senseWarn = true → drowseSet q t = answer q .modeDenied 2 [] t) ∧
    (txnOpen t = false → t.pwr.senseWarn = false →
      (commitsRun t = true ∨ dstBusy t = true ∨ panelBusy t = true → drowseSet q t = answer q .busy 0 [] t) ∧
      (commitsRun t = false → dstBusy t = false → panelBusy t = false → drowseSet q t = answer q .ok 0 [] (rovStopAt true
        (stopStrands { t with sys := { t.sys with entering := true, drowseReq := some (q.src, q.seq, t.ply.reel) } })))) := by
  have hspin : (t.sys.mode != .spin) = false := by
    rw [hmode]
    rfl
  unfold drowseSet
  rw [hspin, Bool.false_or]
  refine ⟨fun h => ?_, fun hopen hwarn => ⟨fun h => ?_, fun hcommit hdst hpanel => ?_⟩⟩
  · rw [if_pos (Bool.or_eq_true_iff.mpr h), hmode]
    rfl
  · rw [hopen, hwarn, if_neg (by decide), if_pos]
    · rfl
    · obtain h | h | h := h
      · simp [h]
      · simp [h]
      · simp [h]
  · rw [hopen, hwarn, hcommit, hdst, hpanel, if_neg (by decide), if_neg (by decide)]
    rfl

end

/-- Settles O45. -/
theorem modeSetCommands : Obligations.ModeSetCommands := by
  refine ⟨?mode, ?mailbox, ?relay, fun s => ⟨rfl, rfl, rfl⟩, ?wake⟩
  case mode =>
    rintro src q s t hserved
    have hexec : exec (.modeSet src) s = .next (modeSet q t) := served_body _ hserved rfl
    obtain ⟨hready, rfl⟩ := hserved
    have hserves : spinOrService s.sys.mode = true := hready.2.2.2.2.1
    rw [hexec]
    refine ⟨fun h => congrArg _ (modeSet_bad h), fun h => congrArg _ (modeSet_present (t := dropTaken q s) hserves h), fun hmode hent h => ?_,
      fun hmode hent h => ?_, ?_, ?_, ?_, ?_, ?_, ?_⟩
    · exact congrArg _ ((modeSet_entering (q := q) (t := dropTaken q s) hmode hent).1 h)
    · exact congrArg _ ((modeSet_entering (q := q) (t := dropTaken q s) hmode hent).2 h)
    · intro hmode hent h hbusy
      rw [modeSet_service (q := q) (t := dropTaken q s) hmode hent h]
      exact congrArg _ (if_pos hbusy)
    · intro hmode hent h hfree
      rw [modeSet_service (q := q) (t := dropTaken q s) hmode hent h]
      exact congrArg _ (if_neg (Bool.eq_false_iff.mp hfree))
    · intro hmode hent h himg
      rw [modeSet_spin (q := q) (t := dropTaken q s) hmode hent h]
      exact congrArg _ (if_neg (Bool.eq_false_iff.mp himg))
    · intro hmode hent h himg
      have hnum : modeNum (dropTaken q s).sys.mode = 5 := congrArg modeNum hmode
      rw [modeSet_spin (q := q) (t := dropTaken q s) hmode hent h, spinSet, hnum]
      exact congrArg _ (if_pos himg)
    · intro hmode hent h
      have hnum : modeNum (dropTaken q s).sys.mode = 5 := congrArg modeNum hmode
      rw [modeSet_drowse (q := q) (t := dropTaken q s) (by rw [hnum]; decide) hent h, drowseSet, hnum]
      refine congrArg _ (if_pos ?_)
      rw [show (dropTaken q s).sys.mode = .service from hmode]
      rfl
    · intro hmode hent h
      have hnum : modeNum (dropTaken q s).sys.mode = 2 := congrArg modeNum hmode
      obtain ⟨hdenied, hgo⟩ := drowseSet_spin (q := q) (t := dropTaken q s) hmode
      rw [modeSet_drowse (q := q) (t := dropTaken q s) (by rw [hnum]; decide) hent h]
      exact ⟨fun hbad => congrArg _ (hdenied hbad), fun hopen hwarn => ⟨fun hbusy => congrArg _ ((hgo hopen hwarn).1 hbusy),
        fun hcommit hdst hpanel => congrArg _ ((hgo hopen hwarn).2 hcommit hdst hpanel)⟩⟩
  case mailbox =>
    intro n q s t hserved hsrc hfree
    refine (served_body warmNow hserved (if_neg (Bool.eq_false_iff.mp hfree))).trans (congrArg _ ?_)
    rw [warmNow, hsrc]
    rfl
  case relay =>
    intro dev m q s t hserved hsrc
    have hexec : exec (.resetWarm (.relay dev m)) s = .next (warmNow q t) := served_body warmNow hserved rfl
    refine hexec.trans (congrArg _ ?_)
    rw [warmNow, hsrc]
    rfl
  case wake =>
    intro src q s t hserved
    exact served_body _ hserved rfl

end Sys2Proof.Machine
end

section
/-!
Transactions (O46).
-/

set_option Elab.async false

namespace Sys2Proof.Machine

/-! ### A free handle -/

/-- The handles that TXN_OPEN tries. -/
def handlesTried (s : State) : List Nat := (List.range 64).map fun i => (s.txn.nextH + i - 1) % 65535 + 1

theorem handlesTried_nodup {s : State} (h : 1 ≤ s.txn.nextH) : (handlesTried s).Nodup := by
  refine List.pairwise_map.mpr (List.pairwise_lt_range.imp_of_mem fun {i j} hi hj hlt => ?_)
  rw [List.mem_range] at hi hj
  omega

/-- Numbers that differ, all of them in a list, are no more than its entries. -/
theorem length_le_of_nodup_subset : ∀ (l m : List Nat), l.Nodup → l ⊆ m → l.length ≤ m.length
  | [], m, _, _ => Nat.zero_le _
  | x :: l, m, hnodup, hsub => by
    obtain ⟨hx, hl⟩ := List.nodup_cons.mp hnodup
    have hmem : x ∈ m := hsub List.mem_cons_self
    have hrest : l ⊆ m.erase x := fun y hy =>
      (List.mem_erase_of_ne fun (hyx : y = x) => hx (hyx ▸ hy)).mpr (hsub (List.mem_cons_of_mem x hy))
    have hlen := length_le_of_nodup_subset l (m.erase x) hl hrest
    have hpos := List.length_pos_of_mem hmem
    rw [List.length_erase_of_mem hmem] at hlen
    rw [List.length_cons]
    omega

/-- With fewer than 64 transactions one of 64 handles is free. -/
theorem handlesTried_free {s : State} (h : 1 ≤ s.txn.nextH) (hfew : s.txn.txns.length < 64) : ∃ n ∈ handlesTried s, txn? s n = none := by
  refine Classical.byContradiction fun hall => ?_
  have hsub : handlesTried s ⊆ s.txn.txns.map Txn.h := by
    intro n hn
    rcases hx : txn? s n with _ | x
    · exact absurd ⟨n, hn, hx⟩ hall
    · rw [List.mem_map]
      exact ⟨x, List.mem_of_find?_eq_some hx, by simpa using List.find?_some hx⟩
  have hle := length_le_of_nodup_subset _ _ (handlesTried_nodup h) hsub
  rw [List.length_map, handlesTried, List.length_map, List.length_range] at hle
  omega

theorem txnHandle_spec {s : State} (h : 1 ≤ s.txn.nextH) (hfew : s.txn.txns.length < 64) :
    1 ≤ txnHandle s ∧ txnHandle s ≤ 65535 ∧ txn? s (txnHandle s) = none := by
  obtain ⟨n, hn, hfree⟩ := handlesTried_free h hfew
  have hsome : ((handlesTried s).find? fun h => (txn? s h).isNone).isSome = true := by
    rw [List.find?_isSome]
    exact ⟨n, hn, by rw [hfree]; rfl⟩
  obtain ⟨m, hm⟩ := Option.isSome_iff_exists.mp hsome
  have hhandle : txnHandle s = m := congrArg (fun o : Option Nat => o.getD s.txn.nextH) hm
  have hmem := List.mem_of_find?_eq_some hm
  rw [handlesTried, List.mem_map] at hmem
  obtain ⟨i, -, hi⟩ := hmem
  have hnone : txn? s m = none := by simpa using List.find?_some hm
  rw [hhandle]
  exact ⟨by omega, by omega, hnone⟩

/-! ### Pages that a waiting transaction fills -/

/-- A transaction without the pages it fills. -/
def bare (x : Txn) : Txn := { x with banks := [] }

/-- At most the pages of transactions and the flyers' programs are other ones. -/
def PagesMoved (s t : State) : Prop :=
  t = { s with txn := { s.txn with txns := t.txn.txns }, fly := { s.fly with prog := t.fly.prog } } ∧
    t.txn.txns.map bare = s.txn.txns.map bare

theorem PagesMoved.refl (s : State) : PagesMoved s s := ⟨rfl, rfl⟩

theorem PagesMoved.trans {s t u : State} (h : PagesMoved s t) (h' : PagesMoved t u) : PagesMoved s u :=
  ⟨Eq.trans h'.1 (congrArg (fun x : State => { x with txn := { x.txn with txns := u.txn.txns }, fly := { x.fly with prog := u.fly.prog } }) h.1),
    h'.2.trans h.2⟩

theorem PagesMoved.pageStaged (t : Txn) (b : Nat) (s : State) : PagesMoved s (pageStaged t b s) := by
  obtain ⟨p, hp⟩ : ∃ p, flyLoadPage b (flyOtherPage s b) (confBytes (applyRecs s.txn.conf t.recs) 3 b).bytes s = { s with fly := { s.fly with prog := p } } :=
    ⟨_, rfl⟩
  unfold Machine.pageStaged
  rw [hp]
  refine ⟨rfl, ?_⟩
  show (List.map (fun x => if x.h = t.h then { x with banks := b :: x.banks } else x) s.txn.txns).map bare = _
  rw [List.map_map]
  refine List.map_congr_left fun x _ => ?_
  rw [Function.comp_apply]
  split
  · rfl
  · rfl

theorem pagesStaged_moved (s : State) : PagesMoved s (pagesStaged s) := by
  unfold pagesStaged
  refine foldl_rel (R := PagesMoved) .refl (fun _ _ _ => .trans) (fun u b => ?_) _ s
  split
  · split
    · exact .refl u
    · exact .pageStaged _ _ _
  · exact .refl u

theorem PagesMoved.handles {s t : State} (h : PagesMoved s t) : t.txn.txns.map Txn.h = s.txn.txns.map Txn.h := by
  have hmap := congrArg (List.map Txn.h) h.2
  rw [List.map_map, List.map_map] at hmap
  exact hmap

/-- The last transaction is the one that was last, but for the pages it fills. -/
theorem PagesMoved.last {s t : State} {x : Txn} {l : List Txn} (h : PagesMoved s t) (hs : s.txn.txns = l ++ [x]) :
    ∃ y, t.txn.txns.getLast? = some y ∧ bare y = bare x := by
  have hlast := congrArg List.getLast? h.2
  rw [List.getLast?_map, List.getLast?_map, hs, List.getLast?_append, List.getLast?_singleton] at hlast
  simpa using hlast

/-! ### The requests -/

section

variable {q : Req} {s : State} {x : Txn}

theorem onOpen_open (body : Txn → State → State) (h : NamesOpen s q x) : onOpen q body s = body x s := by
  obtain ⟨hx, hexp, hopen⟩ := h
  rw [onOpen, onTxn, hx]
  dsimp only
  rw [if_neg (by rw [hexp]; decide), if_pos (by rw [hopen]; rfl)]

theorem onTxn_unknown {e : Bool} (body : Txn → State → State) (h : txn? s (par q 8 2) = none) : onTxn q e body s = answer q .txnUnknown 0 [] s := by
  rw [onTxn, h]
  rfl

theorem onTxn_expired (body : Txn → State → State) (h : txn? s (par q 8 2) = some x) (hexp : x.expired = true) :
    onTxn q false body s = answer q .txnExpired 0 [] s := by
  rw [onTxn, h]
  exact if_pos (by rw [hexp]; rfl)

theorem onTxn_known (body : Txn → State → State) (h : txn? s (par q 8 2) = some x) (hexp : x.expired = false) : onTxn q false body s = body x s := by
  rw [onTxn, h]
  exact if_neg (by rw [hexp]; decide)

theorem stageBody_ok {bs : List Byte} {rs : List Rec} (h : stageCheck s x bs = .ok rs) :
    stageBody q bs x s = answer q .ok 0 (leBytes 4 (x.staged + stageBytes rs)) (stageRecs x.h rs s) := by
  rw [stageBody, h]
  rfl

theorem stageBody_error {bs : List Byte} {e : Status} {d : Nat} (h : stageCheck s x bs = .error (e, d)) : stageBody q bs x s = answer q e d [] s := by
  rw [stageBody, h]
  rfl

theorem txnDma_eq (data : Option (List Byte)) :
    (spiSelected s = true → txnDma data q s = answer q .linkDenied 0 [] s) ∧
    (spiSelected s = false → par q 12 4 = 0 ∨ 984000 < par q 12 4 → txnDma data q s = answer q .badParam 12 [] s) ∧
    (spiSelected s = false → 1 ≤ par q 12 4 → par q 12 4 ≤ 984000 → NamesOpen s q x →
      txnDma data q s = hostData q data (fun bs v => stageBody q (bs.take (par q 12 4)) x v) s) := by
  unfold txnDma needPcie
  refine ⟨fun h => if_pos h, fun h hbad => ?_, fun h hlo hhi hopen => ?_⟩
  · exact (if_neg (by rw [h]; decide)).trans (if_pos hbad)
  · exact (if_neg (by rw [h]; decide)).trans ((if_neg (by omega)).trans (onOpen_open _ hopen))

/-- The request's fields of a commit. -/
def commitReq (q : Req) : CommitReq := {
  persist := (par q 10 2).testBit 0, nonatomicOk := (par q 10 2).testBit 1, ekind := par q 12 1, strand := par q 13 1
  tick := BitVec.ofNat 64 (par q 16 8) }

theorem txnCommitted_bad :
    (1 < par q 12 1 → txnCommitted q s = answer q .badParam 12 [] s) ∧
    (par q 12 1 = 0 → 3 < par q 13 1 → txnCommitted q s = answer q .badParam 13 [] s) ∧
    (par q 12 1 = 1 → epochFar s 1 (BitVec.ofNat 64 (par q 16 8)) = true → txnCommitted q s = answer q .badParam 16 [] s) := by
  unfold txnCommitted
  refine ⟨fun h => if_pos h, fun h0 h3 => ?_, fun h1 hfar => ?_⟩
  · rw [if_neg (by omega), if_pos ⟨h0, h3⟩]
    rfl
  · rw [if_neg (by omega), if_neg (by omega), h1, if_pos hfar]
    rfl

theorem txnCommitted_open (hgood : par q 12 1 = 0 ∧ par q 13 1 ≤ 3 ∨ par q 12 1 = 1 ∧ epochFar s 1 (BitVec.ofNat 64 (par q 16 8)) = false)
    (h : NamesOpen s q x) : txnCommitted q s = commitServe q x s := by
  have hnear : epochFar s (par q 12 1) (BitVec.ofNat 64 (par q 16 8)) = false := by
    obtain ⟨h0, -⟩ | ⟨h1, hfar⟩ := hgood
    · rw [h0]
      rfl
    · rw [h1, hfar]
  unfold txnCommitted
  rw [if_neg (by omega), if_neg (by omega), if_neg (by rw [hnear]; decide), onOpen_open _ h]

/-- The transaction that an accepted commit leaves, before its pages are filled. -/
def accepted (src : ReqSrc) (seq : Nat) (r : CommitReq) (s : State) (x : Txn) : Txn := { x with
  persist := r.persist, nonatomic := r.nonatomicOk, reelEpoch := r.ekind == 1, strand := r.strand, src := some src, tailSeq := seq
  tick := if r.ekind = 1 then r.tick else s.reel + 50000, st := if r.persist then .journaling else .waiting
  full := r.persist && s.txn.isVolatile, durable := false, late := false, seq := 0, applied := [], pages := 0, banks := [] }

/-- What a commit that is accepted leaves of the transaction. -/
def Accepted (src : ReqSrc) (r : CommitReq) (s : State) (x y : Txn) : Prop :=
  y.recs = x.recs ∧ y.st = (if r.persist then .journaling else .waiting) ∧ y.src = some src ∧ y.persist = r.persist ∧
    y.tick = (if r.ekind = 1 then r.tick else s.ply.reel + 50000)

theorem accepted_bare {src : ReqSrc} {seq : Nat} {r : CommitReq} {s : State} {x y : Txn} (h : bare y = bare (accepted src seq r s x)) :
    Accepted src r s x y := by
  have hrecs : (bare y).recs = (bare (accepted src seq r s x)).recs := congrArg Txn.recs h
  have hst : (bare y).st = (bare (accepted src seq r s x)).st := congrArg Txn.st h
  have hsrc : (bare y).src = (bare (accepted src seq r s x)).src := congrArg Txn.src h
  have hpersist : (bare y).persist = (bare (accepted src seq r s x)).persist := congrArg Txn.persist h
  have htick : (bare y).tick = (bare (accepted src seq r s x)).tick := congrArg Txn.tick h
  exact ⟨hrecs, hst, hsrc, hpersist, htick⟩

/-- The Distaff after an accepted commit. -/
def handedOn (r : CommitReq) (s : State) (x : Txn) (d : Dst) : Dst :=
  if r.persist then { d with staged := some { txn := x.h, recs := x.recs, schema := schemaNow s, full := s.txn.isVolatile } } else d

theorem ite_dst (p : Bool) (v : State) (d : Dst) : (if p then { v with dst := d } else v) = { v with dst := if p then d else v.dst } := by
  cases p with
  | true => rfl
  | false => rfl

theorem commitAccept_eq {s : State} {x : Txn} (src : ReqSrc) (seq : Nat) (r : CommitReq) (hx : txn? s x.h = some x) :
    ∃ v, v = pagesStaged (setTxns (fun t => { t with txns := (t.txns.filter fun y => y.h != x.h) ++ [accepted src seq r s x] }) s) ∧
      commitAccept x.h src seq r s = { v with dst := handedOn r s x v.dst } := by
  refine ⟨_, rfl, ?_⟩
  unfold commitAccept accepted handedOn
  rw [hx]
  exact ite_dst r.persist (pagesStaged _) _

theorem commitAccept_spec {s : State} {x : Txn} (src : ReqSrc) (seq : Nat) (r : CommitReq) (hx : txn? s x.h = some x) : ∃ u y,
    commitAccept x.h src seq r s = u ∧
    u = { s with txn := { s.txn with txns := u.txn.txns }, fly := { s.fly with prog := u.fly.prog }, dst := handedOn r s x s.dst } ∧
    u.txn.txns.map Txn.h = (s.txn.txns.filter fun y => y.h != x.h).map Txn.h ++ [x.h] ∧ u.txn.txns.getLast? = some y ∧ Accepted src r s x y := by
  obtain ⟨v, hv, hexec⟩ := commitAccept_eq src seq r hx
  have hmoved := pagesStaged_moved (setTxns (fun t => { t with txns := (t.txns.filter fun y => y.h != x.h) ++ [accepted src seq r s x] }) s)
  rw [← hv] at hmoved
  obtain ⟨y, hy, heq⟩ := hmoved.last (x := accepted src seq r s x) rfl
  have hhandles : v.txn.txns.map Txn.h = (s.txn.txns.filter fun y => y.h != x.h).map Txn.h ++ [x.h] := hmoved.handles.trans List.map_append
  refine ⟨_, y, hexec, ?_, hhandles, hy, accepted_bare heq⟩
  have hdst : v.dst = s.dst := by
    rw [hmoved.1]
    rfl
  rw [hdst]
  exact congrArg (fun u : State => { u with dst := handedOn r s x s.dst }) hmoved.1

theorem commitServe_eq : (∀ e d, commitRefused s x (commitReq q) = some (e, d) → commitServe q x s = answer q e d [] s) ∧
    (commitRefused s x (commitReq q) = none → commitServe q x s = commitAccept x.h q.src q.seq (commitReq q) s) := by
  have hserve : commitServe q x s = match commitRefused s x (commitReq q) with
    | some e => refuse q e.1 e.2 s
    | none => commitAccept x.h q.src q.seq (commitReq q) s := rfl
  refine ⟨fun e d h => ?_, fun h => ?_⟩
  · rw [hserve, h]
    rfl
  · rw [hserve, h]

/-- The transaction that a request names stands under its own handle. -/
theorem namesOpen_same (h : NamesOpen s q x) : txn? s x.h = some x := by
  obtain ⟨hx, -, -⟩ := h
  have hh : x.h = par q 8 2 := by simpa using List.find?_some hx
  rw [hh]
  exact hx

theorem txnAborted_open (hopen : NamesOpen s q x) (hsrc : x.src = none) (hstaged : s.dst.staged = none) (hflight : s.dst.inflight = none) :
    txnAborted q s = answer q .ok 0 [] (pagesStaged (txnEnd x.h .aborted s)) := by
  obtain ⟨hx, hexp, hst⟩ := hopen
  have hdst : { s with dst := { s.dst with
      staged := s.dst.staged.filter fun c => c.txn != x.h, inflight := s.dst.inflight.filter fun c => c.txn != x.h || c.written != 0 } } = s := by
    rw [hstaged, hflight]
    exact congrArg (fun d : Option Commit × Option Commit => { s with dst := { s.dst with staged := d.1, inflight := d.2 } })
      (show (none, none) = (s.dst.staged, s.dst.inflight) from Prod.ext hstaged.symm hflight.symm)
  rw [txnAborted, onTxn_known _ hx hexp, if_pos (by rw [abortMay, hst]), txnAbort, hdst, hsrc]
  rfl

theorem txnAborted_late (hx : txn? s (par q 8 2) = some x) (hexp : x.expired = false) (hst : x.st = .applying ∨ x.st = .done ∨ x.st = .aborted) :
    txnAborted q s = answer q .txnState (txnNum x.st) [] s := by
  have hmay : abortMay s x = false := by
    obtain h | h | h := hst
    · rw [abortMay, h]
    · rw [abortMay, h]
    · rw [abortMay, h]
  rw [txnAborted, onTxn_known _ hx hexp, if_neg (by rw [hmay]; decide)]
  rfl

end

/-- Settles O46. -/
theorem transactionCommands : Obligations.TransactionCommands := by
  refine ⟨?opened, fun x rs t => rfl, ?stage, ?dma, ?commit, ?abort, ?named⟩
  case opened =>
    rintro src q s t ⟨hready, rfl⟩
    have hexec : exec (.txnOpen src) s = .next (txnOpened q (dropTaken q s)) := served_body _ ⟨hready, rfl⟩ rfl
    rw [hexec]
    refine ⟨fun h => congrArg _ (if_pos h), fun h => ⟨txnHandle (dropTaken q s), congrArg _ (if_neg (Nat.not_le.mpr h)), fun hlo hhi hfew => ?_⟩⟩
    exact txnHandle_spec (s := dropTaken q s) hlo hfew
  case stage =>
    rintro src q s t x ⟨hready, rfl⟩ hopen
    have hexec : exec (.txnStage src) s = .next (onOpen q (stageBody q (q.msg.drop 12)) (dropTaken q s)) := served_body _ ⟨hready, rfl⟩ rfl
    rw [hexec, onOpen_open (x := x) (s := dropTaken q s) _ hopen]
    exact ⟨fun rs hrs => congrArg _ (stageBody_ok hrs), fun e d he => congrArg _ (stageBody_error he)⟩
  case dma =>
    rintro src q s t ⟨hready, rfl⟩
    have hexec (data : Option (List Byte)) : exec (.txnStageDma src data) s = .next (txnDma data q (dropTaken q s)) := served_body _ ⟨hready, rfl⟩ rfl
    refine ⟨fun data h => (hexec data).trans (congrArg _ ((txnDma_eq (x := { h := 0 }) data).1 h)),
      fun data h hbad => (hexec data).trans (congrArg _ ((txnDma_eq (x := { h := 0 }) data).2.1 h hbad)), fun x h hlo hhi hopen => ?_⟩
    have hdata (data : Option (List Byte)) := (hexec data).trans (congrArg _ ((txnDma_eq (s := dropTaken q s) data).2.2 h hlo hhi hopen))
    exact ⟨hdata none, fun bs rs hrs => (hdata (some bs)).trans (congrArg _ (stageBody_ok hrs))⟩
  case commit =>
    rintro src q s t r ⟨hready, rfl⟩ rfl
    have hexec : exec (.txnCommit src) s = .next (txnCommitted q (dropTaken q s)) := served_body _ ⟨hready, rfl⟩ rfl
    have hbad := txnCommitted_bad (q := q) (s := dropTaken q s)
    rw [hexec]
    refine ⟨fun h => congrArg _ (hbad.1 h), fun h0 h3 => congrArg _ (hbad.2.1 h0 h3), fun h1 hfar => congrArg _ (hbad.2.2 h1 hfar), fun x hgood hopen => ?_⟩
    rw [txnCommitted_open (s := dropTaken q s) hgood hopen]
    obtain ⟨hrefused, haccepted⟩ := commitServe_eq (q := q) (s := dropTaken q s) (x := x)
    refine ⟨fun e d h => congrArg _ (hrefused e d h), fun h => ?_⟩
    obtain ⟨u, y, hu, hframe, hhandles, hlast, hrecs, hst, hsrc, hpersist, htick⟩ := commitAccept_spec q.src q.seq (commitReq q) (namesOpen_same (s := dropTaken q s) hopen)
    exact ⟨u, y, congrArg _ ((haccepted h).trans hu), hframe, hhandles, hlast, hrecs, hst, hsrc, hpersist, htick⟩
  case abort =>
    rintro src q s t ⟨hready, rfl⟩
    have hexec : exec (.txnAbort src) s = .next (txnAborted q (dropTaken q s)) := served_body _ ⟨hready, rfl⟩ rfl
    rw [hexec]
    refine ⟨fun x hopen hsrc hstaged hflight => congrArg _ (txnAborted_open (s := dropTaken q s) hopen hsrc hstaged hflight), fun x hx hexp hst => congrArg _ ?_⟩
    exact txnAborted_late (s := dropTaken q s) hx hexp hst
  case named =>
    rintro op hop src q s t ⟨hready, rfl⟩
    have hnamed : ∃ body, exec (op.1 src) s = .next (onTxn q false body (dropTaken q s)) ∧
        ∀ x u, x.st = .done → body x u = answer q .txnState 5 [] u := by
      simp only [List.mem_cons, List.not_mem_nil, or_false] at hop
      obtain rfl | rfl := hop
      · refine ⟨_, served_body _ ⟨hready, rfl⟩ rfl, fun x u hst => ?_⟩
        rw [hst]
        rfl
      · refine ⟨_, served_body _ ⟨hready, rfl⟩ rfl, fun x u hst => ?_⟩
        rw [abortMay, hst]
        rfl
    obtain ⟨body, hexec, hdone⟩ := hnamed
    exact ⟨fun h => hexec.trans (congrArg _ (onTxn_unknown (s := dropTaken q s) body h)),
      fun x h hexp => hexec.trans (congrArg _ (onTxn_expired (s := dropTaken q s) body h hexp)),
      fun x h hexp hst => hexec.trans (congrArg _ ((onTxn_known (s := dropTaken q s) body h hexp).trans (hdone x _ hst)))⟩

end Sys2Proof.Machine
end

section
/-!
Image commands (O47).
-/

set_option Elab.async false

namespace Sys2Proof.Machine

section

variable {q : Req} {s : State}

theorem imgPut_kept {bs : List Byte} {w : ImgWrite} (hw : s.dst.imgWrite = some w) (hfit : par q 8 4 + bs.length ≤ w.size) :
    imgPut q bs s = answer q .ok 0 (leBytes 4 (((addRange (par q 8 4) bs.length w.ranges).map Prod.snd).sum)) { s with dst := { s.dst with
      imgWrite := some { w with ranges := addRange (par q 8 4) bs.length w.ranges }
      waiting := s.dst.waiting ++ imageUnits (bs.length / 32768 + 2) (par q 8 4) bs } } := by
  rw [imgPut, hw]
  exact if_neg (Nat.not_lt.mpr hfit)

theorem imgPut_past {bs : List Byte} {w : ImgWrite} (hw : s.dst.imgWrite = some w) (hpast : w.size < par q 8 4 + bs.length) :
    imgPut q bs s = answer q .badParam 8 [] s := by
  rw [imgPut, hw]
  exact if_pos hpast

/-- The checks of IMG_WRITE_DMA, in their order. -/
theorem imgDma_eq (data : Option (List Byte)) (q : Req) (s : State) : imgDma data q s =
    if spiSelected s then answer q .linkDenied 0 [] s
    else if imgPast q (par q 12 4) s then answer q .badParam 8 [] s
    else if par q 12 4 = 0 ∨ 65536 < par q 12 4 then answer q .badParam 12 [] s
    else hostData q data (fun bs u => imgPut q (bs.take (par q 12 4)) u) s := rfl

theorem imgPast_eq {w : ImgWrite} (n : Nat) (hw : s.dst.imgWrite = some w) : imgPast q n s = decide (w.size < par q 8 4 + n) := by
  rw [imgPast, hw]
  rfl

/-- The image is whole: its slot takes TRIAL or BAD. -/
theorem imgEnd_whole {w : ImgWrite} (hw : s.dst.imgWrite = some w) (hwhole : bytesWritten w = w.size) : imgEnd q s =
    if authentic (slotMem s.dst w.slotB) then answer q .ok 0 [] (setSys (fun y => { y with imgUpdated := true })
      (changeCtl (fun c => { setSlot w.slotB .trial c with tries := 0 }) (setDst (fun d => { d with imgWrite := none }) s)))
    else answer q .authFail 0 [] (changeCtl (setSlot w.slotB .bad) (setDst (fun d => { d with imgWrite := none }) s)) := by
  rw [imgEnd, hw]
  exact if_neg (by simp [hwhole])

theorem imgEnd_notWhole (h : s.dst.imgWrite.any (fun w => bytesWritten w == w.size) = false) : ∃ d, imgEnd q s = answer q .slotState d [] s := by
  rw [imgEnd]
  split
  · exact ⟨_, rfl⟩
  · next w hw =>
    rw [hw, Option.any_some] at h
    exact ⟨_, if_pos (by rw [bne, h]; rfl)⟩

end

/-- Settles O47. -/
theorem imageCommands : Obligations.ImageCommands := by
  refine ⟨?begin, ?write, ?dma, ?ended, ?confirm⟩
  case begin =>
    rintro src q s t b ⟨hready, rfl⟩ hb
    have hexec : exec (.imgBegin src) s = .next (imgBegin q (dropTaken q s)) := served_body _ ⟨hready, rfl⟩ rfl
    rw [hexec]
    refine ⟨fun h => congrArg _ (if_pos h), fun h => ⟨_, congrArg _ ?_, rfl⟩⟩
    have hspare : spareSlot (dropTaken q s) = b := hb.symm
    rw [imgBegin, if_neg (Nat.not_lt.mpr h), hspare]
    cases b with
    | true => rfl
    | false => rfl
  case write =>
    rintro src q s t bs ⟨hready, rfl⟩ rfl
    have hexec : exec (.imgWrite src) s = .next (imgPut q ((q.msg.drop 12).take 240) (dropTaken q s)) := served_body _ ⟨hready, rfl⟩ rfl
    rw [hexec]
    refine ⟨fun w hw hfit => ⟨_, congrArg _ (imgPut_kept (s := dropTaken q s) hw hfit), rfl⟩,
      fun w hw hpast => congrArg _ (imgPut_past (s := dropTaken q s) hw hpast), fun hnone => ⟨slotNum (slotState s.dst.ctl (spareSlot s)), congrArg _ ?_⟩⟩
    rw [imgPut, show (dropTaken q s).dst.imgWrite = none from hnone]
    rfl
  case dma =>
    rintro src q s t n ⟨hready, rfl⟩ rfl
    have hexec (data : Option (List Byte)) : exec (.imgWriteDma src data) s = .next (imgDma data q (dropTaken q s)) := served_body _ ⟨hready, rfl⟩ rfl
    refine ⟨fun data hspi => ?_, fun data w hspi hw hpast => ?_, fun data hspi hpast hn => ?_, fun hspi hpast hlo hhi => ?_, fun w bs hspi hlo hhi hlen hw hfit => ?_⟩
    · rw [hexec, imgDma_eq]
      exact congrArg _ (if_pos hspi)
    · rw [hexec, imgDma_eq, imgPast_eq (s := dropTaken q s) _ hw, decide_eq_true hpast]
      exact congrArg _ ((if_neg (Bool.eq_false_iff.mp hspi)).trans (if_pos rfl))
    · rw [hexec, imgDma_eq]
      exact congrArg _ ((if_neg (Bool.eq_false_iff.mp hspi)).trans ((if_neg (Bool.eq_false_iff.mp hpast)).trans (if_pos hn)))
    · rw [hexec, imgDma_eq]
      exact congrArg _ ((if_neg (Bool.eq_false_iff.mp hspi)).trans ((if_neg (Bool.eq_false_iff.mp hpast)).trans (if_neg (by omega))))
    · have hput := imgPut_kept (q := q) (s := dropTaken q s) (bs := bs) hw (hlen.symm ▸ hfit)
      rw [hlen] at hput
      refine ⟨_, ?_, rfl⟩
      rw [hexec, imgDma_eq, imgPast_eq (s := dropTaken q s) _ hw, decide_eq_false (Nat.not_lt.mpr hfit)]
      refine congrArg _ ((if_neg (Bool.eq_false_iff.mp hspi)).trans ((if_neg Bool.false_ne_true).trans ((if_neg (by omega)).trans ?_)))
      rw [hostData, List.take_of_length_le (by omega)]
      exact hput
  case ended =>
    rintro src q s t ⟨hready, rfl⟩ hleft
    have hexec : exec (.imgEnd src) s = .next (imgEnd q (dropTaken q s)) :=
      served_body imgEnd ⟨hready, rfl⟩ (if_neg (Bool.eq_false_iff.mp hleft))
    rw [hexec]
    refine ⟨fun w hw hwhole => ?_, fun h => ?_⟩
    · rw [imgEnd_whole (s := dropTaken q s) hw hwhole]
      cases hauth : authentic (slotMem s.dst w.slotB) with
      | true => exact ⟨_, congrArg _ (if_pos hauth), rfl⟩
      | false => exact ⟨_, congrArg _ (if_neg (Bool.eq_false_iff.mp hauth)), rfl⟩
    · obtain ⟨d, hd⟩ := imgEnd_notWhole (q := q) (s := dropTaken q s) h
      exact ⟨d, congrArg _ hd⟩
  case confirm =>
    rintro src q s t b ⟨hready, rfl⟩ hb
    have hexec : exec (.imgConfirm src) s = .next (imgConfirm q (dropTaken q s)) := served_body _ ⟨hready, rfl⟩ rfl
    have hconfirm : imgConfirm q (dropTaken q s) = if slotState s.dst.ctl b = .trial then
        answerOk q [] (changeCtl (fun c => { setSlot b .good c with active := b, tries := 0 }) (dropTaken q s))
      else refuse q .slotState (slotNum (slotState s.dst.ctl b)) (dropTaken q s) := by
      rw [imgConfirm, show (dropTaken q s).dst.booted = some b from hb]
      rfl
    rw [hexec, hconfirm]
    refine ⟨fun h => ⟨_, congrArg _ (if_pos h), rfl⟩, fun h => ⟨_, congrArg _ (if_neg h)⟩⟩

end Sys2Proof.Machine
end

section
/-!
Ply and roving commands (O48).
-/

set_option Elab.async false

namespace Sys2Proof.Machine

section

variable {q : Req} {s : State}

theorem onPly_eq (body : Nat → State → State) : (7 < par q 8 1 → onPly q body s = answer q .badParam 8 [] s) ∧
    (par q 8 1 ≤ 7 → onPly q body s = body (par q 8 1) s) :=
  ⟨fun h => if_pos h, fun h => if_neg (Nat.not_lt.mpr h)⟩

/-- A change to a ply that no one holds, else BUSY. -/
theorem postFree (k : Nat) (c : PlyChange) : (if !plyFree s k then refuse q .busy 0 s else answerOk q [] (postChange k c s)) =
    if plyFree s k then answer q .ok 0 [] (s.setPly k fun p => { p with chg := some c }) else answer q .busy 0 [] s := by
  cases hfree : plyFree s k with
  | false => rfl
  | true =>
    rw [plyFree, Bool.and_eq_true, Option.isNone_iff_eq_none] at hfree
    exact congrArg (answer q .ok 0 []) (postChange_free c hfree.2)

theorem plyIncr_range {k : Nat} : (par q 16 8 < 4209067950 ∨ 4380866641 < par q 16 8 → plyIncr q k s = answer q .badParam 16 [] s) ∧
    (4209067950 ≤ par q 16 8 → par q 16 8 ≤ 4380866641 → plyIncr q k s = if plyFree s k then
      answer q .ok 0 [] (s.setPly k fun p => { p with chg := some { at' := s.ply.reel + 1, step := none, incr := some (par q 16 8) } })
      else answer q .busy 0 [] s) := by
  unfold plyIncr incrLo incrHi
  refine ⟨fun h => if_pos h, fun hlo hhi => ?_⟩
  dsimp only
  rw [if_neg (by omega)]
  exact postFree k _

/-- An instant that a command names. -/
theorem tickRefused_eq (n near off : Nat) : (n < s.ply.reel.toNat + near → tickRefused s n near off = some (.epochPast, 0)) ∧
    (s.ply.reel.toNat + near ≤ n → s.ply.reel.toNat + 10000000000 < n → tickRefused s n near off = some (.badParam, off)) ∧
    (s.ply.reel.toNat + near ≤ n → n ≤ s.ply.reel.toNat + 10000000000 → tickRefused s n near off = none) :=
  ⟨fun h => if_pos h, fun h hfar => (if_neg (Nat.not_lt.mpr h)).trans (if_pos hfar),
    fun h hfar => (if_neg (Nat.not_lt.mpr h)).trans (if_neg (Nat.not_lt.mpr hfar))⟩

/-- PLY_STEP past the checks of its parameters but the instant. -/
theorem plyStep_eq {k : Nat} (hdir : par q 9 1 ≤ 1) (hsec : par q 16 8 < 2 ^ 48) (hns : par q 24 4 ≤ 999999999) : plyStep q k s =
    match (if par q 32 8 = 0 then none else tickRefused s (par q 32 8) 1000 32) with
    | some e => refuse q e.1 e.2 s
    | none => if !plyFree s k then refuse q .busy 0 s else answerOk q [] (postChange k {
        at' := if par q 32 8 = 0 then s.reel + 1 else BitVec.ofNat 64 (par q 32 8), step := some (par q 9 1 == 1, par q 16 8, par q 24 4), incr := none } s) := by
  unfold plyStep
  dsimp only
  rw [if_neg (by omega), if_neg (by omega), if_neg (by omega)] <;> rfl

theorem hankWrite_eq (data : Option (List Byte)) :
    (spiSelected s = true → hankWrite data q s = answer q .linkDenied 0 [] s) ∧
    (∀ o, spiSelected s = false → hankBad q = some o → hankWrite data q s = answer q .badParam o [] s) ∧
    (spiSelected s = false → hankBad q = none → hankWrite data q s = if s.rov.ready.getLsbD (par q 8 1) then answer q .busy 0 [] s
      else hostData q data (fun bs u => answer q .ok 0 [] (hankPut q bs u)) s) := by
  unfold hankWrite needPcie
  refine ⟨fun h => if_pos h, fun o h hbad => (if_neg (Bool.eq_false_iff.mp h)).trans ?_, fun h hgood => (if_neg (Bool.eq_false_iff.mp h)).trans ?_⟩
  · rw [hbad]
    rfl
  · rw [hgood]
    rfl

theorem hankBad_eq : (31 < par q 8 1 → hankBad q = some 8) ∧
    (par q 8 1 ≤ 31 → par q 12 4 % 4 ≠ 0 ∨ 131072 ≤ par q 12 4 → hankBad q = some 12) ∧
    (par q 8 1 ≤ 31 → par q 12 4 % 4 = 0 → par q 16 4 % 4 = 0 → 4 ≤ par q 16 4 → par q 12 4 + par q 16 4 ≤ 131072 → hankBad q = none) := by
  unfold hankBad
  refine ⟨fun h => if_pos h, fun h hoff => ?_, fun h hoff hlen hlo hhi => ?_⟩
  · exact (if_neg (by omega)).trans (if_pos hoff)
  · exact (if_neg (by omega)).trans ((if_neg (by omega)).trans (if_neg (by omega)))

/-- ROV_START with an entry that no hank ready holds. -/
theorem rovStart_bad (h : 4194304 ≤ par q 8 4 ∨ par q 8 4 % 8 ≠ 0 ∨ s.rov.ready.getLsbD (par q 8 4 / 131072) = false) :
    rovStart q s = answer q .badParam 8 [] s := by
  refine if_pos ?_
  obtain h | h | h := h
  · exact .inl h
  · exact .inr (.inl h)
  · by_cases hlt : par q 8 4 < 4194304
    · refine .inr (.inr ?_)
      rw [hankReady, hankOf, Nat.mod_eq_of_lt (by omega), h]
      rfl
    · exact .inl (Nat.not_lt.mp hlt)

theorem rovStart_entry (hlt : par q 8 4 < 4194304) (halign : par q 8 4 % 8 = 0) (hready : s.rov.ready.getLsbD (par q 8 4 / 131072) = true) :
    rovStart q s = match (if par q 16 8 = 0 then none else tickRefused s (par q 16 8) 10000 16) with
      | some e => refuse q e.1 e.2 s
      | none =>
        if s.rov.running || s.rov.startAt.isSome then refuse q .busy 0 s
        else if par q 16 8 = 0 then answerOk q [] (rovBegin (par q 8 4) s)
        else answerOk q [] (setRov (fun r => { r with startAt := some (BitVec.ofNat 64 (par q 16 8)), pc := par q 8 4 }) s) := by
  have hentry : hankReady s (par q 8 4) = true := by
    rw [hankReady, hankOf, Nat.mod_eq_of_lt (by omega), hready]
  have hgood : ¬ (4194304 ≤ par q 8 4 ∨ par q 8 4 % 8 ≠ 0 ∨ (!hankReady s (par q 8 4)) = true) := by
    rw [hentry]
    simp only [Bool.not_true, Bool.false_eq_true, or_false]
    omega
  unfold rovStart
  exact if_neg hgood

end

/-- Settles O48. -/
theorem deviceCommands : Obligations.DeviceCommands := by
  refine ⟨?incr, ?step, ?write, ?ready, ?start, ?stop⟩
  case incr =>
    rintro src q s t k i ⟨hready, rfl⟩ rfl rfl
    have hexec : exec (.plyIncr src) s = .next (onPly q (plyIncr q) (dropTaken q s)) := served_body _ ⟨hready, rfl⟩ rfl
    obtain ⟨hbad, hgood⟩ := onPly_eq (q := q) (s := dropTaken q s) (plyIncr q)
    rw [hexec]
    refine ⟨fun h => congrArg _ (hbad h), fun hk hi => ?_, fun hk hlo hhi => ?_⟩
    · rw [hgood hk, plyIncr_range.1 hi]
    · rw [hgood hk, plyIncr_range.2 hlo hhi]
      exact apply_ite Host.Outcome.next _ _ _ |>.trans (apply_ite Host.Outcome.next _ _ _).symm
  case step =>
    rintro src q s t k sec ns at_ ⟨hready, rfl⟩ rfl rfl rfl rfl
    have hexec : exec (.plyStep src) s = .next (onPly q (plyStep q) (dropTaken q s)) := served_body _ ⟨hready, rfl⟩ rfl
    obtain ⟨hbad, hgood⟩ := onPly_eq (q := q) (s := dropTaken q s) (plyStep q)
    rw [hexec]
    refine ⟨fun h => congrArg _ (hbad h), fun hk h => ?_, fun hk hdir h => ?_, fun hk hdir hsec h => ?_, fun hk hdir hsec hns => ?_⟩
    · rw [hgood hk]
      exact congrArg _ (if_pos h)
    · rw [hgood hk]
      exact congrArg _ ((if_neg (by omega)).trans (if_pos h))
    · rw [hgood hk]
      exact congrArg _ ((if_neg (by omega)).trans ((if_neg (by omega)).trans (if_pos h)))
    · obtain ⟨hpast, hfar, hnear⟩ := tickRefused_eq (s := dropTaken q s) (par q 32 8) 1000 32
      rw [hgood hk, plyStep_eq hdir hsec hns]
      refine ⟨fun h0 h => ?_, fun h => ?_, fun h => ?_⟩
      · rw [if_neg h0, hpast h]
        rfl
      · have hle : (dropTaken q s).ply.reel.toNat + 1000 ≤ par q 32 8 := by
          show s.ply.reel.toNat + 1000 ≤ _
          omega
        rw [if_neg (by omega), hfar hle h]
        rfl
      · have hnone : (if par q 32 8 = 0 then none else tickRefused (dropTaken q s) (par q 32 8) 1000 32) = none := by
          obtain h | ⟨hlo, hhi⟩ := h
          · exact if_pos h
          · rw [hnear hlo hhi, ite_self]
        rw [hnone]
        exact congrArg _ (postFree _ _)
  case write =>
    rintro src q s t h off len ⟨hready, rfl⟩ rfl rfl rfl
    have hexec (data : Option (List Byte)) : exec (.rovHankWrite src data) s = .next (hankWrite data q (dropTaken q s)) := served_body _ ⟨hready, rfl⟩ rfl
    obtain ⟨hhank, hoff, hgood⟩ := hankBad_eq (q := q)
    refine ⟨fun data hspi => ?_, fun data hspi h => ?_, fun data hspi hk h => ?_, fun hspi hk ho hl hlo hhi => ⟨fun data h => ?_, fun bs h hlen => ?_⟩⟩
    · rw [hexec, (hankWrite_eq (s := dropTaken q s) data).1 hspi]
    · rw [hexec, (hankWrite_eq (s := dropTaken q s) data).2.1 _ hspi (hhank h)]
    · rw [hexec, (hankWrite_eq (s := dropTaken q s) data).2.1 _ hspi (hoff hk h)]
    · rw [hexec, (hankWrite_eq (s := dropTaken q s) data).2.2 hspi (hgood hk ho hl hlo hhi)]
      exact congrArg _ (if_pos h)
    · rw [hexec, (hankWrite_eq (s := dropTaken q s) _).2.2 hspi (hgood hk ho hl hlo hhi)]
      refine congrArg _ ((if_neg (Bool.eq_false_iff.mp h)).trans ?_)
      rw [hostData, hankPut, List.take_of_length_le (by omega)]
      rfl
  case ready =>
    rintro src q s t m ⟨hready, rfl⟩ rfl
    have hexec : exec (.rovHankReady src) s = .next (hankReadySet q (dropTaken q s)) := served_body _ ⟨hready, rfl⟩ rfl
    rw [hexec]
    exact ⟨fun h => congrArg _ (if_neg h), fun h => ⟨_, congrArg _ (if_pos h), rfl⟩⟩
  case start =>
    rintro src q s t entry at_ ⟨hready, rfl⟩ rfl rfl
    have hexec : exec (.rovStart src) s = .next (rovStart q (dropTaken q s)) := served_body _ ⟨hready, rfl⟩ rfl
    rw [hexec]
    refine ⟨fun h => congrArg _ (rovStart_bad (s := dropTaken q s) h), fun hlt halign hhank => ?_⟩
    obtain ⟨hpast, -, hnear⟩ := tickRefused_eq (s := dropTaken q s) (par q 16 8) 10000 16
    rw [rovStart_entry (s := dropTaken q s) hlt halign hhank]
    refine ⟨fun h0 h => ?_, fun h0 hrun => ?_, fun h0 hrun hat => ?_, fun hlo hhi hrun hat => ?_⟩
    · rw [if_neg h0, hpast h]
      rfl
    · rw [if_pos h0]
      exact congrArg _ (if_pos (Bool.or_eq_true_iff.mpr (.inl hrun)))
    · rw [if_pos h0]
      exact congrArg _ ((if_neg (by rw [show (dropTaken q s).rov.running = false from hrun, show (dropTaken q s).rov.startAt = none from hat]; decide)).trans
        (if_pos h0))
    · rw [hnear hlo hhi, ite_self]
      exact congrArg _ ((if_neg (by rw [show (dropTaken q s).rov.running = false from hrun, show (dropTaken q s).rov.startAt = none from hat]; decide)).trans
        (if_neg (by omega)))
  case stop => exact fun src q s t hserved => served_body _ hserved rfl

end Sys2Proof.Machine
end

section
/-!
The whorl's schedule: lea boundaries, slots, their end and their releases (O49).
-/

set_option Elab.async false

namespace Sys2Proof.Machine

section

variable {s t : State} {k : Fin 4}

/-! ### Lea boundaries -/

theorem switchLea_kept {k b : Nat} (h : (s.strand k).pend = none) : switchLea k b s = s := by
  unfold switchLea
  rw [h]

theorem resumeHeld_brace {k : Nat} (h : s.sys.mode = .brace) : resumeHeld k s = s := if_pos h

theorem resumeHeld_touches (k : Nat) (s : State) : Touches { whl := true } s (resumeHeld k s) := by
  unfold resumeHeld
  exact .ite (.refl _ s) (.foldl (fun _ _ h => .ite (.setSpindle h) h) (.refl _ s))

/-- What of the whorl stands while a strand comes to its boundary. -/
def slotKept (s : State) : Option Slot × List Release := (s.whl.slot, s.whl.releases)

theorem resumeHeld_slotKept (k : Nat) (s : State) : slotKept (resumeHeld k s) = slotKept s := by
  unfold resumeHeld
  split
  · rfl
  · refine foldl_keeps slotKept (fun u n => ?_) _ s
    split
    · rfl
    · rfl

/-- Strand 0 has no strand before it to measure against. -/
theorem measurePhase_first (b : Nat) (s : State) : measurePhase 0 b s = s := rfl

/-- The fault log takes an entry: only it and its count of lost entries change. -/
theorem pushFlog_eq (e : FlogEntry) (w : Whl) : pushFlog e w = { w with flog := (pushFlog e w).flog, flost := (pushFlog e w).flost } := by
  unfold pushFlog
  split
  · rfl
  · rfl

theorem pushFlog_flog (e : FlogEntry) (v w : Whl) (hlog : v.flog = w.flog) : (pushFlog e v).flog = (pushFlog e w).flog := by
  unfold pushFlog
  rw [hlog]
  split
  · rfl
  · rfl

theorem measurePhase_touches (k b : Nat) (s : State) :
    Touches { regs := true, sys := true, stw := true, whl := true } s (measurePhase k b s) := by
  unfold measurePhase
  split
  · split
    · exact .refl _ s
    · exact .ite (.logFault (.raiseLine (.setWhl (.setBits (.setStrand (.refl _ s)))))) (.setStrand (.refl _ s))
  · exact .refl _ s

theorem measurePhase_slotKept (k b : Nat) (s : State) : slotKept (measurePhase k b s) = slotKept s := by
  unfold measurePhase
  split
  · split
    · rfl
    · simp only
      split
      · exact congrArg (fun w => (w.slot, w.releases)) (pushFlog_eq _ _)
      · rfl
  · rfl

/-- A strand at its boundary, its lea as it was. -/
def boundaryMet (k : Nat) (b : Nat) (s : State) : State :=
  measurePhase k b ((resumeHeld k s).setStrand k fun st => { st with on := true, boundary := BitVec.ofNat 64 b, next := 0, collided := false })

theorem boundaryMet_touches (k b : Nat) (s : State) :
    Touches { regs := true, sys := true, stw := true, whl := true } s (boundaryMet k b s) :=
  (Touches.setStrand (Touches.widen (resumeHeld_touches k s) rfl) rfl).trans (measurePhase_touches k b _)

theorem boundaryMet_slotKept (k b : Nat) (s : State) : slotKept (boundaryMet k b s) = slotKept s :=
  (measurePhase_slotKept k b _).trans (resumeHeld_slotKept k s)

theorem reachTick_slotKept (a : Tick) (s : State) : slotKept (reachTick a s) = slotKept s := by
  rw [slotKept, Touches.same_whl (.reachTick (.refl { ply := true } s)) rfl]
  rfl

theorem strand_of_whl {k : Nat} (h : t.whl = s.whl) : t.strand k = s.strand k := by
  rw [State.strand, State.strand, h]

theorem reachTick_strand (a : Tick) (s : State) (k : Nat) : (reachTick a s).strand k = s.strand k :=
  strand_of_whl (Touches.same_whl (.reachTick (.refl { ply := true } s)) rfl)

/-- The commands of a lea boundary: a strand that runs. -/
theorem exec_leaBoundary_run {b : Nat} (ht : t = plyFirst k s) (hrun : (t.strand k).run = true) (hb : nextBoundary t k = some b) :
    exec (.leaBoundary k) s = .next (if (t.strand k).stopping then strandStop k (reachTick (BitVec.ofNat 64 b) t)
      else measurePhase k b ((resumeHeld k (switchLea k b (reachTick (BitVec.ofNat 64 b) t))).setStrand k fun st =>
        { st with on := true, boundary := BitVec.ofNat 64 b, next := 0, collided := false })) := by
  subst ht
  show execLeaBoundary k s = _
  rw [execLeaBoundary]
  simp only [hrun, hb, Bool.not_true, Bool.false_eq_true, if_false, reachTick_strand]
  split
  · rfl
  · rfl

theorem exec_leaBoundary_idle (ht : t = plyFirst k s) (h : (t.strand k).run = false ∨ nextBoundary t k = none) :
    exec (.leaBoundary k) s = .next t := by
  subst ht
  show execLeaBoundary k s = _
  rw [execLeaBoundary]
  rcases h with h | h
  · rw [h]
    rfl
  · simp only [h]
    split
    · rfl
    · rfl

theorem exec_leaBoundary_met {b : Nat} (ht : t = plyFirst k s) (hrun : (t.strand k).run = true) (hb : nextBoundary t k = some b)
    (hstop : (t.strand k).stopping = false) (hpend : (t.strand k).pend = none) :
    exec (.leaBoundary k) s = .next (boundaryMet k b (reachTick (BitVec.ofNat 64 b) t)) := by
  rw [exec_leaBoundary_run ht hrun hb, hstop, switchLea_kept ((congrArg Strand.pend (reachTick_strand _ _ _)).trans hpend)]
  rfl

/-! ### Slots -/

theorem slotStart_idle (h : dueSlot s k = none ∨ ∃ d, dueSlot s k = some d ∧ lowerFirst s k d.2.2 = true) :
    exec (.slotStart k) s = .next s := by
  show execSlotStart k s = _
  rw [execSlotStart]
  rcases h with h | ⟨⟨i, d, at'⟩, hdue, hlow⟩
  · rw [h]
  · rw [hdue]
    exact if_pos hlow

section

variable {i at_ : Nat} {d : SlotDef} (hdue : dueSlot s k = some (i, d, at_)) (hlow : lowerFirst s k at_ = false)
  (ht : t = reachTick (BitVec.ofNat 64 at_) s)

include hdue hlow ht

theorem slotStart_due : exec (.slotStart k) s = .next (if t.whl.slot.isSome then
      (if (t.strand k).collided then t else (t.count 0x4002000C 1).setStrand k fun st => { st with collided := true })
    else
      let t1 := (clearHold d.spindle t).setStrand k fun st => { st with next := i + 1, collided := false }
      if (t1.spindle d.spindle).st == .idle then slotBegin k i d at_ t1 else t1) := by
  subst ht
  show execSlotStart k s = _
  rw [execSlotStart, hdue]
  refine (if_neg (by rw [hlow]; exact Bool.false_ne_true)).trans ?_
  simp only
  split
  · split
    · rfl
    · rfl
  · split
    · rfl
    · rfl

theorem slotStart_behind (hslot : s.whl.slot.isSome = true) : exec (.slotStart k) s = .next (if (s.strand k).collided then t
    else (t.count 0x4002000C 1).setStrand k fun st => { st with collided := true }) := by
  have hwhl : t.whl = s.whl := ht ▸ Touches.same_whl (.reachTick (.refl { ply := true } s)) rfl
  rw [slotStart_due hdue hlow ht, if_pos (hwhl ▸ hslot), strand_of_whl hwhl]

theorem slotStart_free (hslot : s.whl.slot = none) : exec (.slotStart k) s = .next
    (let t1 := (clearHold d.spindle t).setStrand k fun st => { st with next := i + 1, collided := false }
      if (t1.spindle d.spindle).st == .idle then slotBegin k i d at_ t1 else t1) := by
  have hwhl : t.whl = s.whl := ht ▸ Touches.same_whl (.reachTick (.refl { ply := true } s)) rfl
  refine (slotStart_due hdue hlow ht).trans (congrArg _ (if_neg ?_))
  rw [hwhl, hslot]
  exact Bool.false_ne_true

end

theorem clearHold_kept {n : Nat} (h : bitOf (s.rd (holdClrReg n)) (n % 32) = false ∨ (s.spindle n).braceHeld = true) : clearHold n s = s := by
  refine if_neg ?_
  rcases h with h | h
  · simp [h]
  · simp [h]

theorem clearHold_held {n : Nat} (hbit : bitOf (s.rd (holdClrReg n)) (n % 32) = true) (hbrace : (s.spindle n).braceHeld = false)
    (hst : (s.spindle n).st = .hold) :
    clearHold n s = (s.setFld (holdClrReg n) (n % 32) 1 0).setSpindle n fun p => { p with st := .idle } := by
  refine (if_pos (by simp [hbit, hbrace])).trans (if_pos ?_)
  rw [hst]
  rfl

end

/-! ### The end of a slot -/

section

variable {s : State} {sl : Slot}

/-- A slot whose code came back in time. -/
theorem slotEnd_inTime (hslot : s.whl.slot = some sl) (hpc : sl.pc = 0xFFFFFFF0) (hreel : s.ply.reel ≤ sl.stop - 8) :
    exec .slotComplete s = .next (slotCommit sl s) ∧ exec .overrun s = .next s := by
  have hin : sl.pc = sentinel ∧ s.reel ≤ sl.stop - 8 := ⟨hpc, hreel⟩
  refine ⟨?_, ?_⟩
  · show execSlotComplete s = _
    rw [execSlotComplete, hslot]
    exact if_pos hin
  · show execOverrun s = _
    rw [execOverrun, hslot]
    exact if_pos hin

theorem slotEnd_late (hslot : s.whl.slot = some sl) (h : sl.pc ≠ 0xFFFFFFF0 ∨ sl.stop - 8 < s.ply.reel) :
    exec .slotComplete s = .next s ∧ exec .overrun s = .next (slotFail 1 0 sl (reachTick (sl.stop - 8) s)) := by
  have hout : ¬ (sl.pc = sentinel ∧ s.reel ≤ sl.stop - 8) := by
    rintro ⟨hpc, hreel⟩
    rcases h with h | h
    · exact h hpc
    · exact absurd h (BitVec.not_lt.mpr hreel)
  refine ⟨?_, ?_⟩
  · show execSlotComplete s = _
    rw [execSlotComplete, hslot]
    exact if_neg hout
  · show execOverrun s = _
    rw [execOverrun, hslot]
    exact if_neg hout

theorem slotEnd_none (h : s.whl.slot = none) : exec .slotComplete s = .next s ∧ exec .overrun s = .next s := by
  refine ⟨?_, ?_⟩
  · show execSlotComplete s = _
    rw [execSlotComplete, h]
  · show execOverrun s = _
    rw [execOverrun, h]

theorem slotCommit_eq (hbrace : (s.spindle sl.spindle).braceHeld = false) : ∃ t, slotCommit sl s = t ∧
    t = { s with whl := t.whl } ∧ t.whl.slot = none ∧ t.whl.enqBuf = sl.enq ∧ t.whl.data = s.whl.data ∧
    t.whl.spindles = Tab.upd (fun _ => {}) s.whl.spindles sl.spindle (fun p => { p with ctx := Tab.erase sl.g 31, st := .idle }) ∧
    t.whl.releases = s.whl.releases ++ [{ tick := sl.stop + 16, spindle := sl.spindle, entries := (sl.granted.map (fun g => Staged.grant g.1 g.2) ++
      sl.staged.filter (fun e => match e with | .tin _ => false | .grant _ _ => false | _ => true)) }] := by
  refine ⟨_, rfl, rfl, rfl, rfl, rfl, ?_, ?_⟩
  · rw [slotCommit, hbrace]
    rfl
  · rw [slotCommit, hbrace]
    simp only [Bool.false_eq_true, if_false, List.append_nil]
    rfl

/-- The spindle of a slot that failed, in HOLD. -/
def heldAt (sl : Slot) (s : State) : State :=
  s.setSpindle sl.spindle fun p => { p with st := .hold, braceHeld := false, overruns := min 65535 (p.overruns + 1) }

/-- What the fault log takes of it. -/
def failEntry (kind : Nat) (sl : Slot) (s : State) : FlogEntry := ⟨kind, sl.spindle, sl.index, if kind = 1 then sl.stop - 8 else s.ply.reel⟩

theorem slotFail_whl (kind sub : Nat) (hstaged : sl.staged = []) : ∃ es, (slotFail kind sub sl s).whl =
    { pushFlog (failEntry kind sl s) (heldAt sl s).whl with
      slot := none
      releases := (pushFlog (failEntry kind sl s) (heldAt sl s).whl).releases ++ [⟨sl.stop + 16, sl.spindle, es⟩] } := by
  have hdrop : dropReservations sl.staged s = s := by rw [hstaged]; rfl
  rw [slotFail, hdrop]
  exact ⟨_, rfl⟩

theorem slotFail_touches (kind sub : Nat) (hstaged : sl.staged = []) : Touches { whl := true, sys := true } s (slotFail kind sub sl s) := by
  have hdrop : dropReservations sl.staged s = s := by rw [hstaged]; rfl
  rw [slotFail, hdrop]
  exact .pushRelease (.setWhl (.logFault (.setWhl (.setSpindle (.refl _ s)))))

theorem slotFail_eq (kind sub : Nat) (hstaged : sl.staged = []) : ∃ t, slotFail kind sub sl s = t ∧ t = { s with whl := t.whl, sys := t.sys } ∧
    t.whl.slot = none ∧ t.whl.data = s.whl.data ∧ t.whl.tin = s.whl.tin ∧
    t.whl.spindles = Tab.upd (fun _ => {}) s.whl.spindles sl.spindle (fun p => { p with
      st := .hold, braceHeld := false, overruns := min 65535 (p.overruns + 1) }) ∧
    t.whl.flog = (pushFlog ⟨kind, sl.spindle, sl.index, if kind = 1 then sl.stop - 8 else s.ply.reel⟩ s.whl).flog ∧
    ∃ es, t.whl.releases = s.whl.releases ++ [⟨sl.stop + 16, sl.spindle, es⟩] := by
  obtain ⟨es, hwhl⟩ := slotFail_whl (s := s) kind sub hstaged
  have hflog := pushFlog_flog (failEntry kind sl s) (heldAt sl s).whl s.whl rfl
  rw [pushFlog_eq] at hwhl
  refine ⟨_, rfl, slotFail_touches kind sub hstaged, ?_⟩
  rw [hwhl]
  exact ⟨rfl, rfl, rfl, rfl, hflog, es, rfl⟩

end

/-! ### Releases -/

/-- The Reel comes to a tick, whatever the whorl holds. -/
theorem reachTick_setWhl (a : Tick) (f : Whl → Whl) (s : State) : reachTick a (setWhl f s) = setWhl f (reachTick a s) := by
  unfold reachTick
  rw [apply_ite (setWhl f)]
  rfl

theorem slotRelease_store {s : State} {r : Release} {pa n : Nat} {v : Word} (h : nextRelease s = some r) (hentries : r.entries = [.store pa n v])
    (hpa : pa < 0x100000) : exec .slotRelease s = .next (reachTick r.tick { s with whl := { s.whl with
      releases := s.whl.releases.erase r, data := s.whl.data.write pa (leBytes n v.toNat) } }) := by
  show Host.Outcome.next (releaseNext s) = _
  refine congrArg _ ?_
  rw [releaseNext, h]
  simp only [hentries, List.foldl_cons, List.foldl_nil]
  refine (if_pos (Nat.lt_trans hpa (by decide))).trans ?_
  exact (reachTick_setWhl r.tick _ _).symm

/-- Settles O49, clause by clause: a strand at its boundary, a slot's start, its end by completion or by failure, a release. -/
theorem whorlScheduleCommands : Obligations.WhorlScheduleCommands := by
  unfold Obligations.WhorlScheduleCommands
  refine ⟨?lea, fun s k h => slotStart_idle h, ?start, fun s n => ⟨clearHold_kept, clearHold_held⟩, ?inTime,
    fun s sl hslot h => slotEnd_late hslot h, fun s sl kind sub h => slotFail_eq kind sub h, fun s h => slotEnd_none h, ?noRelease,
    fun s r pa n v h hentries hpa => slotRelease_store h hentries hpa⟩
  case lea =>
    rintro s t k ht
    refine ⟨exec_leaBoundary_idle ht, fun b hrun hb => ⟨fun hstop => ?_, fun hk hstop hpend hbrace => ?_, fun hstop hpend => ?_⟩⟩
    · rw [exec_leaBoundary_run ht hrun hb, hstop]
      rfl
    · subst hk
      have hmode : (reachTick (BitVec.ofNat 64 b) t).sys.mode = .brace :=
        (congrArg Sys.mode (Touches.same_sys (.reachTick (.refl { ply := true } t)) rfl)).trans hbrace
      rw [exec_leaBoundary_met ht hrun hb hstop hpend, boundaryMet, resumeHeld_brace hmode]
      rfl
    · have hmet : Touches { regs := true, sys := true, stw := true, whl := true } (reachTick (BitVec.ofNat 64 b) t) (boundaryMet k b (reachTick (BitVec.ofNat 64 b) t)) :=
        boundaryMet_touches k b _
      have hslot := (boundaryMet_slotKept k b (reachTick (BitVec.ofNat 64 b) t)).trans (reachTick_slotKept (BitVec.ofNat 64 b) t)
      exact ⟨_, exec_leaBoundary_met ht hrun hb hstop hpend, Touches.same_ply hmet rfl, congrArg Prod.fst hslot, congrArg Prod.snd hslot,
        (Touches.reachTick (.refl { whl := true, ply := true, regs := true, stw := true, sys := true } t)).trans hmet⟩
  case start =>
    rintro s t u k i at_ d hdue hlow ht rfl
    refine ⟨slotStart_behind hdue hlow ht, fun hslot hst => ?_, fun hslot hst => ?_⟩
    · rw [slotStart_free hdue hlow ht hslot]
      exact congrArg _ (if_neg (by simpa using hst))
    · rw [slotStart_free hdue hlow ht hslot]
      exact ⟨_, congrArg _ (if_pos (by simpa using hst)), rfl, rfl, rfl, rfl, rfl, rfl, rfl, rfl, rfl, rfl⟩
  case inTime =>
    intro s sl hslot hpc hreel
    obtain ⟨hcommit, hover⟩ := slotEnd_inTime hslot hpc hreel
    refine ⟨hover, fun hbrace => ?_⟩
    rw [hcommit]
    obtain ⟨t, ht, hrest⟩ := slotCommit_eq hbrace
    exact ⟨t, congrArg _ ht, hrest⟩
  case noRelease =>
    intro s h
    show Host.Outcome.next (releaseNext s) = _
    rw [releaseNext, nextRelease, h]
    rfl

end Sys2Proof.Machine
end

section
/-!
The whorl's monitors: task inputs, pace, HOLD, the fault log, and a slot's window requests (O50).
-/

set_option Elab.async false

namespace Sys2Proof.Machine

section

variable {s : State}

theorem raiseLine_asserted (n : Nat) (hn : n < 32) (s : State) : bitOf (raiseLine n s).stw.ipend n = true := by
  rw [raiseLine_stw, bitOf, BitVec.getLsbD_or, BitVec.getLsbD_ofNat]
  simp [hn]

/-! ### Task inputs -/

theorem tinEvents_counted {n k c : Nat} (hc : c = Tab.get (fun _ => 0) s.whl.tin n) (h : c + k ≤ 255 ∨ bitOf (s.rd (0x40021000 + 4 * n)) 31 = true) :
    tinEvents n k s = { s with whl := { s.whl with tin := Tab.set (fun _ => 0) s.whl.tin n (min 255 (c + k)) } } := by
  subst hc
  exact if_pos (by simpa [tinAddr] using h)

theorem tinEvents_overflow {n k c : Nat} (hc : c = Tab.get (fun _ => 0) s.whl.tin n) (hk : 255 < c + k)
    (hbit : bitOf (s.rd (0x40021000 + 4 * n)) 31 = false) :
    ∃ t, tinEvents n k s = t ∧ t.whl.tin = Tab.set (fun _ => 0) s.whl.tin n 255 ∧ bitOf t.stw.ipend 3 = true ∧
      t.whl.flog = (pushFlog ⟨5, 0, 0, s.ply.reel⟩ s.whl).flog ∧
      t.regs = setReg s.regs (0x40021000 + 4 * n) (s.rd (0x40021000 + 4 * n) ||| 0x80000000) ∧
      t = { s with whl := t.whl, regs := t.regs, stw := { s.stw with ipend := t.stw.ipend }, sys := t.sys } := by
  have hover : ¬ (decide (Tab.get (fun _ => 0) s.whl.tin n + k ≤ 255) || bitOf (s.rd (tinAddr n)) 31) = true := by
    have hbit' : bitOf (s.rd (tinAddr n)) 31 = false := hbit
    simp only [← hc, hbit', Bool.or_false, decide_eq_true_eq]
    omega
  have hmin : min 255 (Tab.get (fun _ => 0) s.whl.tin n + k) = 255 := by omega
  refine ⟨_, if_neg hover, ?_, raiseLine_asserted 3 (by decide) _, pushFlog_flog _ _ _ rfl, rfl, rfl⟩
  show (pushFlog _ _).tin = _
  rw [pushFlog_eq, hmin]

/-! ### Pace and trim -/

theorem paceUpdate_down {s0 : State} {meas : List Nat} (hs : s = overrunFirst s0) (h : islandsUp s = false) :
    exec (.paceUpdate meas) s0 = .next s := by
  subst hs
  exact if_pos (by simp [h])

/-- PACE_UPDATE with the islands up: the measurements and the margin are kept, and a fall below the threshold is SLACK. -/
theorem paceUpdate_up {s0 : State} {meas : List Nat} (hs : s = overrunFirst s0) (h : islandsUp s = true) : ∃ p,
    exec (.paceUpdate meas) s0 = .next (
      let t := { s with
        whl := { s.whl with margin := paceM meas, above20 := if 2000 ≤ paceM meas then s.whl.above20 + 1 else 0 }
        sys := { s.sys with pace := p } }
      if (decide (paceM meas < (s.fld 0x40020008 0 16 : Int)) && (decide ((s.fld 0x40020008 0 16 : Int) ≤ s.whl.margin) || !bitOf (s.rd whlSlack) 31)) = true
      then slackNow t else t) := by
  subst hs
  exact ⟨_, if_neg (by simp [h])⟩

/-- SLACK is set, asserts its line, is logged, and takes VIDCODE to 56. -/
theorem slackNow_eq (s : State) : ∃ t, slackNow s = t ∧ t.whl.margin = s.whl.margin ∧ bitOf t.stw.ipend 3 = true ∧
    t.whl.flog = (pushFlog ⟨3, 0, 0, s.ply.reel⟩ s.whl).flog ∧
    t = { s with whl := t.whl, regs := t.regs, stw := { s.stw with ipend := t.stw.ipend }, sys := t.sys } :=
  ⟨_, rfl, (congrArg Whl.margin (pushFlog_eq _ s.whl) :), raiseLine_asserted 3 (by decide) _, rfl, rfl⟩

/-- VCORE_TRIM while the steward runs. -/
theorem vcoreTrim_runs (h : stewardRuns s = true) : exec .vcoreTrim s = .next (
    if s.whl.margin < 1500 then
      if s.fld 0x400E0008 0 6 < 56 then s.setFld 0x400E0008 0 6 (s.fld 0x400E0008 0 6 + 1)
      else if bitOf (s.rd 0x40020004) 30 then s
      else logFault 0x34 2 (leBytes 2 (BitVec.ofInt 16 s.whl.margin).toNat) (s.setBits 0x40020004 0x40000000)
    else if 1000 < s.whl.above20 ∧ 0 < s.fld 0x400E0008 0 6 then s.setFld 0x400E0008 0 6 (s.fld 0x400E0008 0 6 - 1)
    else s) := by
  show execVcoreTrim s = _
  rw [execVcoreTrim, h, if_neg (by decide)]
  simp only [apply_ite Host.Outcome.next]
  rfl

theorem holdClear_halves (m : BitVec 64) (s : State) :
    holdClear m.toNat s = (s.setBits 0x40020018 (m.setWidth 32)).setBits 0x4002001C ((m >>> 32).setWidth 32) := by
  have hlo : BitVec.ofNat 32 m.toNat = m.setWidth 32 := BitVec.ofNat_toNat 32 m
  have hhi : BitVec.ofNat 32 (m.toNat / 2 ^ 32) = (m >>> 32).setWidth 32 := by
    rw [← BitVec.ofNat_toNat 32 (m >>> 32), BitVec.toNat_ushiftRight, Nat.shiftRight_eq_div_pow]
  rw [holdClear, hlo, hhi]

/-! ### The window of the running slot -/

section

variable {sl : Slot} {i : Fin 8} {n b : Nat}

theorem winBobbin_some (hb : b = sl.profile.getD (2 + i) 0) (h : b < 65536) : winBobbin sl i = some b := by
  subst hb
  exact if_pos h

theorem winBobbin_none (hb : b = sl.profile.getD (2 + i) 0) (h : 65536 ≤ b) : winBobbin sl i = none := by
  subst hb
  exact if_neg (Nat.not_lt.mpr h)

theorem stage_full (e : Staged) (h : 512 ≤ sl.count) : stage e sl = .error cContract := if_neg (Nat.not_lt.mpr h)

theorem stage_room (e : Staged) (h : sl.count < 512) : stage e sl = .ok { sl with staged := sl.staged ++ [e], count := sl.count + 1 } := if_pos h

theorem winReq_error {e : Nat} (hb : b = sl.profile.getD (2 + i) 0) (hlt : b < 65536) (h : ∀ x, stage x sl = .error e) :
    winReq i n s sl = .error e := by
  rw [winReq, winBobbin_some hb hlt]
  simp only [h]

theorem winReq_ok {fs : List Frame} (hb : b = sl.profile.getD (2 + i) 0) (hlt : b < 65536) (hroom : sl.count < 512)
    (hfs : fs = (readyFrames s sl b).take (min (min n 16) (16 - sl.granted.length))) : winReq i n s sl = .ok { sl with
      staged := sl.staged ++ [.grant b fs.length], count := sl.count + 1, granted := sl.granted ++ fs.map (fun f => (b, f.id))
      got := Tab.set (fun _ => 0) sl.got i fs.length } := by
  subst hfs
  rw [winReq, winBobbin_some hb hlt]
  simp only [stage_room _ hroom]

/-- An enqueue of more than a buffer holds offers no frame. -/
theorem winEnqueue_long (hb : b = sl.profile.getD (2 + i) 0) (hlt : b < 65536) (hroom : sl.count < 512) (hn : 9216 < n) :
    winEnqueue i n s sl = .ok ({ sl with
      staged := sl.staged ++ [.grant b 0], count := sl.count + 1, txres := Tab.set (fun _ => 0) sl.txres i 0 }, s) := by
  rw [winEnqueue, winBobbin_some hb hlt]
  simp only [if_pos hn, stage_room _ hroom]

theorem winEnqueue_full (hb : b = sl.profile.getD (2 + i) 0) (hlt : b < 65536) (hfull : 512 ≤ sl.count) (hn : n ≤ 9216) :
    winEnqueue i n s sl = .error cContract := by
  rw [winEnqueue, winBobbin_some hb hlt]
  simp only [if_neg (Nat.not_lt.mpr hn), if_pos hfull]

theorem winEnqueue_ok {id : Nat} {ok : Bool} {u : State} (hb : b = sl.profile.getD (2 + i) 0) (hlt : b < 65536) (hroom : sl.count < 512)
    (hn : n ≤ 9216) (ho : offerInner 16 b (sl.enq.bytes 0 n) false s = (id, ok, u)) : winEnqueue i n s sl = .ok ({ sl with
      staged := sl.staged ++ [if ok then .enqueue id else .grant b 0], count := sl.count + 1
      txres := Tab.set (fun _ => 0) sl.txres i (if ok then 1 else 0) }, u) := by
  rw [winEnqueue, winBobbin_some hb hlt]
  simp only [if_neg (Nat.not_lt.mpr hn), if_neg (Nat.not_le.mpr hroom), ho, stage_room _ hroom]
  rfl

/-- A window's body that answers, in a slot whose core is ready. -/
theorem whlRun_ok {body : State → Slot → Except Nat (Slot × State)} {sl' : Slot} {u : State} (hready : coreReady .whorl s)
    (hslot : s.whl.slot = some sl) (hb : body s sl = .ok (sl', u)) : whlRun body s = { u with whl := { u.whl with slot := some sl' } } := by
  obtain ⟨sl0, hslot0, hruns, hfetch⟩ := hready
  obtain rfl := Option.some.inj (hslot.symm.trans hslot0)
  rw [whlRun_ready hslot hruns hfetch, hb]

theorem whlRun_error {body : State → Slot → Except Nat (Slot × State)} {e : Nat} (hready : coreReady .whorl s)
    (hslot : s.whl.slot = some sl) (hb : body s sl = .error e) : whlRun body s = contract e s := by
  obtain ⟨sl0, hslot0, hruns, hfetch⟩ := hready
  obtain rfl := Option.some.inj (hslot.symm.trans hslot0)
  rw [whlRun_ready hslot hruns hfetch, hb]

theorem burstReq_ok {sl' : Slot} (hready : coreReady .whorl s) (hslot : s.whl.slot = some sl) (h : winReq i n s sl = .ok sl') :
    exec (.whorlBurstReq i n) s = .next { s with whl := { s.whl with slot := some { sl' with pc := sl'.pc + 4 } } } :=
  congrArg _ (whlRun_ok hready hslot (by rw [h]; rfl))

theorem burstReq_error {e : Nat} (hready : coreReady .whorl s) (hslot : s.whl.slot = some sl) (h : winReq i n s sl = .error e) :
    exec (.whorlBurstReq i n) s = .next (contract e s) :=
  congrArg _ (whlRun_error hready hslot (by rw [h]; rfl))

theorem enqueue_ok {sl' : Slot} {u : State} (hready : coreReady .whorl s) (hslot : s.whl.slot = some sl)
    (h : winEnqueue i n s sl = .ok (sl', u)) :
    exec (.whorlEnqueue i n) s = .next { u with whl := { u.whl with slot := some { sl' with pc := sl'.pc + 4 } } } :=
  congrArg _ (whlRun_ok hready hslot (by rw [h]; rfl))

theorem enqueue_error {e : Nat} (hready : coreReady .whorl s) (hslot : s.whl.slot = some sl) (h : winEnqueue i n s sl = .error e) :
    exec (.whorlEnqueue i n) s = .next (contract e s) :=
  congrArg _ (whlRun_error hready hslot (by rw [h]; rfl))

/-- A request of no bobbin advances the slot's pc. -/
theorem window_nothing (hready : coreReady .whorl s) (hslot : s.whl.slot = some sl) (hb : b = sl.profile.getD (2 + i) 0) (h : 65536 ≤ b) :
    exec (.whorlBurstReq i n) s = .next (coreDid .whorl sl.g (sl.pc + 4) s) ∧
      exec (.whorlEnqueue i n) s = .next (coreDid .whorl sl.g (sl.pc + 4) s) := by
  have hdid : coreDid .whorl sl.g (sl.pc + 4) s = { s with whl := { s.whl with slot := some { sl with pc := sl.pc + 4 } } } := by
    rw [coreDid, coreAfter, hslot]
    rfl
  have hreq : winReq i n s sl = .ok sl := by rw [winReq, winBobbin_none hb h]
  have henq : winEnqueue i n s sl = .ok (sl, s) := by rw [winEnqueue, winBobbin_none hb h]
  rw [hdid]
  exact ⟨burstReq_ok hready hslot hreq, enqueue_ok hready hslot henq⟩

end

end

/-- Settles O50, clause by clause: task inputs, pace, trim, HOLD, the fault log's read, and the slot's window requests. -/
theorem whorlMonitorCommands : Obligations.WhorlMonitorCommands := by
  unfold Obligations.WhorlMonitorCommands
  refine ⟨?tin, fun s n k h => if_neg (by rw [h]; decide), ?pace, ?trim, fun s h => if_pos (by rw [h]; rfl),
    fun s m => congrArg _ (holdClear_halves m s), ?flog, ?window⟩
  case tin =>
    rintro s n k c a hup hc rfl
    have hexec : exec (.taskInputEvent n k) s = .next (tinEvents n k s) := if_pos hup
    rw [hexec]
    refine ⟨fun h => congrArg _ (tinEvents_counted hc h), fun hk hbit => ?_⟩
    obtain ⟨t, ht, hrest⟩ := tinEvents_overflow hc hk hbit
    exact ⟨t, congrArg _ ht, hrest⟩
  case pace =>
    rintro s0 s meas m thr hs rfl rfl
    refine ⟨paceUpdate_down hs, fun hup hm => ?_, fun hup hm hbefore => ?_⟩
    · obtain ⟨p, hexec⟩ := paceUpdate_up (meas := meas) hs hup
      refine ⟨p, hexec.trans (congrArg _ (if_neg ?_))⟩
      rw [decide_eq_false (Int.not_lt.mpr hm)]
      exact Bool.false_ne_true
    · obtain ⟨p, hexec⟩ := paceUpdate_up (meas := meas) hs hup
      obtain ⟨t, ht, hmargin, hline, hflog, hrest⟩ := slackNow_eq { s with
        whl := { s.whl with margin := paceM meas, above20 := if 2000 ≤ paceM meas then s.whl.above20 + 1 else 0 }
        sys := { s.sys with pace := p } }
      refine ⟨t, hexec.trans (congrArg _ ((if_pos ?_).trans ht)), hmargin, hline, hflog.trans (pushFlog_flog _ _ _ rfl), hrest⟩
      rw [decide_eq_true hm, decide_eq_true hbefore]
      rfl
  case trim =>
    rintro s c hruns rfl
    rw [vcoreTrim_runs hruns]
    refine ⟨fun hm hc => ?_, fun hm hc => ?_, fun hm => ?_⟩
    · rw [if_pos hm, if_pos hc]
    · rw [if_pos hm, if_neg (Nat.not_lt.mpr hc)]
    · rw [if_neg (Int.not_lt.mpr hm)]
  case flog =>
    intro s
    refine ⟨fun e r h => ?_, fun h => ?_⟩
    · show execWhlFlogRead s = _
      rw [execWhlFlogRead, flogRead, h]
      rfl
    · show execWhlFlogRead s = _
      rw [execWhlFlogRead, flogRead, h]
  case window =>
    rintro s i n b sl hready hslot hb
    refine ⟨window_nothing hready hslot hb, fun hlt hfull => ⟨?_, fun hn => ?_⟩, fun fs hlt hroom hfs => ?_, fun hlt hroom => ?_⟩
    · exact burstReq_error hready hslot (winReq_error hb hlt fun x => stage_full x hfull)
    · exact enqueue_error hready hslot (winEnqueue_full hb hlt hfull hn)
    · exact burstReq_ok hready hslot (winReq_ok hb hlt hroom hfs)
    · by_cases hn : n ≤ 9216
      · rcases ho : offerInner 16 b (sl.enq.bytes 0 n) false s with ⟨id, ok, u⟩
        refine ⟨id, ok, u, ?_, enqueue_ok hready hslot (winEnqueue_ok hb hlt hroom hn ho)⟩
        rw [if_pos hn]
      · refine ⟨0, false, s, ?_, enqueue_ok hready hslot (winEnqueue_long hb hlt hroom (Nat.lt_of_not_le hn))⟩
        rw [if_neg hn]
        exact ⟨rfl, rfl⟩

end Sys2Proof.Machine
end

section
/-!
Skein links: lock, loss, fallback, the rate, Kindle-fault (O51).
-/

set_option Elab.async false

namespace Sys2Proof.Machine

section

variable {s u : State} {l : Fin 2}

/-- A link that the lock may set up: it is allowed, trains or monitors, and the mode runs it. -/
def lockMay (s : State) (l : Nat) (atSwift : Bool) : Bool :=
  linkAllowed s l && ((s.linkOf l).st == .monitoring || (s.linkOf l).st == .training)
    && (if s.sys.kfault then (s.linkOf l).kfOpen && atSwift
        else s.sys.mode == .spin || s.sys.mode == .brace || s.sys.mode == .service || s.sys.mode == .drowse || s.sys.kstep == 7)

theorem skeinLock_may {sw : Bool} (h : lockMay s l sw = true)
    (hu : u = ({ s with stw := { s.stw with ipend := s.stw.ipend ||| 0x400 } } : State).setLink l (fun k => { k with
      st := if sw then (if k.fellBack then .swiftOnly else .upSwift) else .up10g
      locked := true, pathClosed := false, cred := [], mcred := [], changed := s.ply.reel })) :
    exec (.skeinLock l sw) s = .next (joinOn l (linkBack l u)) := by
  subst hu
  have hexec : exec (.skeinLock l sw) s = _ := if_neg (c := (!lockMay s l sw) = true) (by simp [h])
  rw [hexec]
  cases sw with
  | false => rfl
  | true => rfl

theorem skeinLock_not {sw : Bool} (h : lockMay s l sw = false) : exec (.skeinLock l sw) s = .next s :=
  if_pos (c := (!lockMay s l sw) = true) (by simp [h])

theorem lockMay_of {sw : Bool} (hallowed : linkAllowed s l = true) (hst : (s.linkOf l).st = .training ∨ (s.linkOf l).st = .monitoring)
    (h : if s.sys.kfault then (s.linkOf l).kfOpen = true ∧ sw = true else s.sys.mode ∈ [.spin, .brace, .service, .drowse] ∨ s.sys.kstep = 7) :
    lockMay s l sw = true := by
  have hmode : (if s.sys.kfault then (s.linkOf l).kfOpen && sw
      else s.sys.mode == .spin || s.sys.mode == .brace || s.sys.mode == .service || s.sys.mode == .drowse || s.sys.kstep == 7) = true := by
    cases hk : s.sys.kfault with
    | true => simpa [hk] using h
    | false => simpa [hk, or_assoc] using h
  have hst' : ((s.linkOf l).st == .monitoring || (s.linkOf l).st == .training) = true := by
    rcases hst with hst | hst
    · rw [hst]
      rfl
    · rw [hst]
      rfl
  rw [lockMay, hallowed, hst', hmode]
  rfl

theorem lockMay_not {sw : Bool} (h : linkAllowed s l = false ∨ (s.linkOf l).st ≠ .training ∧ (s.linkOf l).st ≠ .monitoring) :
    lockMay s l sw = false := by
  rcases h with h | ⟨htraining, hmonitoring⟩
  · rw [lockMay, h]
    rfl
  · rw [lockMay, beq_eq_false_iff_ne.mpr htraining, beq_eq_false_iff_ne.mpr hmonitoring]
    simp

/-! ### A link's loss -/

theorem linkLost_kfault {l : Nat} (h : s.sys.kfault = true) : linkLost l s = s.setLink l fun k => { k with
    pathClosed := true, locked := false, st := .monitoring, kfOpen := false, fellBack := false, cred := [], mcred := [] } := if_pos h

section

variable {l : Nat} (hk : s.sys.kfault = false)
  (hu : u = ({ s with stw := { s.stw with ipend := s.stw.ipend ||| 0x400 } } : State).setLink l (fun k => { k with
      locked := false, st := .training, cred := [], mcred := [], changed := s.ply.reel }))

include hk hu

theorem linkLost_member (hm : s.skn.master = false) : linkLost l s = sknTxOn (1 - l) 1 (.linkDown l) u := by
  subst hu
  exact (if_neg (by simp [hk])).trans (if_neg (by simp [hm]))

theorem linkLost_master (hm : s.skn.master = true) :
    ∃ b, linkLost l s = sendTopology { u with skn := { u.skn with closed := false, broken := b } } := by
  subst hu
  exact ⟨_, (if_neg (by simp [hk])).trans (if_pos hm)⟩

end

theorem joinOn_running {l : Nat} (hk : s.sys.kfault = false) :
    (s.skn.master = true → joinOn l s = sendTopology { s with skn := { s.skn with joined := true } }) ∧
    (s.skn.master = false → joinOn l s = if s.skn.masterSerial.isSome then sendJoin l s else s) := by
  refine ⟨fun hm => ?_, fun hm => ?_⟩
  · exact (if_neg (by simp [hk])).trans (if_pos hm)
  · exact (if_neg (by simp [hk])).trans (if_neg (by simp [hm]))

theorem skeinRate_eq : ((s.linkOf l).st = .up10g →
      exec (.skeinRateFollow l true) s = .next (s.setLink l fun k => { k with st := .upSwift, changed := s.ply.reel })) ∧
    ((s.linkOf l).st = .upSwift ∨ (s.linkOf l).st = .swiftOnly → exec (.skeinRateFollow l false) s = .next (s.setLink l fun k => { k with
      st := .training, locked := false, fellBack := false, changed := s.ply.reel })) := by
  refine ⟨fun h => ?_, fun h => ?_⟩
  · exact if_pos (by simp [h])
  · show execSkeinRateFollow l false s = _
    rw [execSkeinRateFollow]
    refine (if_neg ?_).trans (if_pos ?_)
    · simp
    · simpa using h

theorem kfaultCheck_open {b : Bool} (hk : s.sys.kfault = true) (hallowed : linkAllowed s l = true) (hrail : s.pwr.ready.getLsbD 3 = true)
    (hlive : linkLive s l = false) : exec (.kfaultSwiftCheck l b) s =
      .next (if b then s else s.setLink l fun k => { k with pathClosed := false, st := .training, kfOpen := true }) := by
  cases b with
  | true => exact if_neg (by simp)
  | false => exact if_pos (by simp [hk, hallowed, hrail, hlive])

end

/-- Settles O51, clause by clause: lock, loss, fallback, the rate, Kindle-fault. -/
theorem skeinLinkCommands : Obligations.SkeinLinkCommands := by
  unfold Obligations.SkeinLinkCommands
  refine ⟨?send, fun s u l sw hallowed hst h hu => skeinLock_may (lockMay_of hallowed hst h) hu, fun s l => ⟨_, rfl⟩,
    fun s l hk => joinOn_running hk, ?fault, fun s l sw h => skeinLock_not (lockMay_not h), ?lost, ?loss, ?fallback, ?retry,
    fun s l => skeinRate_eq, ?kfault⟩
  case send =>
    rintro s l k o u rfl
    rfl
  case fault =>
    rintro s l o hk rfl
    exact if_pos hk
  case lost =>
    intro s l n
    exact ⟨fun h => ⟨if_pos h, if_pos h⟩, fun h => ⟨if_neg (by simp [h]), if_neg (by simp [h])⟩⟩
  case loss =>
    intro s u l hu
    exact ⟨linkLost_kfault, fun hk hm => linkLost_member hk hu hm, fun hk hm => linkLost_master hk hu hm⟩
  case fallback =>
    intro s l hallowed hst
    exact if_pos (by simpa [hallowed] using hst)
  case retry =>
    intro s l
    exact (apply_ite Host.Outcome.next _ _ _).symm
  case kfault =>
    intro s l b
    refine ⟨kfaultCheck_open, fun h => if_neg ?_⟩
    rcases h with h | h
    · simp [h]
    · simp [h]

end Sys2Proof.Machine
end

section
/-!
Skein frames, credits, ageing out and relayed requests (O52).
-/

set_option Elab.async false

namespace Sys2Proof.Machine

section

variable {s u : State} {l : Fin 2} {h h' pay : List Byte} {mine onward : Bool} {c : SkOut}

/-- The other direction, as the model counts it. -/
theorem otherLink (l : Fin 2) : 1 - (l : Nat) = ((1 - l : Fin 2) : Nat) := by
  revert l
  decide

/-! ### A frame that a link carries -/

section

variable (hcarries : carries s l (hKind h) = true) (hh' : h' = hSetHops h (hHops h - 1)) (hc : c = .credit l (hKind h != 0) (hTc h))
  (hu : u = s.setLink l (fun k => { k with rxFrm := k.rxFrm + 1 })) (hmine : mine = (s.skn.assigned && decide (hDev h = s.skn.dev.toNat)))
  (honward : onward = ((!mine || hAll h) && decide (1 < hHops h)))

include hcarries hu in
theorem skeinFrame_badHeader {g : Bool} (hgood : hGood h = false) :
    exec (.skeinFrameReceive l h pay g) s = .next (u.setLink l fun k => { k with crcErr := k.crcErr + 1 }) := by
  subst hu
  show execSkeinFrameReceive l h pay g s = _
  rw [execSkeinFrameReceive, hcarries, hgood]
  rfl

include hcarries hh' hc hu hmine honward

theorem skeinFrame_aborted {v : State} (hgood : hGood h = true) (hv : v = u.setLink l (fun k => { k with aborts := k.aborts + 1 })) :
    exec (.skeinFrameReceive l h pay false) s = .next (sknSend c (if onward then abortOn (1 - l : Fin 2) h' pay v else v)) := by
  subst hh' hc honward hmine hv hu
  show execSkeinFrameReceive l h pay false s = _
  rw [execSkeinFrameReceive, hcarries, hgood, otherLink]
  rfl

/-- A good data frame to one device: it is delivered, forwarded, or dropped at its last hop. -/
theorem skeinFrame_data (hgood : hGood h = true) (hkind : hKind h = 0)
    (hfcs : pay.drop (pay.length - 4) = fcsOf (pay.take (pay.length - 4))) (hall : hAll h = false) :
    exec (.skeinFrameReceive l h pay true) s = .next (if onward then forward (1 - l : Fin 2) h' pay (if mine then deliver l h' pay u else u)
      else if mine then sknSend c (deliver l h' pay u) else sknSend c (u.setLink l fun k => { k with hopDrop := k.hopDrop + 1 })) := by
  subst hh' hc honward hu
  show execSkeinFrameReceive l h pay true s = _
  rw [execSkeinFrameReceive, hcarries, hgood, otherLink, ← hmine]
  simp only [hkind, hfcs, hall, bne_self_eq_false, beq_self_eq_true, Bool.and_false, Bool.or_false, Bool.not_true, Bool.false_eq_true, if_false,
    Nat.reduceEqDiff, or_self]
  rw [apply_ite Host.Outcome.next, apply_ite Host.Outcome.next]
  cases mine with
  | false => rfl
  | true => rfl

end

/-! ### Transit and credits -/

theorem forward_go {l : Nat} (hmay : transitMay s l h = true) (htransit : (s.linkOf l).transit = []) : forward l h pay s = transitGo l h pay s :=
  if_pos (by rw [hmay, htransit]; rfl)

theorem forward_wait {l : Nat} (hmay : transitMay s l h = false) :
    forward l h pay s = s.setLink l fun k => { k with transit := k.transit ++ [(h, pay)] } :=
  if_neg (by rw [hmay]; exact Bool.false_ne_true)

theorem drainTransit_none {l : Nat} (h : (s.linkOf l).transit = []) : drainTransit l s = s := by
  rw [drainTransit, h]
  rfl

/-- Credits that come back while nothing waits. -/
theorem creditReturn_eq {mgmt : Bool} {tc : Fin 8} {n : Nat} (htransit : (s.linkOf l).transit = [])
    (hwf : Tab.wf (fun _ => ({} : Link)) s.skn.link = true) : exec (.creditReturn l mgmt tc n) s = .next (s.setLink l fun k => { k with
      cred := if mgmt then k.cred else Tab.set (fun _ => 3) k.cred tc (min 3 (credits k tc + n))
      mcred := if mgmt then Tab.set (fun _ => 1) k.mcred tc (min 1 (mcredits k tc + n)) else k.mcred }) :=
  congrArg _ (drainTransit_none ((congrArg Link.transit ((linkOf_setLink _ _ _ hwf).trans (if_pos rfl))).trans htransit))

/-! ### Ageing out -/

theorem skeinAgeout_none (hqueue : s.bob.queue = []) (hcopy : (s.egress (12 + l)).copyBuf = []) : exec (.skeinAgeout l) s = .next s := by
  show execSkeinAgeout l s = _
  rw [execSkeinAgeout, hqueue]
  simp only [List.find?_nil, hcopy]
  rfl

theorem skeinAgeout_head {e : QEntry} {rest : List QEntry} {d rb : Nat} (hqueue : s.bob.queue = e :: rest)
    (hegress : bobEgress s e.bobbin = 12 + l.val) (hmcast : bobMcast s e.bobbin = false) (hremote : remoteOf s e.bobbin = some (d, rb))
    (h0 : reachable s 0 d = false) (h1 : reachable s 1 d = false) (hwire : onWire s e.frame = false) :
    exec (.skeinAgeout l) s = .next (dropEntry e.bobbin e.frame ((s.setLink l fun k => { k with noRoute := k.noRoute + 1 }).setBobbin e.bobbin
      fun x => { x with dropped := x.dropped + 1 })) := by
  show execSkeinAgeout l s = _
  rw [execSkeinAgeout, hqueue]
  simp only [List.find?_cons, hegress, hmcast, hremote, h0, h1, hwire]
  simp
  rfl

/-! ### Relayed requests -/

/-- CASC_RELAY of a request that may be relayed. -/
theorem cascRelay_eq {q : Req} {inner : List Byte} {d : Nat} (hinner : inner = q.msg.drop 12) (hd : d = par q 8 2) :
    (leAt inner 0 2 = 0x0703 → cascRelay q s = answer q .badParam 12 [] s) ∧
    (leAt inner 0 2 ≠ 0x0703 → s.skn.assigned = false ∨ s.skn.master = false ∨ (s.skn.members.find? fun m => m.dev.toNat == d) = none →
      cascRelay q s = answer q .cascadeUnreachable d [] s) := by
  subst hinner hd
  refine ⟨fun h => if_pos h, fun h hno => (if_neg h).trans ?_⟩
  by_cases hmaster : (!s.skn.assigned || !s.skn.master) = true
  · exact if_pos hmaster
  · refine (if_neg hmaster).trans ?_
    rcases hno with hno | hno | hno
    · exact absurd (by simp [hno]) hmaster
    · exact absurd (by simp [hno]) hmaster
    · rw [hno]
      rfl

theorem cascRelay_member {q : Req} {inner : List Byte} {d : Nat} {m : Member} (hinner : inner = q.msg.drop 12) (hd : d = par q 8 2)
    (hno : leAt inner 0 2 ≠ 0x0703) (hassigned : s.skn.assigned = true) (hmaster : s.skn.master = true)
    (hm : (s.skn.members.find? fun m => m.dev.toNat == d) = some m) :
    (m.mode.toNat ∈ [0, 1] → cascRelay q s = answer q .cascadeUnreachable d [] s) ∧
    (m.mode.toNat ∉ [0, 1, 4] → cascRelay q s = relayGo q m.dev inner false s) := by
  subst hinner hd
  have hexec : cascRelay q s = _ := (if_neg hno).trans ((if_neg (by simp [hassigned, hmaster])).trans (by rw [hm]))
  rw [hexec]
  dsimp only
  refine ⟨fun hmode => ?_, fun hmode => ?_⟩
  · simp only [List.mem_cons, List.not_mem_nil, or_false] at hmode
    rcases hmode with hmode | hmode
    · rw [hmode]
      rfl
    · rw [hmode]
      rfl
  · simp only [List.mem_cons, List.not_mem_nil, or_false, not_or] at hmode
    obtain ⟨hdark, hkindle, hdrowse⟩ := hmode
    simp [modeNum, hdark, hkindle, hdrowse]

theorem relayReply_end {n : Nat} {rep : List Byte} {r : Relay} (hcarries : carries s l 1 = true) (hr : relayOf s n = some r)
    (hwake : r.wake = false) (hlen : rep.length ≤ 244) (hu : u = s.setLink l (fun k => { k with rxFrm := k.rxFrm + 1 })) :
    exec (.relayReply l n rep) s = .next (pushDue r.src r.tailSeq (replyMsg 0x0703 .ok 0 rep) { u with skn := { u.skn with
      relays := s.skn.relays.erase r } }) := by
  subst hu
  have hpay : relayPay rep = rep := if_neg (Nat.not_lt.mpr hlen)
  show execRelayReply l n rep s = _
  rw [execRelayReply, hcarries, hr]
  simp only [hwake, hpay, Bool.not_true, Bool.false_eq_true, if_false]
  rfl

theorem cascadeTimeout_some {n : Nat} {r : Relay} (hr : relayOf s n = some r) : exec (.cascadeTimeout n) s = .next (pushDue r.src r.tailSeq
    (replyMsg 0x0703 .cascadeTimeout r.target.toNat []) { s with skn := { s.skn with relays := s.skn.relays.erase r } }) := by
  show execCascadeTimeout n s = _
  rw [execCascadeTimeout, hr]
  rfl

theorem cascadeTimeout_none {n : Nat} (hr : relayOf s n = none) : exec (.cascadeTimeout n) s = .next s := by
  show execCascadeTimeout n s = _
  rw [execCascadeTimeout, hr]

end

/-- Settles O52, clause by clause: frames received, forwarded and credited, ageing out, relayed requests. -/
theorem skeinFrameCommands : Obligations.SkeinFrameCommands := by
  unfold Obligations.SkeinFrameCommands
  refine ⟨?refused, ?frame, fun s l h pay => ⟨forward_go, forward_wait⟩, ?credit, fun s l hq hc => skeinAgeout_none hq hc,
    fun s l e rest d rb hq he hm hr h0 h1 hw => skeinAgeout_head hq he hm hr h0 h1 hw, ?relay, ?reply⟩
  case refused =>
    intro s l h pay g hno
    exact if_pos (by rw [hno]; rfl)
  case frame =>
    intro s u l h h' pay mine onward c hcarries hh' hc hu hmine honward
    refine ⟨fun g => skeinFrame_badHeader hcarries hu, fun v => skeinFrame_aborted hcarries hh' hc hu hmine honward,
      fun hgood hkind hfcs hall => ?_⟩
    rw [skeinFrame_data hcarries hh' hc hu hmine honward hgood hkind hfcs hall, honward, hall]
    refine ⟨fun hm => ?_, fun hm hhops => ?_, fun hm hhops => ?_⟩
    · rw [hm]
      rfl
    · rw [hm, decide_eq_false (Nat.not_lt.mpr hhops)]
      rfl
    · rw [hm, decide_eq_true hhops]
      rfl
  case credit =>
    exact fun s l tc n htransit hwf => ⟨creditReturn_eq htransit hwf, creditReturn_eq htransit hwf⟩
  case relay =>
    rintro src q s t inner d ⟨hready, rfl⟩ hfull hinner hd
    have hexec : exec (.cascRelay src) s = .next (cascRelay q (dropTaken q s)) :=
      (if_neg (by simp [hfull])).trans (served_body _ ⟨hready, rfl⟩ rfl)
    rw [hexec]
    obtain ⟨hbad, hunreach⟩ := cascRelay_eq (s := dropTaken q s) hinner hd
    refine ⟨fun h => congrArg _ (hbad h), fun h hno => congrArg _ (hunreach h hno), fun m h hassigned hmaster hm => ?_⟩
    obtain ⟨hdown, hup⟩ := cascRelay_member (s := dropTaken q s) hinner hd h hassigned hmaster hm
    refine ⟨fun hmode => congrArg _ (hdown hmode), fun l u hmode hl hu => congrArg _ ((hup hmode).trans ?_)⟩
    have hside : l = sideTo (dropTaken q s) m.dev.toNat := by
      rw [hl, eq_of_beq (List.find?_some hm :)]
      rfl
    subst hu hside
    rfl
  case reply =>
    intro s l n rep
    exact ⟨fun h => if_pos (by rw [h]; rfl), fun r u => relayReply_end, fun r => cascadeTimeout_some, cascadeTimeout_none⟩

end Sys2Proof.Machine
end

section
/-!
The cascade: beacons, the master, JOIN, ASSIGN, TOPOLOGY (O53).
-/

set_option Elab.async false

namespace Sys2Proof.Machine

section

variable {s u : State}

/-! ### Beacons -/

section

variable {t : State} {b : Nat → SkOut} (hb : ∀ l, b l = .beacon l Config.serial)

include hb

theorem beaconSend_master (hm : s.skn.master = true) (hserial : s.skn.masterSerial.isSome = true) :
    exec .beaconSend s = .next (sknTxOn 1 10 (b 1) (sknTxOn 0 10 (b 0) s)) := by
  have hnone : s.skn.masterSerial.isNone = false := by simpa using hserial
  show execBeaconSend s = _
  rw [execBeaconSend, hnone, hb, hb]
  simp only [Bool.and_false, Bool.false_and, Bool.false_eq_true, if_false, hm, if_true]

theorem beaconSend_candidate (ht : t = becomeMaster s) (hserial : s.skn.masterSerial = none) (hstrap : s.sys.straps.master = true)
    (hstandby : s.skn.standby = false) (hcarries : carries s 0 10 = true) :
    exec .beaconSend s = .next (sknTxOn 1 10 (b 1) (sknTxOn 0 10 (b 0) t)) := by
  subst ht
  have hcand : candidate s = true := hstrap
  show execBeaconSend s = _
  rw [execBeaconSend, hserial, hb, hb, hcand, hstandby, hcarries]
  rfl

end

theorem beaconSend_none (hm : s.skn.master = false) (hstrap : s.sys.straps.master = false) : exec .beaconSend s = .next s := by
  have hcand : candidate s = false := hstrap
  show execBeaconSend s = _
  rw [execBeaconSend, hcand]
  simp only [Bool.false_and, Bool.false_eq_true, if_false, hm]

/-- A beacon of another device, which a link carries. -/
theorem beaconReceive_other {l : Fin 2} {n : Tick} (hcarries : carries s l 10 = true) (hn : n ≠ Config.serial)
    (hu : u = sknTxOn (1 - l : Fin 2) 10 (.beacon (1 - l : Fin 2) n) (sknRx l s)) :
    (∀ v, s.sys.straps.master = false → v = joinNew l n u →
      exec (.beaconReceive l n) s = .next { v with skn := { v.skn with masterSerial := some n } }) ∧
    (s.sys.straps.master = true → s.skn.master = true → s.sys.mode ≠ .kindle ∨ Config.serial < n → exec (.beaconReceive l n) s = .next u) ∧
    (∀ v w, s.sys.straps.master = true → s.skn.master = false ∨ s.sys.mode = .kindle ∧ n < Config.serial →
      v = joinNew l n { u with skn := { u.skn with master := false, standby := true, conflict := true
                                                   assigned := s.skn.assigned && !s.skn.master, joined := s.skn.joined && !s.skn.master } } →
      w = { v with skn := { v.skn with masterSerial := some n } } →
      exec (.beaconReceive l n) s = .next (if s.skn.conflict then w else logFault 0x71 9 (leBytes 8 n.toNat) w)) := by
  rw [← otherLink] at hu
  subst hu
  have hexec : exec (.beaconReceive l n) s = _ :=
    (if_neg (by rw [hcarries]; exact Bool.false_ne_true)).trans (if_neg (by simpa using hn))
  rw [hexec]
  refine ⟨fun v hstrap hv => ?_, fun hstrap hm h => ?_, fun v w hstrap h hv hw => ?_⟩
  · subst hv
    exact if_pos (by rw [candidate, hstrap]; rfl)
  · refine (if_neg (by rw [candidate, hstrap]; exact Bool.false_ne_true)).trans (if_pos ?_)
    simpa [hm] using h
  · subst hw hv
    refine (if_neg (by rw [candidate, hstrap]; exact Bool.false_ne_true)).trans ((if_neg ?_).trans (apply_ite Host.Outcome.next _ _ _).symm)
    rcases h with h | ⟨hmode, hlt⟩
    · simp [h]
    · simp [hmode, BitVec.le_of_lt hlt]

theorem joinNew_eq (l : Nat) (n : Tick) (s : State) :
    joinNew l n s = if s.skn.assigned = false ∧ s.skn.masterSerial ≠ some n then sendJoin l s else s := by
  simp [joinNew]

/-! ### The master -/

/-- A frame on a side changes what is sent and what the side counts alone. -/
theorem sknTxOn_same (l kind : Nat) (o : SkOut) (s : State) : sknTxOn l kind o s = { s with
    skn := { s.skn with link := (sknTxOn l kind o s).skn.link, out := (sknTxOn l kind o s).skn.out } } := by
  rw [sknTxOn]
  split
  · rfl
  · rfl

/-- The topology sent: the hops counted anew, and the frames. -/
theorem sendTopology_same (s : State) : ∃ e w k o r, sendTopology s = { s with regs := r, skn := { s.skn with
    hopsE := e, hopsW := w, link := k, out := o } } := by
  rw [sendTopology, sknTxOn_same, sknTxOn_same]
  exact ⟨_, _, _, _, _, rfl⟩

theorem masterTakeover_standby (hstandby : s.skn.standby = true) (hm : s.skn.master = false) : ∃ t, exec .masterTakeover s = .next t ∧
    t.skn.master = true ∧ t.skn.standby = false ∧ t.skn.assigned = true ∧
    (s.skn.assigned = true → t.skn.dev = s.skn.dev ∧ t.skn.masterId = s.skn.dev) ∧
    t = { s with skn := t.skn, sys := t.sys, regs := t.regs } := by
  have hexec : exec .masterTakeover s = .next (sendTopology (logFault 0x72 9 (leBytes 2 (becomeMaster s).skn.dev.toNat) (becomeMaster s))) :=
    if_pos (by rw [hstandby, hm]; rfl)
  rw [hexec]
  obtain ⟨e, w, k, o, r, ht⟩ := sendTopology_same (logFault 0x72 9 (leBytes 2 (becomeMaster s).skn.dev.toNat) (becomeMaster s))
  rw [ht]
  exact ⟨_, rfl, rfl, rfl, rfl, fun h => ⟨if_pos h, if_pos h⟩, rfl⟩

theorem masterTakeover_not (h : s.skn.standby = false ∨ s.skn.master = true) : exec .masterTakeover s = .next s := by
  refine if_neg ?_
  rcases h with h | h
  · simp [h]
  · simp [h]

/-! ### JOIN, ASSIGN, TOPOLOGY -/

section

variable {pos : Nat} {j : Join}

/-- A serial number that the master knows keeps its ID. -/
theorem assignId_known {e : BitVec 10} (h : s.skn.known.find? (fun x => x.1 == j.serial) = some (j.serial, e)) : assignId s pos j = e := by
  rw [assignId, h]

theorem assignId_hint (hknown : ∀ x ∈ s.skn.known, x.1 ≠ j.serial ∧ x.2 ≠ j.hint)
    (hmembers : ∀ m ∈ s.skn.members, m.dev ≠ j.hint ∨ m.pos = pos) : assignId s pos j = j.hint := by
  have hnone : s.skn.known.find? (fun x => x.1 == j.serial) = none :=
    List.find?_eq_none.mpr fun x hx => by simpa using (hknown x hx).1
  rw [assignId, hnone]
  refine if_pos ?_
  rw [Bool.and_eq_true, List.all_eq_true, List.all_eq_true]
  exact ⟨fun x hx => by simpa using (hknown x hx).2, fun m hm => by simpa using hmembers m hm⟩

theorem joinReceive_master {l : Fin 2} {d : BitVec 10} (hd : d = assignId s pos j)
    (hu : u = sknTxOn l 7 (.assign l { serial := j.serial, dev := d, master := s.skn.dev }) (sknRx l s)) (hm : s.skn.master = true)
    (hcarries : carries s l 6 = true) : ∃ kn, exec (.joinReceive l j pos) s = .next (sendTopology { u with skn := { u.skn with
      known := kn, members := (s.skn.members.filter fun m => m.dev != d && m.pos != pos) ++ [{ dev := d, mode := j.mode, pos := pos }] } }) := by
  subst hu hd
  exact ⟨_, if_neg (by rw [hm, hcarries]; exact Bool.false_ne_true)⟩

end

end

/-- Settles O53, clause by clause: beacons, the master, JOIN, ASSIGN, TOPOLOGY. -/
theorem cascadeCommands : Obligations.CascadeCommands := by
  unfold Obligations.CascadeCommands
  refine ⟨?send, ?beacon, fun s l n => joinNew_eq l n s, fun s => ⟨masterTakeover_standby, masterTakeover_not⟩, ?join, ?assign, ?topology⟩
  case send =>
    exact fun s t b ht hb => ⟨beaconSend_master hb, beaconSend_candidate hb ht, beaconSend_none⟩
  case beacon =>
    intro s u l n
    refine ⟨fun h => if_pos (by rw [h]; rfl), fun h hn => ?_, beaconReceive_other⟩
    exact (if_neg (by rw [h]; exact Bool.false_ne_true)).trans (if_pos (by simp [hn]))
  case join =>
    intro s u l j pos d hd hu
    refine ⟨fun h => if_pos ?_, joinReceive_master hd hu, fun e h => hd.trans (assignId_known h), fun hk hm => hd.trans (assignId_hint hk hm)⟩
    rcases h with h | h
    · simp [h]
    · simp [h]
  case assign =>
    rintro s u l a rfl
    refine ⟨fun hserial hm hcarries => if_pos ⟨hserial, hm, hcarries⟩, fun h => if_neg ?_⟩
    rintro ⟨hserial, hm, hcarries⟩
    simp [hserial, hm, hcarries] at h
  case topology =>
    rintro s u l y rfl
    refine ⟨fun hm hcarries => if_neg (by rw [hm, hcarries]; exact Bool.false_ne_true), fun h => if_pos ?_⟩
    rcases h with h | h
    · simp [h]
    · simp [h]

end Sys2Proof.Machine
end

section
/-!
Pings, the field, the tag's states and inventory (O54).
-/

set_option Elab.async false

namespace Sys2Proof.Machine

section

variable {s : State} {a : Nat} {p : Int}

/-! ### Detuning pings -/

theorem detunePing_skipped (hon : pingsOn s = true) (h : s.tag.field = true ∨ bankOk s 0 = false) :
    exec (.detunePing a p) s = .next { s with tag := { s.tag with pingSkip := s.tag.pingSkip + 1 } } := by
  refine (if_pos hon).trans (if_pos ?_)
  rcases h with h | h
  · rw [h]
    rfl
  · rw [h, Bool.not_false, Bool.or_true]

section

variable (hon : pingsOn s = true) (hfield : s.tag.field = false) (hbank : bankOk s 0 = true)

include hon hfield hbank

theorem detunePing_measured : exec (.detunePing a p) s = .next (pingMeasured a p s) :=
  (if_pos hon).trans (if_neg (by rw [hfield, hbank]; exact Bool.false_ne_true))

theorem detunePing_learns (h : s.tag.pings < 7) : exec (.detunePing a p) s = .next { s with tag := { s.tag with
    lastAmp := a, lastPhase := p, pings := s.tag.pings + 1, sumAmp := s.tag.sumAmp + a, sumPhase := s.tag.sumPhase + p } } := by
  rw [detunePing_measured hon hfield hbank, pingMeasured, if_pos (Nat.lt_succ_of_lt h), setTag, pingLearn]
  dsimp only
  rw [if_neg (by omega)]

theorem detunePing_eighth (h : s.tag.pings = 7) : exec (.detunePing a p) s = .next { s with tag := { s.tag with
    lastAmp := a, lastPhase := p, pings := 8, sumAmp := s.tag.sumAmp + a, sumPhase := s.tag.sumPhase + p
    baseAmp := (s.tag.sumAmp + a) / 8, basePhase := (s.tag.sumPhase + p).tdiv 8, kindleAmp := (s.tag.sumAmp + a) / 8 } } := by
  rw [detunePing_measured hon hfield hbank, pingMeasured, if_pos (by omega), setTag, pingLearn]
  dsimp only
  rw [if_pos (by omega), h]

section

variable (hlearnt : 8 ≤ s.tag.pings)

include hlearnt

/-- A ping after the baseline is learnt. -/
theorem detunePing_later : exec (.detunePing a p) s = .next (
    if pingBad s.tag a then logFault 0x91 11 (leBytes 2 a) { s with tag := { s.tag with lastAmp := a, lastPhase := p, antFault := true } }
    else if pingDetects s a p then wakeFire 8 (raiseLine 12 (({ s with tag := { s.tag with lastAmp := a, lastPhase := p } } : State).setBits
      0x400B0000 0x10000000))
    else { s with tag := { s.tag with
      lastAmp := a, lastPhase := p, baseAmp := ((s.tag.baseAmp : Int) + ((a : Int) - s.tag.baseAmp).tdiv 16).toNat
      basePhase := s.tag.basePhase + (p - s.tag.basePhase).tdiv 16 } }) := by
  rw [detunePing_measured hon hfield hbank, pingMeasured, if_neg (Nat.not_lt.mpr hlearnt)]
  rfl

theorem detunePing_fault (h : 2 * a < s.tag.kindleAmp ∨ 3 * s.tag.kindleAmp < 2 * a) : exec (.detunePing a p) s =
    .next (logFault 0x91 11 (leBytes 2 a) { s with tag := { s.tag with lastAmp := a, lastPhase := p, antFault := true } }) :=
  (detunePing_later hon hfield hbank hlearnt).trans (congrArg _ (if_pos (by simpa [pingBad] using h)))

section

variable (hlow : s.tag.kindleAmp ≤ 2 * a) (hhigh : 2 * a ≤ 3 * s.tag.kindleAmp)

include hlow hhigh

theorem detunePing_good : exec (.detunePing a p) s = .next (
    if pingDetects s a p then wakeFire 8 (raiseLine 12 (({ s with tag := { s.tag with lastAmp := a, lastPhase := p } } : State).setBits
      0x400B0000 0x10000000))
    else { s with tag := { s.tag with
      lastAmp := a, lastPhase := p, baseAmp := ((s.tag.baseAmp : Int) + ((a : Int) - s.tag.baseAmp).tdiv 16).toNat
      basePhase := s.tag.basePhase + (p - s.tag.basePhase).tdiv 16 } }) := by
  refine (detunePing_later hon hfield hbank hlearnt).trans (congrArg _ (if_neg ?_))
  rw [pingBad, decide_eq_false (Nat.not_lt.mpr hlow), decide_eq_false (Nat.not_lt.mpr hhigh)]
  exact Bool.false_ne_true

end

end

end

/-! ### A command in the field -/

theorem inField_on (f : State → State) (h : s.tag.field = true) : inField f s = f s := if_pos h

theorem tagSelect_field {u : Tick} (h : s.tag.field = true) : exec (.tagSelect u) s = .next (
    if u = tagUid then { s with tag := { s.tag with selected := true, quiet := false, answer := some (none, []) } }
    else { s with tag := { s.tag with selected := false } }) := congrArg _ (inField_on _ h)

theorem inField_off (f : State → State) (h : s.tag.field = false) : inField f s = s := if_neg (by simp [h])

end

/-- Settles O54, clause by clause: pings, the field, the states and the inventory commands. -/
theorem tagStateCommands : Obligations.TagStateCommands := by
  unfold Obligations.TagStateCommands
  refine ⟨fun s a p h => if_neg (by simp [h]), fun s a p => detunePing_skipped, fun s a p => detunePing_learns,
    fun s a p => detunePing_eighth, fun s a p => detunePing_fault, ?detected, ?moved, fun s h => if_neg (by simp [h]), fun s h => if_pos h,
    fun s => rfl, fun s => rfl, fun s => rfl, fun s h => congrArg _ (inField_on _ h), fun s h => congrArg _ (inField_on _ h), ?selected, ?unselected,
    fun s h => congrArg _ (inField_on _ h), fun s h => congrArg _ (inField_on _ h), ?noField⟩
  case detected =>
    intro s a p hon hfield hbank hlearnt hlow hhigh h
    rw [detunePing_good hon hfield hbank hlearnt hlow hhigh, if_pos h]
  case moved =>
    intro s a p hon hfield hbank hlearnt hlow hhigh h
    rw [detunePing_good hon hfield hbank hlearnt hlow hhigh, if_neg (by simp [h])]
  case selected =>
    intro s h
    rw [tagSelect_field h, if_pos rfl]
  case unselected =>
    intro s u h hu
    rw [tagSelect_field h, if_neg hu]
  case noField =>
    intro s u n k d key m w h
    have hoff : ∀ f, Host.Outcome.next (inField f s) = (.next s : Host.Outcome State Fault Refusal) := fun f => congrArg _ (inField_off f h)
    exact ⟨hoff _, hoff _, hoff _, hoff _, hoff _, hoff _, hoff _, hoff _, hoff _, hoff _, hoff _⟩

end Sys2Proof.Machine
end

section
/-!
Nameplate access by contactless readers: reads, the acknowledgement write, authentication (O55).
-/

set_option Elab.async false

namespace Sys2Proof.Machine

section

variable {s : State} (hfield : s.tag.field = true)

/-! ### Reads -/

theorem blockReadable_of {n : Nat} {b : Bool} (h : n < 40 ∨ n = 72 ∨ (b = true ∧ n < 72)) : blockReadable b n = true := by
  simpa [blockReadable, or_assoc] using h

theorem blockReadable_not {n : Nat} {b : Bool} (hn : 40 ≤ n) (hack : n ≠ 72) (h : b = false ∨ 72 < n) : blockReadable b n = false := by
  rw [blockReadable, decide_eq_false (Nat.not_lt.mpr hn), decide_eq_false hack]
  rcases h with h | h
  · rw [h]
    rfl
  · rw [decide_eq_false (Nat.not_lt.mpr (Nat.le_of_lt h)), Bool.and_false]
    rfl

theorem countRead_eq (s : State) : countRead s = { s with tag := { s.tag with reads := if stewardRuns s then s.tag.reads + 1 else s.tag.reads } } := by
  rw [countRead]
  split
  · rfl
  · rfl

theorem tagRead_allowed {n k : Nat} (h : ∀ i < k, n + i < 40 ∨ n + i = 72 ∨ (s.tag.secured = true ∧ n + i < 72)) :
    tagRead n k s = { s with tag := { s.tag with
      answer := some (none, ((List.range k).map (n + ·)).flatMap (blockBytes s))
      reads := if stewardRuns s then s.tag.reads + 1 else s.tag.reads } } := by
  have hall : ((List.range k).map (n + ·)).all (blockReadable s.tag.secured) = true := by
    rw [List.all_map, List.all_eq_true]
    exact fun i hi => blockReadable_of (h i (List.mem_range.mp hi))
  rw [tagRead, if_pos hall, countRead_eq]
  rfl

theorem tagRead_refused {n k i : Nat} (hi : i < k) (h40 : 40 ≤ n + i) (hack : n + i ≠ 72) (h : s.tag.secured = false ∨ 72 < n + i) :
    tagRead n k s = { s with tag := { s.tag with answer := some (some 0x10, []) } } := by
  refine if_neg fun hall => ?_
  rw [List.all_map, List.all_eq_true] at hall
  exact absurd ((blockReadable_not h40 hack h).symm.trans (hall i (List.mem_range.mpr hi))) Bool.false_ne_true

theorem blockBytes_updating {blocks : List (Nat × List Byte)} {n : Nat} (hrun : s.dst.running = some (.nameplate blocks)) (hn : n ≠ 72) :
    blockBytes s n = Mem.bytes (nameplateAfter s.tag.ackPend blocks s.dst.nameplate) (n * 32) 32 := by
  rw [blockBytes, if_neg hn, plateNow, hrun]

/-! ### The write of block 72 -/

theorem tagWrite_other {n : Nat} {d : List Byte} (hn : n ≠ 72) :
    tagWrite n d s = { s with tag := { s.tag with answer := some (some 0x01, []) } } := if_pos hn

theorem tagWrite_secured {d : List Byte} (hsecured : s.tag.secured = true) (hrail : s.pwr.railOk.getLsbD 6 = true) :
    tagWrite 72 d s = { s with
      tag := { s.tag with ackPend := s.tag.ackPend ||| BitVec.ofNat 16 (ofLE (d.take 2)), answer := some (none, []) }
      dst := { s.dst with waiting := s.dst.waiting ++ [.nameplate []] } } := by
  rw [tagWrite, hsecured, hrail]
  rfl

theorem tagWrite_noSupply {d : List Byte} (hsecured : s.tag.secured = true) (hrail : s.pwr.railOk.getLsbD 6 = false) :
    tagWrite 72 d s = { s with tag := { s.tag with answer := some (some 0x13, []) } } := by
  rw [tagWrite, hsecured, hrail]
  rfl

theorem tagWrite_open {d : List Byte} (hsecured : s.tag.secured = false) :
    tagWrite 72 d s = { s with tag := { s.tag with answer := some (some 0x12, []) } } := by
  rw [tagWrite, hsecured]
  rfl

/-! ### Attempts -/

theorem authAttempt_good (h : s.tag.backoff = false) :
    authAttempt true s = { s with tag := { s.tag with secured := true, answer := some (none, []) } } := by
  rw [authAttempt, h]
  rfl

theorem authAttempt_fails {good : Bool} (h : s.tag.backoff = true ∨ good = false) : authAttempt good s = authFails 0x0F s := by
  rcases h with h | h
  · exact if_pos h
  · subst h
    exact ite_self _

theorem authFails_logged (h : stewardRuns s = true) : authFails 0x0F s =
    logFault 0x90 11 (leBytes 2 (min 65535 (s.tag.authFail + 1))) { s with tag := { s.tag with
      backoff := true, secured := false, authFail := min 65535 (s.tag.authFail + 1), answer := some (some 0x0F, []) } } := if_pos h

theorem authFails_unseen (h : stewardRuns s = false) : authFails 0x0F s =
    { s with tag := { s.tag with backoff := true, secured := false, answer := some (some 0x0F, []) } } := if_neg (by simp [h])

include hfield

theorem authenticate_field {key : BitVec 128} : exec (.tagAuthenticate key) s =
    .next (authAttempt (decide (key.toNat = tagKey s ∧ key.toNat ≠ 0)) s) := congrArg Host.Outcome.next (inField_on _ hfield)

theorem securePwd_field {m : Byte} {pwd : Word} : exec (.securePwd m pwd) s = .next (
    if m = Config.mfr then authAttempt (decide (pwd.toNat = tagPassword s ∧ pwd.toNat ≠ 0)) s else s) :=
  congrArg Host.Outcome.next (inField_on _ hfield)

theorem authenticate_good {key : BitVec 128} (hback : s.tag.backoff = false) (hkey : key.toNat = s.dst.nameplate.num 7940 16) (h0 : key.toNat ≠ 0) :
    exec (.tagAuthenticate key) s = .next { s with tag := { s.tag with secured := true, answer := some (none, []) } } := by
  rw [authenticate_field hfield, decide_eq_true (p := key.toNat = tagKey s ∧ key.toNat ≠ 0) ⟨hkey, h0⟩]
  exact congrArg _ (authAttempt_good hback)

theorem securePwd_good {pwd : Word} (hback : s.tag.backoff = false) (hpwd : pwd.toNat = s.dst.nameplate.num 7936 4) (h0 : pwd.toNat ≠ 0) :
    exec (.securePwd Config.mfr pwd) s = .next { s with tag := { s.tag with secured := true, answer := some (none, []) } } := by
  rw [securePwd_field hfield, if_pos rfl, decide_eq_true (p := pwd.toNat = tagPassword s ∧ pwd.toNat ≠ 0) ⟨hpwd, h0⟩]
  exact congrArg _ (authAttempt_good hback)

theorem authenticate_fails {key : BitVec 128} (h : s.tag.backoff = true ∨ key.toNat ≠ s.dst.nameplate.num 7940 16 ∨ key.toNat = 0) :
    exec (.tagAuthenticate key) s = .next (authFails 0x0F s) := by
  rw [authenticate_field hfield]
  refine congrArg _ (authAttempt_fails (h.imp_right fun h => decide_eq_false ?_))
  rintro ⟨hkey, h0⟩
  exact h.elim (fun h => h hkey) h0

theorem securePwd_fails {pwd : Word} (h : s.tag.backoff = true ∨ pwd.toNat ≠ s.dst.nameplate.num 7936 4 ∨ pwd.toNat = 0) :
    exec (.securePwd Config.mfr pwd) s = .next (authFails 0x0F s) := by
  rw [securePwd_field hfield, if_pos rfl]
  refine congrArg _ (authAttempt_fails (h.imp_right fun h => decide_eq_false ?_))
  rintro ⟨hpwd, h0⟩
  exact h.elim (fun h => h hpwd) h0

end

/-- Another manufacturer's password is not for this tag. -/
theorem securePwd_other {s : State} {m : Byte} {pwd : Word} (hm : m ≠ Config.mfr) : exec (.securePwd m pwd) s = .next s := by
  cases hfield : s.tag.field with
  | true => rw [securePwd_field hfield, if_neg hm]
  | false => exact congrArg Host.Outcome.next (inField_off _ hfield)

theorem unknownCommand_field {s : State} {c : Byte} (hfield : s.tag.field = true) :
    exec (.tagUnknownCommand c) s = .next (if tagServed.contains c.toNat then s else tagError 0x01 s) :=
  congrArg Host.Outcome.next (inField_on _ hfield)

theorem unknownCommand_served {s : State} {c : Byte} (h : c.toNat ∈ tagServed) : exec (.tagUnknownCommand c) s = .next s := by
  cases hfield : s.tag.field with
  | true => rw [unknownCommand_field hfield, if_pos (List.contains_iff_mem.mpr h)]
  | false => exact congrArg Host.Outcome.next (inField_off _ hfield)

/-- Settles O55, clause by clause: reads, the acknowledgement write, authentication. -/
theorem tagAccessCommands : Obligations.TagAccessCommands := by
  unfold Obligations.TagAccessCommands
  refine ⟨?read, ?refused, fun s blocks n => blockBytes_updating, ?reads, ?refuseds, ?write, ?writeOpen, ?writeDead, ?writeOther,
    fun s key hfield => authenticate_good hfield, fun s pwd hfield => securePwd_good hfield, ?fails, ?unseen, fun s m pwd => securePwd_other,
    ?unknown, fun s c h => unknownCommand_served h⟩
  case read =>
    intro s n hfield h
    refine congrArg _ ((inField_on _ hfield).trans ((tagRead_allowed fun i hi => ?_).trans ?_))
    · obtain rfl := Nat.lt_one_iff.mp hi
      exact h
    · simp
  case refused =>
    exact fun s n hfield h40 hack h => congrArg _ ((inField_on _ hfield).trans (tagRead_refused (i := 0) (by decide) h40 hack h))
  case reads =>
    exact fun s n k hfield h => congrArg _ ((inField_on _ hfield).trans (tagRead_allowed h))
  case refuseds =>
    exact fun s n k i hfield hi h40 hack h => congrArg _ ((inField_on _ hfield).trans (tagRead_refused hi h40 hack h))
  case write =>
    exact fun s d hfield hsecured hrail => congrArg _ ((inField_on _ hfield).trans (tagWrite_secured hsecured hrail))
  case writeOpen =>
    exact fun s d hfield hsecured => congrArg _ ((inField_on _ hfield).trans (tagWrite_open hsecured))
  case writeDead =>
    exact fun s d hfield hsecured hrail => congrArg _ ((inField_on _ hfield).trans (tagWrite_noSupply hsecured hrail))
  case writeOther =>
    exact fun s n d hfield hn => congrArg Host.Outcome.next ((inField_on _ hfield).trans (tagWrite_other hn))
  case fails =>
    intro s key pwd hfield hruns
    rw [← authFails_logged hruns]
    exact ⟨authenticate_fails hfield, securePwd_fails hfield⟩
  case unseen =>
    intro s key hfield hruns h
    rw [← authFails_unseen hruns]
    exact authenticate_fails hfield h
  case unknown =>
    intro s c hfield h
    have hno : ¬ tagServed.contains c.toNat = true := fun hc => h (List.contains_iff_mem.mp hc)
    rw [unknownCommand_field hfield, if_neg hno]
    rfl

end Sys2Proof.Machine
end

section
/-!
The sequence program: its instructions, errors and halts (O56).
-/

set_option Elab.async false

namespace Sys2Proof.Machine

section

variable {s : State} {w0 w1 : Word} {n : Nat}

/-! ### When the sequencer does not fetch -/

theorem rovProgram_idle (h : rovFetches s = false) : exec .rovPlay s = .next s ∧ exec .rovJump s = .next s ∧ exec .rovLoop s = .next s ∧
    exec .rovEndl s = .next s ∧ exec .rovCall s = .next s ∧ exec .rovRet s = .next s ∧ exec .rovWaitr s = .next s ∧
    exec .rovAstart s = .next s ∧ exec .rovAstop s = .next s ∧ exec .rovEvt s = .next s ∧ exec .rovHalt s = .next s ∧
    exec .rovBadop s = .next s := by
  have hrun : ∀ op f, Host.Outcome.next (rovRun op f s) = (.next s : Host.Outcome State Fault Refusal) := fun op f => congrArg _ (rovRun_not h)
  exact ⟨hrun _ _, hrun _ _, hrun _ _, hrun _ _, hrun _ _, hrun _ _, hrun _ _, hrun _ _, hrun _ _, hrun _ _, hrun _ _, if_neg (by simp [h])⟩

/-! ### Instructions -/

/-- A sequencer that fetches waits for no tick. -/
theorem waitr_of_fetches (hf : rovFetches s = true) : s.rov.waitr = none := by
  simp only [rovFetches, Bool.and_eq_true, Option.isNone_iff_eq_none] at hf
  exact hf.1.2

section

variable (hf : rovFetches s = true) (hw0 : w0 = rovW0 s) (hw1 : w1 = rovW1 s) (hlegal : rovLegal w0 w1 = true)

include hf hw0 hw1 hlegal

/-- A legal instruction that the sequencer fetches runs. -/
theorem rovRun_legal {op : Nat} {f : Word → Word → State → State} (hop : bitsOf w0 26 6 = op) :
    Host.Outcome.next (rovRun op f s) = (.next (f w0 w1 s) : Host.Outcome State Fault Refusal) := by
  subst hw0 hw1
  exact congrArg _ (rovRun_ready hf hlegal hop)

variable (hn : n = (s.rov.pc + 8) % 2 ^ 22)

include hn

theorem rovPlay_eq (hop : bitsOf w0 26 6 = 1) : exec .rovPlay s = .next { s with rov := { s.rov with
    play := some { next := bitsOf w0 0 22, left := bitsOf w1 0 20 + 1, release := bitOf w0 25 }, pc := n } } := by
  subst hn
  exact rovRun_legal hf hw0 hw1 hlegal hop

omit hn in
theorem rovJump_eq (hop : bitsOf w0 26 6 = 2) : exec .rovJump s = .next { s with rov := { s.rov with pc := bitsOf w0 0 22 } } := by
  have hpc : patAddr (rovAddr w0) = bitsOf w0 0 22 := Nat.mod_eq_of_lt (bitsOf_lt w0 0 22)
  rw [← hpc]
  exact rovRun_legal hf hw0 hw1 hlegal hop

theorem rovLoop_opens (hop : bitsOf w0 26 6 = 3) (hroom : s.rov.loops.length < 8) : exec .rovLoop s = .next { s with rov := { s.rov with
    loops := { body := n, left := bitsOf w1 0 20 } :: s.rov.loops, pc := n } } := by
  subst hn
  exact (rovRun_legal hf hw0 hw1 hlegal hop).trans (congrArg _ (if_pos hroom))

omit hn in
theorem rovLoop_ninth (hop : bitsOf w0 26 6 = 3) (hfull : 8 ≤ s.rov.loops.length) : exec .rovLoop s = .next (rovFail 3 s) :=
  (rovRun_legal hf hw0 hw1 hlegal hop).trans (congrArg _ (if_neg (Nat.not_lt.mpr hfull)))

omit hn in
theorem rovEndl_none (hop : bitsOf w0 26 6 = 4) (hnone : s.rov.loops = []) : exec .rovEndl s = .next (rovFail 3 s) := by
  refine (rovRun_legal hf hw0 hw1 hlegal hop).trans (congrArg _ ?_)
  rw [rovEndlAct, hnone]

theorem rovEndl_loop {l : RLoop} {rest : List RLoop} (hop : bitsOf w0 26 6 = 4) (hl : s.rov.loops = l :: rest) :
    exec .rovEndl s = .next { s with rov := { s.rov with
      loops := if l.left = 0 then rest else { l with left := l.left - 1 } :: rest, pc := if l.left = 0 then n else l.body % 2 ^ 22 } } := by
  subst hn
  refine (rovRun_legal hf hw0 hw1 hlegal hop).trans (congrArg _ ?_)
  rw [rovEndlAct, hl]
  dsimp only
  split
  · rfl
  · rfl

theorem rovCall_pushes (hop : bitsOf w0 26 6 = 5) (hroom : s.rov.stack.length < 8) : exec .rovCall s = .next { s with rov := { s.rov with
    stack := n :: s.rov.stack, pc := bitsOf w0 0 22 } } := by
  have hpc : patAddr (rovAddr w0) = bitsOf w0 0 22 := Nat.mod_eq_of_lt (bitsOf_lt w0 0 22)
  subst hn
  rw [← hpc]
  exact (rovRun_legal hf hw0 hw1 hlegal hop).trans (congrArg _ (if_pos hroom))

omit hn in
theorem rovCall_full (hop : bitsOf w0 26 6 = 5) (hfull : 8 ≤ s.rov.stack.length) : exec .rovCall s = .next (rovFail 4 s) :=
  (rovRun_legal hf hw0 hw1 hlegal hop).trans (congrArg _ (if_neg (Nat.not_lt.mpr hfull)))

omit hn in
theorem rovRet_none (hop : bitsOf w0 26 6 = 6) (hnone : s.rov.stack = []) : exec .rovRet s = .next (rovFail 4 s) := by
  refine (rovRun_legal hf hw0 hw1 hlegal hop).trans (congrArg _ ?_)
  rw [rovRetAct, hnone]

omit hn in
theorem rovRet_pops {a : Nat} {rest : List Nat} (hop : bitsOf w0 26 6 = 6) (hl : s.rov.stack = a :: rest) :
    exec .rovRet s = .next { s with rov := { s.rov with stack := rest, pc := a % 2 ^ 22 } } := by
  refine (rovRun_legal hf hw0 hw1 hlegal hop).trans (congrArg _ ?_)
  rw [rovRetAct, hl]
  rfl

theorem rovWaitr_eq (hop : bitsOf w0 26 6 = 7) : exec .rovWaitr s = .next { s with rov := { s.rov with
    pc := n, waitr := if (w1 - s.ply.reel.setWidth 32).toNat = 0 ∨ 2 ^ 31 < (w1 - s.ply.reel.setWidth 32).toNat then none else some w1 } } := by
  have hnone := waitr_of_fetches hf
  subst hn
  refine (rovRun_legal hf hw0 hw1 hlegal hop).trans (congrArg _ ?_)
  by_cases hpast : waitrAhead s w1 = 0 ∨ 2 ^ 31 < waitrAhead s w1
  · have hpast' : (w1 - s.ply.reel.setWidth 32).toNat = 0 ∨ 2 ^ 31 < (w1 - s.ply.reel.setWidth 32).toNat := hpast
    rw [rovWaitrAct, if_pos hpast, if_pos hpast', ← hnone]
    rfl
  · have hpast' : ¬ ((w1 - s.ply.reel.setWidth 32).toNat = 0 ∨ 2 ^ 31 < (w1 - s.ply.reel.setWidth 32).toNat) := hpast
    rw [rovWaitrAct, if_neg hpast, if_neg hpast']
    rfl

theorem rovEvt_eq (hop : bitsOf w0 26 6 = 10) :
    exec .rovEvt s = .next { (tinEvents (bitsOf w1 0 8) 1 s) with rov := { s.rov with pc := n } } := by
  have hrov : (tinEvents (bitsOf w1 0 8) 1 s).rov = s.rov :=
    Touches.same_rov (.tinEvents (.refl { regs := true, sys := true, stw := true, whl := true } s)) rfl
  subst hn
  refine (rovRun_legal hf hw0 hw1 hlegal hop).trans (congrArg _ ?_)
  rw [← hrov]
  rfl

omit hn in
theorem rovHalt_eq (hop : bitsOf w0 26 6 = 11) : exec .rovHalt s = .next { s with rov := { s.rov with stopping := some false } } := by
  have hrunning : s.rov.running = true := by
    simp only [rovFetches, Bool.and_eq_true] at hf
    exact hf.1.1.1.1.1
  exact (rovRun_legal hf hw0 hw1 hlegal hop).trans (congrArg _ (if_pos hrunning))

end

/-! ### Errors and halts -/

theorem rovFlag_eq (b : Nat) (s : State) : ∃ t : State, rovFlag b s = { t with stw := { s.stw with ipend := s.stw.ipend ||| 0x2000 } } ∧
    t.regs = setReg s.regs 0x400C0000 (s.rd 0x400C0000 ||| BitVec.ofNat 32 (2 ^ b)) ∧ t = { s with regs := t.regs, sys := t.sys } := by
  rw [rovFlag]
  split
  · exact ⟨s.setBits rovStat (BitVec.ofNat 32 (2 ^ b)), rfl, rfl, rfl⟩
  · exact ⟨logFault 0xA0 12 [BitVec.ofNat 8 (2 ^ b)] (s.setBits rovStat (BitVec.ofNat 32 (2 ^ b))), rfl, rfl, rfl⟩

theorem rovFail_eq (b : Nat) (s : State) : (s.rov.lastVec = none → rovFail b s = rovFlag b (rovHold s)) ∧
    (∀ v, s.rov.lastVec = some v → rovFail b s = rovFlag b { s with rov := { s.rov with failed := true } }) := by
  refine ⟨fun h => ?_, fun v h => ?_⟩
  · rw [rovFail, h]
    rfl
  · rw [rovFail, h]
    rfl

/-- A sum of the powers of two whose places `p` names has those bits. -/
theorem testBit_foldl_two_pow (p : Nat → Prop) [DecidablePred p] (n : Nat) :
    (List.range n).foldl (fun m l => if p l then m + 2 ^ l else m) 0 < 2 ^ n ∧
    ∀ l < n, ((List.range n).foldl (fun m l => if p l then m + 2 ^ l else m) 0).testBit l = decide (p l) := by
  induction n with
  | zero => exact ⟨Nat.one_pos, fun l h => absurd h (Nat.not_lt_zero l)⟩
  | succ n ih =>
    obtain ⟨hlt, hbits⟩ := ih
    rw [List.range_succ, List.foldl_append, List.foldl_cons, List.foldl_nil]
    generalize (List.range n).foldl (fun m l => if p l then m + 2 ^ l else m) 0 = x at hlt hbits
    have htop : x.testBit n = false := Nat.testBit_lt_two_pow hlt
    refine ⟨?_, fun l hl => ?_⟩
    · rw [Nat.pow_succ]
      split
      · omega
      · omega
    · rcases Nat.lt_succ_iff_lt_or_eq.mp hl with hl | rfl
      · split
        · rw [Nat.add_comm, Nat.testBit_two_pow_add_gt hl, hbits l hl]
        · exact hbits l hl
      · split
        · next hp => rw [Nat.add_comm, Nat.testBit_two_pow_add_eq, htop, decide_eq_true hp]; rfl
        · next hp => rw [htop, decide_eq_false hp]

/-- The lanes' idle bits, as a byte. -/
theorem getLsbD_foldl_two_pow (p : Nat → Prop) [DecidablePred p] {l : Nat} (hl : l < 8) :
    (BitVec.ofNat 8 ((List.range 8).foldl (fun m l => if p l then m + 2 ^ l else m) 0)).getLsbD l = decide (p l) := by
  rw [BitVec.getLsbD_ofNat, decide_eq_true hl, Bool.true_and]
  exact (testBit_foldl_two_pow p 8).2 l hl

theorem rovStopIdle_eq (s : State) : ∃ r, rovStopIdle s = { s with rov := r } ∧ r = { (rovHold s).rov with
      lane := r.lane, laneOe := r.laneOe, ao := r.ao, edges := [], oeEdges := [] } ∧
    ∀ l < 8, r.lane.getLsbD l = decide (s.fld 0x400C0020 (4 * l) 2 = 1) ∧ r.laneOe.getLsbD l = decide (s.fld 0x400C0020 (4 * l) 2 < 2) :=
  ⟨_, rfl, rfl, fun _ hl => ⟨getLsbD_foldl_two_pow (fun l => laneIdle s l = 1) hl, getLsbD_foldl_two_pow (fun l => laneIdle s l < 2) hl⟩⟩

theorem waitrExpiry_due {b : Word} (hrun : s.rov.running = true) (hb : s.rov.waitr = some b) : exec .rovWaitrExpiry s = .next
    { (reachTick (s.ply.reel + BitVec.ofNat 64 (b - s.ply.reel.setWidth 32).toNat) s) with rov := { s.rov with waitr := none } } := by
  show execRovWaitrExpiry s = _
  rw [execRovWaitrExpiry, hb]
  refine (if_pos hrun).trans (congrArg _ ?_)
  rw [setRov, Touches.same_rov (.reachTick (.refl { ply := true } s)) rfl]
  rfl

theorem waitrExpiry_none (h : s.rov.running = false ∨ s.rov.waitr = none) : exec .rovWaitrExpiry s = .next s := by
  show execRovWaitrExpiry s = _
  rw [execRovWaitrExpiry]
  split
  · next hb =>
    rcases h with h | h
    · exact if_neg (by simp [h])
    · exact absurd (hb.symm.trans h) nofun
  · rfl

end

/-- Settles O56, clause by clause: each instruction, an error, a halt, the tick of WAITR. -/
theorem rovingProgramCommands : Obligations.RovingProgramCommands := by
  unfold Obligations.RovingProgramCommands
  refine ⟨fun s h => rovProgram_idle h, ?run, ?bad, fun s h => if_neg (by simp [h]), fun s b _ => rovFlag_eq b s, fun s b => rovFail_eq b s,
    fun s => rfl, rovStopIdle_eq, fun s b => waitrExpiry_due, fun s => waitrExpiry_none⟩
  case run =>
    intro s w0 w1 n hf hw0 hw1 hlegal hn
    exact ⟨rovPlay_eq hf hw0 hw1 hlegal hn, rovJump_eq hf hw0 hw1 hlegal, rovLoop_opens hf hw0 hw1 hlegal hn, rovLoop_ninth hf hw0 hw1 hlegal,
      rovEndl_none hf hw0 hw1 hlegal, fun l rest => rovEndl_loop hf hw0 hw1 hlegal hn, rovCall_pushes hf hw0 hw1 hlegal hn,
      rovCall_full hf hw0 hw1 hlegal, rovRet_none hf hw0 hw1 hlegal, fun a rest => rovRet_pops hf hw0 hw1 hlegal,
      rovWaitr_eq hf hw0 hw1 hlegal hn, rovEvt_eq hf hw0 hw1 hlegal hn, rovHalt_eq hf hw0 hw1 hlegal⟩
  case bad =>
    exact fun s hf hbad => if_pos (by rw [hf, hbad]; rfl)

end Sys2Proof.Machine
end

section
/-!
Vector cycles, analog streams, the start tick and the pattern port (O57).
-/

set_option Elab.async false

namespace Sys2Proof.Machine

section

variable {s : State}

/-! ### Boundaries -/

theorem vectorCycle_idle (h : s.rov.running = false) : exec .vectorCycle s = .next s := if_neg (by simp [h])

theorem reachTick_rov (a : Tick) (s : State) : (reachTick a s).rov = s.rov := Touches.same_rov (.reachTick (.refl { ply := true } s)) rfl

section

variable {u : State} {now : Nat} (hrun : s.rov.running = true) (hu : u = reachTick (BitVec.ofNat 64 (s.rov.next / 16)) s)
  (hnow : now = max s.rov.next (s.ply.reel.toNat * 16))

include hrun hu hnow

theorem vectorCycle_runs : exec .vectorCycle s = .next (boundaryOrHalt now u) := by
  subst hu hnow
  exact if_pos hrun

theorem vectorCycle_failed (h : s.rov.failed = true) : exec .vectorCycle s = .next (rovHold u) := by
  have hrov : u.rov = s.rov := hu ▸ reachTick_rov _ s
  rw [vectorCycle_runs hrun hu hnow, boundaryOrHalt, if_pos (hrov ▸ h)]

theorem vectorCycle_good (h : s.rov.failed = false) :
    (s.rov.stopping = some false → exec .vectorCycle s = .next (rovStopIdle u)) ∧
    (s.rov.stopping = some true → exec .vectorCycle s = .next (if (boundary now u).rov.running then rovStopIdle u else boundary now u)) ∧
    (s.rov.stopping = none → exec .vectorCycle s = .next (boundary now u)) := by
  have hrov : u.rov = s.rov := hu ▸ reachTick_rov _ s
  rw [vectorCycle_runs hrun hu hnow, boundaryOrHalt, hrov, if_neg (by simp [h])]
  refine ⟨fun hstop => ?_, fun hstop => ?_, fun hstop => ?_⟩
  · rw [hstop]
  · rw [hstop]
  · rw [hstop]

end

/-! ### The vector that begins -/

section

variable {p : RPlay} {now : Nat}

theorem readyInTime_not {a : Nat} (h : s.rov.ready.getLsbD (a / 131072 % 32) = false) : readyInTime s a now = false := by
  have hready : hankReady s a = false := h
  rw [readyInTime, hready, Bool.false_and]

/-- A channel with no stream needs no sample. -/
theorem streamFed_none (hstream : s.rov.stream = []) (hnext : s.rov.strmNext = []) (c : Nat) : streamFed s c = true := by
  rw [streamFed, streamAddrs, streamOf, streamNext, hstream, hnext]
  rfl

theorem boundary_starved (hplay : s.rov.play = some p) (h : s.rov.ready.getLsbD (p.next / 131072 % 32) = false) :
    boundary now s = rovError 0 s := by
  rw [boundary, hplay]
  exact if_pos (by rw [readyInTime_not h]; rfl)

section

variable (hplay : s.rov.play = some p) (htime : readyInTime s p.next now = true) (hstream : s.rov.stream = []) (hnext : s.rov.strmNext = [])

include hplay htime hstream hnext

theorem boundary_fed : boundary now s = if badVec (patWord s p.next) then rovError 2 s else playOn p (vecCycle (patWord s p.next) now s) := by
  rw [boundary, hplay]
  refine if_neg ?_
  rw [htime, streamFed_none hstream hnext, streamFed_none hstream hnext]
  exact Bool.false_ne_true

theorem boundary_malformed (h : patWord s p.next &&& 0x0F00FF00 ≠ 0) : boundary now s = rovError 2 s :=
  (boundary_fed hplay htime hstream hnext).trans (if_pos (decide_eq_true h))

theorem boundary_vector (h : patWord s p.next &&& 0x0F00FF00 = 0) : boundary now s = playOn p (vecCycle (patWord s p.next) now s) :=
  (boundary_fed hplay htime hstream hnext).trans (if_neg (by rw [badVec, decide_eq_false (fun hne => hne h)]; exact Bool.false_ne_true))

end

/-- No stream waits for the cycle. -/
theorem streamBegin_none {c : Nat} (h : s.rov.strmNext = []) : streamBegin now c s = s := by
  rw [streamBegin, streamNext, h]
  rfl

theorem streamsBegin_none (h : s.rov.strmNext = []) : streamBegin now 1 (streamBegin now 0 s) = s := by
  rw [streamBegin_none h, streamBegin_none h]

theorem vecCycle_eq {v : Word} (h : s.rov.strmNext = []) : vecCycle v now s = { s with rov := { s.rov with
    edges := (List.range 8).flatMap (laneEdges s v), oeEdges := driveEdges s v
    lane := lanesAfter ((List.range 8).flatMap (laneEdges s v)) s.rov.lane, laneOe := BitVec.ofNat 8 (bitsOf v 16 8), lastVec := some v
    vcount := s.rov.vcount + 1, began := now, next := now + tsPeriod s (bitsOf v 28 4) } } := by
  refine streamsBegin_none ?_
  exact h

theorem playOn_eq (p : RPlay) (s : State) : ∃ m, playOn p s = { s with rov := { s.rov with
    ready := m, play := if p.left ≤ 1 then none else some { p with next := (p.next + 4) % 2 ^ 22, left := p.left - 1 } } } ∧
    (p.release = false → m = s.rov.ready) :=
  ⟨_, rfl, fun h => if_neg (by simp [h])⟩

theorem boundary_waits {b v : Word} (hplay : s.rov.play = none) (hwait : s.rov.waitr = some b) (hlast : s.rov.lastVec = some v) :
    boundary now s = { s with rov := { s.rov with edges := [], oeEdges := [], began := now, next := now + tsPeriod s (bitsOf v 28 4) } } := by
  rw [boundary, hplay, hwait, hlast]
  rfl

/-- The first vector of a program that plays, from a hank that is READY. -/
theorem vectorCycle_first {v : Word} (hrun : s.rov.running = true) (hfailed : s.rov.failed = false) (hstop : s.rov.stopping = none)
    (hplay : s.rov.play = some p) (hstream : s.rov.stream = []) (hnext : s.rov.strmNext = []) (hlast : s.rov.lastVec = none)
    (hready : s.rov.ready.getLsbD (p.next / 131072 % 32) = true) (hv : v = patWord s p.next)
    (hnow : now = max s.rov.next (s.ply.reel.toNat * 16)) (hgood : v &&& 0x0F00FF00 = 0) : ∃ r : Rov, exec .vectorCycle s = .next
      { (reachTick (BitVec.ofNat 64 (s.rov.next / 16)) s) with rov := { s.rov with
        vcount := s.rov.vcount + 1, lastVec := some v, laneOe := BitVec.ofNat 8 (bitsOf v 16 8), edges := (List.range 8).flatMap (laneEdges s v)
        oeEdges := driveEdges s v, began := now, next := now + tsPeriod s (bitsOf v 28 4), lane := r.lane, ready := r.ready
        play := if p.left ≤ 1 then none else some { p with next := (p.next + 4) % 2 ^ 22, left := p.left - 1 } } } ∧
      (p.release = false → r.ready = s.rov.ready) := by
  obtain ⟨y, hy⟩ : ∃ y, reachTick (BitVec.ofNat 64 (s.rov.next / 16)) s = { s with ply := y } :=
    ⟨_, Touches.reachTick (.refl { ply := true } s)⟩
  have htime : readyInTime s p.next now = true := by
    have hhank : hankReady s p.next = true := hready
    rw [readyInTime, hhank, hlast]
    rfl
  subst hv
  obtain ⟨hidle, hhalt, hgo⟩ := vectorCycle_good hrun hy.symm hnow hfailed
  have hbegin : boundary now { s with ply := y } = playOn p (vecCycle (patWord s p.next) now { s with ply := y }) :=
    boundary_vector (s := { s with ply := y }) hplay htime hstream hnext hgood
  have hcycle := vecCycle_eq (s := { s with ply := y }) (v := patWord s p.next) (now := now) hnext
  obtain ⟨m, hon, hm⟩ := playOn_eq p (vecCycle (patWord s p.next) now { s with ply := y })
  rw [hcycle] at hm hon
  refine ⟨{ s.rov with ready := m, lane := lanesAfter ((List.range 8).flatMap (laneEdges s (patWord s p.next))) s.rov.lane }, ?_, hm⟩
  rw [hgo hstop, hbegin, hcycle, hon, hy]
  rfl

end

/-! ### Streams -/

section

variable {w0 w1 : Word} {n c : Nat} (hf : rovFetches s = true) (hw0 : w0 = rovW0 s) (hw1 : w1 = rovW1 s) (hlegal : rovLegal w0 w1 = true)
  (hn : n = (s.rov.pc + 8) % 2 ^ 22) (hc : c = bitsOf w0 25 1)

include hf hw0 hw1 hlegal hn hc

theorem rovAstart_eq (hop : bitsOf w0 26 6 = 8) : exec .rovAstart s = .next { s with rov := { s.rov with
    strmNext := Tab.set (fun _ => none) s.rov.strmNext c (some { addr := bitsOf w0 0 22, count := bitsOf w1 0 24 + 1, loop := bitOf w0 24 })
    pc := n } } := by
  subst hn hc
  exact rovRun_legal hf hw0 hw1 hlegal hop

theorem rovAstop_eq (hop : bitsOf w0 26 6 = 9) (hnone : streamOf s c = none) : exec .rovAstop s = .next { s with rov := { s.rov with
    strmNext := Tab.set (fun _ => none) s.rov.strmNext c none, pc := n } } := by
  subst hn hc
  have hnone' : streamOf s (rovChan w0) = none := hnone
  have hhalt : streamHalt (rovChan w0) s = setRov (fun r => { r with strmNext := Tab.set (fun _ => none) r.strmNext (rovChan w0) none }) s := by
    rw [streamHalt, hnone']
  refine (rovRun_legal hf hw0 hw1 hlegal hop).trans ?_
  rw [hhalt]
  rfl

end

theorem streamEnd_plays {c : Fin 2} {x : RStream} {h : List Nat} (hx : streamOf s c = some x) (hrun : s.rov.running = true)
    (hloop : x.loop = false) (hh : h = streamTaps s c x (x.count - 1)) : exec (.analogStreamEnd c) s = .next { s with rov := { s.rov with
      stream := Tab.set (fun _ => none) s.rov.stream c none, aoHist := Tab.set (fun _ => []) s.rov.aoHist c h
      ao := Tab.set (fun _ => none) s.rov.ao c (some (Config.resampled h 0)) } } := by
  subst hh
  show execAnalogStreamEnd c s = _
  rw [execAnalogStreamEnd, hx]
  exact if_pos (by rw [hrun, hloop]; rfl)

theorem streamEnd_none {c : Fin 2} (h : streamOf s c = none) : exec (.analogStreamEnd c) s = .next s := by
  show execAnalogStreamEnd c s = _
  rw [execAnalogStreamEnd, h]

/-! ### Start and the pattern port -/

theorem startTick_due {u : State} {a : Tick} (ha : s.rov.startAt = some a) (hu : u = reachTick a s) :
    exec .rovStartTick s = .next { (u.setFld 0x400C0000 0 7 0) with
      rov := { s.rov with
        running := true, startAt := none, failed := false, pc := s.rov.pc % 2 ^ 22, loops := [], stack := [], play := none, waitr := none
        lastVec := none, vcount := 0, stream := [], strmNext := [], began := u.ply.reel.toNat * 16, next := u.ply.reel.toNat * 16 } } := by
  have hrov : u.rov = s.rov := hu ▸ reachTick_rov a s
  show execRovStartTick s = _
  rw [execRovStartTick, ha, ← hrov]
  dsimp only
  rw [← hu]
  rfl

theorem startTick_none (h : s.rov.startAt = none) : exec .rovStartTick s = .next s := by
  show execRovStartTick s = _
  rw [execRovStartTick, h]

theorem hdata_write {a : Nat} {u : State} {v : Word} (ha : a = s.fld 0x400C0030 0 22) (hu : u = s.setFld 0x400C0030 0 22 (a + 4)) :
    exec (.rovHdataAccess (some v)) s = .next (if s.rov.ready.getLsbD (a / 131072 % 32) then rovFlag 5 u else { u with rov := { s.rov with
      mem := Mem.write s.rov.mem (a / 4 * 4) (leBytes 4 v.toNat) } }) := by
  have hhank : hankReady s (a / 4 * 4) = s.rov.ready.getLsbD (a / 131072 % 32) := by
    have hdiv : a / 4 * 4 / 131072 = a / 131072 := by omega
    rw [hankReady, hankOf, hdiv]
  rw [← hhank]
  subst hu ha
  rfl

end

/-- Settles O57, clause by clause: boundaries, vectors, streams, the start tick, the pattern port. -/
theorem rovingVectorCommands : Obligations.RovingVectorCommands := by
  unfold Obligations.RovingVectorCommands
  refine ⟨fun s => vectorCycle_idle, fun s u now hrun hu hnow => ⟨vectorCycle_failed hrun hu hnow, vectorCycle_good hrun hu hnow⟩, fun s p v now => vectorCycle_first, ?starves,
    fun s b v now => boundary_waits, fun s b => rfl, ?streams, fun s c x h => streamEnd_plays, fun s c => streamEnd_none,
    fun s u a => startTick_due, fun s => startTick_none, ?port⟩
  case starves =>
    exact fun s p now hplay => ⟨boundary_starved hplay, boundary_malformed hplay⟩
  case streams =>
    exact fun s w0 w1 n c hf hw0 hw1 hlegal hn hc => ⟨rovAstart_eq hf hw0 hw1 hlegal hn hc, rovAstop_eq hf hw0 hw1 hlegal hn hc⟩
  case port =>
    rintro s u a v ha hu
    refine ⟨?_, hdata_write ha hu⟩
    subst hu ha
    rfl

end Sys2Proof.Machine
end

section
/-!
Register writes and reads by the steward and the host (O9).
-/

set_option Elab.async false

namespace Sys2Proof.Machine

/-- A canonical table that takes the value it holds is as it was. -/
theorem Tab.set_get {α : Type} [DecidableEq α] {d : Nat → α} (i : Nat) : ∀ (t : Tab α) (lo : Option Nat), Tab.okFrom d lo t = true →
    Tab.set d t i (Tab.get d t i) = t
  | [], _, _ => if_pos rfl
  | (k, v) :: t, lo, h => by
    simp only [Tab.okFrom, Bool.and_eq_true, decide_eq_true_eq] at h
    obtain ⟨⟨-, hv⟩, ht⟩ := h
    have ih := Tab.set_get i t (some k) ht
    by_cases hik : i = k
    · subst hik
      simp [Tab.get, Tab.set, Tab.put, hv]
    · by_cases hlt : i < k
      · simp [Tab.get, Tab.set, Tab.erase, hik, hlt]
      · simp only [Tab.get, Tab.set, Tab.erase, Tab.put, if_neg hik, if_neg hlt] at ih ⊢
        rw [← apply_ite (List.cons (k, v)), ih]

theorem setReg_rd {s : State} (a : Nat) (h : RegsWf s) : setReg s.regs a (s.rd a) = s.regs := Tab.set_get a s.regs none h

section

variable {s : State}

/-! ### The steward's writes -/

theorem dataWord_leBytes (v : Word) : dataWord (leBytes 4 v.toNat) 0 = v := by
  have htake : ((leBytes 4 v.toNat).drop (4 * 0)).take 4 = leBytes 4 v.toNat := rfl
  rw [dataWord, htake, ofLE_leBytes_four, BitVec.ofNat_toNat, BitVec.setWidth_eq]

/-- Nothing is set in the access. -/
theorem setAfter_zero (a : Nat) (s : State) : setAfter a 0 s = s := if_pos (BitVec.zero_and)

theorem registerWrite_word {a : Nat} {bs : List Byte} {n : BitVec 64} (hruns : stewardRuns s = true) (ha : a % 4 = 0) :
    exec (.registerWrite .block a ⟨bs, n⟩) s = .next (setAfter a (setWord n 0) (busWrite a (dataWord bs 0) s)) := by
  have hdiv : a / 4 * 4 = a := by omega
  refine (if_pos hruns).trans ?_
  rw [hdiv]

theorem busWrite_plain {a : Nat} (v : Word) (h : a / 65536 ∈ [0x4000, 0x4001, 0x4004, 0x4006]) : busWrite a v s = s.regWrite a v := by
  simp only [List.mem_cons, List.not_mem_nil, or_false] at h
  rw [busWrite]
  rcases h with h | h | h | h
  · simp only [h]
  · simp only [h]
  · simp only [h]
  · simp only [h]

theorem registerWrite_plain {a : Nat} {bs : List Byte} (hruns : stewardRuns s = true) (h : a / 65536 ∈ [0x4000, 0x4001, 0x4004, 0x4006])
    (ha : a % 4 = 0) : exec (.registerWrite .block a ⟨bs, 0⟩) s = .next (s.regWrite a (dataWord bs 0)) := by
  rw [registerWrite_word hruns ha, busWrite_plain _ h]
  exact congrArg _ (setAfter_zero a _)

/-- An undefined offset takes no write. -/
theorem regWrite_undefined {a : Nat} (v : Word) (hwf : RegsWf s) (h : fieldsAt a = []) : s.regWrite a v = s := by
  rw [State.regWrite, h]
  exact congrArg (fun r => { s with regs := r }) (setReg_rd a hwf)

/-- What the hardware sets in the access stands after it. -/
theorem setAfter_set {a : Nat} {m : Word} (hwf : RegsWf s) : (setAfter a m s).rd a &&& (m &&& w1cMask a) = m &&& w1cMask a := by
  rw [setAfter]
  split
  · next h => rw [h]; exact BitVec.and_zero
  · rw [rd_setBits _ _ _ hwf, if_pos rfl]
    generalize m &&& w1cMask a = x
    ext i hi
    rw [BitVec.getElem_and, BitVec.getElem_or]
    cases x[i] <;> simp

/-! ### The host's writes -/

theorem bar0_hostReset (v : Word) (h : hostServes s = true) :
    exec (.registerWrite .bar0 0x48 ⟨leBytes 4 v.toNat, 0⟩) s = exec (.hostResetWrite v) s := by
  have hwrite : bar0Write 0x48 v s = hostReset v s := by
    have hreach : (spiSelected s && !spiReaches 0x48) = false := by
      rw [Bool.and_eq_false_iff]
      exact .inr rfl
    rw [bar0Write, hreach]
    rfl
  have hput : bar0Put 0x48 (leBytes 4 v.toNat) 0 s = setAfter (bar0Base + 0x48) 0 (bar0Write 0x48 (dataWord (leBytes 4 v.toNat) 0) s) := by
    rw [bar0Put, leBytes_length, if_neg (by decide), if_pos (by decide)]
    rfl
  have hexec : exec (.hostResetWrite v) s = .next (hostReset v s) := if_pos h
  refine (if_pos h).trans ?_
  rw [hexec, hput, dataWord_leBytes, setAfter_zero, hwrite]

theorem bar0_refused {a : Nat} {bs : List Byte} {n : BitVec 64} (h : hostServes s = true) (hplain : bar0Plain a bs.length = false)
    (hburst : bar0Burst a bs.length = false) : exec (.registerWrite .bar0 a ⟨bs, n⟩) s = .next s := by
  refine (if_pos h).trans (congrArg _ ?_)
  exact (if_neg (by simp [hburst])).trans (if_neg (by simp [hplain]))

theorem bar2_descriptor (v : Word) (h : pcieServes s = true) : exec (.registerWrite .bar2 0x1000 ⟨leBytes 4 v.toNat, 0⟩) s =
    .next { s with hl := { s.hl with desc := s.hl.desc.write 0x1000 (leBytes 4 v.toNat) } } := by
  have hspi : spiSelected s = false := by
    simp only [pcieServes, Bool.and_eq_true, Bool.not_eq_true'] at h
    exact h.1.1
  have hput : bar2Put 0x1000 (leBytes 4 v.toNat) 0 s = setAfter (bar2Base + 0x1000) 0 (bar2Write 0x1000 (dataWord (leBytes 4 v.toNat) 0) s) := by
    rw [bar2Put, leBytes_length]
    rfl
  refine (if_pos h).trans (congrArg _ ?_)
  rw [hput, setAfter_zero, dataWord_leBytes, bar2Write, hspi]
  rfl

/-! ### The steward's reads -/

theorem registerRead_word {a : Nat} {e : Bool} (hruns : stewardRuns s = true) (ha : a % 4 = 0) :
    exec (.rcFieldRead .block ⟨a, 4⟩ e) s = .next { (busRead a e s).2 with rdata := (busRead a e s).1 } := by
  have hdiv : a / 4 * 4 = a := by omega
  refine congrArg Host.Outcome.next ((if_pos hruns).trans ?_)
  rw [hdiv]

/-- No ply's seconds lie outside the plies' window. -/
theorem secloOf_none {a : Nat} (h : a / 65536 ≠ 0x4008) : secloOf a = none := by
  refine List.find?_eq_none.mpr fun k hk => ?_
  rw [List.mem_range] at hk
  rw [beq_iff_eq, plyBase]
  omega

/-- A register whose read has no other effect of its own. -/
def readsPlain (a : Nat) : Bool :=
  !(pairLows.contains a || (secloOf a).isSome) && decide (a ∉ [0x40020020, 0x400A0054, 0x400C0034, pnlQlvl]) &&
    decide (a / 65536 ∉ [0x4003, 0x400D])

theorem busRead_plain {a : Nat} {e : Bool} (h : readsPlain a = true) :
    busRead a e s = (plainValue s a, { s with regs := setReg s.regs a (readClears (fieldsAt a) (s.rd a) e) }) := by
  simp only [readsPlain, Bool.and_eq_true, Bool.not_eq_true', decide_eq_true_eq, List.mem_cons, List.not_mem_nil, or_false, not_or] at h
  obtain ⟨⟨hlow, hflog, hpop, hdata, hqlvl⟩, hfly, hmbx⟩ := h
  rw [busRead]
  dsimp only
  rw [hlow, if_neg Bool.false_ne_true, if_neg hflog, if_neg hpop, if_neg hdata, if_neg fun hf => hfly hf.1, if_neg hmbx, rcRead]
  exact if_neg hqlvl

theorem readsPlain_of {a : Nat} (h : a / 65536 ∈ [0x4000, 0x4001, 0x4002, 0x4004, 0x4006, 0x4009]) (hpair : a ∉ pairLows)
    (hflog : a ≠ 0x40020020) : readsPlain a = true := by
  have hply : a / 65536 ≠ 0x4008 := by
    simp only [List.mem_cons, List.not_mem_nil, or_false] at h
    omega
  simp only [List.mem_cons, List.not_mem_nil, or_false] at h
  simp only [readsPlain, secloOf_none hply, pnlQlvl, Bool.and_eq_true, Bool.not_eq_true', decide_eq_true_eq, List.mem_cons, List.not_mem_nil,
    or_false, not_or, Option.isSome_none, Bool.or_eq_false_iff, and_true]
  refine ⟨⟨by simpa using hpair, hflog, ?_, ?_, ?_⟩, ?_, ?_⟩
  · omega
  · omega
  · omega
  · omega
  · omega

theorem flogRead_eq (e : Bool) (hruns : stewardRuns s = true) : exec (.rcFieldRead .block ⟨0x40020020, 4⟩ e) s = exec .whlFlogRead s := by
  rw [registerRead_word hruns (by decide)]
  rfl

theorem qpopRead_eq (e : Bool) (hruns : stewardRuns s = true) : exec (.rcFieldRead .block ⟨0x400A0054, 4⟩ e) s = exec .pnlQpopRead s := by
  rw [registerRead_word hruns (by decide)]
  rfl

theorem qlvlRead_eq (e : Bool) (hruns : stewardRuns s = true) : exec (.rcFieldRead .block ⟨0x400A0050, 4⟩ e) s = .next { s with
    rdata := plainValue s 0x400A0050, pnl := { s.pnl with lost := if e then 1 else 0 } } := by
  rw [registerRead_word hruns (by decide)]
  rfl

/-! ### Latched pairs -/

theorem pairLow_aligned {a : Nat} (h : a ∈ pairLows) : a % 4 = 0 ∧ secloOf a = none ∧ isPairHigh (a + 4) = true ∧ (a + 4) % 4 = 0 ∧
    readsPlain (a + 4) = true := by
  revert a
  decide

theorem pairLow_latches {a : Nat} {e : Bool} (hruns : stewardRuns s = true) (h : a ∈ pairLows) : exec (.rcFieldRead .block ⟨a, 4⟩ e) s =
    .next { s with rdata := plainValue s a, latch := Tab.set (fun _ => none) s.latch (a + 4) (some (roBits s (a + 4))) } := by
  obtain ⟨ha, hseclo, -⟩ := pairLow_aligned h
  have hread : busRead a e s = pairRead a s := if_pos (by rw [List.contains_iff_mem.mpr h]; rfl)
  rw [registerRead_word hruns ha, hread, pairRead, hseclo]

theorem plainValue_latched {a : Nat} {v : Word} (hhigh : isPairHigh a = true) (hv : latched s a = some v) : plainValue s a = v := by
  rw [plainValue, hhigh, if_pos rfl, hv]

theorem pairHigh_reads {a : Nat} {v : Word} {e : Bool} (hruns : stewardRuns s = true) (h : a ∈ pairLows) (hv : latched s (a + 4) = some v) :
    ∃ t, exec (.rcFieldRead .block ⟨a + 4, 4⟩ e) s = .next t ∧ t.rdata = v ∧ t = { s with rdata := v, regs := t.regs } := by
  obtain ⟨-, -, hhigh, ha, hplain⟩ := pairLow_aligned h
  rw [registerRead_word hruns ha, busRead_plain hplain, plainValue_latched hhigh hv]
  exact ⟨_, rfl, rfl, rfl⟩

/-! ### The host's reads -/

theorem bar0Get_word {a : Nat} (hplain : bar0Plain a 4 = true) (htail : bar0Tail a = none) :
    bar0Get a 4 s = { s with rdata := bar0Value s a, rdataHi := 0 } := by
  have htail' : bar0Tail (a + 4 - 4) = none := htail
  refine (if_pos hplain).trans ?_
  rw [htail']
  rfl

theorem bar0Get_refused {a n : Nat} (hplain : bar0Plain a n = false) : bar0Get a n s = { s with rdata := 0, rdataHi := 0 } :=
  if_neg (by simp [hplain])

end

/-- Settles O9, clause by clause: writes and reads of block registers, BAR0 and BAR2, and the latched pairs. -/
theorem registerAccessCommands : Obligations.RegisterAccessCommands := by
  unfold Obligations.RegisterAccessCommands
  refine ⟨?write, ?undefined, ?setNow, ?vid, fun s a bs n h => if_neg (by simp [h]), fun s v h => bar0_hostReset v h,
    fun s a bs n h hplain hburst => bar0_refused h hplain hburst, fun s v h => bar2_descriptor v h, ?rc, fun s e => flogRead_eq e,
    fun s e => qpopRead_eq e, fun s e => qlvlRead_eq e, ?bar0, ?bar0Refused, ?bar2, fun s a => pairLow_latches (e := false),
    fun s a v e => pairHigh_reads, ?bar0Pair, ?bar2Pair⟩
  case write =>
    intro s a v hruns h ha
    rw [registerWrite_plain hruns h ha, dataWord_leBytes]
    rfl
  case undefined =>
    intro s a bs hruns hwf h ha hnone
    rw [registerWrite_plain hruns h ha, regWrite_undefined _ hwf hnone]
  case setNow =>
    intro s a bs n hruns ha hwf
    exact ⟨_, registerWrite_word hruns ha, setAfter_set ((Steady.busWrite (.refl s)).regs hwf)⟩
  case vid =>
    intro s v hruns
    rw [registerWrite_word hruns (by decide), dataWord_leBytes]
    exact congrArg _ (setAfter_zero _ _)
  case rc =>
    intro s a e hruns h ha hpair hflog
    rw [registerRead_word hruns ha, busRead_plain (readsPlain_of h hpair hflog)]
  case bar0 =>
    exact fun s a e h hplain htail => congrArg Host.Outcome.next ((if_pos h).trans (bar0Get_word hplain htail))
  case bar0Refused =>
    exact fun s a n e h hplain => congrArg Host.Outcome.next ((if_pos h).trans (bar0Get_refused hplain))
  case bar2 =>
    exact fun s a e h => congrArg Host.Outcome.next (if_pos h)
  case bar0Pair =>
    exact fun s a h hplain htail => congrArg Host.Outcome.next ((if_pos h).trans (bar0Get_word hplain htail))
  case bar2Pair =>
    exact fun s a h => congrArg Host.Outcome.next (if_pos h)

end Sys2Proof.Machine
end
